-- ==== Sys2Proof/Word.lean ====
section
/-! DEFINITION. The word types of the hub: 32-bit registers, bytes, and the type of a keyed map. -/

namespace Sys2Proof

/-- A register of the hub, or a parameter word: 32 bits (R125). -/
abbrev Word := BitVec 32

/-- One byte of a port, a record, a bundle or a command. -/
abbrev Byte := BitVec 8

/-- A keyed map as plain data: key and value pairs. Its canonical form and its operations are in Machine/Map.lean. -/
abbrev Map (α : Type) := List (Nat × α)

end Sys2Proof
end

