-- ==== Sys2Proof/Syntax.lean ====
section
/-! DEFINITION. The commands of the hub: one constructor per row of spec/opcode_table.json, with the operands that the
outside supplies: who accesses a register, what it writes, which port, channel or unit an event concerns, and the
values that arrive from pins, sensors, converters and supplies (log entry 2). -/

namespace Sys2Proof

/-- The requesters of R136. -/
inductive Requester where
  | window (n : Nat)
  | host
  | steward (t : Nat)
  | jtag
  | internal
  deriving DecidableEq, Repr

/-- What stopped the harvester's converter (R69, R70). -/
inductive HarvStop where
  | ovp
  | uvlo
  | ceiling
  deriving DecidableEq, Repr

/-- How the start of a boot goes: whether the oscillator starts (R57), and the ROM check of step 1 (R99). -/
inductive BootStart where
  | oscFailed
  | romFailed
  | good
  deriving DecidableEq, Repr

/-- The supply at step 6 of a boot (R99, R101, R516): `mv` is VSTORE, `peak` the highest VSTORE since it was last below
VWARN or since the reset, `words` the number of the step's ring words that stand before a reset may cut the boot. -/
structure BootSupply where
  mv : Nat
  peak : Nat
  words : Nat
  deriving DecidableEq, Repr

/-- A port, and the bytes that its transfer has moved when an event meets it (R195, R211). -/
structure PortBytes where
  port : Nat
  data : List Byte
  deriving DecidableEq, Repr

/-- The commands, in the order of the table. -/
inductive Instr where
  /-- VSTART_RISE (R65). -/
  | vstartRise
  /-- BOR (R65). -/
  | bor
  /-- NRST_LOW (R94). -/
  | nrstLow
  /-- NRST_RELEASE (R99). -/
  | nrstRelease
  /-- BOOT (R99). -/
  | boot (supply : BootSupply) (start : BootStart) (oscLock : Bool)
  /-- BOOT_ENERGY_RESUME (R101). -/
  | bootEnergyResume (supply : BootSupply) (oscLock : Bool)
  /-- HOST_RELEASE (R99). -/
  | hostRelease (time : Nat)
  /-- LOGBOOK_SCAN (R466). -/
  | logbookScan
  /-- SYNTH_LOCK (R44). -/
  | synthLock
  /-- VCORE_RAMP_DONE (R46). -/
  | vcoreRampDone
  /-- GEAR_SWITCH_DONE (R45). -/
  | gearSwitchDone
  /-- AMP_LOST (R57). -/
  | ampLost (startFailed : Bool)
  /-- LOCK_LOST (R58). -/
  | lockLost
  /-- LOCK_REGAINED (R59). -/
  | lockRegained
  /-- DIP_BEGIN (R78). -/
  | dipBegin (mv : Nat)
  /-- DIP_CONTINUE (R82). -/
  | dipContinue (mv : Nat)
  /-- DIP_END (R80). -/
  | dipEnd (mv : Nat)
  /-- DIP_SETTLED (R80). -/
  | dipSettled
  /-- VCHG_RISE (R89). -/
  | vchgRise
  /-- HARV_OVP (R70). -/
  | harvOvp
  /-- HARV_UVLO (R70). -/
  | harvUvlo
  /-- HARV_CEILING (R69). -/
  | harvCeiling
  /-- PWR_MEAS_UPDATE (R91). -/
  | pwrMeasUpdate (vstore vharv iharv : Nat)
  /-- VHOST_OFF (R73). -/
  | vhostOff (rq : Requester)
  /-- VHOST_ON (R73). -/
  | vhostOn (rq : Requester)
  /-- VHOST_SETTLE_END (R73). -/
  | vhostSettleEnd
  /-- VHOST_TRIP (R74). -/
  | vhostTrip
  /-- VHOST_CYCLE_OFF_END (R74). -/
  | vhostCycleOffEnd
  /-- VSENS_SWITCH_ON (R75). -/
  | vsensSwitchOn (rq : Requester) (n : Nat)
  /-- VSENS_RAMP_DONE (R75). -/
  | vsensRampDone (n : Nat)
  /-- VSENS_SETTLE_DONE (R75). -/
  | vsensSettleDone (n : Nat)
  /-- VSENS_TRIP (R77). -/
  | vsensTrip (n : Nat)
  /-- BANK_LOST (R27). -/
  | bankLost (sens : Bool)
  /-- BANK_RESTORED (R27). -/
  | bankRestored (sens : Bool) (pins : Nat)
  /-- STOW_ENTRY (R87). -/
  | stowEntry
  /-- STOW_TIME_WAKE (R88). -/
  | stowTimeWake
  /-- WAKE_EDGE (R89). -/
  | wakeEdge (pin : Nat) (falling : Bool)
  /-- STOW_WAKE (R89). -/
  | stowWake
  /-- LOOKOUT_MATCH (R426). -/
  | lookoutMatch (addr : Nat) (read : Bool)
  /-- DATAPATH_RESET (R94). -/
  | datapathReset
  /-- TENANT_RESET (R411). -/
  | tenantReset
  /-- FULL_RESET_CMD (R94). -/
  | fullResetCmd
  /-- HOST_RESET (R105). -/
  | hostReset
  /-- RST_CMD_DATAPATH (R123). -/
  | rstCmdDatapath (rq : Requester) (confirm : Nat)
  /-- RST_CMD_TENANT (R123). -/
  | rstCmdTenant (rq : Requester) (t confirm : Nat)
  /-- RST_CMD_FULL (R123). -/
  | rstCmdFull (rq : Requester) (confirm : Nat)
  /-- RESET_RESTART (R97). -/
  | resetRestart
  /-- PCTL_SRST (R133). -/
  | pctlSrst (rq : Requester) (page : Nat)
  /-- PCTL_EN_WRITE (R132). -/
  | pctlEnWrite (rq : Requester) (page : Nat) (en : Bool)
  /-- WDOG_EXPIRE (R103). -/
  | wdogExpire
  /-- WDOG_KICK (R104). -/
  | wdogKick (rq : Requester) (ses : Nat)
  /-- WDOG_SLEEP (R104). -/
  | wdogSleep (rq : Requester) (ses : Nat)
  /-- PULSE_NOW (R105). -/
  | pulseNow (rq : Requester)
  /-- HOST_PULSE_END (R105). -/
  | hostPulseEnd
  /-- SESSION_BUMP (R106). -/
  | sessionBump (rq : Requester)
  /-- LIFECYCLE (R117). -/
  | lifecycle
  /-- LIFECYCLE_SECOND_DECISION (R117). -/
  | lifecycleSecondDecision (agree : Bool)
  /-- PATCH_LOAD_BEGIN (R109). -/
  | patchLoadBegin
  /-- PATCH_LOAD_DATA (R109). -/
  | patchLoadData
  /-- PATCH_LOAD_COMMIT (R109). -/
  | patchLoadCommit
  /-- REGISTER_WRITE (R128). -/
  | registerWrite (rq : Requester) (ws : List (Nat × Word))
  /-- SHADOW_MISMATCH (R447). -/
  | shadowMismatch (addr idx : Nat)
  /-- LOCK_ACQUIRE (R152). -/
  | lockAcquire (rq : Requester) (k : Nat)
  /-- LOCK_RELEASE (R154). -/
  | lockRelease (rq : Requester) (k : Nat)
  /-- LEASE_EXPIRY (R153). -/
  | leaseExpiry (k : Nat)
  /-- GAP_RECORD_ENQUEUE (R164). -/
  | gapRecordEnqueue (q prod : Nat)
  /-- QUE_FLUSH (R186). -/
  | queFlush (rq : Requester) (target confirm : Nat)
  /-- QUE_FLUSH_ALL_LANES (R186). -/
  | queFlushAllLanes (rq : Requester) (target confirm : Nat)
  /-- PLACEMENT_UPDATE (R174). -/
  | placementUpdate
  /-- POP_READ (R180). -/
  | popRead (p t : Nat)
  /-- POP_STALL_RESUME (R182). -/
  | popStallResume (p : Nat)
  /-- POP_STALL_TIMEOUT (R182). -/
  | popStallTimeout (p : Nat)
  /-- ECC_UNCORRECTABLE (R190). -/
  | eccUncorrectable (q : Nat)
  /-- DISPATCH (R246). -/
  | dispatch
  /-- TRANSFER_START (R193). -/
  | transferStart (p : Nat)
  /-- TRANSFER_END (R195). -/
  | transferEnd (p : Nat) (data : List Byte) (fail done rise mmin : Nat)
  /-- ARB_LOST (R206). -/
  | arbLost (lost : PortBytes)
  /-- STRETCH_TIMEOUT (R203). -/
  | stretchTimeout (p : Nat) (data : List Byte)
  /-- BUS_STUCK (R205). -/
  | busStuck (p : Nat) (data : List Byte)
  /-- BUS_FREE (R204). -/
  | busFree (p : Nat)
  /-- BUS_RECOVERY (R204). -/
  | busRecovery (p : Nat)
  /-- FENCE_CLEAR (R215). -/
  | fenceClear (rq : Requester) (p : Nat) (w : Word)
  /-- AFE_CONVERSION (R221). -/
  | afeConversion (ch : Nat) (raw : Int) (ovr : Bool)
  /-- AFE_DRAIN (R225). -/
  | afeDrain
  /-- EXC_SETTLE_END (R227). -/
  | excSettleEnd
  /-- EXC_OVERCURRENT (R229). -/
  | excOvercurrent
  /-- EXC_OPEN (R229). -/
  | excOpen
  /-- TOUCHSTONE_NOW (R234). -/
  | touchstoneNow (rq : Requester) (w : Word)
  /-- TOUCHSTONE_START (R230). -/
  | touchstoneStart (ch : Nat)
  /-- AFE_CAL_START (R231). -/
  | afeCalStart (ch : Nat)
  /-- TIME_TRIGGER (R239). -/
  | timeTrigger (d : Nat)
  /-- ANGLE_TRIGGER (R240). -/
  | angleTrigger (d : Nat)
  /-- CHAIN_TRIGGER (R242). -/
  | chainTrigger (d : Nat)
  /-- JIT_DEADLINE (R243). -/
  | jitDeadline (d : Nat)
  /-- NO_LOCK_TARGET_SKIP (R255). -/
  | noLockTargetSkip (d : Nat)
  /-- ANGLE_WITHDRAW (R255). -/
  | angleWithdraw
  /-- SHARE_WINDOW_END (R248). -/
  | shareWindowEnd
  /-- DESCRIPTOR_COMMIT (R237). -/
  | descriptorCommit (rq : Requester) (idx mask : Nat) (words : List Word)
  /-- EDGE_STAMP (R267). -/
  | edgeStamp (ch : Nat) (falling : Bool) (missed ticks code : Nat)
  /-- ICAL_HIT (R270). -/
  | icalHit (line code : Nat)
  /-- STAMP_SERVICE (R494). -/
  | stampService (p : Nat)
  /-- BEACON_SUBMIT (R274). -/
  | beaconSubmit (rq : Requester) (seq lo hi : Word)
  /-- BEACON_WINDOW_END (R273). -/
  | beaconWindowEnd (seq : Nat)
  /-- EPOCH_RECORD_ENQUEUE (R281). -/
  | epochRecordEnqueue (t : Nat)
  /-- HT_LO_SAMPLE (R263). -/
  | htLoSample (rq : Requester)
  /-- SYNC_LO_SAMPLE (R273). -/
  | syncLoSample (rq : Requester)
  /-- STAMP_LO_SAMPLE (R285). -/
  | stampLoSample (rq : Requester) (ch : Nat)
  /-- OFS_LO_SAMPLE (R284). -/
  | ofsLoSample (rq : Requester)
  /-- SXT_ANG_SAMPLE (R307). -/
  | sxtAngSample (rq : Requester)
  /-- BND_SEQ_SAMPLE (R379). -/
  | bndSeqSample (rq : Requester)
  /-- KEY_COUNTER_SAMPLE (R414). -/
  | keyCounterSample (rq : Requester) (ceil : Bool)
  /-- IDX_MEASUREMENT (R292). -/
  | idxMeasurement
  /-- SXT_LOCK_LOST (R294). -/
  | sxtLockLost (cause : Nat)
  /-- ANGLE_COMPARATOR_FIRE (R296). -/
  | angleComparatorFire (k : Nat)
  /-- BANDWIDTH_UPDATE (R297). -/
  | bandwidthUpdate
  /-- RESAMPLER_OUTPUT (R300). -/
  | resamplerOutput (ch : Nat)
  /-- ASSAY_PASS (R311). -/
  | assayPass
  /-- ASSAY_GAP_INPUT (R332). -/
  | assayGapInput (u : Nat)
  /-- CRITICAL_SECOND_DECISION (R325). -/
  | criticalSecondDecision (u : Nat) (agree : Bool)
  /-- TRNG_HEALTH_FAIL (R448). -/
  | trngHealthFail (test : Nat)
  /-- TRNG_RETEST (R448). -/
  | trngRetest (pass : Bool)
  /-- ROSE_EVENT (R337). -/
  | roseEvent
  /-- ROSE_FIRE (R351). -/
  | roseFire (rq : Requester) (hi : Bool) (w : Word)
  /-- FLARE_CLEAR (R349). -/
  | flareClear (rq : Requester) (w : Word)
  /-- FLARE_PULSE_END (R349). -/
  | flarePulseEnd (f : Nat)
  /-- FLARE_RELEASE (R348). -/
  | flareRelease (rq : Requester) (f : Nat)
  /-- IFLG_CLEAR (R359). -/
  | iflgClear (rq : Requester) (hi : Bool) (w : Word)
  /-- BUNDLER_INTAKE (R366). -/
  | bundlerIntake
  /-- BUNDLE_CLOSE (R369). -/
  | bundleClose
  /-- BUNDLE_AGE_EXPIRY (R367). -/
  | bundleAgeExpiry (t l : Nat)
  /-- SEAL_START (R374). -/
  | sealStart
  /-- SEAL_DONE (R374). -/
  | sealDone
  /-- SEQ_RESERVATION_COMMIT (R376). -/
  | seqReservationCommit (t : Nat)
  /-- HEALTH_RECORD (R379). -/
  | healthRecord
  /-- WRITE (R401). -/
  | write
  /-- CHART_BEGIN (R404). -/
  | chartBegin
  /-- CHART_DATA (R404). -/
  | chartData
  /-- CHART_COMMIT (R406). -/
  | chartCommit
  /-- CHART_COMMIT_DONE (R406). -/
  | chartCommitDone (t : Nat) (ok : Bool)
  /-- CONFIG_STORE (R409). -/
  | configStore
  /-- KEY_ESTABLISH (R390). -/
  | keyEstablish
  /-- KEY_ROTATE (R391). -/
  | keyRotate
  /-- KEY_UPDATE_WRITE (R388). -/
  | keyUpdateWrite (t : Nat) (ok : Bool)
  /-- KEY_UPDATE_COMMIT (R388). -/
  | keyUpdateCommit (t : Nat) (ok : Bool)
  /-- ATTEST (R412). -/
  | attest
  /-- ATTEST_SIGN_DONE (R412). -/
  | attestSignDone (t : Nat)
  /-- TENANT_CREATE (R381). -/
  | tenantCreate
  /-- TENANT_ENROL (R382). -/
  | tenantEnrol
  /-- TENANT_REMOVE (R383). -/
  | tenantRemove
  /-- NV_WRITE_COMPLETE (R79). -/
  | nvWriteComplete (ok : Bool)
  /-- KEY_RSP_READ (R397). -/
  | keyRspRead (rq : Requester) (addr : Nat)
  /-- KEY_ATT_READ (R412). -/
  | keyAttRead (rq : Requester) (addr : Nat)
  /-- DEVICE_KEY_READ (R124). -/
  | deviceKeyRead (rq : Requester)
  /-- LOG_DATA_READ (R474). -/
  | logDataRead (rq : Requester)
  /-- HTW_START (R421). -/
  | htwStart (addr : Nat) (read : Bool) (data : List Byte) (n : Nat)
  /-- HTW_STOP (R416). -/
  | htwStop
  /-- HTW_IDLE_ABORT (R415). -/
  | htwIdleAbort
  /-- SPI_CS_FALL (R428). -/
  | spiCsFall
  /-- SPI_WRITE (R429). -/
  | spiWrite (addr len : Nat) (data : List Byte)
  /-- SPI_READ (R430). -/
  | spiRead (addr len : Nat)
  /-- SPI_CS_RISE (R416). -/
  | spiCsRise (whole : Bool)
  /-- SPI_OVERRUN (R432). -/
  | spiOverrun
  /-- CMD_ASSEMBLY_WRITE (R437). -/
  | cmdAssemblyWrite (rq : Requester) (n : Nat) (bytes : List Byte)
  /-- CMD_ASSEMBLY_CLEAR (R439). -/
  | cmdAssemblyClear (rq : Requester) (n : Nat)
  /-- COMMAND_ENQUEUE (R438). -/
  | commandEnqueue
  /-- XDAT_ACCESS (R435). -/
  | xdatAccess (rq : Requester) (n : Nat) (w : Option Word)
  /-- TEMP_SAMPLE (R450). -/
  | tempSample (tj : Int)
  /-- THERMAL_SECOND_DECISION (R450). -/
  | thermalSecondDecision (agree : Bool)
  /-- THERMAL_COMPARATOR (R451). -/
  | thermalComparator (beyond : Bool)
  /-- SUPPLY_GLITCH (R453). -/
  | supplyGlitch (storeOver : Bool)
  /-- PROBE_WINDOW_END (R454). -/
  | probeWindowEnd
  /-- TAP_INSTRUCTION (R454). -/
  | tapInstruction (bypass : Bool)
  /-- TAMPER_CLEAR (R459). -/
  | tamperClear (rq : Requester) (w : Word)
  /-- HOLD_END (R460). -/
  | holdEnd
  /-- LOG_ENTRY_WRITE (R465). -/
  | logEntryWrite (ok : Bool)
  /-- TST_NV_MARGIN_READ (R477). -/
  | tstNvMarginRead (rq : Requester)
  /-- TST_MEMORY_SELF_TEST (R477). -/
  | tstMemorySelfTest (rq : Requester)
  /-- TST_DONE (R477). -/
  | tstDone (pass : Bool) (failAddr : Nat)
  /-- AVS_UPDATE (R481). -/
  | avsUpdate (mmin : Nat)
  /-- AVS_CANARY (R481). -/
  | avsCanary
  /-- GEAR_WINDOW_END (R484). -/
  | gearWindowEnd (assay sealing bundler steward cycles : Nat)
  /-- MPPT_POWER_SAMPLE (R490). -/
  | mpptPowerSample (vstore iharv : Nat)
  /-- MPPT_UPDATE (R490). -/
  | mpptUpdate
  /-- VOC_RESAMPLE_START (R491). -/
  | vocResampleStart
  /-- VOC_PAUSE_END (R491). -/
  | vocPauseEnd (vharv : Nat)
  /-- SUPPLY_CONDITION_END (R453). -/
  | supplyConditionEnd
  /-- RETENTION_LOSS (R96). -/
  | retentionLoss
  /-- HARV_RESUME (R70). -/
  | harvResume (stop : HarvStop)
  deriving DecidableEq, Repr

end Sys2Proof
end

