-- ==== Sys2Proof/Decode.lean ====
section
/-! DEFINITION. The words of the table. No row of spec/opcode_table.json gives bits: the hub takes its commands from pins,
buses and its own engines, and none of them is spelt by one word. -/

namespace Sys2Proof

/-- The command that a word of `nbits` bits spells by the table: none, since no row has bits. -/
def decodeTableWord (_nbits _w : Nat) : Option Instr := none

end Sys2Proof
end

