-- ==== Sys2Proof/Config.lean ====
section
/-! DEFINITION. What the spec leaves open or takes from other standards: constants without a body, so that no proof can
see a value of them. The layouts of what they are applied to are the spec's and stand in Machine/. -/

namespace Sys2Proof.Config

/-- AES-CMAC of NIST SP 800-38B with AES-256 (R396, R464): key, message. -/
opaque cmac : List Byte → List Byte → List Byte

/-- AES-CCM of NIST SP 800-38C with a 16-byte tag (R372): key, nonce, associated data, plaintext; the ciphertext. -/
opaque ccmCipher : List Byte → List Byte → List Byte → List Byte → List Byte

/-- The tag that AES-CCM computes on the same arguments (R372). -/
opaque ccmTag : List Byte → List Byte → List Byte → List Byte → List Byte

/-- SHA-256 of FIPS 180-4. -/
opaque sha256 : List Byte → List Byte

/-- ECDSA P-256 verification: public key, hash, signature. -/
opaque ecdsaVerify : List Byte → List Byte → List Byte → Bool

/-- ECDSA P-256 signature with the nonces of RFC 6979: private key, message. -/
opaque ecdsaSign : List Byte → List Byte → List Byte

/-- The ECDH P-256 shared secret of a private and a public key; none for a public key off the curve. -/
opaque ecdh : List Byte → List Byte → Option (List Byte)

/-- AES-KW unwrapping of NIST SP 800-38F: key, wrapped key; none when the check value fails. -/
opaque kwUnwrap : List Byte → List Byte → Option (List Byte)

/-- The hash of Kyleist's public key held in ROM (R108). -/
opaque romKeyHash : List Byte

/-- A quotient that is not whole where the spec gives no rounding: numerator, denominator (log entry 11). -/
opaque inexact : Int → Int → Int

/-- The trimmed code that a Touchstone check expects on a channel (R230). -/
opaque touchCode : Nat → Int

/-- The excitation current that the AFE shows, in 0.1 mA, at an HT (AFE_STAT.EXC_I, R233). -/
opaque excCurrent : Nat → Nat

/-- The lowest VSTORE of a dip during which no sample was taken (PWR_DIP.VMIN, R80), by the HT of its start. -/
opaque dipVmin : Nat → Nat

/-- The angle atan2(v, u) / 2π of a gravity sample in 2^-32 revolution (R289): v, u. -/
opaque atan2 : Int → Int → Int

/-- wn·T = 2π·B·T in units of 2^-32 (R292): B in 0.01 Hz, T in HT units. -/
opaque wnT : Nat → Nat → Nat

/-- The interval of R292 for the first measurement of its kind while locked, with its stamp. -/
opaque firstInterval : Nat → Nat

/-- The number of a Resampler channel's targets between two input samples of which one has no angle (R303): their HTs. -/
opaque lostTargets : Nat → Nat → Nat

/-- A byte of a closed bundle as it is stored after an uncorrectable memory error (R190): sequence, place. -/
opaque storedByte : Nat → Nat → BitVec 8

/-- Whether a commit word in work when the power failed reads back consistent (R389, R403, R376): what it commits (0–7 a
key slot of that tenant, 8 the NV write in work), the boot's number. -/
opaque cutReads : Nat → Nat → Bool


/-- The data bytes that a transfer had completed when a loss of its bank or rail, or a reset, ended it (R98, R195, R211):
port, start HT, the HT of its end. The model bounds it by the transfer's length. -/
opaque cutBytes : Nat → Nat → Nat → Nat

/-- The largest rise time in ns measured in a two-wire transfer that did not end with TRANSFER_END (R207): port, HT of its
end. -/
opaque riseTime : Nat → Nat → Nat

/-- The single-bit errors of a memory corrected so far (0 QUE_STAT.ECC_CORR, R190; 1 NVS_ECC.CORR, R476): they are no
command of the table. By the boot's number and HT; no error is corrected in the cycle of a reset. -/
opaque eccCorrected : Nat → Nat → Nat → Nat

/-- A byte that such a transfer had received: port, start HT, place (R195). -/
opaque cutByte : Nat → Nat → Nat → BitVec 8

/-- A byte that a sample does not have: its place beyond the sample's end (R289, R290, R299, R310). -/
opaque noByte : Nat → BitVec 8

/-- An accumulator value of a biquad that does not fit in 64 bits (R315). -/
opaque acc64 : Int → Int

/-- Whether a value halfway between two whole numbers is rounded up: numerator, denominator. -/
opaque halfway : Int → Int → Bool

/-- Whether a square root that is not whole, where the spec gives no rounding, is taken up: of which fraction. -/
opaque rootUp : Nat → Nat → Bool

/-- 2cos(2πf) in Q2.30 for a fraction f in 2^-32 (R318). -/
opaque goertzCoef : Nat → Int

/-- The Hann weight 0.5 − 0.5cos(2πn/W) in Q2.30 (R318): n, W. -/
opaque hann : Nat → Nat → Int

/-- ORD_AMP of a frame (R319): the pairs (x, ψ) with ψ in 2^-68 cycle, and W. -/
opaque ordAmp : List (Int × Int) → Nat → Int

/-- ORD_PHASE of a frame in 2^-32 cycle (R319). -/
opaque ordPhase : List (Int × Int) → Nat → Nat

/-- A register that shows a measure of cycles, which the model does not count (ASY_PIPE, ASY_LOAD): address, HT. -/
opaque timing : Nat → Nat → Nat

/-- A tenant key of a generation that no slot holds any longer: tenant, generation. -/
opaque goneKey : Nat → Nat → List Byte

end Sys2Proof.Config
end

