-- ==== Sys2Proof/Machine/Map.lean ====
section
/-! DEFINITION. Keyed maps in one canonical form: keys strictly rising, and no entry equal to what an unlisted key
reads as (`d`), so that equal contents are equal data. -/

namespace Sys2Proof.Machine

/-- The value at key `k`; an unlisted key reads as `d k`. -/
def mapGet {α : Type} (d : Nat → α) : Map α → Nat → α
  | [], k => d k
  | (j, v) :: t, k => if k = j then v else mapGet d t k

/-- The map with `v` at key `k`. Writing what an unlisted key reads as removes the entry. -/
def mapSet {α : Type} [DecidableEq α] (d : Nat → α) : Map α → Nat → α → Map α
  | [], k, v => if v = d k then [] else [(k, v)]
  | (j, u) :: t, k, v =>
    if k < j then (if v = d k then (j, u) :: t else (k, v) :: (j, u) :: t)
    else if k = j then (if v = d k then t else (k, v) :: t)
    else (j, u) :: mapSet d t k v

/-- Every listed key is above `lo`, keys rise strictly, and no entry holds what its key reads as unlisted. -/
def mapWfFrom {α : Type} [DecidableEq α] (d : Nat → α) : Nat → Map α → Bool
  | _, [] => true
  | lo, (j, v) :: t => decide (lo ≤ j) && decide (v ≠ d j) && mapWfFrom d (j + 1) t

/-- The canonical form of a map. -/
def mapWf {α : Type} [DecidableEq α] (d : Nat → α) (m : Map α) : Bool := mapWfFrom d 0 m

/-- The map changed at key `k` by `f`. -/
def mapMod {α : Type} [DecidableEq α] (d : Nat → α) (m : Map α) (k : Nat) (f : α → α) : Map α :=
  mapSet d m k (f (mapGet d m k))

/-- A list of numbers changed at position `i`. -/
def listSet {α : Type} : List α → Nat → α → List α
  | [], _, _ => []
  | _ :: t, 0, v => v :: t
  | x :: t, i + 1, v => x :: listSet t i v

/-- Do `f` for each element of a list, in order. -/
def forEach {α σ : Type} (l : List α) (f : α → σ → σ) (s : σ) : σ := l.foldl (fun s x => f x s) s

/-- The first element that satisfies `p`. -/
def firstWith {α : Type} (p : α → Bool) : List α → Option α
  | [] => none
  | x :: t => if p x then some x else firstWith p t

end Sys2Proof.Machine
end

