-- ==== Sys2Proof/Machine/Operands.lean ====
section
/-! DEFINITION. The operands of commands and registers: two's complement fields, byte layouts (R2), and the identity of
requesters (R136). -/

namespace Sys2Proof.Machine

/-! ## Numbers -/

/-- A signed value in a field, as two's complement. -/
def signed (w v : Nat) : Int := if v < 2 ^ (w - 1) then (v : Int) else (v : Int) - 2 ^ w

/-- The two's complement code of an integer in `w` bits. -/
def code (w : Nat) (i : Int) : Nat := (i % (2 ^ w : Int)).toNat

/-- An integer limited to a range. -/
def clampInt (lo hi v : Int) : Int := if v < lo then lo else if hi < v then hi else v

/-- Signed saturation to `w` bits. -/
def satInt (w : Nat) (v : Int) : Int := clampInt (-(2 ^ (w - 1) : Int)) ((2 ^ (w - 1) : Int) - 1) v

/-- Quotient rounded up. -/
def ceilDiv (a b : Nat) : Nat := (a + b - 1) / b

/-! ## Bytes (R2: little-endian) -/

/-- The `n` bytes of a number, least significant first. -/
def bytesLE : Nat → Nat → List Byte
  | 0, _ => []
  | n + 1, v => BitVec.ofNat 8 v :: bytesLE n (v / 256)

/-- The number spelt by bytes, least significant first. -/
def numLE : List Byte → Nat
  | [] => 0
  | b :: t => b.toNat + 256 * numLE t

/-- The number spelt by bytes, most significant first. -/
def numBE (l : List Byte) : Nat := numLE l.reverse

/-- `n` bytes of a format from byte `o`. -/
def sliceB (l : List Byte) (o n : Nat) : List Byte := (l.drop o).take n

/-- A multi-byte field of a format. -/
def fieldLE (l : List Byte) (o n : Nat) : Nat := numLE (sliceB l o n)

/-- Bytes padded with 0x00 to a multiple of `n`. -/
def padTo (n : Nat) (l : List Byte) : List Byte := l ++ List.replicate ((n - l.length % n) % n) 0

/-! ## Requesters (R136) -/

def reqCode : Requester → Nat
  | .window n => n
  | .host => 8
  | .steward _ => 9
  | .jtag => 10
  | .internal => 15

def reqTenant : Requester → Option Nat
  | .window n => some n
  | .steward t => some t
  | _ => none

/-- The key of a requester's own selections and samples: STEWARD has one per tenant (R236). -/
def reqKey : Requester → Nat
  | .window n => n
  | .host => 8
  | .jtag => 10
  | .internal => 15
  | .steward t => 16 + t

/-- Host-side requesters: codes 0x0-0x8 (R155). -/
def reqHostSide : Requester → Bool
  | .window _ => true
  | .host => true
  | _ => false

def selKey (a : Nat) (rq : Requester) : Nat := a * 64 + reqKey rq

end Sys2Proof.Machine
end

