-- ==== Sys2Proof/Machine/Regs.lean ====
section
/-! DEFINITION. The register pages of the hub: the directory and common header (R129-R135), the block registers of
every page with their reset values and access masks (R62, R92, R93, R122-R124, R158, R192, R217, R218, R233, R235,
R259, R260, R284, R285, R307, R308, R335, R358, R359, R379, R414, R434, R442-R444, R473-R477, R493), and the fields
by which the machine reads and writes them. A field that the spec stores in NV has here the value it has when not
stored (log entry 6); a field the spec gives as TRIM has the typical figure (log entry 7). -/

namespace Sys2Proof.Machine

/-- A field of a register: the register's byte address, the lowest bit and the width. -/
structure Fld where
  addr : Nat
  lo : Nat
  w : Nat
  deriving DecidableEq, Repr

/-- How a register answers an access: a plain register; a selection held per requester (R236); a stream register whose
reads move a position (ST of R4); a register whose read acts (RA of R4). -/
inductive RegKind where
  | plain
  | sel
  | stream
  | act
  deriving DecidableEq, Repr

/-- One row of a page: `cnt` registers `stride` bytes apart from offset `off`, their reset value, and the masks of
their RW, W1C, WO, shadowed (S) and NV-stored bits. -/
structure RegRow where
  off : Nat
  cnt : Nat
  stride : Nat
  rst : Nat
  rw : Nat
  w1c : Nat
  wo : Nat
  sh : Nat
  nv : Nat
  kind : RegKind
  deriving DecidableEq, Repr

def rowsIDN : List RegRow :=
  [⟨0x40, 1, 4, 0x74200041, 0x0, 0x0, 0x0, 0x0, 0x0, .plain⟩,
   ⟨0x44, 1, 4, 0x20, 0x0, 0x0, 0x0, 0x0, 0x0, .plain⟩,
   ⟨0x48, 1, 4, 0x301, 0x0, 0x0, 0x0, 0x0, 0x0, .plain⟩,
   ⟨0x4c, 1, 4, 0x0, 0x0, 0x0, 0x0, 0x0, 0x0, .plain⟩,
   ⟨0x50, 1, 4, 0x3, 0x0, 0x0, 0x0, 0x0, 0x0, .plain⟩,
   ⟨0x54, 1, 4, 0x1010102, 0x0, 0x0, 0x0, 0x0, 0x0, .plain⟩,
   ⟨0x58, 1, 4, 0x0, 0x0, 0x0, 0x0, 0x0, 0x0, .plain⟩,
   ⟨0x5c, 1, 4, 0x0, 0x0, 0x0, 0x0, 0x0, 0x0, .plain⟩,
   ⟨0x60, 1, 4, 0x0, 0x0, 0x0, 0x0, 0x0, 0x0, .plain⟩,
   ⟨0x64, 1, 4, 0xa10188, 0x0, 0x0, 0x0, 0x0, 0x0, .plain⟩,
   ⟨0x68, 1, 4, 0x0, 0x0, 0x0, 0x0, 0x0, 0x0, .stream⟩]

def rowsSYS0 : List RegRow :=
  [⟨0x40, 1, 4, 0x1, 0x0, 0x0, 0x0, 0x0, 0x0, .plain⟩,
   ⟨0x44, 1, 4, 0xc800, 0xfff03, 0x0, 0x0, 0x0, 0xfff03, .plain⟩,
   ⟨0x48, 1, 4, 0x0, 0xfff0fff, 0x0, 0x0, 0x0, 0xfff0fff, .plain⟩,
   ⟨0x4c, 1, 4, 0x0, 0x3ff, 0x0, 0x0, 0x0, 0x3ff, .plain⟩,
   ⟨0x50, 1, 4, 0x0, 0x0, 0x1ffff, 0x0, 0x0, 0x0, .plain⟩,
   ⟨0x54, 1, 4, 0x0, 0x0, 0x1f, 0x0, 0x0, 0x0, .plain⟩,
   ⟨0x58, 1, 4, 0x0, 0x0, 0x0, 0x0, 0x0, 0x0, .plain⟩,
   ⟨0x60, 1, 4, 0x0, 0x0, 0x3f, 0x0, 0x0, 0x0, .plain⟩,
   ⟨0x64, 1, 4, 0x0, 0x0, 0x0, 0x0, 0x0, 0x0, .plain⟩,
   ⟨0x68, 1, 4, 0x0, 0x0, 0x0, 0xffff0073, 0x0, 0x0, .plain⟩,
   ⟨0x6c, 1, 4, 0xa, 0x7f, 0x0, 0x100, 0x0, 0x7f, .plain⟩,
   ⟨0x70, 1, 4, 0x271000, 0xffff01, 0x0, 0x0, 0x0, 0xffff01, .plain⟩]

def rowsSYS1 : List RegRow :=
  [⟨0x74, 1, 4, 0x0, 0x0, 0x0, 0x1ffff, 0x0, 0x0, .plain⟩,
   ⟨0x78, 1, 4, 0x0, 0x0, 0x0, 0x0, 0x0, 0x0, .plain⟩,
   ⟨0x7c, 1, 4, 0x0, 0x0, 0x0, 0x80000000, 0x0, 0x0, .plain⟩,
   ⟨0x80, 1, 4, 0x1, 0x0, 0x0, 0x0, 0x0, 0x0, .plain⟩,
   ⟨0x84, 1, 4, 0x3, 0x0, 0x0, 0x0, 0xf, 0x0, .plain⟩,
   ⟨0x88, 1, 4, 0x100, 0x0, 0x0, 0x0, 0x0, 0x0, .plain⟩]

def rowsSYS : List RegRow := rowsSYS0 ++ rowsSYS1

def rowsCLK : List RegRow :=
  [⟨0x40, 1, 4, 0xc0, 0xfd, 0x0, 0x0, 0x1, 0xfd, .plain⟩,
   ⟨0x44, 1, 4, 0x0, 0x0, 0x0, 0x0, 0x0, 0x0, .plain⟩,
   ⟨0x48, 1, 4, 0x0, 0x0, 0x0, 0x0, 0x0, 0x0, .plain⟩,
   ⟨0x4c, 1, 4, 0x0, 0x107, 0x0, 0x0, 0x0, 0x0, .plain⟩,
   ⟨0x50, 1, 4, 0x0, 0x0, 0x0, 0x0, 0x0, 0x0, .plain⟩,
   ⟨0x54, 1, 4, 0x40, 0x0, 0x0, 0x0, 0x0, 0x0, .plain⟩,
   ⟨0x58, 1, 4, 0x10, 0x30, 0x0, 0x0, 0x30, 0x30, .plain⟩,
   ⟨0x5c, 1, 4, 0x0, 0x0, 0xf, 0x0, 0x0, 0x0, .plain⟩,
   ⟨0x60, 1, 4, 0x0, 0x0, 0x0, 0x0, 0x0, 0x0, .plain⟩]

def rowsPWR : List RegRow :=
  [⟨0x40, 1, 4, 0x501e19, 0xffffff, 0x0, 0x0, 0xffff, 0xffffff, .plain⟩,
   ⟨0x44, 1, 4, 0x0, 0x0, 0x100, 0x0, 0x0, 0x0, .plain⟩,
   ⟨0x48, 1, 4, 0x0, 0x0, 0x0, 0x0, 0x0, 0x0, .plain⟩,
   ⟨0x4c, 1, 4, 0x3c11, 0xff3d, 0x0, 0x0, 0xff00, 0xff3d, .plain⟩,
   ⟨0x50, 1, 4, 0x0, 0x0, 0x0, 0x0, 0x0, 0x0, .plain⟩,
   ⟨0x54, 1, 4, 0x0, 0x0, 0x0, 0x0, 0x0, 0x0, .plain⟩,
   ⟨0x58, 1, 4, 0xa01, 0xff07, 0x0, 0x0, 0x6, 0xff06, .plain⟩,
   ⟨0x5c, 3, 4, 0x3200, 0xfffff0f, 0x0, 0x0, 0x2, 0xfffff0f, .plain⟩,
   ⟨0x68, 1, 4, 0x0, 0x0, 0x3f, 0x0, 0x0, 0x0, .plain⟩,
   ⟨0x6c, 1, 4, 0x0, 0x0, 0x0, 0x0, 0x0, 0x0, .plain⟩,
   ⟨0x70, 1, 4, 0x0, 0x0, 0x0, 0x0, 0x0, 0x0, .plain⟩,
   ⟨0x74, 1, 4, 0x0, 0x0, 0x0, 0x0, 0x0, 0x0, .plain⟩]

def rowsPLN0 : List RegRow :=
  [⟨0x40, 1, 4, 0x101, 0xff03, 0x0, 0x0, 0x0, 0x0, .plain⟩,
   ⟨0x44, 1, 4, 0x0, 0xffffffff, 0x0, 0x0, 0x0, 0x0, .plain⟩,
   ⟨0x48, 1, 4, 0x46, 0xffffffff, 0x0, 0x0, 0x0, 0x0, .plain⟩,
   ⟨0x4c, 1, 4, 0x0, 0x0, 0x0, 0x0, 0x0, 0x0, .plain⟩,
   ⟨0x50, 1, 4, 0x140864, 0x3f3fff, 0x0, 0x0, 0x0, 0x3f3fff, .plain⟩,
   ⟨0x54, 1, 4, 0x0, 0x0, 0x0, 0x0, 0x0, 0x0, .plain⟩,
   ⟨0x58, 1, 4, 0x0, 0x7, 0x0, 0x0, 0x0, 0x0, .sel⟩,
   ⟨0x5c, 1, 4, 0x0, 0x0, 0x0, 0x0, 0x0, 0x0, .plain⟩,
   ⟨0x60, 1, 4, 0x101, 0xff03, 0x0, 0x0, 0x0, 0x0, .plain⟩,
   ⟨0x64, 1, 4, 0x0, 0xffffffff, 0x0, 0x0, 0x0, 0x0, .plain⟩,
   ⟨0x68, 1, 4, 0x5, 0xffffffff, 0x0, 0x0, 0x0, 0x0, .plain⟩,
   ⟨0x6c, 1, 4, 0x0, 0x0, 0x0, 0x0, 0x0, 0x0, .plain⟩]

def rowsPLN1 : List RegRow :=
  [⟨0x70, 1, 4, 0x24c0300a, 0x7fffffff, 0x0, 0x0, 0x0, 0x7fffffff, .plain⟩,
   ⟨0x74, 1, 4, 0x2000000, 0x0, 0x0, 0x0, 0x0, 0x0, .plain⟩,
   ⟨0x78, 1, 4, 0x3, 0x7, 0x0, 0x0, 0x7, 0x7, .plain⟩,
   ⟨0x7c, 1, 4, 0x0, 0x77777777, 0x0, 0x0, 0x77777777, 0x77777777, .plain⟩,
   ⟨0x80, 1, 4, 0x201, 0xff03, 0x0, 0x0, 0x0, 0x0, .plain⟩,
   ⟨0x84, 1, 4, 0x28, 0xffffffff, 0x0, 0x0, 0x0, 0x0, .plain⟩,
   ⟨0x88, 1, 4, 0x384, 0xffffffff, 0x0, 0x0, 0x0, 0x0, .plain⟩,
   ⟨0x8c, 1, 4, 0x0, 0x0, 0x0, 0x0, 0x0, 0x0, .plain⟩,
   ⟨0x90, 1, 4, 0x3ccd0532, 0xffffffff, 0x0, 0x0, 0x0, 0xffffffff, .plain⟩,
   ⟨0x94, 1, 4, 0x0, 0x0, 0x0, 0x0, 0x0, 0x0, .plain⟩,
   ⟨0x98, 1, 4, 0x0, 0x0, 0x0, 0x0, 0x0, 0x0, .plain⟩]

def rowsPLN : List RegRow := rowsPLN0 ++ rowsPLN1

def rowsRCK0 : List RegRow :=
  [⟨0x40, 1, 4, 0x1, 0x3, 0x0, 0x0, 0x2, 0x3, .plain⟩,
   ⟨0x44, 1, 4, 0x0, 0x0, 0x0, 0x0, 0x0, 0x0, .plain⟩,
   ⟨0x48, 1, 4, 0x0, 0x0, 0x0, 0x0, 0x0, 0x0, .plain⟩,
   ⟨0x4c, 1, 4, 0x0, 0x0, 0x0, 0x0, 0x0, 0x0, .plain⟩,
   ⟨0x50, 1, 4, 0x0, 0x0, 0x0, 0x0, 0x0, 0x0, .plain⟩,
   ⟨0x54, 1, 4, 0x0, 0x0, 0x0, 0x0, 0x0, 0x0, .plain⟩,
   ⟨0x58, 1, 4, 0x80000000, 0x0, 0x0, 0x0, 0x0, 0x0, .plain⟩,
   ⟨0x60, 1, 4, 0x4001, 0xff03, 0x0, 0x0, 0x0, 0x0, .plain⟩,
   ⟨0x64, 1, 4, 0xbe76c8b4, 0xffffffff, 0x0, 0x0, 0x0, 0x0, .plain⟩,
   ⟨0x68, 1, 4, 0x4189374c, 0xffffffff, 0x0, 0x0, 0x0, 0x0, .plain⟩,
   ⟨0x6c, 1, 4, 0x0, 0x0, 0x0, 0x0, 0x0, 0x0, .plain⟩,
   ⟨0x70, 1, 4, 0x1, 0xf, 0x0, 0x0, 0x0, 0xf, .plain⟩]

def rowsRCK1 : List RegRow :=
  [⟨0x74, 1, 4, 0x0, 0x0, 0x0, 0x0, 0x0, 0x0, .plain⟩,
   ⟨0x78, 1, 4, 0x0, 0x0, 0x0, 0x0, 0x0, 0x0, .plain⟩,
   ⟨0x7c, 1, 4, 0x3e8, 0xfffff, 0x0, 0x0, 0xfffff, 0xfffff, .plain⟩,
   ⟨0x80, 1, 4, 0x1f4, 0x3ff, 0x0, 0x0, 0x0, 0x3ff, .plain⟩,
   ⟨0x84, 1, 4, 0x0, 0x0, 0x0, 0x0, 0x0, 0x0, .plain⟩,
   ⟨0x88, 1, 4, 0x0, 0x0, 0x0, 0x0, 0x0, 0x0, .plain⟩,
   ⟨0x8c, 1, 4, 0x0, 0x0, 0x0, 0x0, 0x0, 0x0, .plain⟩,
   ⟨0x90, 1, 4, 0x0, 0x0, 0x0, 0xffff, 0x0, 0x0, .plain⟩,
   ⟨0x94, 1, 4, 0x0, 0x0, 0x0, 0xffffffff, 0x0, 0x0, .plain⟩,
   ⟨0x98, 1, 4, 0x0, 0x0, 0x0, 0xffffffff, 0x0, 0x0, .plain⟩,
   ⟨0x9c, 1, 4, 0x0, 0x0, 0x0, 0x0, 0x0, 0x0, .plain⟩,
   ⟨0xa0, 1, 4, 0x0, 0x0, 0x0, 0x0, 0x0, 0x0, .plain⟩]

def rowsRCK : List RegRow := rowsRCK0 ++ rowsRCK1

def rowsSTP : List RegRow :=
  [⟨0x40, 12, 12, 0x0, 0xffff3f1f, 0x0, 0x0, 0x3f00, 0xffff3f1f, .plain⟩,
   ⟨0x44, 12, 12, 0x0, 0x0, 0x0, 0x0, 0x0, 0x0, .plain⟩,
   ⟨0x48, 12, 12, 0x0, 0x0, 0x0, 0x0, 0x0, 0x0, .plain⟩,
   ⟨0xd0, 1, 4, 0x101, 0xff03, 0x0, 0x0, 0x0, 0x0, .plain⟩,
   ⟨0xd4, 1, 4, 0x0, 0xffffffff, 0x0, 0x0, 0x0, 0x0, .plain⟩,
   ⟨0xd8, 1, 4, 0xff, 0xffffffff, 0x0, 0x0, 0x0, 0x0, .plain⟩,
   ⟨0xdc, 1, 4, 0x0, 0x0, 0x0, 0x0, 0x0, 0x0, .plain⟩,
   ⟨0xe0, 1, 4, 0x30c, 0xf0f, 0x0, 0x0, 0x0, 0x0, .plain⟩,
   ⟨0xe4, 1, 4, 0x0, 0x0, 0x0, 0x0, 0x0, 0x0, .plain⟩,
   ⟨0xe8, 1, 4, 0x0, 0xf, 0x0, 0x0, 0x0, 0x0, .plain⟩,
   ⟨0xec, 1, 4, 0x0, 0x0, 0x0, 0x0, 0x0, 0x0, .plain⟩,
   ⟨0xf0, 1, 4, 0x0, 0x0, 0x0, 0x0, 0x0, 0x0, .plain⟩]

def rowsSXT0 : List RegRow :=
  [⟨0x40, 1, 4, 0x148600, 0xffff0f, 0x0, 0x0, 0x3, 0x0, .plain⟩,
   ⟨0x44, 1, 4, 0x0, 0xffffffff, 0x0, 0x0, 0x0, 0x0, .plain⟩,
   ⟨0x48, 1, 4, 0x0, 0xffffff0f, 0x0, 0x0, 0x0, 0x0, .plain⟩,
   ⟨0x4c, 1, 4, 0x1000000, 0xffffffff, 0x0, 0x0, 0x0, 0x0, .plain⟩,
   ⟨0x50, 1, 4, 0x0, 0xff00ff07, 0x0, 0x0, 0x0, 0x0, .plain⟩,
   ⟨0x54, 1, 4, 0x0, 0xffffff, 0x0, 0x0, 0x0, 0x0, .plain⟩,
   ⟨0x58, 1, 4, 0x32e24, 0xfffff, 0x0, 0x0, 0x0, 0x0, .plain⟩,
   ⟨0x5c, 1, 4, 0x0, 0xffffffff, 0x0, 0x0, 0x0, 0x0, .plain⟩,
   ⟨0x60, 1, 4, 0x0, 0x0, 0x0, 0x0, 0x0, 0x0, .plain⟩,
   ⟨0x64, 1, 4, 0x0, 0x0, 0x3f, 0x0, 0x0, 0x0, .plain⟩,
   ⟨0x68, 1, 4, 0x0, 0x0, 0x0, 0x0, 0x0, 0x0, .plain⟩,
   ⟨0x6c, 1, 4, 0x0, 0x0, 0x0, 0x0, 0x0, 0x0, .plain⟩]

def rowsSXT1 : List RegRow :=
  [⟨0x70, 1, 4, 0x0, 0x0, 0x0, 0x0, 0x0, 0x0, .plain⟩,
   ⟨0x74, 1, 4, 0x0, 0x0, 0x0, 0x0, 0x0, 0x0, .plain⟩,
   ⟨0x78, 1, 4, 0x0, 0x0, 0x0, 0x0, 0x0, 0x0, .plain⟩,
   ⟨0x7c, 1, 4, 0x0, 0x0, 0x0, 0x0, 0x0, 0x0, .plain⟩,
   ⟨0x80, 1, 4, 0x501, 0xff03, 0x0, 0x0, 0x0, 0x0, .plain⟩,
   ⟨0x84, 1, 4, 0xa, 0xffffffff, 0x0, 0x0, 0x0, 0x0, .plain⟩,
   ⟨0x88, 1, 4, 0x4e20, 0xffffffff, 0x0, 0x0, 0x0, 0x0, .plain⟩,
   ⟨0x8c, 1, 4, 0x0, 0x0, 0x0, 0x0, 0x0, 0x0, .plain⟩,
   ⟨0x90, 1, 4, 0x10, 0xff, 0x0, 0x0, 0x0, 0x0, .plain⟩,
   ⟨0x94, 1, 4, 0x0, 0x0, 0x0, 0x0, 0x0, 0x0, .plain⟩,
   ⟨0x98, 1, 4, 0x0, 0x0, 0x0, 0x0, 0x0, 0x0, .plain⟩,
   ⟨0x9c, 1, 4, 0x0, 0x0, 0x0, 0x0, 0x0, 0x0, .plain⟩]

def rowsSXT2 : List RegRow :=
  [⟨0xa0, 1, 4, 0x0, 0x0, 0xffff, 0x0, 0x0, 0x0, .plain⟩,
   ⟨0xc0, 16, 4, 0x0, 0xffffff03, 0x0, 0x0, 0x0, 0x0, .plain⟩]

def rowsSXT : List RegRow := rowsSXT0 ++ rowsSXT1 ++ rowsSXT2

def rowsRSM : List RegRow :=
  [⟨0x40, 8, 16, 0x1000040, 0xff03fff7, 0x0, 0x0, 0x3f000, 0x0, .plain⟩,
   ⟨0x44, 8, 16, 0x0, 0xff0f, 0x0, 0x0, 0x0, 0x0, .plain⟩,
   ⟨0x48, 8, 16, 0x0, 0xffffffff, 0x0, 0x0, 0x0, 0x0, .plain⟩,
   ⟨0x4c, 8, 16, 0x0, 0xffffffff, 0x0, 0x0, 0x0, 0x0, .plain⟩,
   ⟨0xc0, 1, 4, 0x0, 0x7, 0x0, 0x0, 0x0, 0x0, .sel⟩,
   ⟨0xc4, 1, 4, 0x0, 0x0, 0x0, 0x0, 0x0, 0x0, .plain⟩,
   ⟨0xc8, 1, 4, 0x0, 0x0, 0x0, 0x0, 0x0, 0x0, .plain⟩]

def rowsLCK : List RegRow :=
  [⟨0x40, 16, 4, 0x0, 0x0, 0x0, 0x0, 0x0, 0x0, .act⟩,
   ⟨0x80, 1, 4, 0xffff0000, 0x0, 0x0, 0x0, 0x0, 0x0, .plain⟩,
   ⟨0x84, 1, 4, 0x64, 0xffff, 0x0, 0x0, 0x0, 0xffff, .plain⟩,
   ⟨0x88, 2, 4, 0x0, 0xffffffff, 0x0, 0x0, 0xffffffff, 0xffffffff, .plain⟩,
   ⟨0x90, 1, 4, 0x0, 0x0, 0x0, 0x0, 0x0, 0x0, .plain⟩]

def rowsROS : List RegRow :=
  [⟨0x40, 32, 4, 0x0, 0x1fdfff, 0x0, 0x0, 0x1f0000, 0x0, .plain⟩]

def rowsROSS : List RegRow :=
  [⟨0x40, 1, 4, 0xa01, 0x0, 0x0, 0x0, 0x0, 0x0, .plain⟩,
   ⟨0x44, 7, 4, 0x0, 0xf01, 0x0, 0x0, 0xf00, 0x0, .plain⟩,
   ⟨0x60, 1, 4, 0x0, 0x1f1f1f1f, 0x0, 0x0, 0x0, 0x0, .plain⟩,
   ⟨0x64, 2, 4, 0x0, 0xffff070f, 0x0, 0x0, 0x70a, 0xffff070f, .plain⟩,
   ⟨0x6c, 1, 4, 0x0, 0x0, 0x0, 0x3, 0x0, 0x0, .plain⟩,
   ⟨0x70, 1, 4, 0x1, 0xff, 0x0, 0x0, 0xff, 0xff, .plain⟩,
   ⟨0x74, 2, 4, 0x0, 0x0, 0x0, 0xffffffff, 0x0, 0x0, .plain⟩,
   ⟨0x80, 16, 4, 0x0, 0x0, 0x0, 0x0, 0x0, 0x0, .plain⟩,
   ⟨0xc0, 2, 4, 0x0, 0x0, 0xffffffff, 0x0, 0x0, 0x0, .plain⟩,
   ⟨0xc8, 2, 4, 0x0, 0x0, 0xffffffff, 0x0, 0x0, 0x0, .plain⟩,
   ⟨0xd0, 2, 4, 0x0, 0x0, 0xffffffff, 0x0, 0x0, 0x0, .plain⟩]

def rowsHTW : List RegRow :=
  [⟨0x40, 1, 4, 0x602c, 0xff7f7f, 0x0, 0x0, 0x7f7f, 0xff7f7f, .plain⟩,
   ⟨0x44, 1, 4, 0x0, 0x1, 0x0, 0x0, 0x0, 0x1, .plain⟩,
   ⟨0x48, 1, 4, 0x0, 0x0, 0x0, 0x0, 0x0, 0x0, .plain⟩,
   ⟨0x4c, 1, 4, 0x0, 0x0, 0x0, 0x0, 0x0, 0x0, .plain⟩,
   ⟨0x50, 1, 4, 0x0, 0x0, 0x0, 0x0, 0x0, 0x0, .plain⟩,
   ⟨0x54, 1, 4, 0x0, 0x0, 0x0, 0x0, 0x0, 0x0, .plain⟩]

def rowsHSP : List RegRow :=
  [⟨0x40, 1, 4, 0x0, 0x7, 0x0, 0x0, 0x0, 0x7, .plain⟩,
   ⟨0x44, 1, 4, 0x0, 0x0, 0x0, 0x0, 0x0, 0x0, .plain⟩,
   ⟨0x48, 1, 4, 0x0, 0x0, 0x0, 0x0, 0x0, 0x0, .plain⟩,
   ⟨0x4c, 1, 4, 0x0, 0x0, 0x0, 0x0, 0x0, 0x0, .plain⟩]

def rowsTWC0 : List RegRow :=
  [⟨0x40, 1, 4, 0x3231, 0xffff, 0x0, 0x0, 0x7, 0x0, .plain⟩,
   ⟨0x44, 1, 4, 0x2580514, 0xffffffff, 0x0, 0x0, 0x0, 0x0, .plain⟩,
   ⟨0x48, 1, 4, 0x12c0064, 0xffffffff, 0x0, 0x0, 0x0, 0x0, .plain⟩,
   ⟨0x4c, 1, 4, 0x2580258, 0xffffffff, 0x0, 0x0, 0x0, 0x0, .plain⟩,
   ⟨0x50, 1, 4, 0x5140258, 0xffffffff, 0x0, 0x0, 0x0, 0x0, .plain⟩,
   ⟨0x54, 1, 4, 0x1903e8, 0xffffff, 0x0, 0x0, 0x0, 0x0, .plain⟩,
   ⟨0x58, 1, 4, 0x0, 0xffff, 0x0, 0x0, 0x0, 0x0, .plain⟩,
   ⟨0x5c, 1, 4, 0x20, 0x1ff, 0x0, 0x0, 0x0, 0x0, .plain⟩,
   ⟨0x60, 1, 4, 0x0, 0x0, 0x0, 0x0, 0x0, 0x0, .plain⟩,
   ⟨0x64, 1, 4, 0x0, 0x0, 0xff, 0x0, 0x0, 0x0, .plain⟩,
   ⟨0x68, 1, 4, 0x0, 0x0, 0x0, 0x0, 0x0, 0x0, .plain⟩,
   ⟨0x6c, 1, 4, 0x0, 0xf, 0x0, 0x0, 0x0, 0x0, .plain⟩]

def rowsTWC1 : List RegRow :=
  [⟨0x70, 1, 4, 0x0, 0x0, 0x0, 0x0, 0x0, 0x0, .plain⟩,
   ⟨0x74, 1, 4, 0x0, 0x0, 0x0, 0x7f0f, 0x0, 0x0, .plain⟩,
   ⟨0x80, 1, 4, 0xa00, 0xff03, 0x0, 0x0, 0x0, 0x0, .plain⟩,
   ⟨0x84, 1, 4, 0x0, 0xffffffff, 0x0, 0x0, 0x0, 0x0, .plain⟩,
   ⟨0x88, 1, 4, 0x1f4, 0xffffffff, 0x0, 0x0, 0x0, 0x0, .plain⟩,
   ⟨0x8c, 1, 4, 0x0, 0x0, 0x0, 0x0, 0x0, 0x0, .plain⟩,
   ⟨0x90, 1, 4, 0x320064, 0x3ff03ff, 0x0, 0x0, 0x0, 0x0, .plain⟩]

def rowsTWC : List RegRow := rowsTWC0 ++ rowsTWC1

def rowsSPC : List RegRow :=
  [⟨0x40, 1, 4, 0x0, 0xff, 0x0, 0x0, 0x33, 0x0, .plain⟩,
   ⟨0x44, 1, 4, 0x640064, 0xffffffff, 0x0, 0x0, 0x0, 0x0, .plain⟩,
   ⟨0x48, 1, 4, 0x321414, 0xffffffff, 0x0, 0x0, 0x0, 0x0, .plain⟩,
   ⟨0x4c, 1, 4, 0x321414, 0xffffffff, 0x0, 0x0, 0x0, 0x0, .plain⟩,
   ⟨0x50, 1, 4, 0x20, 0x1ff, 0x0, 0x0, 0x0, 0x0, .plain⟩,
   ⟨0x54, 1, 4, 0x0, 0x0, 0x0, 0x0, 0x0, 0x0, .plain⟩,
   ⟨0x58, 1, 4, 0x0, 0x0, 0xff, 0x0, 0x0, 0x0, .plain⟩,
   ⟨0x5c, 1, 4, 0x0, 0x0, 0x0, 0x0, 0x0, 0x0, .plain⟩,
   ⟨0x60, 1, 4, 0x0, 0xf, 0x0, 0x0, 0x0, 0x0, .plain⟩,
   ⟨0x64, 1, 4, 0x0, 0x0, 0x0, 0x0, 0x0, 0x0, .plain⟩,
   ⟨0x68, 1, 4, 0x0, 0x0, 0x0, 0x10f, 0x0, 0x0, .plain⟩]

def rowsAFE0 : List RegRow :=
  [⟨0x40, 1, 4, 0x0, 0x37, 0x0, 0x0, 0x7, 0x0, .plain⟩,
   ⟨0x44, 1, 4, 0x52710, 0xffffff, 0x0, 0x0, 0x0, 0x0, .plain⟩,
   ⟨0x48, 2, 4, 0x40, 0xff, 0x0, 0x0, 0xf, 0x0, .plain⟩,
   ⟨0x50, 1, 4, 0x20, 0x1ff, 0x0, 0x0, 0x0, 0x0, .plain⟩,
   ⟨0x54, 1, 4, 0x0, 0x0, 0x0, 0x0, 0x0, 0x0, .plain⟩,
   ⟨0x58, 1, 4, 0x0, 0x0, 0x3ff, 0x0, 0x0, 0x0, .plain⟩,
   ⟨0x5c, 2, 4, 0x0, 0x0, 0x0, 0x0, 0x0, 0x0, .plain⟩,
   ⟨0x64, 1, 4, 0x320000, 0xffffff, 0x0, 0x3000000, 0x0, 0x0, .plain⟩,
   ⟨0x68, 2, 4, 0x0, 0x0, 0x0, 0x0, 0x0, 0x0, .plain⟩,
   ⟨0x70, 1, 4, 0x3c, 0xffff, 0x0, 0x0, 0x0, 0x0, .plain⟩,
   ⟨0x74, 2, 4, 0x0, 0x0, 0x0, 0x0, 0x0, 0x0, .plain⟩,
   ⟨0x7c, 1, 4, 0x0, 0x0, 0x0, 0x0, 0x0, 0x0, .plain⟩]

def rowsAFE1 : List RegRow :=
  [⟨0x80, 1, 4, 0x401, 0xff03, 0x0, 0x0, 0x0, 0x0, .plain⟩,
   ⟨0x84, 1, 4, 0xff0000, 0xffffffff, 0x0, 0x0, 0x0, 0x0, .plain⟩,
   ⟨0x88, 1, 4, 0x10000, 0xffffffff, 0x0, 0x0, 0x0, 0x0, .plain⟩,
   ⟨0x8c, 1, 4, 0x0, 0x0, 0x0, 0x0, 0x0, 0x0, .plain⟩,
   ⟨0x90, 1, 4, 0x401, 0xff03, 0x0, 0x0, 0x0, 0x0, .plain⟩,
   ⟨0x94, 1, 4, 0xff0000, 0xffffffff, 0x0, 0x0, 0x0, 0x0, .plain⟩,
   ⟨0x98, 1, 4, 0x10000, 0xffffffff, 0x0, 0x0, 0x0, 0x0, .plain⟩,
   ⟨0x9c, 1, 4, 0x0, 0x0, 0x0, 0x0, 0x0, 0x0, .plain⟩]

def rowsAFE : List RegRow := rowsAFE0 ++ rowsAFE1

def rowsPSQ0 : List RegRow :=
  [⟨0x40, 1, 4, 0x1, 0xff, 0x0, 0x0, 0xff, 0xff, .plain⟩,
   ⟨0x44, 2, 4, 0x0, 0x77777777, 0x0, 0x0, 0x77777777, 0x77777777, .plain⟩,
   ⟨0x4c, 1, 4, 0x0, 0x0, 0x0, 0x0, 0x0, 0x0, .plain⟩,
   ⟨0x50, 1, 4, 0x0, 0x0, 0x0, 0x0, 0x0, 0x0, .plain⟩,
   ⟨0x54, 1, 4, 0x0, 0x0, 0x0, 0x0, 0x0, 0x0, .plain⟩,
   ⟨0x58, 1, 4, 0x0, 0x0, 0x0, 0x0, 0x0, 0x0, .plain⟩,
   ⟨0x5c, 1, 4, 0x0, 0x77, 0x0, 0x0, 0x0, 0x0, .plain⟩,
   ⟨0x60, 1, 4, 0x0, 0x0, 0x0, 0x0, 0x0, 0x0, .plain⟩,
   ⟨0x70, 1, 4, 0x501, 0xff03, 0x0, 0x0, 0x0, 0x0, .plain⟩,
   ⟨0x74, 1, 4, 0x0, 0xffffffff, 0x0, 0x0, 0x0, 0x0, .plain⟩,
   ⟨0x78, 1, 4, 0x3e8, 0xffffffff, 0x0, 0x0, 0x0, 0x0, .plain⟩,
   ⟨0x7c, 1, 4, 0x0, 0x0, 0x0, 0x0, 0x0, 0x0, .plain⟩]

def rowsPSQ1 : List RegRow :=
  [⟨0x80, 1, 4, 0x100a, 0xffff, 0x0, 0x0, 0x0, 0x0, .plain⟩,
   ⟨0x90, 16, 4, 0x0, 0xffffffff, 0x0, 0x0, 0xffffffff, 0xffffffff, .plain⟩]

def rowsPSQ : List RegRow := rowsPSQ0 ++ rowsPSQ1

def rowsDSC : List RegRow :=
  [⟨0x40, 1, 4, 0x0, 0xff, 0x0, 0x0, 0x0, 0x0, .sel⟩,
   ⟨0x44, 8, 4, 0x0, 0xffffffff, 0x0, 0x0, 0x0, 0x0, .plain⟩,
   ⟨0x64, 1, 4, 0x0, 0x0, 0x0, 0x0, 0x0, 0x0, .plain⟩,
   ⟨0x68, 1, 4, 0x0, 0x0, 0x0, 0x0, 0x0, 0x0, .plain⟩,
   ⟨0x6c, 1, 4, 0x0, 0x0, 0x0, 0x0, 0x0, 0x0, .plain⟩,
   ⟨0x70, 1, 4, 0x0, 0x0, 0x0, 0x0, 0x0, 0x0, .plain⟩,
   ⟨0x74, 1, 4, 0x0, 0x0, 0x0, 0x0, 0x0, 0x0, .plain⟩,
   ⟨0x78, 1, 4, 0x0, 0x0, 0x0, 0x0, 0x0, 0x0, .plain⟩,
   ⟨0x7c, 1, 4, 0x0, 0x0, 0x0, 0x0, 0x0, 0x0, .plain⟩]

def rowsASY0 : List RegRow :=
  [⟨0x40, 4, 32, 0x0, 0x1f3fff07, 0x0, 0x0, 0x3f0006, 0x0, .plain⟩,
   ⟨0x44, 4, 32, 0x0, 0xffffff1f, 0x0, 0x0, 0x0, 0x0, .plain⟩,
   ⟨0x48, 4, 32, 0x0, 0xff1f0777, 0x0, 0x0, 0x0, 0x0, .plain⟩,
   ⟨0x4c, 4, 32, 0x0, 0x0, 0x70000, 0x0, 0x0, 0x0, .plain⟩,
   ⟨0x50, 4, 32, 0x600, 0xff03, 0x0, 0x0, 0x0, 0x0, .plain⟩,
   ⟨0x54, 4, 32, 0x80000000, 0xffffffff, 0x0, 0x0, 0x0, 0x0, .plain⟩,
   ⟨0x58, 4, 32, 0x7fffffff, 0xffffffff, 0x0, 0x0, 0x0, 0x0, .plain⟩,
   ⟨0x5c, 4, 32, 0x0, 0x0, 0x0, 0x0, 0x0, 0x0, .plain⟩,
   ⟨0xc0, 1, 4, 0x0, 0xf03, 0x0, 0x0, 0x0, 0x0, .sel⟩,
   ⟨0xc4, 8, 4, 0x0, 0xffffffff, 0x0, 0x0, 0x0, 0x0, .plain⟩,
   ⟨0xe4, 1, 4, 0x0, 0x0, 0x0, 0x0, 0x0, 0x0, .plain⟩,
   ⟨0xe8, 1, 4, 0x0, 0x0, 0x0, 0x0, 0x0, 0x0, .plain⟩]

def rowsASY1 : List RegRow :=
  [⟨0xec, 1, 4, 0x0, 0x0, 0x0, 0x0, 0x0, 0x0, .plain⟩]

def rowsASY : List RegRow := rowsASY0 ++ rowsASY1

def rowsQUE0 : List RegRow :=
  [⟨0x40, 1, 4, 0xe800e800, 0x0, 0x0, 0x0, 0x0, 0x0, .plain⟩,
   ⟨0x44, 1, 4, 0x0, 0x0, 0x0, 0xff0000ff, 0x0, 0x0, .plain⟩,
   ⟨0x48, 1, 4, 0x0, 0x0, 0x1000000, 0x0, 0x0, 0x0, .plain⟩,
   ⟨0x4c, 1, 4, 0xa0800, 0xffffff, 0x0, 0x0, 0x0, 0xffffff, .plain⟩,
   ⟨0x50, 1, 4, 0x401, 0xff03, 0x0, 0x0, 0x0, 0x0, .plain⟩,
   ⟨0x54, 1, 4, 0x0, 0xffffffff, 0x0, 0x0, 0x0, 0x0, .plain⟩,
   ⟨0x58, 1, 4, 0xf800, 0xffffffff, 0x0, 0x0, 0x0, 0x0, .plain⟩,
   ⟨0x5c, 1, 4, 0x0, 0x0, 0x0, 0x0, 0x0, 0x0, .plain⟩,
   ⟨0x60, 1, 4, 0x1f800100, 0xffff0fff, 0x0, 0x0, 0xfff0fff, 0xffff0fff, .plain⟩,
   ⟨0x64, 7, 4, 0x10000000, 0xffff0fff, 0x0, 0x0, 0xfff0fff, 0xffff0fff, .plain⟩,
   ⟨0x80, 8, 4, 0x7d0, 0x1ffff, 0x0, 0x0, 0x0, 0x1ffff, .plain⟩,
   ⟨0xa0, 8, 4, 0x0, 0x0, 0x0, 0x0, 0x0, 0x0, .plain⟩]

def rowsQUE1 : List RegRow :=
  [⟨0xc0, 8, 4, 0x0, 0x0, 0x0, 0x0, 0x0, 0x0, .stream⟩,
   ⟨0xe0, 8, 4, 0x0, 0x0, 0x380, 0x0, 0x0, 0x0, .plain⟩]

def rowsQUE : List RegRow := rowsQUE0 ++ rowsQUE1

def rowsBND : List RegRow :=
  [⟨0x40, 32, 4, 0xfa04002, 0xfffdff0b, 0x0, 0x0, 0xb, 0xfffdff03, .plain⟩,
   ⟨0xc0, 1, 4, 0x0, 0x71ff, 0x0, 0x0, 0x0, 0x0, .sel⟩,
   ⟨0xc4, 1, 4, 0x0, 0x7, 0x0, 0x0, 0x0, 0x0, .plain⟩,
   ⟨0xc8, 1, 4, 0x0, 0x7, 0x0, 0x0, 0x0, 0x0, .sel⟩,
   ⟨0xcc, 1, 4, 0x0, 0x0, 0x0, 0x0, 0x0, 0x0, .plain⟩,
   ⟨0xd0, 1, 4, 0x0, 0x0, 0x0, 0x0, 0x0, 0x0, .plain⟩,
   ⟨0xd4, 1, 4, 0x0, 0x0, 0x0, 0x0, 0x0, 0x0, .plain⟩,
   ⟨0xd8, 1, 4, 0x0, 0x0, 0x0, 0x0, 0x0, 0x0, .plain⟩,
   ⟨0xdc, 1, 4, 0x3c, 0xffff, 0x0, 0x0, 0x0, 0xffff, .plain⟩,
   ⟨0xe0, 1, 4, 0x0, 0x0, 0x0, 0x0, 0x0, 0x0, .plain⟩,
   ⟨0xe4, 1, 4, 0x0, 0x0, 0x0, 0x0, 0x0, 0x0, .plain⟩]

def rowsKEY0 : List RegRow :=
  [⟨0x40, 1, 4, 0x0, 0x7, 0x0, 0x0, 0x0, 0x0, .sel⟩,
   ⟨0x44, 1, 4, 0x0, 0x0, 0x0, 0x0, 0x0, 0x0, .plain⟩,
   ⟨0x48, 1, 4, 0x0, 0x0, 0x0, 0x0, 0x0, 0x0, .plain⟩,
   ⟨0x4c, 1, 4, 0x0, 0x0, 0x0, 0x0, 0x0, 0x0, .plain⟩,
   ⟨0x50, 1, 4, 0x0, 0x0, 0x0, 0x0, 0x0, 0x0, .plain⟩,
   ⟨0x54, 1, 4, 0x0, 0x0, 0x0, 0x0, 0x0, 0x0, .plain⟩,
   ⟨0x58, 1, 4, 0x0, 0x0, 0x0, 0x0, 0x0, 0x0, .plain⟩,
   ⟨0x5c, 1, 4, 0x0, 0x0, 0x0, 0x0, 0x0, 0x0, .plain⟩,
   ⟨0x60, 1, 4, 0x0, 0x0, 0x0, 0x0, 0x0, 0x0, .plain⟩,
   ⟨0x64, 1, 4, 0x0, 0x0, 0x0, 0x0, 0x0, 0x0, .plain⟩,
   ⟨0x68, 1, 4, 0x0, 0x0, 0x0, 0x0, 0x0, 0x0, .plain⟩,
   ⟨0x6c, 1, 4, 0x0, 0x0, 0x0, 0x0, 0x0, 0x0, .stream⟩]

def rowsKEY1 : List RegRow :=
  [⟨0x70, 1, 4, 0x0, 0x0, 0x0, 0x0, 0x0, 0x0, .stream⟩,
   ⟨0x74, 1, 4, 0x0, 0x0, 0x0, 0x0, 0x0, 0x0, .plain⟩,
   ⟨0x78, 1, 4, 0x0, 0x0, 0x0, 0x0, 0x0, 0x0, .plain⟩]

def rowsKEY : List RegRow := rowsKEY0 ++ rowsKEY1

def rowsTAM0 : List RegRow :=
  [⟨0x40, 1, 4, 0x1111212, 0x7777777, 0x0, 0x0, 0x7777777, 0x7777777, .plain⟩,
   ⟨0x44, 1, 4, 0x0, 0x0, 0x0, 0x0, 0x0, 0x0, .plain⟩,
   ⟨0x48, 1, 4, 0x0, 0x0, 0x0, 0x7f, 0x0, 0x0, .plain⟩,
   ⟨0x4c, 1, 4, 0x0, 0x0, 0x0, 0x0, 0x0, 0x0, .plain⟩,
   ⟨0x50, 2, 4, 0x0, 0x0, 0x0, 0x0, 0x0, 0x0, .plain⟩,
   ⟨0x58, 1, 4, 0xe509, 0xffff, 0x0, 0x0, 0xffff, 0xffff, .plain⟩,
   ⟨0x5c, 1, 4, 0xbd18, 0xffff, 0x0, 0x0, 0x0, 0xffff, .plain⟩,
   ⟨0x60, 1, 4, 0x1, 0xff, 0x0, 0x0, 0x0, 0xff, .plain⟩,
   ⟨0x64, 1, 4, 0x0, 0x0, 0x0, 0x0, 0x0, 0x0, .plain⟩,
   ⟨0x68, 1, 4, 0x4003e8, 0xffffffff, 0x0, 0x0, 0xffffffff, 0xffffffff, .plain⟩,
   ⟨0x6c, 1, 4, 0x0, 0x0, 0x0, 0x0, 0x0, 0x0, .plain⟩,
   ⟨0x70, 1, 4, 0x0, 0x0, 0x0, 0x0, 0x0, 0x0, .plain⟩]

def rowsTAM1 : List RegRow :=
  [⟨0x74, 1, 4, 0x64, 0xffff, 0x0, 0x0, 0x0, 0xffff, .plain⟩,
   ⟨0x78, 1, 4, 0x0, 0x0, 0x3, 0x0, 0x0, 0x0, .plain⟩]

def rowsTAM : List RegRow := rowsTAM0 ++ rowsTAM1

def rowsLOG : List RegRow :=
  [⟨0x40, 1, 4, 0x0, 0x0, 0x0, 0x0, 0x1, 0x0, .plain⟩,
   ⟨0x44, 1, 4, 0x0, 0x0, 0x0, 0x0, 0x0, 0x0, .plain⟩,
   ⟨0x48, 1, 4, 0x0, 0x107ff, 0x0, 0x0, 0x0, 0x0, .sel⟩,
   ⟨0x4c, 1, 4, 0x0, 0x0, 0x0, 0x0, 0x0, 0x0, .stream⟩,
   ⟨0x50, 1, 4, 0x0, 0x0, 0x0, 0x0, 0x0, 0x0, .plain⟩,
   ⟨0x54, 1, 4, 0x1, 0xff, 0x0, 0x0, 0x0, 0xff, .plain⟩,
   ⟨0x58, 1, 4, 0x0, 0x0, 0x0, 0x0, 0x0, 0x0, .plain⟩,
   ⟨0x5c, 1, 4, 0x0, 0x0, 0x0, 0x0, 0x0, 0x0, .plain⟩]

def rowsSTW : List RegRow :=
  [⟨0x40, 1, 4, 0x0, 0x0, 0x0, 0x0, 0x0, 0x0, .plain⟩,
   ⟨0x44, 1, 4, 0x0, 0x0, 0x0, 0x0, 0x0, 0x0, .plain⟩,
   ⟨0x48, 1, 4, 0x0, 0x0, 0x0, 0x0, 0x0, 0x0, .plain⟩]

def rowsNVS : List RegRow :=
  [⟨0x40, 1, 4, 0x0, 0x0, 0x0, 0x0, 0x0, 0x0, .plain⟩,
   ⟨0x44, 1, 4, 0x0, 0x0, 0x0, 0x0, 0x0, 0x0, .plain⟩,
   ⟨0x48, 1, 4, 0x0, 0x0, 0x0, 0x0, 0x0, 0x0, .plain⟩,
   ⟨0x4c, 1, 4, 0x0, 0x1ff, 0x0, 0x0, 0x0, 0x0, .sel⟩,
   ⟨0x50, 1, 4, 0x0, 0x0, 0x0, 0x0, 0x0, 0x0, .plain⟩]

def rowsTST : List RegRow :=
  [⟨0x40, 1, 4, 0x0, 0x3, 0x0, 0x0, 0x0, 0x0, .plain⟩,
   ⟨0x44, 1, 4, 0x0, 0x0, 0x0, 0x0, 0x0, 0x0, .plain⟩,
   ⟨0x48, 1, 4, 0x0, 0x0, 0x0, 0x0, 0x0, 0x0, .plain⟩]

def rowsTN : List RegRow :=
  [⟨0x40, 1, 4, 0x0, 0x0, 0x0, 0x0, 0x0, 0x0, .stream⟩,
   ⟨0x44, 1, 4, 0x0, 0x0, 0x0, 0x0, 0x0, 0x0, .plain⟩,
   ⟨0x48, 1, 4, 0x0, 0x0, 0x0, 0x0, 0x0, 0x0, .stream⟩,
   ⟨0x4c, 1, 4, 0x0, 0x0, 0x0, 0x0, 0x0, 0x0, .plain⟩,
   ⟨0x50, 1, 4, 0x0, 0x0, 0x0, 0x1, 0x0, 0x0, .plain⟩,
   ⟨0x54, 1, 4, 0x0, 0x0, 0x0, 0x0, 0x0, 0x0, .stream⟩,
   ⟨0x58, 1, 4, 0x0, 0x0, 0x0, 0x0, 0x0, 0x0, .stream⟩,
   ⟨0x5c, 1, 4, 0x0, 0x0, 0x0, 0x0, 0x0, 0x0, .plain⟩,
   ⟨0x60, 1, 4, 0x0, 0x0, 0x0, 0x0, 0x0, 0x0, .plain⟩,
   ⟨0x64, 1, 4, 0x0, 0xffff, 0x0, 0x0, 0x0, 0x0, .plain⟩,
   ⟨0x68, 1, 4, 0x0, 0x0, 0x0, 0x0, 0x0, 0x0, .stream⟩,
   ⟨0x80, 16, 4, 0x0, 0x0, 0x0, 0x0, 0x0, 0x0, .act⟩]

/-- Pages 0x1B-0x1F hold no ASY_PIPE, ASY_CRIT and ASY_LOAD (R335). -/
def rowsASYn : List RegRow := rowsASY.filter (fun r => decide (r.off < 0xE4))

/-- How the owner of a page is set (R129). -/
inductive OwnerKind where
  | fixed (n : Nat)
  | assignable
  | perResource
  deriving DecidableEq, Repr

/-- What the directory (R129) and a page's home chapter fix of its common header: the PID, the way its owner is set,
WP fixed at 1, the reset value of PCTL.EN, whether PCTL.EN can be written, whether PCTL.SRST is implemented, the
page's block PIRQ bits, PCAP.LAST and PCAP.LOOPS, and its block registers. -/
structure PageDef where
  page : Nat
  pid : Nat
  owner : OwnerKind
  wpFixed : Bool
  enReset : Bool
  enWritable : Bool
  srst : Bool
  irq : Nat
  last : Nat
  loops : Nat
  rows : List RegRow
  deriving DecidableEq, Repr

def pagesLow : List PageDef :=
  [⟨0x00, 0x01010000, .fixed 0, true, false, false, false, 0, 0x1A, 0, rowsIDN⟩,
   ⟨0x01, 0x02010000, .fixed 0, false, true, false, true, 0x700, 0x22, 0, rowsSYS⟩,
   ⟨0x02, 0x03010000, .fixed 0, false, true, false, true, 0x700, 0x18, 0, rowsCLK⟩,
   ⟨0x03, 0x04010000, .fixed 0, false, true, false, true, 0x1F00, 0x1D, 0, rowsPWR⟩,
   ⟨0x04, 0x05010000, .fixed 0, false, true, false, false, 0x700, 0x26, 3, rowsPLN⟩,
   ⟨0x05, 0x06010000, .fixed 0, false, true, false, false, 0xF00, 0x28, 1, rowsRCK⟩,
   ⟨0x06, 0x07010000, .perResource, false, true, false, true, 0x300, 0x3C, 1, rowsSTP⟩,
   ⟨0x07, 0x08010000, .assignable, false, false, true, true, 0xF00, 0x3F, 1, rowsSXT⟩,
   ⟨0x08, 0x09010000, .perResource, false, true, true, true, 0x300, 0x32, 0, rowsRSM⟩,
   ⟨0x09, 0x0A010000, .fixed 0, false, true, false, true, 0x100, 0x24, 0, rowsLCK⟩,
   ⟨0x0A, 0x0B010000, .perResource, false, true, false, false, 0, 0x2F, 0, rowsROS⟩,
   ⟨0x0B, 0x0B110000, .perResource, false, true, false, false, 0, 0x2F, 0, rowsROS⟩]

def pagesMid : List PageDef :=
  [⟨0x0C, 0x0B210000, .perResource, false, true, false, true, 0x700, 0x35, 0, rowsROSS⟩,
   ⟨0x0D, 0x0C010000, .fixed 0, false, true, false, false, 0x700, 0x15, 0, rowsHTW⟩,
   ⟨0x0E, 0x0D010000, .fixed 0, false, true, false, false, 0x700, 0x13, 0, rowsHSP⟩,
   ⟨0x10, 0x10010000, .assignable, false, false, true, true, 0x700, 0x24, 1, rowsTWC⟩,
   ⟨0x11, 0x10110000, .assignable, false, false, true, true, 0x700, 0x24, 1, rowsTWC⟩,
   ⟨0x12, 0x10210000, .assignable, false, false, true, true, 0x700, 0x24, 1, rowsTWC⟩,
   ⟨0x13, 0x10310000, .assignable, false, false, true, true, 0x700, 0x24, 1, rowsTWC⟩,
   ⟨0x14, 0x11010000, .assignable, false, false, true, true, 0x300, 0x1A, 0, rowsSPC⟩,
   ⟨0x15, 0x11110000, .assignable, false, false, true, true, 0x300, 0x1A, 0, rowsSPC⟩,
   ⟨0x16, 0x11210000, .assignable, false, false, true, true, 0x300, 0x1A, 0, rowsSPC⟩,
   ⟨0x17, 0x12010000, .assignable, false, false, true, true, 0x700, 0x27, 2, rowsAFE⟩,
   ⟨0x18, 0x13010000, .fixed 0, false, true, true, true, 0x300, 0x33, 1, rowsPSQ⟩]

def pagesUnit : List PageDef :=
  [⟨0x19, 0x14010000, .perResource, false, true, false, false, 0, 0x1F, 0, rowsDSC⟩,
   ⟨0x1A, 0x15010000, .perResource, false, true, true, true, 0xF00, 0x3B, 4, rowsASY⟩,
   ⟨0x1B, 0x15110000, .perResource, false, true, true, true, 0xF00, 0x38, 4, rowsASYn⟩,
   ⟨0x1C, 0x15210000, .perResource, false, true, true, true, 0xF00, 0x38, 4, rowsASYn⟩,
   ⟨0x1D, 0x15310000, .perResource, false, true, true, true, 0xF00, 0x38, 4, rowsASYn⟩,
   ⟨0x1E, 0x15410000, .perResource, false, true, true, true, 0xF00, 0x38, 4, rowsASYn⟩,
   ⟨0x1F, 0x15510000, .perResource, false, true, true, true, 0xF00, 0x38, 4, rowsASYn⟩,
   ⟨0x20, 0x16010000, .perResource, false, true, false, false, 0x700, 0x3F, 1, rowsQUE⟩,
   ⟨0x21, 0x17010000, .perResource, false, true, false, false, 0x700, 0x39, 0, rowsBND⟩,
   ⟨0x22, 0x18010000, .fixed 0, true, true, false, false, 0x700, 0x1E, 0, rowsKEY⟩,
   ⟨0x23, 0x19010000, .fixed 0, true, true, false, false, 0x700, 0x1E, 0, rowsTAM⟩,
   ⟨0x24, 0x1A010000, .fixed 0, true, true, false, false, 0x700, 0x17, 0, rowsLOG⟩]

def pagesHigh : List PageDef :=
  [⟨0x25, 0x1B010000, .fixed 0, true, true, false, false, 0, 0x12, 0, rowsSTW⟩,
   ⟨0x26, 0x1C010000, .fixed 0, true, true, false, false, 0x300, 0x14, 0, rowsNVS⟩,
   ⟨0x27, 0x1D010000, .fixed 0, false, true, false, false, 0, 0x12, 0, rowsTST⟩,
   ⟨0x30, 0x20010000, .fixed 0, false, true, false, false, 0x100, 0x2F, 0, rowsTN⟩,
   ⟨0x31, 0x20110000, .fixed 1, false, true, false, false, 0x100, 0x2F, 0, rowsTN⟩,
   ⟨0x32, 0x20210000, .fixed 2, false, true, false, false, 0x100, 0x2F, 0, rowsTN⟩,
   ⟨0x33, 0x20310000, .fixed 3, false, true, false, false, 0x100, 0x2F, 0, rowsTN⟩,
   ⟨0x34, 0x20410000, .fixed 4, false, true, false, false, 0x100, 0x2F, 0, rowsTN⟩,
   ⟨0x35, 0x20510000, .fixed 5, false, true, false, false, 0x100, 0x2F, 0, rowsTN⟩,
   ⟨0x36, 0x20610000, .fixed 6, false, true, false, false, 0x100, 0x2F, 0, rowsTN⟩,
   ⟨0x37, 0x20710000, .fixed 7, false, true, false, false, 0x100, 0x2F, 0, rowsTN⟩]

/-- The page directory (R129): the implemented pages. -/
def pageDirectory : List PageDef := pagesLow ++ pagesMid ++ pagesUnit ++ pagesHigh

/-- The directory's entry of a page; none for a page that is reserved or not implemented (R126). -/
def pageDef (p : Nat) : Option PageDef := firstWith (fun d => d.page == p) pageDirectory

/-- The row of a page that holds the block register at offset `o`. -/
def rowAt (rs : List RegRow) (o : Nat) : Option RegRow :=
  firstWith (fun r => decide (r.off ≤ o) && (o - r.off) % r.stride == 0 && decide ((o - r.off) / r.stride < r.cnt)) rs

/-- The row of the block register at byte address `a`, if one is implemented there. -/
def regRow (a : Nat) : Option RegRow :=
  match pageDef (a / 256) with
  | none => none
  | some d => rowAt d.rows (a % 256)

/-- The header reset values that are not 0: PCTL.EN, and the fixed fields of POWN (R129, R130). -/
def headerReset (d : PageDef) (o : Nat) : Nat :=
  if o = 0x08 then (if d.enReset then 1 else 0)
  else if o = 0x20 then
    (match d.owner with | .fixed n => n | _ => 0) + (if d.wpFixed then 16 else 0)
  else 0

/-- The value of the register at byte address `a` after a FULL reset, before boot restores stored values. -/
def resetOf (a : Nat) : Word :=
  match pageDef (a / 256) with
  | none => 0
  | some d =>
    if a % 256 < 0x40 then BitVec.ofNat 32 (headerReset d (a % 256))
    else match rowAt d.rows (a % 256) with
      | none => 0
      | some r => BitVec.ofNat 32 r.rst

/-! Header fields:  of page `p` (R130). -/
def F.PCTL_EN (p : Nat) : Fld := ⟨256 * p + 0x08, 0, 1⟩
def F.PIRQ_EN (p : Nat) : Fld := ⟨256 * p + 0x14, 0, 32⟩
def F.PIRQ (p : Nat) : Fld := ⟨256 * p + 0x18, 0, 32⟩
def F.PIRQ_ROUTE_HWAKE (p : Nat) : Fld := ⟨256 * p + 0x1C, 0, 1⟩
def F.PIRQ_ROUTE_ROSE (p : Nat) : Fld := ⟨256 * p + 0x1C, 1, 1⟩
def F.PIRQ_ROUTE_RECORD (p : Nat) : Fld := ⟨256 * p + 0x1C, 2, 1⟩
def F.POWN_OWNER (p : Nat) : Fld := ⟨256 * p + 0x20, 0, 3⟩
def F.POWN_WP (p : Nat) : Fld := ⟨256 * p + 0x20, 4, 1⟩
def F.POWN_HP (p : Nat) : Fld := ⟨256 * p + 0x20, 5, 1⟩
def F.POWN_LOCK (p : Nat) : Fld := ⟨256 * p + 0x20, 8, 1⟩
def F.PSHD_MISM (p : Nat) : Fld := ⟨256 * p + 0x24, 0, 1⟩
def F.PSHD_COUNT (p : Nat) : Fld := ⟨256 * p + 0x24, 8, 8⟩
def F.PSHD_LAST_OFF (p : Nat) : Fld := ⟨256 * p + 0x24, 16, 8⟩
def F.PERR (p : Nat) : Fld := ⟨256 * p + 0x28, 0, 32⟩
def F.PDEN_COUNT (p : Nat) : Fld := ⟨256 * p + 0x2C, 0, 16⟩

def A.IDN_PART : Nat := 0x0040
def A.IDN_REV : Nat := 0x0044
def A.IDN_ROM : Nat := 0x0048
def A.IDN_FW : Nat := 0x004c
def A.IDN_API : Nat := 0x0050
def A.IDN_FMT : Nat := 0x0054
def A.IDN_DEVID_LO : Nat := 0x0058
def A.IDN_DEVID_HI : Nat := 0x005c
def A.IDN_BOOTNUM : Nat := 0x0060
def A.IDN_CAP : Nat := 0x0064
def A.IDN_DPK : Nat := 0x0068
def A.SYS_PSTATE : Nat := 0x0140
def A.SYS_STOW : Nat := 0x0144
def A.SYS_WAKE_EN : Nat := 0x0148
def A.SYS_WAKE_POL : Nat := 0x014c
def A.SYS_WAKE_CAUSE : Nat := 0x0150
def A.SYS_HWAKE : Nat := 0x0154
def A.SYS_DIP : Nat := 0x0158
def A.SYS_RST_CAUSE : Nat := 0x0160
def A.SYS_RST_PART : Nat := 0x0164
def A.SYS_RST_CMD : Nat := 0x0168
def A.SYS_HREL : Nat := 0x016c
def A.SYS_WDOG : Nat := 0x0170
def A.SYS_WDOG_KICK : Nat := 0x0174
def A.SYS_WDOG_STAT : Nat := 0x0178
def A.SYS_SESSION : Nat := 0x017c
def A.SYS_BOOT : Nat := 0x0180
def A.SYS_LIFE : Nat := 0x0184
def A.SYS_DORM : Nat := 0x0188
def A.CLK_XO : Nat := 0x0240
def A.CLK_SYN : Nat := 0x0244
def A.CLK_GEAR : Nat := 0x0248
def A.CLK_GREQ : Nat := 0x024c
def A.CLK_FLOOR : Nat := 0x0250
def A.CLK_PERIOD : Nat := 0x0254
def A.CLK_MON : Nat := 0x0258
def A.CLK_EVT : Nat := 0x025c
def A.CLK_GSW : Nat := 0x0260
def A.PWR_THR : Nat := 0x0340
def A.PWR_THR_STAT : Nat := 0x0344
def A.PWR_MEAS : Nat := 0x0348
def A.PWR_HARV : Nat := 0x034c
def A.PWR_HSTAT : Nat := 0x0350
def A.PWR_CORE : Nat := 0x0354
def A.PWR_VHOST : Nat := 0x0358
def A.PWR_VSENS (n : Nat) : Nat := 0x035c + 4 * n
def A.PWR_RAILEVT : Nat := 0x0368
def A.PWR_BANK : Nat := 0x036c
def A.PWR_DIP : Nat := 0x0370
def A.PWR_DIPCNT : Nat := 0x0374
def A.PLN_AVS_LCTL : Nat := 0x0440
def A.PLN_AVS_LLO : Nat := 0x0444
def A.PLN_AVS_LHI : Nat := 0x0448
def A.PLN_AVS_LSTATE : Nat := 0x044c
def A.PLN_AVS_CFG : Nat := 0x0450
def A.PLN_AVS_STAT : Nat := 0x0454
def A.PLN_VSEL : Nat := 0x0458
def A.PLN_VTAB : Nat := 0x045c
def A.PLN_GEAR_LCTL : Nat := 0x0460
def A.PLN_GEAR_LLO : Nat := 0x0464
def A.PLN_GEAR_LHI : Nat := 0x0468
def A.PLN_GEAR_LSTATE : Nat := 0x046c
def A.PLN_GEAR_CFG : Nat := 0x0470
def A.PLN_GEAR_STAT : Nat := 0x0474
def A.PLN_URG : Nat := 0x0478
def A.PLN_TFLOOR : Nat := 0x047c
def A.PLN_MPPT_LCTL : Nat := 0x0480
def A.PLN_MPPT_LLO : Nat := 0x0484
def A.PLN_MPPT_LHI : Nat := 0x0488
def A.PLN_MPPT_LSTATE : Nat := 0x048c
def A.PLN_MPPT_CFG : Nat := 0x0490
def A.PLN_MPPT_STAT : Nat := 0x0494
def A.PLN_LSUM : Nat := 0x0498
def A.RCK_CTRL : Nat := 0x0540
def A.RCK_STAT : Nat := 0x0544
def A.RCK_HT_LO : Nat := 0x0548
def A.RCK_HT_HI : Nat := 0x054c
def A.RCK_EPOCH : Nat := 0x0550
def A.RCK_OFS_LO : Nat := 0x0554
def A.RCK_OFS_HI : Nat := 0x0558
def A.RCK_DISC_LCTL : Nat := 0x0560
def A.RCK_DISC_LLO : Nat := 0x0564
def A.RCK_DISC_LHI : Nat := 0x0568
def A.RCK_DISC_LSTATE : Nat := 0x056c
def A.RCK_DISC_CFG : Nat := 0x0570
def A.RCK_RATE : Nat := 0x0574
def A.RCK_PHASE : Nat := 0x0578
def A.RCK_STEPLIM : Nat := 0x057c
def A.RCK_SLEWMAX : Nat := 0x0580
def A.RCK_SYNC_LO : Nat := 0x0584
def A.RCK_SYNC_HI : Nat := 0x0588
def A.RCK_SYNC_SEQ : Nat := 0x058c
def A.RCK_BCN_SEQ : Nat := 0x0590
def A.RCK_BCN_MT_LO : Nat := 0x0594
def A.RCK_BCN_MT_HI : Nat := 0x0598
def A.RCK_BCN_STAT : Nat := 0x059c
def A.RCK_LASTPHI : Nat := 0x05a0
def A.STP_CH_CFG (n : Nat) : Nat := 0x0640 + 12 * n
def A.STP_CH_LO (n : Nat) : Nat := 0x0644 + 12 * n
def A.STP_CH_HI (n : Nat) : Nat := 0x0648 + 12 * n
def A.STP_ICAL_LCTL : Nat := 0x06d0
def A.STP_ICAL_LLO : Nat := 0x06d4
def A.STP_ICAL_LHI : Nat := 0x06d8
def A.STP_ICAL_LSTATE : Nat := 0x06dc
def A.STP_ICAL_CFG : Nat := 0x06e0
def A.STP_STAT : Nat := 0x06e4
def A.STP_SEL : Nat := 0x06e8
def A.STP_CNT : Nat := 0x06ec
def A.STP_MISS : Nat := 0x06f0
def A.SXT_CFG : Nat := 0x0740
def A.SXT_ZERO : Nat := 0x0744
def A.SXT_GIN : Nat := 0x0748
def A.SXT_GCFG : Nat := 0x074c
def A.SXT_YIN : Nat := 0x0750
def A.SXT_YSCALE : Nat := 0x0754
def A.SXT_LOCK : Nat := 0x0758
def A.SXT_GOFS : Nat := 0x075c
def A.SXT_STAT : Nat := 0x0760
def A.SXT_EVT : Nat := 0x0764
def A.SXT_ANG : Nat := 0x0768
def A.SXT_REV : Nat := 0x076c
def A.SXT_AHT_LO : Nat := 0x0770
def A.SXT_AHT_HI : Nat := 0x0774
def A.SXT_SPEED : Nat := 0x0778
def A.SXT_RESID : Nat := 0x077c
def A.SXT_BW_LCTL : Nat := 0x0780
def A.SXT_BW_LLO : Nat := 0x0784
def A.SXT_BW_LHI : Nat := 0x0788
def A.SXT_BW_LSTATE : Nat := 0x078c
def A.SXT_BW_CFG : Nat := 0x0790
def A.SXT_BIAS : Nat := 0x0794
def A.SXT_GOFS_CUR : Nat := 0x0798
def A.SXT_CNT : Nat := 0x079c
def A.SXT_CMPSTAT : Nat := 0x07a0
def A.SXT_CMP (n : Nat) : Nat := 0x07c0 + 4 * n
def A.RSM_CH_CFG (n : Nat) : Nat := 0x0840 + 16 * n
def A.RSM_CH_IN (n : Nat) : Nat := 0x0844 + 16 * n
def A.RSM_CH_OFS (n : Nat) : Nat := 0x0848 + 16 * n
def A.RSM_CH_START (n : Nat) : Nat := 0x084c + 16 * n
def A.RSM_SEL : Nat := 0x08c0
def A.RSM_STAT : Nat := 0x08c4
def A.RSM_CNT : Nat := 0x08c8
def A.LCK_L (n : Nat) : Nat := 0x0940 + 4 * n
def A.LCK_STAT : Nat := 0x0980
def A.LCK_LEASE : Nat := 0x0984
def A.LCK_TEN : Nat := 0x0988
def A.LCK_CNT : Nat := 0x0990
def A.ROS_CH (n : Nat) : Nat := 0x0a40 + 256 * (n / 32) + 4 * (n % 32)
def A.ROS_GATE : Nat := 0x0c40
def A.ROS_GSW (n : Nat) : Nat := 0x0c44 + 4 * n
def A.ROS_GSEL : Nat := 0x0c60
def A.ROS_FLR (n : Nat) : Nat := 0x0c64 + 4 * n
def A.ROS_FCLR : Nat := 0x0c6c
def A.ROS_HWK : Nat := 0x0c70
def A.ROS_FIRE (n : Nat) : Nat := 0x0c74 + 4 * n
def A.ROS_IGN : Nat := 0x0c80
def A.ROS_IFLG (n : Nat) : Nat := 0x0cc0 + 4 * n
def A.ROS_DET (n : Nat) : Nat := 0x0cc8 + 4 * n
def A.ROS_EVT (n : Nat) : Nat := 0x0cd0 + 4 * n
def A.HTW_ADDR : Nat := 0x0d40
def A.HTW_CFG : Nat := 0x0d44
def A.HTW_STAT : Nat := 0x0d48
def A.HTW_LAST : Nat := 0x0d4c
def A.HTW_CNT : Nat := 0x0d50
def A.HTW_LOOK : Nat := 0x0d54
def A.HSP_CFG : Nat := 0x0e40
def A.HSP_STAT : Nat := 0x0e44
def A.HSP_LAST : Nat := 0x0e48
def A.HSP_CNT : Nat := 0x0e4c
def A.TWC_CFG (p : Nat) : Nat := 0x1040 + 256 * p
def A.TWC_TCLK (p : Nat) : Nat := 0x1044 + 256 * p
def A.TWC_TDAT (p : Nat) : Nat := 0x1048 + 256 * p
def A.TWC_TSTA (p : Nat) : Nat := 0x104c + 256 * p
def A.TWC_TSTO (p : Nat) : Nat := 0x1050 + 256 * p
def A.TWC_TLIM (p : Nat) : Nat := 0x1054 + 256 * p
def A.TWC_BUS (p : Nat) : Nat := 0x1058 + 256 * p
def A.TWC_BURST (p : Nat) : Nat := 0x105c + 256 * p
def A.TWC_STAT (p : Nat) : Nat := 0x1060 + 256 * p
def A.TWC_FAULT (p : Nat) : Nat := 0x1064 + 256 * p
def A.TWC_CNT (p : Nat) : Nat := 0x1068 + 256 * p
def A.TWC_FSEL (p : Nat) : Nat := 0x106c + 256 * p
def A.TWC_FENT (p : Nat) : Nat := 0x1070 + 256 * p
def A.TWC_FCLR (p : Nat) : Nat := 0x1074 + 256 * p
def A.TWC_ELR_LCTL (p : Nat) : Nat := 0x1080 + 256 * p
def A.TWC_ELR_LLO (p : Nat) : Nat := 0x1084 + 256 * p
def A.TWC_ELR_LHI (p : Nat) : Nat := 0x1088 + 256 * p
def A.TWC_ELR_LSTATE (p : Nat) : Nat := 0x108c + 256 * p
def A.TWC_ELR_CFG (p : Nat) : Nat := 0x1090 + 256 * p
def A.SPC_CFG (p : Nat) : Nat := 0x1440 + 256 * p
def A.SPC_SCK (p : Nat) : Nat := 0x1444 + 256 * p
def A.SPC_CSA (p : Nat) : Nat := 0x1448 + 256 * p
def A.SPC_CSB (p : Nat) : Nat := 0x144c + 256 * p
def A.SPC_BURST (p : Nat) : Nat := 0x1450 + 256 * p
def A.SPC_STAT (p : Nat) : Nat := 0x1454 + 256 * p
def A.SPC_FAULT (p : Nat) : Nat := 0x1458 + 256 * p
def A.SPC_CNT (p : Nat) : Nat := 0x145c + 256 * p
def A.SPC_FSEL (p : Nat) : Nat := 0x1460 + 256 * p
def A.SPC_FENT (p : Nat) : Nat := 0x1464 + 256 * p
def A.SPC_FCLR (p : Nat) : Nat := 0x1468 + 256 * p
def A.AFE_CFG : Nat := 0x1740
def A.AFE_EXC : Nat := 0x1744
def A.AFE_CH (n : Nat) : Nat := 0x1748 + 4 * n
def A.AFE_BURST : Nat := 0x1750
def A.AFE_STAT : Nat := 0x1754
def A.AFE_FAULT : Nat := 0x1758
def A.AFE_GDLY (n : Nat) : Nat := 0x175c + 4 * n
def A.AFE_TS : Nat := 0x1764
def A.AFE_TSRES (n : Nat) : Nat := 0x1768 + 4 * n
def A.AFE_CALPER : Nat := 0x1770
def A.AFE_GCOR (n : Nat) : Nat := 0x1774 + 4 * n
def A.AFE_CNT : Nat := 0x177c
def A.AFE_CAL0_LCTL : Nat := 0x1780
def A.AFE_CAL0_LLO : Nat := 0x1784
def A.AFE_CAL0_LHI : Nat := 0x1788
def A.AFE_CAL0_LSTATE : Nat := 0x178c
def A.AFE_CAL1_LCTL : Nat := 0x1790
def A.AFE_CAL1_LLO : Nat := 0x1794
def A.AFE_CAL1_LHI : Nat := 0x1798
def A.AFE_CAL1_LSTATE : Nat := 0x179c
def A.PSQ_URG : Nat := 0x1840
def A.PSQ_TOWN : Nat := 0x1844
def A.PSQ_STAT : Nat := 0x184c
def A.PSQ_PEND : Nat := 0x1850
def A.PSQ_DISP : Nat := 0x1854
def A.PSQ_SKIP : Nat := 0x1858
def A.PSQ_USEL : Nat := 0x185c
def A.PSQ_USED : Nat := 0x1860
def A.PSQ_SPL_LCTL : Nat := 0x1870
def A.PSQ_SPL_LLO : Nat := 0x1874
def A.PSQ_SPL_LHI : Nat := 0x1878
def A.PSQ_SPL_LSTATE : Nat := 0x187c
def A.PSQ_SPL_CFG : Nat := 0x1880
def A.PSQ_RES : Nat := 0x1890
def A.DSC_IDX : Nat := 0x1940
def A.DSC_W (n : Nat) : Nat := 0x1944 + 4 * n
def A.DSC_STAT : Nat := 0x1964
def A.DSC_SEQ : Nat := 0x1968
def A.DSC_NEXT_LO : Nat := 0x196c
def A.DSC_NEXT_HI : Nat := 0x1970
def A.DSC_SKIP : Nat := 0x1974
def A.DSC_LAST : Nat := 0x1978
def A.DSC_OFS : Nat := 0x197c
def A.ASY_CFG (k : Nat) : Nat := 0x1a40 + 256 * (k / 4) + 32 * (k % 4)
def A.ASY_IN (k : Nat) : Nat := 0x1a44 + 256 * (k / 4) + 32 * (k % 4)
def A.ASY_OUT (k : Nat) : Nat := 0x1a48 + 256 * (k / 4) + 32 * (k % 4)
def A.ASY_STAT (k : Nat) : Nat := 0x1a4c + 256 * (k / 4) + 32 * (k % 4)
def A.ASY_BL_LCTL (k : Nat) : Nat := 0x1a50 + 256 * (k / 4) + 32 * (k % 4)
def A.ASY_BL_LLO (k : Nat) : Nat := 0x1a54 + 256 * (k / 4) + 32 * (k % 4)
def A.ASY_BL_LHI (k : Nat) : Nat := 0x1a58 + 256 * (k / 4) + 32 * (k % 4)
def A.ASY_BL_LSTATE (k : Nat) : Nat := 0x1a5c + 256 * (k / 4) + 32 * (k % 4)
def A.ASY_PSEL : Nat := 0x1ac0
def A.ASY_PD : Nat := 0x1ac4
def A.ASY_PIPE : Nat := 0x1ae4
def A.ASY_CRIT : Nat := 0x1ae8
def A.ASY_LOAD : Nat := 0x1aec
def A.QUE_MEM : Nat := 0x2040
def A.QUE_FLUSH : Nat := 0x2044
def A.QUE_STAT : Nat := 0x2048
def A.QUE_PLC_CFG : Nat := 0x204c
def A.QUE_PLC_LCTL : Nat := 0x2050
def A.QUE_PLC_LLO : Nat := 0x2054
def A.QUE_PLC_LHI : Nat := 0x2058
def A.QUE_PLC_LSTATE : Nat := 0x205c
def A.QUE_TQ (n : Nat) : Nat := 0x2060 + 4 * n
def A.QUE_TCFG (n : Nat) : Nat := 0x2080 + 4 * n
def A.QUE_TUSE (n : Nat) : Nat := 0x20a0 + 4 * n
def A.QUE_POP (n : Nat) : Nat := 0x20c0 + 4 * n
def A.QUE_PSTAT (n : Nat) : Nat := 0x20e0 + 4 * n
def A.BND_LCFG (n : Nat) : Nat := 0x2140 + 4 * n
def A.BND_DSEL : Nat := 0x21c0
def A.BND_DROUTE : Nat := 0x21c4
def A.BND_SEL : Nat := 0x21c8
def A.BND_SEQ_LO : Nat := 0x21cc
def A.BND_SEQ_HI : Nat := 0x21d0
def A.BND_TSTAT : Nat := 0x21d4
def A.BND_TCNT : Nat := 0x21d8
def A.BND_HCFG : Nat := 0x21dc
def A.BND_HSTAT : Nat := 0x21e0
def A.BND_SEALS : Nat := 0x21e4
def A.KEY_SEL : Nat := 0x2240
def A.KEY_TSTAT : Nat := 0x2244
def A.KEY_SLOT : Nat := 0x2248
def A.KEY_WEAR : Nat := 0x224c
def A.KEY_HW_LO : Nat := 0x2250
def A.KEY_HW_HI : Nat := 0x2254
def A.KEY_CEIL_LO : Nat := 0x2258
def A.KEY_CEIL_HI : Nat := 0x225c
def A.KEY_TLAST : Nat := 0x2260
def A.KEY_CHART : Nat := 0x2264
def A.KEY_CHVER : Nat := 0x2268
def A.KEY_RSP : Nat := 0x226c
def A.KEY_ATT : Nat := 0x2270
def A.KEY_ASTAT : Nat := 0x2274
def A.KEY_CNT : Nat := 0x2278
def A.TAM_RESP : Nat := 0x2340
def A.TAM_LATCH : Nat := 0x2344
def A.TAM_CLR : Nat := 0x2348
def A.TAM_LAST : Nat := 0x234c
def A.TAM_CNT : Nat := 0x2350
def A.TAM_TLIM : Nat := 0x2358
def A.TAM_TWARN : Nat := 0x235c
def A.TAM_TCFG : Nat := 0x2360
def A.TAM_TEMP : Nat := 0x2364
def A.TAM_PROBE : Nat := 0x2368
def A.TAM_PCNT : Nat := 0x236c
def A.TAM_TRNG : Nat := 0x2370
def A.TAM_HOLD : Nat := 0x2374
def A.TAM_SUP : Nat := 0x2378
def A.LOG_STATUS : Nat := 0x2440
def A.LOG_SEQ : Nat := 0x2444
def A.LOG_SEL : Nat := 0x2448
def A.LOG_DATA : Nat := 0x244c
def A.LOG_CHK : Nat := 0x2450
def A.LOG_FWD : Nat := 0x2454
def A.LOG_CNT : Nat := 0x2458
def A.LOG_FLYLOST : Nat := 0x245c
def A.STW_STAT : Nat := 0x2540
def A.STW_CMDQ : Nat := 0x2544
def A.STW_NVQ : Nat := 0x2548
def A.NVS_STAT : Nat := 0x2640
def A.NVS_ERR : Nat := 0x2644
def A.NVS_ECC : Nat := 0x2648
def A.NVS_WSEL : Nat := 0x264c
def A.NVS_WEAR : Nat := 0x2650
def A.TST_MODE : Nat := 0x2740
def A.TST_RES : Nat := 0x2744
def A.TST_IDCODE : Nat := 0x2748
def A.TN_POP (p : Nat) : Nat := 0x3040 + 256 * p
def A.TN_PSTAT (p : Nat) : Nat := 0x3044 + 256 * p
def A.TN_CMD (p : Nat) : Nat := 0x3048 + 256 * p
def A.TN_CSTAT (p : Nat) : Nat := 0x304c + 256 * p
def A.TN_CCTL (p : Nat) : Nat := 0x3050 + 256 * p
def A.TN_RSP (p : Nat) : Nat := 0x3054 + 256 * p
def A.TN_ATT (p : Nat) : Nat := 0x3058 + 256 * p
def A.TN_KSTAT (p : Nat) : Nat := 0x305c + 256 * p
def A.TN_SES (p : Nat) : Nat := 0x3060 + 256 * p
def A.TN_XADR (p : Nat) : Nat := 0x3064 + 256 * p
def A.TN_XDAT (p : Nat) : Nat := 0x3068 + 256 * p
def A.TN_L (p n : Nat) : Nat := 0x3080 + 256 * p + 4 * n

def F.IDN_PART_LETTER : Fld := ⟨0x0040, 0, 8⟩
def F.IDN_PART_FAMILY : Fld := ⟨0x0040, 16, 16⟩
def F.IDN_REV_REV : Fld := ⟨0x0044, 0, 8⟩
def F.IDN_ROM_ROM : Fld := ⟨0x0048, 0, 16⟩
def F.IDN_FW_LEVEL : Fld := ⟨0x004c, 0, 16⟩
def F.IDN_FW_RUNS : Fld := ⟨0x004c, 16, 1⟩
def F.IDN_API_LEVEL : Fld := ⟨0x0050, 0, 8⟩
def F.IDN_FMT_FMT : Fld := ⟨0x0054, 0, 32⟩
def F.IDN_DEVID_LO_ID : Fld := ⟨0x0058, 0, 32⟩
def F.IDN_DEVID_HI_ID : Fld := ⟨0x005c, 0, 32⟩
def F.IDN_BOOTNUM_NUM : Fld := ⟨0x0060, 0, 20⟩
def F.IDN_BOOTNUM_EXHAUSTED : Fld := ⟨0x0060, 31, 1⟩
def F.IDN_CAP_CAP : Fld := ⟨0x0064, 0, 32⟩
def F.IDN_DPK_DATA : Fld := ⟨0x0068, 0, 32⟩
def F.SYS_PSTATE_STATE : Fld := ⟨0x0140, 0, 3⟩
def F.SYS_PSTATE_LAST_STOW : Fld := ⟨0x0140, 4, 2⟩
def F.SYS_PSTATE_STOW_CNT : Fld := ⟨0x0140, 16, 16⟩
def F.SYS_STOW_EN : Fld := ⟨0x0144, 0, 1⟩
def F.SYS_STOW_COLD_EN : Fld := ⟨0x0144, 1, 1⟩
def F.SYS_STOW_GUARD : Fld := ⟨0x0144, 8, 12⟩
def F.SYS_WAKE_EN_WAKE : Fld := ⟨0x0148, 0, 12⟩
def F.SYS_WAKE_EN_HOST : Fld := ⟨0x0148, 16, 12⟩
def F.SYS_WAKE_POL_FALL : Fld := ⟨0x014c, 0, 10⟩
def F.SYS_WAKE_CAUSE_PIN : Fld := ⟨0x0150, 0, 12⟩
def F.SYS_WAKE_CAUSE_LOOKOUT : Fld := ⟨0x0150, 12, 1⟩
def F.SYS_WAKE_CAUSE_TIME : Fld := ⟨0x0150, 13, 1⟩
def F.SYS_WAKE_CAUSE_DIP : Fld := ⟨0x0150, 14, 1⟩
def F.SYS_WAKE_CAUSE_CLOCK : Fld := ⟨0x0150, 15, 1⟩
def F.SYS_WAKE_CAUSE_TAMPER : Fld := ⟨0x0150, 16, 1⟩
def F.SYS_HWAKE_DIP : Fld := ⟨0x0154, 0, 1⟩
def F.SYS_HWAKE_RAIL : Fld := ⟨0x0154, 1, 1⟩
def F.SYS_HWAKE_ROSE : Fld := ⟨0x0154, 2, 1⟩
def F.SYS_HWAKE_PIRQ : Fld := ⟨0x0154, 3, 1⟩
def F.SYS_HWAKE_STOW_WAKE : Fld := ⟨0x0154, 4, 1⟩
def F.SYS_DIP_ACTIVE : Fld := ⟨0x0158, 0, 1⟩
def F.SYS_DIP_SETTLING : Fld := ⟨0x0158, 1, 1⟩
def F.SYS_DIP_DEFERRED : Fld := ⟨0x0158, 8, 8⟩
def F.SYS_RST_CAUSE_POR : Fld := ⟨0x0160, 0, 1⟩
def F.SYS_RST_CAUSE_BOR : Fld := ⟨0x0160, 1, 1⟩
def F.SYS_RST_CAUSE_NRST : Fld := ⟨0x0160, 2, 1⟩
def F.SYS_RST_CAUSE_HOLD : Fld := ⟨0x0160, 3, 1⟩
def F.SYS_RST_CAUSE_CMD : Fld := ⟨0x0160, 4, 1⟩
def F.SYS_RST_CAUSE_LIFECYCLE : Fld := ⟨0x0160, 5, 1⟩
def F.SYS_RST_PART_DP_CNT : Fld := ⟨0x0164, 0, 8⟩
def F.SYS_RST_PART_TN_CNT : Fld := ⟨0x0164, 8, 8⟩
def F.SYS_RST_PART_LAST_SCOPE : Fld := ⟨0x0164, 16, 2⟩
def F.SYS_RST_PART_LAST_TENANT : Fld := ⟨0x0164, 20, 3⟩
def F.SYS_RST_PART_LAST_REQ : Fld := ⟨0x0164, 24, 4⟩
def F.SYS_RST_CMD_SCOPE : Fld := ⟨0x0168, 0, 2⟩
def F.SYS_RST_CMD_TENANT : Fld := ⟨0x0168, 4, 3⟩
def F.SYS_RST_CMD_CONFIRM : Fld := ⟨0x0168, 16, 16⟩
def F.SYS_HREL_PULSE : Fld := ⟨0x016c, 0, 7⟩
def F.SYS_HREL_PULSE_NOW : Fld := ⟨0x016c, 8, 1⟩
def F.SYS_HREL_RELEASED : Fld := ⟨0x016c, 16, 1⟩
def F.SYS_WDOG_EN : Fld := ⟨0x0170, 0, 1⟩
def F.SYS_WDOG_PERIOD : Fld := ⟨0x0170, 8, 16⟩
def F.SYS_WDOG_KICK_SESSION : Fld := ⟨0x0174, 0, 16⟩
def F.SYS_WDOG_KICK_SLEEP : Fld := ⟨0x0174, 16, 1⟩
def F.SYS_WDOG_STAT_EXPIRED : Fld := ⟨0x0178, 0, 8⟩
def F.SYS_WDOG_STAT_BAD_KICK : Fld := ⟨0x0178, 8, 8⟩
def F.SYS_WDOG_STAT_SUSPENDED : Fld := ⟨0x0178, 16, 1⟩
def F.SYS_SESSION_NUM : Fld := ⟨0x017c, 0, 16⟩
def F.SYS_SESSION_BUMP : Fld := ⟨0x017c, 31, 1⟩
def F.SYS_BOOT_STAGE : Fld := ⟨0x0180, 0, 4⟩
def F.SYS_BOOT_ERR : Fld := ⟨0x0180, 4, 4⟩
def F.SYS_BOOT_PATCH : Fld := ⟨0x0180, 8, 1⟩
def F.SYS_BOOT_PATCH_REJ : Fld := ⟨0x0180, 9, 1⟩
def F.SYS_BOOT_PATCH_WHY : Fld := ⟨0x0180, 10, 2⟩
def F.SYS_BOOT_RETAINED : Fld := ⟨0x0180, 12, 1⟩
def F.SYS_BOOT_TIME : Fld := ⟨0x0180, 16, 16⟩
def F.SYS_LIFE_STATE : Fld := ⟨0x0184, 0, 4⟩
def F.SYS_DORM_DORMANT : Fld := ⟨0x0188, 0, 8⟩
def F.SYS_DORM_EXIST : Fld := ⟨0x0188, 8, 8⟩
def F.CLK_XO_MODE : Fld := ⟨0x0240, 0, 1⟩
def F.CLK_XO_MODE_PEND : Fld := ⟨0x0240, 1, 1⟩
def F.CLK_XO_CLOAD : Fld := ⟨0x0240, 2, 6⟩
def F.CLK_SYN_ON : Fld := ⟨0x0244, 0, 1⟩
def F.CLK_SYN_LOCK : Fld := ⟨0x0244, 1, 1⟩
def F.CLK_SYN_HOLDOVER : Fld := ⟨0x0244, 2, 1⟩
def F.CLK_SYN_FREERUN : Fld := ⟨0x0244, 3, 1⟩
def F.CLK_SYN_LOSS_CNT : Fld := ⟨0x0244, 8, 8⟩
def F.CLK_GEAR_CUR : Fld := ⟨0x0248, 0, 3⟩
def F.CLK_GEAR_TGT : Fld := ⟨0x0248, 4, 3⟩
def F.CLK_GEAR_SWITCHING : Fld := ⟨0x0248, 8, 1⟩
def F.CLK_GEAR_VRAMP : Fld := ⟨0x0248, 9, 1⟩
def F.CLK_GEAR_HELD : Fld := ⟨0x0248, 10, 1⟩
def F.CLK_GREQ_GEAR : Fld := ⟨0x024c, 0, 3⟩
def F.CLK_GREQ_EN : Fld := ⟨0x024c, 8, 1⟩
def F.CLK_FLOOR_GEAR : Fld := ⟨0x0250, 0, 3⟩
def F.CLK_FLOOR_SRC : Fld := ⟨0x0250, 8, 9⟩
def F.CLK_PERIOD_TICKS : Fld := ⟨0x0254, 0, 10⟩
def F.CLK_MON_AMP_OK : Fld := ⟨0x0258, 0, 1⟩
def F.CLK_MON_AMP_THR : Fld := ⟨0x0258, 4, 2⟩
def F.CLK_EVT_AMP_LOST : Fld := ⟨0x025c, 0, 1⟩
def F.CLK_EVT_LOCK_LOST : Fld := ⟨0x025c, 1, 1⟩
def F.CLK_EVT_FREERUN_SEEN : Fld := ⟨0x025c, 2, 1⟩
def F.CLK_EVT_UPSHIFT_REFUSED : Fld := ⟨0x025c, 3, 1⟩
def F.CLK_GSW_COUNT : Fld := ⟨0x0260, 0, 32⟩
def F.PWR_THR_VWARN : Fld := ⟨0x0340, 0, 8⟩
def F.PWR_THR_KEYW : Fld := ⟨0x0340, 8, 8⟩
def F.PWR_THR_VCHG : Fld := ⟨0x0340, 16, 8⟩
def F.PWR_THR_STAT_ABOVE_VWARN : Fld := ⟨0x0344, 0, 1⟩
def F.PWR_THR_STAT_ABOVE_KEYW : Fld := ⟨0x0344, 1, 1⟩
def F.PWR_THR_STAT_ABOVE_VCHG : Fld := ⟨0x0344, 2, 1⟩
def F.PWR_THR_STAT_KEYW_CLAMP : Fld := ⟨0x0344, 8, 1⟩
def F.PWR_MEAS_VSTORE : Fld := ⟨0x0348, 0, 10⟩
def F.PWR_MEAS_VHARV : Fld := ⟨0x0348, 10, 10⟩
def F.PWR_MEAS_IHARV : Fld := ⟨0x0348, 20, 9⟩
def F.PWR_HARV_EN : Fld := ⟨0x034c, 0, 1⟩
def F.PWR_HARV_ILIM : Fld := ⟨0x034c, 2, 4⟩
def F.PWR_HARV_VMAX : Fld := ⟨0x034c, 8, 8⟩
def F.PWR_HSTAT_COLDSTART : Fld := ⟨0x0350, 0, 1⟩
def F.PWR_HSTAT_CHARGING : Fld := ⟨0x0350, 1, 1⟩
def F.PWR_HSTAT_CEILING : Fld := ⟨0x0350, 2, 1⟩
def F.PWR_HSTAT_ILIM_ACT : Fld := ⟨0x0350, 3, 1⟩
def F.PWR_HSTAT_UVLO : Fld := ⟨0x0350, 4, 1⟩
def F.PWR_HSTAT_OVP : Fld := ⟨0x0350, 5, 1⟩
def F.PWR_CORE_VSET : Fld := ⟨0x0354, 0, 7⟩
def F.PWR_VHOST_EN : Fld := ⟨0x0358, 0, 1⟩
def F.PWR_VHOST_VSEL : Fld := ⟨0x0358, 1, 2⟩
def F.PWR_VHOST_VSEL_PEND : Fld := ⟨0x0358, 3, 2⟩
def F.PWR_VHOST_CYCLE_OFF : Fld := ⟨0x0358, 8, 8⟩
def F.PWR_VHOST_TRIPS : Fld := ⟨0x0358, 16, 4⟩
def F.PWR_VSENS_EN (n : Nat) : Fld := ⟨0x035c + 4 * n, 0, 1⟩
def F.PWR_VSENS_VSEL (n : Nat) : Fld := ⟨0x035c + 4 * n, 1, 1⟩
def F.PWR_VSENS_SHED (n : Nat) : Fld := ⟨0x035c + 4 * n, 2, 1⟩
def F.PWR_VSENS_KEEP (n : Nat) : Fld := ⟨0x035c + 4 * n, 3, 1⟩
def F.PWR_VSENS_SETTLE (n : Nat) : Fld := ⟨0x035c + 4 * n, 8, 12⟩
def F.PWR_VSENS_PORTS (n : Nat) : Fld := ⟨0x035c + 4 * n, 20, 8⟩
def F.PWR_VSENS_STATE (n : Nat) : Fld := ⟨0x035c + 4 * n, 28, 2⟩
def F.PWR_RAILEVT_VSENS_TRIP : Fld := ⟨0x0368, 0, 3⟩
def F.PWR_RAILEVT_VHOST_TRIP : Fld := ⟨0x0368, 3, 1⟩
def F.PWR_RAILEVT_VHOST_LOCKOUT : Fld := ⟨0x0368, 4, 1⟩
def F.PWR_RAILEVT_HARV_OVP : Fld := ⟨0x0368, 5, 1⟩
def F.PWR_BANK_VIOH_OK : Fld := ⟨0x036c, 0, 1⟩
def F.PWR_BANK_VSENSIO_OK : Fld := ⟨0x036c, 1, 1⟩
def F.PWR_DIP_VMIN : Fld := ⟨0x0370, 0, 10⟩
def F.PWR_DIP_DUR : Fld := ⟨0x0370, 10, 22⟩
def F.PWR_DIPCNT_COUNT : Fld := ⟨0x0374, 0, 16⟩
def F.PLN_AVS_LCTL_EN : Fld := ⟨0x0440, 0, 1⟩
def F.PLN_AVS_LCTL_FREEZE : Fld := ⟨0x0440, 1, 1⟩
def F.PLN_AVS_LCTL_STEP : Fld := ⟨0x0440, 8, 8⟩
def F.PLN_AVS_LLO_B : Fld := ⟨0x0444, 0, 32⟩
def F.PLN_AVS_LHI_B : Fld := ⟨0x0448, 0, 32⟩
def F.PLN_AVS_LSTATE_SAT_LO : Fld := ⟨0x044c, 0, 1⟩
def F.PLN_AVS_LSTATE_SAT_HI : Fld := ⟨0x044c, 1, 1⟩
def F.PLN_AVS_LSTATE_FROZEN : Fld := ⟨0x044c, 2, 1⟩
def F.PLN_AVS_LSTATE_RUNNING : Fld := ⟨0x044c, 3, 1⟩
def F.PLN_AVS_LSTATE_OUT : Fld := ⟨0x044c, 8, 24⟩
def F.PLN_AVS_CFG_PERIOD : Fld := ⟨0x0450, 0, 8⟩
def F.PLN_AVS_CFG_MLO : Fld := ⟨0x0450, 8, 6⟩
def F.PLN_AVS_CFG_MHI : Fld := ⟨0x0450, 16, 6⟩
def F.PLN_AVS_STAT_MARGIN : Fld := ⟨0x0454, 0, 6⟩
def F.PLN_AVS_STAT_CANARY : Fld := ⟨0x0454, 8, 8⟩
def F.PLN_AVS_STAT_RAMP : Fld := ⟨0x0454, 16, 1⟩
def F.PLN_VSEL_GEAR : Fld := ⟨0x0458, 0, 3⟩
def F.PLN_VTAB_C : Fld := ⟨0x045c, 0, 7⟩
def F.PLN_VTAB_TMIN : Fld := ⟨0x045c, 8, 7⟩
def F.PLN_GEAR_LCTL_EN : Fld := ⟨0x0460, 0, 1⟩
def F.PLN_GEAR_LCTL_FREEZE : Fld := ⟨0x0460, 1, 1⟩
def F.PLN_GEAR_LCTL_STEP : Fld := ⟨0x0460, 8, 8⟩
def F.PLN_GEAR_LLO_B : Fld := ⟨0x0464, 0, 32⟩
def F.PLN_GEAR_LHI_B : Fld := ⟨0x0468, 0, 32⟩
def F.PLN_GEAR_LSTATE_SAT_LO : Fld := ⟨0x046c, 0, 1⟩
def F.PLN_GEAR_LSTATE_SAT_HI : Fld := ⟨0x046c, 1, 1⟩
def F.PLN_GEAR_LSTATE_FROZEN : Fld := ⟨0x046c, 2, 1⟩
def F.PLN_GEAR_LSTATE_RUNNING : Fld := ⟨0x046c, 3, 1⟩
def F.PLN_GEAR_LSTATE_OUT : Fld := ⟨0x046c, 8, 24⟩
def F.PLN_GEAR_CFG_WIN : Fld := ⟨0x0470, 0, 8⟩
def F.PLN_GEAR_CFG_ULO : Fld := ⟨0x0470, 8, 8⟩
def F.PLN_GEAR_CFG_UHI : Fld := ⟨0x0470, 16, 8⟩
def F.PLN_GEAR_CFG_DOWN : Fld := ⟨0x0470, 24, 4⟩
def F.PLN_GEAR_CFG_DIPMAX : Fld := ⟨0x0470, 28, 3⟩
def F.PLN_GEAR_STAT_U : Fld := ⟨0x0474, 0, 8⟩
def F.PLN_GEAR_STAT_EFF : Fld := ⟨0x0474, 8, 3⟩
def F.PLN_GEAR_STAT_FSRC : Fld := ⟨0x0474, 16, 6⟩
def F.PLN_GEAR_STAT_FLOOR_UNMET : Fld := ⟨0x0474, 24, 1⟩
def F.PLN_GEAR_STAT_URG_MET : Fld := ⟨0x0474, 25, 1⟩
def F.PLN_URG_GEAR : Fld := ⟨0x0478, 0, 3⟩
def F.PLN_URG_CRIT : Fld := ⟨0x0478, 8, 1⟩
def F.PLN_TFLOOR_GEAR (n : Nat) : Fld := ⟨0x047c + 4 * (n / 8), 4 * (n % 8), 3⟩
def F.PLN_MPPT_LCTL_EN : Fld := ⟨0x0480, 0, 1⟩
def F.PLN_MPPT_LCTL_FREEZE : Fld := ⟨0x0480, 1, 1⟩
def F.PLN_MPPT_LCTL_STEP : Fld := ⟨0x0480, 8, 8⟩
def F.PLN_MPPT_LLO_B : Fld := ⟨0x0484, 0, 32⟩
def F.PLN_MPPT_LHI_B : Fld := ⟨0x0488, 0, 32⟩
def F.PLN_MPPT_LSTATE_SAT_LO : Fld := ⟨0x048c, 0, 1⟩
def F.PLN_MPPT_LSTATE_SAT_HI : Fld := ⟨0x048c, 1, 1⟩
def F.PLN_MPPT_LSTATE_FROZEN : Fld := ⟨0x048c, 2, 1⟩
def F.PLN_MPPT_LSTATE_RUNNING : Fld := ⟨0x048c, 3, 1⟩
def F.PLN_MPPT_LSTATE_OUT : Fld := ⟨0x048c, 8, 24⟩
def F.PLN_MPPT_CFG_PERIOD : Fld := ⟨0x0490, 0, 8⟩
def F.PLN_MPPT_CFG_DEAD : Fld := ⟨0x0490, 8, 8⟩
def F.PLN_MPPT_CFG_KOC : Fld := ⟨0x0490, 16, 8⟩
def F.PLN_MPPT_CFG_VOCPER : Fld := ⟨0x0490, 24, 8⟩
def F.PLN_MPPT_STAT_P : Fld := ⟨0x0494, 0, 16⟩
def F.PLN_MPPT_STAT_VOC : Fld := ⟨0x0494, 16, 10⟩
def F.PLN_MPPT_STAT_DIR : Fld := ⟨0x0494, 31, 1⟩
def F.PLN_LSUM_SAT : Fld := ⟨0x0498, 0, 11⟩
def F.PLN_LSUM_FROZEN : Fld := ⟨0x0498, 16, 11⟩
def F.RCK_CTRL_SLEW_EN : Fld := ⟨0x0540, 0, 1⟩
def F.RCK_CTRL_BSRC : Fld := ⟨0x0540, 1, 1⟩
def F.RCK_STAT_DEFINED : Fld := ⟨0x0544, 0, 1⟩
def F.RCK_STAT_SLEWING : Fld := ⟨0x0544, 1, 1⟩
def F.RCK_STAT_HOLDOVER : Fld := ⟨0x0544, 2, 1⟩
def F.RCK_STAT_EXHAUSTED : Fld := ⟨0x0544, 3, 1⟩
def F.RCK_STAT_AWAIT : Fld := ⟨0x0544, 4, 3⟩
def F.RCK_HT_LO_HT : Fld := ⟨0x0548, 0, 32⟩
def F.RCK_HT_HI_HT : Fld := ⟨0x054c, 0, 32⟩
def F.RCK_EPOCH_ID : Fld := ⟨0x0550, 0, 32⟩
def F.RCK_OFS_LO_OFS : Fld := ⟨0x0554, 0, 32⟩
def F.RCK_OFS_HI_OFS : Fld := ⟨0x0558, 0, 32⟩
def F.RCK_DISC_LCTL_EN : Fld := ⟨0x0560, 0, 1⟩
def F.RCK_DISC_LCTL_FREEZE : Fld := ⟨0x0560, 1, 1⟩
def F.RCK_DISC_LCTL_STEP : Fld := ⟨0x0560, 8, 8⟩
def F.RCK_DISC_LLO_B : Fld := ⟨0x0564, 0, 32⟩
def F.RCK_DISC_LHI_B : Fld := ⟨0x0568, 0, 32⟩
def F.RCK_DISC_LSTATE_SAT_LO : Fld := ⟨0x056c, 0, 1⟩
def F.RCK_DISC_LSTATE_SAT_HI : Fld := ⟨0x056c, 1, 1⟩
def F.RCK_DISC_LSTATE_FROZEN : Fld := ⟨0x056c, 2, 1⟩
def F.RCK_DISC_LSTATE_RUNNING : Fld := ⟨0x056c, 3, 1⟩
def F.RCK_DISC_LSTATE_OUT : Fld := ⟨0x056c, 8, 24⟩
def F.RCK_DISC_CFG_KP : Fld := ⟨0x0570, 0, 4⟩
def F.RCK_RATE_F : Fld := ⟨0x0574, 0, 32⟩
def F.RCK_PHASE_R : Fld := ⟨0x0578, 0, 32⟩
def F.RCK_STEPLIM_US : Fld := ⟨0x057c, 0, 20⟩
def F.RCK_SLEWMAX_PPM : Fld := ⟨0x0580, 0, 10⟩
def F.RCK_SYNC_LO_T : Fld := ⟨0x0584, 0, 32⟩
def F.RCK_SYNC_HI_T : Fld := ⟨0x0588, 0, 32⟩
def F.RCK_SYNC_SEQ_SEQ : Fld := ⟨0x058c, 0, 16⟩
def F.RCK_BCN_SEQ_SEQ : Fld := ⟨0x0590, 0, 16⟩
def F.RCK_BCN_MT_LO_MT : Fld := ⟨0x0594, 0, 32⟩
def F.RCK_BCN_MT_HI_MT : Fld := ⟨0x0598, 0, 32⟩
def F.RCK_BCN_STAT_RESULT : Fld := ⟨0x059c, 0, 4⟩
def F.RCK_BCN_STAT_ACC : Fld := ⟨0x059c, 8, 8⟩
def F.RCK_BCN_STAT_REF : Fld := ⟨0x059c, 16, 8⟩
def F.RCK_LASTPHI_PHI : Fld := ⟨0x05a0, 0, 32⟩
def F.STP_CH_CFG_EN (n : Nat) : Fld := ⟨0x0640 + 12 * n, 0, 1⟩
def F.STP_CH_CFG_EDGE (n : Nat) : Fld := ⟨0x0640 + 12 * n, 1, 2⟩
def F.STP_CH_CFG_STREAM (n : Nat) : Fld := ⟨0x0640 + 12 * n, 3, 1⟩
def F.STP_CH_CFG_JOIN (n : Nat) : Fld := ⟨0x0640 + 12 * n, 4, 1⟩
def F.STP_CH_CFG_OWNER (n : Nat) : Fld := ⟨0x0640 + 12 * n, 8, 3⟩
def F.STP_CH_CFG_WP (n : Nat) : Fld := ⟨0x0640 + 12 * n, 11, 1⟩
def F.STP_CH_CFG_HP (n : Nat) : Fld := ⟨0x0640 + 12 * n, 12, 1⟩
def F.STP_CH_CFG_LOCK (n : Nat) : Fld := ⟨0x0640 + 12 * n, 13, 1⟩
def F.STP_CH_CFG_SKEW (n : Nat) : Fld := ⟨0x0640 + 12 * n, 16, 16⟩
def F.STP_CH_LO_T (n : Nat) : Fld := ⟨0x0644 + 12 * n, 0, 32⟩
def F.STP_CH_HI_T (n : Nat) : Fld := ⟨0x0648 + 12 * n, 0, 32⟩
def F.STP_ICAL_LCTL_EN : Fld := ⟨0x06d0, 0, 1⟩
def F.STP_ICAL_LCTL_FREEZE : Fld := ⟨0x06d0, 1, 1⟩
def F.STP_ICAL_LCTL_STEP : Fld := ⟨0x06d0, 8, 8⟩
def F.STP_ICAL_LLO_B : Fld := ⟨0x06d4, 0, 32⟩
def F.STP_ICAL_LHI_B : Fld := ⟨0x06d8, 0, 32⟩
def F.STP_ICAL_LSTATE_SAT_LO : Fld := ⟨0x06dc, 0, 1⟩
def F.STP_ICAL_LSTATE_SAT_HI : Fld := ⟨0x06dc, 1, 1⟩
def F.STP_ICAL_LSTATE_FROZEN : Fld := ⟨0x06dc, 2, 1⟩
def F.STP_ICAL_LSTATE_RUNNING : Fld := ⟨0x06dc, 3, 1⟩
def F.STP_ICAL_LSTATE_OUT : Fld := ⟨0x06dc, 8, 24⟩
def F.STP_ICAL_CFG_NLOG : Fld := ⟨0x06e0, 0, 4⟩
def F.STP_ICAL_CFG_TAB : Fld := ⟨0x06e0, 8, 4⟩
def F.STP_STAT_ICAL_READY : Fld := ⟨0x06e4, 0, 1⟩
def F.STP_STAT_UPDATES : Fld := ⟨0x06e4, 16, 16⟩
def F.STP_SEL_CH : Fld := ⟨0x06e8, 0, 4⟩
def F.STP_CNT_COUNT : Fld := ⟨0x06ec, 0, 30⟩
def F.STP_MISS_MISSED : Fld := ⟨0x06f0, 0, 16⟩
def F.STP_MISS_JMISS : Fld := ⟨0x06f0, 16, 16⟩
def F.SXT_CFG_MODE : Fld := ⟨0x0740, 0, 2⟩
def F.SXT_CFG_DIR : Fld := ⟨0x0740, 2, 1⟩
def F.SXT_CFG_GYRO_IDX : Fld := ⟨0x0740, 3, 1⟩
def F.SXT_CFG_DCK : Fld := ⟨0x0740, 8, 4⟩
def F.SXT_CFG_GL : Fld := ⟨0x0740, 12, 4⟩
def F.SXT_CFG_VMAX : Fld := ⟨0x0740, 16, 8⟩
def F.SXT_ZERO_A : Fld := ⟨0x0744, 0, 32⟩
def F.SXT_GIN_EN : Fld := ⟨0x0748, 0, 1⟩
def F.SXT_GIN_BE : Fld := ⟨0x0748, 1, 1⟩
def F.SXT_GIN_XNEG : Fld := ⟨0x0748, 2, 1⟩
def F.SXT_GIN_YNEG : Fld := ⟨0x0748, 3, 1⟩
def F.SXT_GIN_XOFF : Fld := ⟨0x0748, 8, 8⟩
def F.SXT_GIN_YOFF : Fld := ⟨0x0748, 16, 8⟩
def F.SXT_GIN_DSC : Fld := ⟨0x0748, 24, 8⟩
def F.SXT_GCFG_DELAY : Fld := ⟨0x074c, 0, 16⟩
def F.SXT_GCFG_AMIN : Fld := ⟨0x074c, 16, 16⟩
def F.SXT_YIN_EN : Fld := ⟨0x0750, 0, 1⟩
def F.SXT_YIN_BE : Fld := ⟨0x0750, 1, 1⟩
def F.SXT_YIN_NEG : Fld := ⟨0x0750, 2, 1⟩
def F.SXT_YIN_OFF : Fld := ⟨0x0750, 8, 8⟩
def F.SXT_YIN_DSC : Fld := ⟨0x0750, 24, 8⟩
def F.SXT_YSCALE_K : Fld := ⟨0x0754, 0, 24⟩
def F.SXT_LOCK_ACQ : Fld := ⟨0x0758, 0, 4⟩
def F.SXT_LOCK_LOSE : Fld := ⟨0x0758, 4, 4⟩
def F.SXT_LOCK_THR : Fld := ⟨0x0758, 8, 8⟩
def F.SXT_LOCK_MISS : Fld := ⟨0x0758, 16, 4⟩
def F.SXT_GOFS_A : Fld := ⟨0x075c, 0, 32⟩
def F.SXT_STAT_LOCK : Fld := ⟨0x0760, 0, 1⟩
def F.SXT_STAT_REL : Fld := ⟨0x0760, 1, 1⟩
def F.SXT_STAT_NEG : Fld := ⟨0x0760, 2, 1⟩
def F.SXT_STAT_NOIDX : Fld := ⟨0x0760, 3, 1⟩
def F.SXT_STAT_GRAV : Fld := ⟨0x0760, 4, 1⟩
def F.SXT_STAT_GYRO : Fld := ⟨0x0760, 5, 1⟩
def F.SXT_STAT_CAUSE : Fld := ⟨0x0760, 8, 4⟩
def F.SXT_STAT_GOOD : Fld := ⟨0x0760, 12, 4⟩
def F.SXT_EVT_LOST : Fld := ⟨0x0764, 0, 1⟩
def F.SXT_EVT_GAINED : Fld := ⟨0x0764, 1, 1⟩
def F.SXT_EVT_REV_SUSPECT : Fld := ⟨0x0764, 2, 1⟩
def F.SXT_EVT_INPUT_DROP : Fld := ⟨0x0764, 3, 1⟩
def F.SXT_EVT_GSAT : Fld := ⟨0x0764, 4, 1⟩
def F.SXT_EVT_WEAK : Fld := ⟨0x0764, 5, 1⟩
def F.SXT_ANG_A : Fld := ⟨0x0768, 0, 32⟩
def F.SXT_REV_REV : Fld := ⟨0x076c, 0, 32⟩
def F.SXT_AHT_LO_HT : Fld := ⟨0x0770, 0, 32⟩
def F.SXT_AHT_HI_HT : Fld := ⟨0x0774, 0, 32⟩
def F.SXT_SPEED_W : Fld := ⟨0x0778, 0, 32⟩
def F.SXT_RESID_LAST : Fld := ⟨0x077c, 0, 16⟩
def F.SXT_RESID_RMS : Fld := ⟨0x077c, 16, 16⟩
def F.SXT_BW_LCTL_EN : Fld := ⟨0x0780, 0, 1⟩
def F.SXT_BW_LCTL_FREEZE : Fld := ⟨0x0780, 1, 1⟩
def F.SXT_BW_LCTL_STEP : Fld := ⟨0x0780, 8, 8⟩
def F.SXT_BW_LLO_B : Fld := ⟨0x0784, 0, 32⟩
def F.SXT_BW_LHI_B : Fld := ⟨0x0788, 0, 32⟩
def F.SXT_BW_LSTATE_SAT_LO : Fld := ⟨0x078c, 0, 1⟩
def F.SXT_BW_LSTATE_SAT_HI : Fld := ⟨0x078c, 1, 1⟩
def F.SXT_BW_LSTATE_FROZEN : Fld := ⟨0x078c, 2, 1⟩
def F.SXT_BW_LSTATE_RUNNING : Fld := ⟨0x078c, 3, 1⟩
def F.SXT_BW_LSTATE_OUT : Fld := ⟨0x078c, 8, 24⟩
def F.SXT_BW_CFG_RATIO : Fld := ⟨0x0790, 0, 8⟩
def F.SXT_BIAS_B : Fld := ⟨0x0794, 0, 32⟩
def F.SXT_GOFS_CUR_A : Fld := ⟨0x0798, 0, 32⟩
def F.SXT_CNT_LOCKS : Fld := ⟨0x079c, 0, 16⟩
def F.SXT_CNT_LOSSES : Fld := ⟨0x079c, 16, 16⟩
def F.SXT_CMPSTAT_FIRED : Fld := ⟨0x07a0, 0, 16⟩
def F.SXT_CMP_EN (n : Nat) : Fld := ⟨0x07c0 + 4 * n, 0, 1⟩
def F.SXT_CMP_ONCE (n : Nat) : Fld := ⟨0x07c0 + 4 * n, 1, 1⟩
def F.SXT_CMP_ANGLE (n : Nat) : Fld := ⟨0x07c0 + 4 * n, 8, 24⟩
def F.RSM_CH_CFG_EN (n : Nat) : Fld := ⟨0x0840 + 16 * n, 0, 1⟩
def F.RSM_CH_CFG_INTERP (n : Nat) : Fld := ⟨0x0840 + 16 * n, 1, 1⟩
def F.RSM_CH_CFG_LANE_EN (n : Nat) : Fld := ⟨0x0840 + 16 * n, 2, 1⟩
def F.RSM_CH_CFG_LOGN (n : Nat) : Fld := ⟨0x0840 + 16 * n, 4, 4⟩
def F.RSM_CH_CFG_KM1 (n : Nat) : Fld := ⟨0x0840 + 16 * n, 8, 2⟩
def F.RSM_CH_CFG_LANE (n : Nat) : Fld := ⟨0x0840 + 16 * n, 10, 2⟩
def F.RSM_CH_CFG_OWNER (n : Nat) : Fld := ⟨0x0840 + 16 * n, 12, 3⟩
def F.RSM_CH_CFG_WP (n : Nat) : Fld := ⟨0x0840 + 16 * n, 15, 1⟩
def F.RSM_CH_CFG_HP (n : Nat) : Fld := ⟨0x0840 + 16 * n, 16, 1⟩
def F.RSM_CH_CFG_LOCK (n : Nat) : Fld := ⟨0x0840 + 16 * n, 17, 1⟩
def F.RSM_CH_CFG_BLOCK (n : Nat) : Fld := ⟨0x0840 + 16 * n, 24, 8⟩
def F.RSM_CH_IN_SRC (n : Nat) : Fld := ⟨0x0844 + 16 * n, 0, 2⟩
def F.RSM_CH_IN_W32 (n : Nat) : Fld := ⟨0x0844 + 16 * n, 2, 1⟩
def F.RSM_CH_IN_BE (n : Nat) : Fld := ⟨0x0844 + 16 * n, 3, 1⟩
def F.RSM_CH_IN_SRCIDX (n : Nat) : Fld := ⟨0x0844 + 16 * n, 8, 8⟩
def F.RSM_CH_OFS_OFF (n : Nat) : Fld := ⟨0x0848 + 16 * n, 0, 32⟩
def F.RSM_CH_START_A (n : Nat) : Fld := ⟨0x084c + 16 * n, 0, 32⟩
def F.RSM_SEL_CH : Fld := ⟨0x08c0, 0, 3⟩
def F.RSM_STAT_RUN : Fld := ⟨0x08c4, 0, 1⟩
def F.RSM_STAT_WAIT_LOCK : Fld := ⟨0x08c4, 1, 1⟩
def F.RSM_STAT_NEXT : Fld := ⟨0x08c4, 16, 12⟩
def F.RSM_CNT_OUT : Fld := ⟨0x08c8, 0, 16⟩
def F.RSM_CNT_MISS : Fld := ⟨0x08c8, 16, 16⟩
def F.LCK_L_RELEASE (n : Nat) : Fld := ⟨0x0940 + 4 * n, 0, 1⟩
def F.LCK_STAT_HELD : Fld := ⟨0x0980, 0, 16⟩
def F.LCK_STAT_BROKEN : Fld := ⟨0x0980, 16, 16⟩
def F.LCK_LEASE_MS : Fld := ⟨0x0984, 0, 16⟩
def F.LCK_TEN_TENANT (n : Nat) : Fld := ⟨0x0988 + 4 * (n / 8), 4 * (n % 8), 3⟩
def F.LCK_TEN_RESTRICT (n : Nat) : Fld := ⟨0x0988 + 4 * (n / 8), 3 + 4 * (n % 8), 1⟩
def F.LCK_CNT_ACQ : Fld := ⟨0x0990, 0, 16⟩
def F.LCK_CNT_BREAKS : Fld := ⟨0x0990, 16, 16⟩
def F.ROS_CH_PEN (n : Nat) : Fld := ⟨0x0a40 + 256 * (n / 32) + 4 * (n % 32), 0, 4⟩
def F.ROS_CH_CEN (n : Nat) : Fld := ⟨0x0a40 + 256 * (n / 32) + 4 * (n % 32), 4, 4⟩
def F.ROS_CH_GATE (n : Nat) : Fld := ⟨0x0a40 + 256 * (n / 32) + 4 * (n % 32), 8, 4⟩
def F.ROS_CH_GINV (n : Nat) : Fld := ⟨0x0a40 + 256 * (n / 32) + 4 * (n % 32), 12, 1⟩
def F.ROS_CH_ARG (n : Nat) : Fld := ⟨0x0a40 + 256 * (n / 32) + 4 * (n % 32), 14, 2⟩
def F.ROS_CH_OWNER (n : Nat) : Fld := ⟨0x0a40 + 256 * (n / 32) + 4 * (n % 32), 16, 3⟩
def F.ROS_CH_SEALED (n : Nat) : Fld := ⟨0x0a40 + 256 * (n / 32) + 4 * (n % 32), 19, 1⟩
def F.ROS_CH_LOCK (n : Nat) : Fld := ⟨0x0a40 + 256 * (n / 32) + 4 * (n % 32), 20, 1⟩
def F.ROS_GATE_LEVEL : Fld := ⟨0x0c40, 0, 16⟩
def F.ROS_GSW_LEVEL (n : Nat) : Fld := ⟨0x0c44 + 4 * n, 0, 1⟩
def F.ROS_GSW_OWNER (n : Nat) : Fld := ⟨0x0c44 + 4 * n, 8, 3⟩
def F.ROS_GSW_OPEN (n : Nat) : Fld := ⟨0x0c44 + 4 * n, 11, 1⟩
def F.ROS_GSEL_UNIT (n : Nat) : Fld := ⟨0x0c60 + 4 * (n / 4), 8 * (n % 4), 5⟩
def F.ROS_FLR_REL (n : Nat) : Fld := ⟨0x0c64 + 4 * n, 0, 1⟩
def F.ROS_FLR_ACT (n : Nat) : Fld := ⟨0x0c64 + 4 * n, 1, 1⟩
def F.ROS_FLR_MODE (n : Nat) : Fld := ⟨0x0c64 + 4 * n, 2, 1⟩
def F.ROS_FLR_RSTLVL (n : Nat) : Fld := ⟨0x0c64 + 4 * n, 3, 1⟩
def F.ROS_FLR_STATE (n : Nat) : Fld := ⟨0x0c64 + 4 * n, 4, 1⟩
def F.ROS_FLR_OWNER (n : Nat) : Fld := ⟨0x0c64 + 4 * n, 8, 3⟩
def F.ROS_FLR_PULSE (n : Nat) : Fld := ⟨0x0c64 + 4 * n, 16, 16⟩
def F.ROS_FCLR_CLR : Fld := ⟨0x0c6c, 0, 2⟩
def F.ROS_HWK_ALLOW : Fld := ⟨0x0c70, 0, 8⟩
def F.ROS_FIRE_BITS (n : Nat) : Fld := ⟨0x0c74 + 4 * n, 0, 32⟩
def F.ROS_IGN_CNT (n : Nat) : Fld := ⟨0x0c80 + 4 * (n / 4), 8 * (n % 4), 8⟩
def F.ROS_IFLG_BITS (n : Nat) : Fld := ⟨0x0cc0 + 4 * n, 0, 32⟩
def F.ROS_DET_BITS (n : Nat) : Fld := ⟨0x0cc8 + 4 * n, 0, 32⟩
def F.ROS_EVT_BITS (n : Nat) : Fld := ⟨0x0cd0 + 4 * n, 0, 32⟩
def F.HTW_ADDR_CHART : Fld := ⟨0x0d40, 0, 7⟩
def F.HTW_ADDR_WBASE : Fld := ⟨0x0d40, 8, 7⟩
def F.HTW_ADDR_WEN : Fld := ⟨0x0d40, 16, 8⟩
def F.HTW_CFG_FMP : Fld := ⟨0x0d44, 0, 1⟩
def F.HTW_STAT_STATE : Fld := ⟨0x0d48, 0, 3⟩
def F.HTW_STAT_REQ : Fld := ⟨0x0d48, 8, 4⟩
def F.HTW_STAT_PTR : Fld := ⟨0x0d48, 16, 16⟩
def F.HTW_LAST_RESULT : Fld := ⟨0x0d4c, 0, 8⟩
def F.HTW_LAST_REGS : Fld := ⟨0x0d4c, 8, 8⟩
def F.HTW_LAST_DENIED : Fld := ⟨0x0d4c, 16, 8⟩
def F.HTW_LAST_ADDR : Fld := ⟨0x0d4c, 24, 7⟩
def F.HTW_CNT_TRANS : Fld := ⟨0x0d50, 0, 16⟩
def F.HTW_CNT_ABORT : Fld := ⟨0x0d50, 16, 8⟩
def F.HTW_CNT_NACK : Fld := ⟨0x0d50, 24, 8⟩
def F.HTW_LOOK_LAST_ADDR : Fld := ⟨0x0d54, 0, 7⟩
def F.HTW_LOOK_WAKES : Fld := ⟨0x0d54, 16, 16⟩
def F.HSP_CFG_GEAR : Fld := ⟨0x0e40, 0, 3⟩
def F.HSP_STAT_ACTIVE : Fld := ⟨0x0e44, 0, 1⟩
def F.HSP_STAT_OPC : Fld := ⟨0x0e44, 8, 8⟩
def F.HSP_STAT_ADDR : Fld := ⟨0x0e44, 16, 16⟩
def F.HSP_LAST_RESULT : Fld := ⟨0x0e48, 0, 8⟩
def F.HSP_LAST_REGS : Fld := ⟨0x0e48, 8, 8⟩
def F.HSP_LAST_DENIED : Fld := ⟨0x0e48, 16, 8⟩
def F.HSP_CNT_TRANS : Fld := ⟨0x0e4c, 0, 16⟩
def F.HSP_CNT_ABORT : Fld := ⟨0x0e4c, 16, 8⟩
def F.HSP_CNT_OVERRUN : Fld := ⟨0x0e4c, 24, 8⟩
def F.TWC_CFG_MODE (p : Nat) : Fld := ⟨0x1040 + 256 * p, 0, 2⟩
def F.TWC_CFG_NONSTD (p : Nat) : Fld := ⟨0x1040 + 256 * p, 2, 1⟩
def F.TWC_CFG_RSTART_OFF (p : Nat) : Fld := ⟨0x1040 + 256 * p, 3, 1⟩
def F.TWC_CFG_ARB_RETRY (p : Nat) : Fld := ⟨0x1040 + 256 * p, 4, 4⟩
def F.TWC_CFG_GLITCH (p : Nat) : Fld := ⟨0x1040 + 256 * p, 8, 8⟩
def F.TWC_TCLK_TLOW (p : Nat) : Fld := ⟨0x1044 + 256 * p, 0, 16⟩
def F.TWC_TCLK_THIGH (p : Nat) : Fld := ⟨0x1044 + 256 * p, 16, 16⟩
def F.TWC_TDAT_TSUDAT (p : Nat) : Fld := ⟨0x1048 + 256 * p, 0, 16⟩
def F.TWC_TDAT_THDDAT (p : Nat) : Fld := ⟨0x1048 + 256 * p, 16, 16⟩
def F.TWC_TSTA_TSUSTA (p : Nat) : Fld := ⟨0x104c + 256 * p, 0, 16⟩
def F.TWC_TSTA_THDSTA (p : Nat) : Fld := ⟨0x104c + 256 * p, 16, 16⟩
def F.TWC_TSTO_TSUSTO (p : Nat) : Fld := ⟨0x1050 + 256 * p, 0, 16⟩
def F.TWC_TSTO_TBUF (p : Nat) : Fld := ⟨0x1050 + 256 * p, 16, 16⟩
def F.TWC_TLIM_STRETCH (p : Nat) : Fld := ⟨0x1054 + 256 * p, 0, 16⟩
def F.TWC_TLIM_STUCK (p : Nat) : Fld := ⟨0x1054 + 256 * p, 16, 8⟩
def F.TWC_BUS_RP (p : Nat) : Fld := ⟨0x1058 + 256 * p, 0, 8⟩
def F.TWC_BUS_CB (p : Nat) : Fld := ⟨0x1058 + 256 * p, 8, 8⟩
def F.TWC_BURST_MAX (p : Nat) : Fld := ⟨0x105c + 256 * p, 0, 9⟩
def F.TWC_STAT_STATE (p : Nat) : Fld := ⟨0x1060 + 256 * p, 0, 3⟩
def F.TWC_STAT_TGT (p : Nat) : Fld := ⟨0x1060 + 256 * p, 8, 7⟩
def F.TWC_STAT_RISE (p : Nat) : Fld := ⟨0x1060 + 256 * p, 16, 10⟩
def F.TWC_FAULT_BITS (p : Nat) : Fld := ⟨0x1064 + 256 * p, 0, 8⟩
def F.TWC_CNT_XFER (p : Nat) : Fld := ⟨0x1068 + 256 * p, 0, 16⟩
def F.TWC_CNT_ARB (p : Nat) : Fld := ⟨0x1068 + 256 * p, 16, 8⟩
def F.TWC_CNT_RECOV (p : Nat) : Fld := ⟨0x1068 + 256 * p, 24, 8⟩
def F.TWC_FSEL_IDX (p : Nat) : Fld := ⟨0x106c + 256 * p, 0, 4⟩
def F.TWC_FENT_VALID (p : Nat) : Fld := ⟨0x1070 + 256 * p, 0, 1⟩
def F.TWC_FENT_ALL (p : Nat) : Fld := ⟨0x1070 + 256 * p, 1, 1⟩
def F.TWC_FENT_TENANT (p : Nat) : Fld := ⟨0x1070 + 256 * p, 4, 3⟩
def F.TWC_FENT_TARGET (p : Nat) : Fld := ⟨0x1070 + 256 * p, 8, 7⟩
def F.TWC_FENT_DROPS (p : Nat) : Fld := ⟨0x1070 + 256 * p, 16, 16⟩
def F.TWC_FCLR_TENANT (p : Nat) : Fld := ⟨0x1074 + 256 * p, 0, 3⟩
def F.TWC_FCLR_ALL (p : Nat) : Fld := ⟨0x1074 + 256 * p, 3, 1⟩
def F.TWC_FCLR_TARGET (p : Nat) : Fld := ⟨0x1074 + 256 * p, 8, 7⟩
def F.TWC_ELR_LCTL_EN (p : Nat) : Fld := ⟨0x1080 + 256 * p, 0, 1⟩
def F.TWC_ELR_LCTL_FREEZE (p : Nat) : Fld := ⟨0x1080 + 256 * p, 1, 1⟩
def F.TWC_ELR_LCTL_STEP (p : Nat) : Fld := ⟨0x1080 + 256 * p, 8, 8⟩
def F.TWC_ELR_LLO_B (p : Nat) : Fld := ⟨0x1084 + 256 * p, 0, 32⟩
def F.TWC_ELR_LHI_B (p : Nat) : Fld := ⟨0x1088 + 256 * p, 0, 32⟩
def F.TWC_ELR_LSTATE_SAT_LO (p : Nat) : Fld := ⟨0x108c + 256 * p, 0, 1⟩
def F.TWC_ELR_LSTATE_SAT_HI (p : Nat) : Fld := ⟨0x108c + 256 * p, 1, 1⟩
def F.TWC_ELR_LSTATE_FROZEN (p : Nat) : Fld := ⟨0x108c + 256 * p, 2, 1⟩
def F.TWC_ELR_LSTATE_RUNNING (p : Nat) : Fld := ⟨0x108c + 256 * p, 3, 1⟩
def F.TWC_ELR_LSTATE_OUT (p : Nat) : Fld := ⟨0x108c + 256 * p, 8, 24⟩
def F.TWC_ELR_CFG_MARGIN (p : Nat) : Fld := ⟨0x1090 + 256 * p, 0, 10⟩
def F.TWC_ELR_CFG_HYST (p : Nat) : Fld := ⟨0x1090 + 256 * p, 16, 10⟩
def F.SPC_CFG_MODEA (p : Nat) : Fld := ⟨0x1440 + 256 * p, 0, 2⟩
def F.SPC_CFG_LSBA (p : Nat) : Fld := ⟨0x1440 + 256 * p, 2, 1⟩
def F.SPC_CFG_LATEA (p : Nat) : Fld := ⟨0x1440 + 256 * p, 3, 1⟩
def F.SPC_CFG_MODEB (p : Nat) : Fld := ⟨0x1440 + 256 * p, 4, 2⟩
def F.SPC_CFG_LSBB (p : Nat) : Fld := ⟨0x1440 + 256 * p, 6, 1⟩
def F.SPC_CFG_LATEB (p : Nat) : Fld := ⟨0x1440 + 256 * p, 7, 1⟩
def F.SPC_SCK_PERA (p : Nat) : Fld := ⟨0x1444 + 256 * p, 0, 16⟩
def F.SPC_SCK_PERB (p : Nat) : Fld := ⟨0x1444 + 256 * p, 16, 16⟩
def F.SPC_CSA_CSS (p : Nat) : Fld := ⟨0x1448 + 256 * p, 0, 8⟩
def F.SPC_CSA_CSH (p : Nat) : Fld := ⟨0x1448 + 256 * p, 8, 8⟩
def F.SPC_CSA_CSG (p : Nat) : Fld := ⟨0x1448 + 256 * p, 16, 16⟩
def F.SPC_CSB_CSS (p : Nat) : Fld := ⟨0x144c + 256 * p, 0, 8⟩
def F.SPC_CSB_CSH (p : Nat) : Fld := ⟨0x144c + 256 * p, 8, 8⟩
def F.SPC_CSB_CSG (p : Nat) : Fld := ⟨0x144c + 256 * p, 16, 16⟩
def F.SPC_BURST_MAX (p : Nat) : Fld := ⟨0x1450 + 256 * p, 0, 9⟩
def F.SPC_STAT_STATE (p : Nat) : Fld := ⟨0x1454 + 256 * p, 0, 2⟩
def F.SPC_STAT_CS (p : Nat) : Fld := ⟨0x1454 + 256 * p, 8, 1⟩
def F.SPC_FAULT_BITS (p : Nat) : Fld := ⟨0x1458 + 256 * p, 0, 8⟩
def F.SPC_CNT_XFER (p : Nat) : Fld := ⟨0x145c + 256 * p, 0, 16⟩
def F.SPC_FSEL_IDX (p : Nat) : Fld := ⟨0x1460 + 256 * p, 0, 4⟩
def F.SPC_FENT_VALID (p : Nat) : Fld := ⟨0x1464 + 256 * p, 0, 1⟩
def F.SPC_FENT_ALL (p : Nat) : Fld := ⟨0x1464 + 256 * p, 1, 1⟩
def F.SPC_FENT_TENANT (p : Nat) : Fld := ⟨0x1464 + 256 * p, 4, 3⟩
def F.SPC_FENT_TARGET (p : Nat) : Fld := ⟨0x1464 + 256 * p, 8, 1⟩
def F.SPC_FENT_DROPS (p : Nat) : Fld := ⟨0x1464 + 256 * p, 16, 16⟩
def F.SPC_FCLR_TENANT (p : Nat) : Fld := ⟨0x1468 + 256 * p, 0, 3⟩
def F.SPC_FCLR_ALL (p : Nat) : Fld := ⟨0x1468 + 256 * p, 3, 1⟩
def F.SPC_FCLR_TARGET (p : Nat) : Fld := ⟨0x1468 + 256 * p, 8, 1⟩
def F.AFE_CFG_MCLK : Fld := ⟨0x1740, 0, 1⟩
def F.AFE_CFG_EXC_MODE : Fld := ⟨0x1740, 1, 2⟩
def F.AFE_CFG_CH_EN : Fld := ⟨0x1740, 4, 2⟩
def F.AFE_EXC_SET : Fld := ⟨0x1744, 0, 16⟩
def F.AFE_EXC_IMIN : Fld := ⟨0x1744, 16, 8⟩
def F.AFE_CH_GAIN (n : Nat) : Fld := ⟨0x1748 + 4 * n, 0, 3⟩
def F.AFE_CH_REF (n : Nat) : Fld := ⟨0x1748 + 4 * n, 3, 1⟩
def F.AFE_CH_ODR (n : Nat) : Fld := ⟨0x1748 + 4 * n, 4, 4⟩
def F.AFE_BURST_MAX : Fld := ⟨0x1750, 0, 9⟩
def F.AFE_STAT_STATE0 : Fld := ⟨0x1754, 0, 3⟩
def F.AFE_STAT_STATE1 : Fld := ⟨0x1754, 4, 3⟩
def F.AFE_STAT_FILL0 : Fld := ⟨0x1754, 8, 5⟩
def F.AFE_STAT_FILL1 : Fld := ⟨0x1754, 16, 5⟩
def F.AFE_STAT_EXC_I : Fld := ⟨0x1754, 24, 8⟩
def F.AFE_FAULT_EXC_OC : Fld := ⟨0x1758, 0, 1⟩
def F.AFE_FAULT_EXC_OPEN : Fld := ⟨0x1758, 1, 1⟩
def F.AFE_FAULT_TS_FAIL : Fld := ⟨0x1758, 2, 2⟩
def F.AFE_FAULT_OVR : Fld := ⟨0x1758, 4, 2⟩
def F.AFE_FAULT_OVERRUN : Fld := ⟨0x1758, 6, 2⟩
def F.AFE_FAULT_GSAT : Fld := ⟨0x1758, 8, 2⟩
def F.AFE_GDLY_D (n : Nat) : Fld := ⟨0x175c + 4 * n, 0, 32⟩
def F.AFE_TS_PER : Fld := ⟨0x1764, 0, 16⟩
def F.AFE_TS_TOL : Fld := ⟨0x1764, 16, 8⟩
def F.AFE_TS_NOW : Fld := ⟨0x1764, 24, 2⟩
def F.AFE_TSRES_DEV (n : Nat) : Fld := ⟨0x1768 + 4 * n, 0, 16⟩
def F.AFE_TSRES_PASS (n : Nat) : Fld := ⟨0x1768 + 4 * n, 16, 1⟩
def F.AFE_TSRES_DONE (n : Nat) : Fld := ⟨0x1768 + 4 * n, 17, 1⟩
def F.AFE_CALPER_SEC : Fld := ⟨0x1770, 0, 16⟩
def F.AFE_GCOR_GCOR (n : Nat) : Fld := ⟨0x1774 + 4 * n, 0, 24⟩
def F.AFE_CNT_EMPTY : Fld := ⟨0x177c, 0, 16⟩
def F.AFE_CNT_LOST : Fld := ⟨0x177c, 16, 16⟩
def F.AFE_CAL0_LCTL_EN : Fld := ⟨0x1780, 0, 1⟩
def F.AFE_CAL0_LCTL_FREEZE : Fld := ⟨0x1780, 1, 1⟩
def F.AFE_CAL0_LCTL_STEP : Fld := ⟨0x1780, 8, 8⟩
def F.AFE_CAL0_LLO_B : Fld := ⟨0x1784, 0, 32⟩
def F.AFE_CAL0_LHI_B : Fld := ⟨0x1788, 0, 32⟩
def F.AFE_CAL0_LSTATE_SAT_LO : Fld := ⟨0x178c, 0, 1⟩
def F.AFE_CAL0_LSTATE_SAT_HI : Fld := ⟨0x178c, 1, 1⟩
def F.AFE_CAL0_LSTATE_FROZEN : Fld := ⟨0x178c, 2, 1⟩
def F.AFE_CAL0_LSTATE_RUNNING : Fld := ⟨0x178c, 3, 1⟩
def F.AFE_CAL0_LSTATE_OUT : Fld := ⟨0x178c, 8, 24⟩
def F.AFE_CAL1_LCTL_EN : Fld := ⟨0x1790, 0, 1⟩
def F.AFE_CAL1_LCTL_FREEZE : Fld := ⟨0x1790, 1, 1⟩
def F.AFE_CAL1_LCTL_STEP : Fld := ⟨0x1790, 8, 8⟩
def F.AFE_CAL1_LLO_B : Fld := ⟨0x1794, 0, 32⟩
def F.AFE_CAL1_LHI_B : Fld := ⟨0x1798, 0, 32⟩
def F.AFE_CAL1_LSTATE_SAT_LO : Fld := ⟨0x179c, 0, 1⟩
def F.AFE_CAL1_LSTATE_SAT_HI : Fld := ⟨0x179c, 1, 1⟩
def F.AFE_CAL1_LSTATE_FROZEN : Fld := ⟨0x179c, 2, 1⟩
def F.AFE_CAL1_LSTATE_RUNNING : Fld := ⟨0x179c, 3, 1⟩
def F.AFE_CAL1_LSTATE_OUT : Fld := ⟨0x179c, 8, 24⟩
def F.PSQ_URG_ALLOW : Fld := ⟨0x1840, 0, 8⟩
def F.PSQ_TOWN_OWNER (n : Nat) : Fld := ⟨0x1844 + 4 * (n / 8), 4 * (n % 8), 3⟩
def F.PSQ_STAT_ENABLED : Fld := ⟨0x184c, 0, 9⟩
def F.PSQ_STAT_PENDING : Fld := ⟨0x184c, 16, 9⟩
def F.PSQ_PEND_PEND : Fld := ⟨0x1850, 0, 8⟩
def F.PSQ_PEND_URG : Fld := ⟨0x1850, 8, 8⟩
def F.PSQ_DISP_COUNT : Fld := ⟨0x1854, 0, 32⟩
def F.PSQ_SKIP_COUNT : Fld := ⟨0x1858, 0, 32⟩
def F.PSQ_USEL_PORT : Fld := ⟨0x185c, 0, 3⟩
def F.PSQ_USEL_TENANT : Fld := ⟨0x185c, 4, 3⟩
def F.PSQ_USED_CUR : Fld := ⟨0x1860, 0, 16⟩
def F.PSQ_USED_LAST : Fld := ⟨0x1860, 16, 16⟩
def F.PSQ_SPL_LCTL_EN : Fld := ⟨0x1870, 0, 1⟩
def F.PSQ_SPL_LCTL_FREEZE : Fld := ⟨0x1870, 1, 1⟩
def F.PSQ_SPL_LCTL_STEP : Fld := ⟨0x1870, 8, 8⟩
def F.PSQ_SPL_LLO_B : Fld := ⟨0x1874, 0, 32⟩
def F.PSQ_SPL_LHI_B : Fld := ⟨0x1878, 0, 32⟩
def F.PSQ_SPL_LSTATE_SAT_LO : Fld := ⟨0x187c, 0, 1⟩
def F.PSQ_SPL_LSTATE_SAT_HI : Fld := ⟨0x187c, 1, 1⟩
def F.PSQ_SPL_LSTATE_FROZEN : Fld := ⟨0x187c, 2, 1⟩
def F.PSQ_SPL_LSTATE_RUNNING : Fld := ⟨0x187c, 3, 1⟩
def F.PSQ_SPL_LSTATE_OUT : Fld := ⟨0x187c, 8, 24⟩
def F.PSQ_SPL_CFG_HIGH : Fld := ⟨0x1880, 0, 8⟩
def F.PSQ_SPL_CFG_DECAY : Fld := ⟨0x1880, 8, 8⟩
def F.PSQ_RES_SHARE (n : Nat) : Fld := ⟨0x1890 + 4 * (n / 4), 8 * (n % 4), 8⟩
def F.DSC_IDX_IDX : Fld := ⟨0x1940, 0, 8⟩
def F.DSC_W_ALL (n : Nat) : Fld := ⟨0x1944 + 4 * n, 0, 32⟩
def F.DSC_STAT_ARMED : Fld := ⟨0x1964, 0, 1⟩
def F.DSC_STAT_PENDING : Fld := ⟨0x1964, 1, 1⟩
def F.DSC_STAT_URG_PEND : Fld := ⟨0x1964, 2, 1⟩
def F.DSC_STAT_LOCKWAIT : Fld := ⟨0x1964, 3, 1⟩
def F.DSC_SEQ_SEQ : Fld := ⟨0x1968, 0, 32⟩
def F.DSC_NEXT_LO_T : Fld := ⟨0x196c, 0, 32⟩
def F.DSC_NEXT_HI_T : Fld := ⟨0x1970, 0, 32⟩
def F.DSC_SKIP_COUNT : Fld := ⟨0x1974, 0, 32⟩
def F.DSC_LAST_CAUSE : Fld := ⟨0x1978, 0, 4⟩
def F.DSC_LAST_DETAIL : Fld := ⟨0x1978, 4, 4⟩
def F.DSC_OFS_OFS : Fld := ⟨0x197c, 0, 15⟩
def F.DSC_OFS_ZRUN : Fld := ⟨0x197c, 16, 8⟩
def F.ASY_CFG_EN (k : Nat) : Fld := ⟨0x1a40 + 256 * (k / 4) + 32 * (k % 4), 0, 1⟩
def F.ASY_CFG_URGENT (k : Nat) : Fld := ⟨0x1a40 + 256 * (k / 4) + 32 * (k % 4), 1, 1⟩
def F.ASY_CFG_CRITICAL (k : Nat) : Fld := ⟨0x1a40 + 256 * (k / 4) + 32 * (k % 4), 2, 1⟩
def F.ASY_CFG_DECM1 (k : Nat) : Fld := ⟨0x1a40 + 256 * (k / 4) + 32 * (k % 4), 8, 8⟩
def F.ASY_CFG_OWNER (k : Nat) : Fld := ⟨0x1a40 + 256 * (k / 4) + 32 * (k % 4), 16, 3⟩
def F.ASY_CFG_WP (k : Nat) : Fld := ⟨0x1a40 + 256 * (k / 4) + 32 * (k % 4), 19, 1⟩
def F.ASY_CFG_HP (k : Nat) : Fld := ⟨0x1a40 + 256 * (k / 4) + 32 * (k % 4), 20, 1⟩
def F.ASY_CFG_LOCK (k : Nat) : Fld := ⟨0x1a40 + 256 * (k / 4) + 32 * (k % 4), 21, 1⟩
def F.ASY_CFG_LW (k : Nat) : Fld := ⟨0x1a40 + 256 * (k / 4) + 32 * (k % 4), 24, 4⟩
def F.ASY_CFG_HANN (k : Nat) : Fld := ⟨0x1a40 + 256 * (k / 4) + 32 * (k % 4), 28, 1⟩
def F.ASY_IN_SRC (k : Nat) : Fld := ⟨0x1a44 + 256 * (k / 4) + 32 * (k % 4), 0, 2⟩
def F.ASY_IN_W (k : Nat) : Fld := ⟨0x1a44 + 256 * (k / 4) + 32 * (k % 4), 2, 2⟩
def F.ASY_IN_BE (k : Nat) : Fld := ⟨0x1a44 + 256 * (k / 4) + 32 * (k % 4), 4, 1⟩
def F.ASY_IN_SRCIDX (k : Nat) : Fld := ⟨0x1a44 + 256 * (k / 4) + 32 * (k % 4), 8, 8⟩
def F.ASY_IN_OFF (k : Nat) : Fld := ⟨0x1a44 + 256 * (k / 4) + 32 * (k % 4), 16, 8⟩
def F.ASY_IN_STRIDE (k : Nat) : Fld := ⟨0x1a44 + 256 * (k / 4) + 32 * (k % 4), 24, 8⟩
def F.ASY_OUT_SLANE (k : Nat) : Fld := ⟨0x1a48 + 256 * (k / 4) + 32 * (k % 4), 0, 2⟩
def F.ASY_OUT_SEN (k : Nat) : Fld := ⟨0x1a48 + 256 * (k / 4) + 32 * (k % 4), 2, 1⟩
def F.ASY_OUT_FLANE (k : Nat) : Fld := ⟨0x1a48 + 256 * (k / 4) + 32 * (k % 4), 4, 2⟩
def F.ASY_OUT_FEN (k : Nat) : Fld := ⟨0x1a48 + 256 * (k / 4) + 32 * (k % 4), 6, 1⟩
def F.ASY_OUT_ELANE (k : Nat) : Fld := ⟨0x1a48 + 256 * (k / 4) + 32 * (k % 4), 8, 2⟩
def F.ASY_OUT_EEN (k : Nat) : Fld := ⟨0x1a48 + 256 * (k / 4) + 32 * (k % 4), 10, 1⟩
def F.ASY_OUT_OBLK (k : Nat) : Fld := ⟨0x1a48 + 256 * (k / 4) + 32 * (k % 4), 16, 5⟩
def F.ASY_OUT_GRANT (k : Nat) : Fld := ⟨0x1a48 + 256 * (k / 4) + 32 * (k % 4), 24, 8⟩
def F.ASY_STAT_ACTIVE (k : Nat) : Fld := ⟨0x1a4c + 256 * (k / 4) + 32 * (k % 4), 0, 1⟩
def F.ASY_STAT_LEARN (k : Nat) : Fld := ⟨0x1a4c + 256 * (k / 4) + 32 * (k % 4), 1, 1⟩
def F.ASY_STAT_CPEND (k : Nat) : Fld := ⟨0x1a4c + 256 * (k / 4) + 32 * (k % 4), 2, 1⟩
def F.ASY_STAT_NOLOCK (k : Nat) : Fld := ⟨0x1a4c + 256 * (k / 4) + 32 * (k % 4), 3, 1⟩
def F.ASY_STAT_CMP (k : Nat) : Fld := ⟨0x1a4c + 256 * (k / 4) + 32 * (k % 4), 4, 4⟩
def F.ASY_STAT_COUNT (k : Nat) : Fld := ⟨0x1a4c + 256 * (k / 4) + 32 * (k % 4), 8, 6⟩
def F.ASY_STAT_SATF (k : Nat) : Fld := ⟨0x1a4c + 256 * (k / 4) + 32 * (k % 4), 16, 1⟩
def F.ASY_STAT_NOLOCKF (k : Nat) : Fld := ⟨0x1a4c + 256 * (k / 4) + 32 * (k % 4), 17, 1⟩
def F.ASY_STAT_DOUBLE (k : Nat) : Fld := ⟨0x1a4c + 256 * (k / 4) + 32 * (k % 4), 18, 1⟩
def F.ASY_STAT_FORCED (k : Nat) : Fld := ⟨0x1a4c + 256 * (k / 4) + 32 * (k % 4), 19, 1⟩
def F.ASY_STAT_EVENTS (k : Nat) : Fld := ⟨0x1a4c + 256 * (k / 4) + 32 * (k % 4), 24, 8⟩
def F.ASY_BL_LCTL_EN (k : Nat) : Fld := ⟨0x1a50 + 256 * (k / 4) + 32 * (k % 4), 0, 1⟩
def F.ASY_BL_LCTL_FREEZE (k : Nat) : Fld := ⟨0x1a50 + 256 * (k / 4) + 32 * (k % 4), 1, 1⟩
def F.ASY_BL_LCTL_STEP (k : Nat) : Fld := ⟨0x1a50 + 256 * (k / 4) + 32 * (k % 4), 8, 8⟩
def F.ASY_BL_LLO_B (k : Nat) : Fld := ⟨0x1a54 + 256 * (k / 4) + 32 * (k % 4), 0, 32⟩
def F.ASY_BL_LHI_B (k : Nat) : Fld := ⟨0x1a58 + 256 * (k / 4) + 32 * (k % 4), 0, 32⟩
def F.ASY_BL_LSTATE_SAT_LO (k : Nat) : Fld := ⟨0x1a5c + 256 * (k / 4) + 32 * (k % 4), 0, 1⟩
def F.ASY_BL_LSTATE_SAT_HI (k : Nat) : Fld := ⟨0x1a5c + 256 * (k / 4) + 32 * (k % 4), 1, 1⟩
def F.ASY_BL_LSTATE_OUT (k : Nat) : Fld := ⟨0x1a5c + 256 * (k / 4) + 32 * (k % 4), 8, 24⟩
def F.ASY_PSEL_U : Fld := ⟨0x1ac0, 0, 2⟩
def F.ASY_PSEL_BLK : Fld := ⟨0x1ac0, 8, 4⟩
def F.ASY_PD_ALL : Fld := ⟨0x1ac4, 0, 32⟩
def F.ASY_PIPE_BUSY : Fld := ⟨0x1ae4, 0, 1⟩
def F.ASY_PIPE_URG : Fld := ⟨0x1ae4, 1, 1⟩
def F.ASY_PIPE_CUR : Fld := ⟨0x1ae4, 4, 5⟩
def F.ASY_PIPE_MAXWAIT : Fld := ⟨0x1ae4, 16, 8⟩
def F.ASY_CRIT_DECISIONS : Fld := ⟨0x1ae8, 0, 16⟩
def F.ASY_CRIT_DISAGREE : Fld := ⟨0x1ae8, 16, 8⟩
def F.ASY_CRIT_LAST : Fld := ⟨0x1ae8, 24, 5⟩
def F.ASY_CRIT_TRNG_FIX : Fld := ⟨0x1ae8, 29, 1⟩
def F.ASY_LOAD_CUR : Fld := ⟨0x1aec, 0, 16⟩
def F.ASY_LOAD_PEAK : Fld := ⟨0x1aec, 16, 16⟩
def F.QUE_MEM_POOL : Fld := ⟨0x2040, 0, 16⟩
def F.QUE_MEM_FREE : Fld := ⟨0x2040, 16, 16⟩
def F.QUE_FLUSH_TARGET : Fld := ⟨0x2044, 0, 7⟩
def F.QUE_FLUSH_ALL_LANES : Fld := ⟨0x2044, 7, 1⟩
def F.QUE_FLUSH_CONFIRM : Fld := ⟨0x2044, 24, 8⟩
def F.QUE_STAT_GAPS : Fld := ⟨0x2048, 0, 16⟩
def F.QUE_STAT_ECC_CORR : Fld := ⟨0x2048, 16, 8⟩
def F.QUE_STAT_ECC_UNCORR : Fld := ⟨0x2048, 24, 1⟩
def F.QUE_STAT_POOL_LOW : Fld := ⟨0x2048, 25, 1⟩
def F.QUE_PLC_CFG_FREE : Fld := ⟨0x204c, 0, 16⟩
def F.QUE_PLC_CFG_PERIOD : Fld := ⟨0x204c, 16, 8⟩
def F.QUE_PLC_LCTL_EN : Fld := ⟨0x2050, 0, 1⟩
def F.QUE_PLC_LCTL_FREEZE : Fld := ⟨0x2050, 1, 1⟩
def F.QUE_PLC_LCTL_STEP : Fld := ⟨0x2050, 8, 8⟩
def F.QUE_PLC_LLO_B : Fld := ⟨0x2054, 0, 32⟩
def F.QUE_PLC_LHI_B : Fld := ⟨0x2058, 0, 32⟩
def F.QUE_PLC_LSTATE_SAT_LO : Fld := ⟨0x205c, 0, 1⟩
def F.QUE_PLC_LSTATE_SAT_HI : Fld := ⟨0x205c, 1, 1⟩
def F.QUE_PLC_LSTATE_FROZEN : Fld := ⟨0x205c, 2, 1⟩
def F.QUE_PLC_LSTATE_RUNNING : Fld := ⟨0x205c, 3, 1⟩
def F.QUE_PLC_LSTATE_OUT : Fld := ⟨0x205c, 8, 24⟩
def F.QUE_TQ_MIN (n : Nat) : Fld := ⟨0x2060 + 4 * n, 0, 12⟩
def F.QUE_TQ_MAX (n : Nat) : Fld := ⟨0x2060 + 4 * n, 16, 12⟩
def F.QUE_TQ_WEIGHT (n : Nat) : Fld := ⟨0x2060 + 4 * n, 28, 4⟩
def F.QUE_TCFG_STALL (n : Nat) : Fld := ⟨0x2080 + 4 * n, 0, 16⟩
def F.QUE_TCFG_L3_NEWEST (n : Nat) : Fld := ⟨0x2080 + 4 * n, 16, 1⟩
def F.QUE_TUSE_USED (n : Nat) : Fld := ⟨0x20a0 + 4 * n, 0, 16⟩
def F.QUE_TUSE_LOANED (n : Nat) : Fld := ⟨0x20a0 + 4 * n, 16, 16⟩
def F.QUE_POP_DATA (n : Nat) : Fld := ⟨0x20c0 + 4 * n, 0, 32⟩
def F.QUE_PSTAT_NONEMPTY (n : Nat) : Fld := ⟨0x20e0 + 4 * n, 0, 4⟩
def F.QUE_PSTAT_LANE (n : Nat) : Fld := ⟨0x20e0 + 4 * n, 4, 2⟩
def F.QUE_PSTAT_READING (n : Nat) : Fld := ⟨0x20e0 + 4 * n, 6, 1⟩
def F.QUE_PSTAT_FLUSHED (n : Nat) : Fld := ⟨0x20e0 + 4 * n, 7, 1⟩
def F.QUE_PSTAT_EMPTY (n : Nat) : Fld := ⟨0x20e0 + 4 * n, 8, 1⟩
def F.QUE_PSTAT_REWOUND (n : Nat) : Fld := ⟨0x20e0 + 4 * n, 9, 1⟩
def F.QUE_PSTAT_BUNDLES (n : Nat) : Fld := ⟨0x20e0 + 4 * n, 16, 16⟩
def F.BND_LCFG_MODE (n : Nat) : Fld := ⟨0x2140 + 4 * n, 0, 2⟩
def F.BND_LCFG_LOCK (n : Nat) : Fld := ⟨0x2140 + 4 * n, 3, 1⟩
def F.BND_LCFG_SIZE (n : Nat) : Fld := ⟨0x2140 + 4 * n, 8, 9⟩
def F.BND_LCFG_AGE (n : Nat) : Fld := ⟨0x2140 + 4 * n, 18, 14⟩
def F.BND_DSEL_IDX : Fld := ⟨0x21c0, 0, 8⟩
def F.BND_DSEL_KIND : Fld := ⟨0x21c0, 8, 1⟩
def F.BND_DSEL_TENANT : Fld := ⟨0x21c0, 12, 3⟩
def F.BND_DROUTE_EN : Fld := ⟨0x21c4, 0, 1⟩
def F.BND_DROUTE_LANE : Fld := ⟨0x21c4, 1, 2⟩
def F.BND_SEL_TENANT : Fld := ⟨0x21c8, 0, 3⟩
def F.BND_SEQ_LO_S : Fld := ⟨0x21cc, 0, 32⟩
def F.BND_SEQ_HI_S : Fld := ⟨0x21d0, 0, 16⟩
def F.BND_TSTAT_OPEN : Fld := ⟨0x21d4, 0, 4⟩
def F.BND_TSTAT_SEALWAIT : Fld := ⟨0x21d4, 4, 4⟩
def F.BND_TSTAT_NOKEY : Fld := ⟨0x21d4, 8, 1⟩
def F.BND_TSTAT_RSV_WAIT : Fld := ⟨0x21d4, 9, 1⟩
def F.BND_TSTAT_LEFT : Fld := ⟨0x21d4, 16, 16⟩
def F.BND_TCNT_COUNT : Fld := ⟨0x21d8, 0, 32⟩
def F.BND_HCFG_PER : Fld := ⟨0x21dc, 0, 16⟩
def F.BND_HSTAT_BUSY : Fld := ⟨0x21e0, 0, 1⟩
def F.BND_HSTAT_STOPPED : Fld := ⟨0x21e0, 1, 1⟩
def F.BND_HSTAT_QDEPTH : Fld := ⟨0x21e0, 8, 6⟩
def F.BND_SEALS_COUNT : Fld := ⟨0x21e4, 0, 32⟩
def F.KEY_SEL_TENANT : Fld := ⟨0x2240, 0, 3⟩
def F.KEY_TSTAT_ALL : Fld := ⟨0x2244, 0, 32⟩
def F.KEY_SLOT_ALL : Fld := ⟨0x2248, 0, 32⟩
def F.KEY_WEAR_ALL : Fld := ⟨0x224c, 0, 32⟩
def F.KEY_HW_LO_H : Fld := ⟨0x2250, 0, 32⟩
def F.KEY_HW_HI_H : Fld := ⟨0x2254, 0, 32⟩
def F.KEY_CEIL_LO_C : Fld := ⟨0x2258, 0, 32⟩
def F.KEY_CEIL_HI_C : Fld := ⟨0x225c, 0, 32⟩
def F.KEY_TLAST_ALL : Fld := ⟨0x2260, 0, 32⟩
def F.KEY_CHART_ALL : Fld := ⟨0x2264, 0, 32⟩
def F.KEY_CHVER_ALL : Fld := ⟨0x2268, 0, 32⟩
def F.KEY_RSP_DATA : Fld := ⟨0x226c, 0, 32⟩
def F.KEY_ATT_DATA : Fld := ⟨0x2270, 0, 32⟩
def F.KEY_ASTAT_READY : Fld := ⟨0x2274, 0, 1⟩
def F.KEY_ASTAT_BUSY : Fld := ⟨0x2274, 1, 1⟩
def F.KEY_CNT_ACCEPTED : Fld := ⟨0x2278, 0, 16⟩
def F.KEY_CNT_REFUSED : Fld := ⟨0x2278, 16, 16⟩
def F.TAM_RESP_LEVEL (n : Nat) : Fld := ⟨0x2340 + 4 * (n / 8), 4 * (n % 8), 3⟩
def F.TAM_LATCH_LATCHED : Fld := ⟨0x2344, 0, 7⟩
def F.TAM_LATCH_COND : Fld := ⟨0x2344, 8, 7⟩
def F.TAM_LATCH_SEALSTOP : Fld := ⟨0x2344, 16, 1⟩
def F.TAM_LATCH_ZEROIZED : Fld := ⟨0x2344, 17, 1⟩
def F.TAM_CLR_CLASSES : Fld := ⟨0x2348, 0, 7⟩
def F.TAM_LAST_CLASS : Fld := ⟨0x234c, 0, 4⟩
def F.TAM_LAST_LEVEL : Fld := ⟨0x234c, 4, 3⟩
def F.TAM_LAST_REQ : Fld := ⟨0x234c, 8, 4⟩
def F.TAM_LAST_PAGE : Fld := ⟨0x234c, 16, 8⟩
def F.TAM_LAST_OFFSET : Fld := ⟨0x234c, 24, 8⟩
def F.TAM_CNT_CNT (n : Nat) : Fld := ⟨0x2350 + 4 * (n / 4), 8 * (n % 4), 8⟩
def F.TAM_TLIM_LO : Fld := ⟨0x2358, 0, 8⟩
def F.TAM_TLIM_HI : Fld := ⟨0x2358, 8, 8⟩
def F.TAM_TWARN_WLO : Fld := ⟨0x235c, 0, 8⟩
def F.TAM_TWARN_WHI : Fld := ⟨0x235c, 8, 8⟩
def F.TAM_TCFG_PER : Fld := ⟨0x2360, 0, 8⟩
def F.TAM_TEMP_TJ : Fld := ⟨0x2364, 0, 16⟩
def F.TAM_TEMP_WLO : Fld := ⟨0x2364, 16, 1⟩
def F.TAM_TEMP_WHI : Fld := ⟨0x2364, 17, 1⟩
def F.TAM_PROBE_WIN : Fld := ⟨0x2368, 0, 16⟩
def F.TAM_PROBE_THR : Fld := ⟨0x2368, 16, 16⟩
def F.TAM_PCNT_CUR : Fld := ⟨0x236c, 0, 16⟩
def F.TAM_TRNG_FAIL : Fld := ⟨0x2370, 0, 1⟩
def F.TAM_TRNG_RCT : Fld := ⟨0x2370, 1, 1⟩
def F.TAM_TRNG_APT : Fld := ⟨0x2370, 2, 1⟩
def F.TAM_TRNG_FAILS : Fld := ⟨0x2370, 16, 16⟩
def F.TAM_HOLD_T : Fld := ⟨0x2374, 0, 16⟩
def F.TAM_SUP_VCORE_GL : Fld := ⟨0x2378, 0, 1⟩
def F.TAM_SUP_VSTORE_OV : Fld := ⟨0x2378, 1, 1⟩
def F.LOG_STATUS_DEAD : Fld := ⟨0x2440, 0, 1⟩
def F.LOG_STATUS_FLYDEAD : Fld := ⟨0x2440, 1, 1⟩
def F.LOG_STATUS_SCAN : Fld := ⟨0x2440, 2, 1⟩
def F.LOG_STATUS_RO_MODE : Fld := ⟨0x2440, 3, 1⟩
def F.LOG_STATUS_PEND : Fld := ⟨0x2440, 8, 5⟩
def F.LOG_STATUS_FLY_USED : Fld := ⟨0x2440, 16, 6⟩
def F.LOG_SEQ_SEQ : Fld := ⟨0x2444, 0, 32⟩
def F.LOG_SEL_BACK : Fld := ⟨0x2448, 0, 11⟩
def F.LOG_SEL_AREA : Fld := ⟨0x2448, 16, 1⟩
def F.LOG_DATA_DATA : Fld := ⟨0x244c, 0, 32⟩
def F.LOG_CHK_VALID : Fld := ⟨0x2450, 0, 1⟩
def F.LOG_CHK_MACOK : Fld := ⟨0x2450, 1, 1⟩
def F.LOG_CHK_ECC : Fld := ⟨0x2450, 2, 1⟩
def F.LOG_FWD_T : Fld := ⟨0x2454, 0, 8⟩
def F.LOG_CNT_WRITTEN : Fld := ⟨0x2458, 0, 16⟩
def F.LOG_CNT_LOST : Fld := ⟨0x2458, 16, 8⟩
def F.LOG_CNT_MACBAD : Fld := ⟨0x2458, 24, 8⟩
def F.LOG_FLYLOST_COUNT : Fld := ⟨0x245c, 0, 32⟩
def F.STW_STAT_STATE : Fld := ⟨0x2540, 0, 4⟩
def F.STW_STAT_TENANT : Fld := ⟨0x2540, 8, 3⟩
def F.STW_STAT_OPCODE : Fld := ⟨0x2540, 16, 8⟩
def F.STW_CMDQ_ENVELOPE : Fld := ⟨0x2544, 0, 1⟩
def F.STW_CMDQ_GRANULES : Fld := ⟨0x2544, 8, 7⟩
def F.STW_CMDQ_WAITING : Fld := ⟨0x2544, 16, 8⟩
def F.STW_NVQ_QUEUED : Fld := ⟨0x2548, 0, 8⟩
def F.STW_NVQ_ACTIVE : Fld := ⟨0x2548, 8, 1⟩
def F.STW_NVQ_REGION : Fld := ⟨0x2548, 12, 4⟩
def F.NVS_STAT_BUSY : Fld := ⟨0x2640, 0, 1⟩
def F.NVS_STAT_OP : Fld := ⟨0x2640, 1, 2⟩
def F.NVS_STAT_PAGE : Fld := ⟨0x2640, 16, 9⟩
def F.NVS_ERR_PAGE : Fld := ⟨0x2644, 0, 9⟩
def F.NVS_ERR_CAUSE : Fld := ⟨0x2644, 12, 4⟩
def F.NVS_ERR_COUNT : Fld := ⟨0x2644, 16, 16⟩
def F.NVS_ECC_CORR : Fld := ⟨0x2648, 0, 16⟩
def F.NVS_ECC_UNCORR : Fld := ⟨0x2648, 16, 16⟩
def F.NVS_WSEL_PAGE : Fld := ⟨0x264c, 0, 9⟩
def F.NVS_WEAR_ERASES : Fld := ⟨0x2650, 0, 16⟩
def F.NVS_WEAR_LIMIT : Fld := ⟨0x2650, 16, 1⟩
def F.TST_MODE_MODE : Fld := ⟨0x2740, 0, 2⟩
def F.TST_RES_DONE : Fld := ⟨0x2744, 0, 1⟩
def F.TST_RES_PASS : Fld := ⟨0x2744, 1, 1⟩
def F.TST_RES_FAIL_ADDR : Fld := ⟨0x2744, 8, 24⟩
def F.TST_IDCODE_CODE : Fld := ⟨0x2748, 0, 32⟩
def F.TN_POP_DATA (p : Nat) : Fld := ⟨0x3040 + 256 * p, 0, 32⟩
def F.TN_PSTAT_ALL (p : Nat) : Fld := ⟨0x3044 + 256 * p, 0, 32⟩
def F.TN_CMD_DATA (p : Nat) : Fld := ⟨0x3048 + 256 * p, 0, 32⟩
def F.TN_CSTAT_STATE (p : Nat) : Fld := ⟨0x304c + 256 * p, 0, 3⟩
def F.TN_CSTAT_ERR (p : Nat) : Fld := ⟨0x304c + 256 * p, 8, 3⟩
def F.TN_CSTAT_COUNT (p : Nat) : Fld := ⟨0x304c + 256 * p, 16, 16⟩
def F.TN_CCTL_CLEAR (p : Nat) : Fld := ⟨0x3050 + 256 * p, 0, 1⟩
def F.TN_RSP_DATA (p : Nat) : Fld := ⟨0x3054 + 256 * p, 0, 32⟩
def F.TN_ATT_DATA (p : Nat) : Fld := ⟨0x3058 + 256 * p, 0, 32⟩
def F.TN_KSTAT_ALL (p : Nat) : Fld := ⟨0x305c + 256 * p, 0, 32⟩
def F.TN_SES_NUM (p : Nat) : Fld := ⟨0x3060 + 256 * p, 0, 16⟩
def F.TN_XADR_ADR (p : Nat) : Fld := ⟨0x3064 + 256 * p, 0, 16⟩
def F.TN_XDAT_DATA (p : Nat) : Fld := ⟨0x3068 + 256 * p, 0, 32⟩
def F.TN_L_RELEASE (p n : Nat) : Fld := ⟨0x3080 + 256 * p + 4 * n, 0, 1⟩

end Sys2Proof.Machine
end

