-- ==== Sys2Proof/Machine/State.lean ====
section
/-! DEFINITION. The state of the hub as plain data: the register file (every RW, W1C and RO status bit has its one home
there), the state behind the registers, the NV store, and the queue of waiting commands. `State.reset` is the first
power-up of a shipped part (log entry 9). -/

namespace Sys2Proof.Machine

/-- The outside-facing states of R10. -/
inductive Phase where
  | unpowered
  | inReset
  | booting
  | stow
  | running
  deriving DecidableEq, Repr

/-- The power states of R84. -/
inductive PState where
  | off
  | stowCold
  | stowWarm
  | watch
  | run
  deriving DecidableEq, Repr

/-- The causes of a FULL reset (SYS_RST_CAUSE, R122). -/
inductive Cause where
  | por
  | bor
  | nrst
  | hold
  | cmd
  | lifecycle
  deriving DecidableEq, Repr

/-- Who enqueues an entry, and so whose credits it spends (R167). -/
inductive Producer where
  | psq
  | port
  | stamp
  | assay
  | resampler
  | record
  | bundler
  | host
  deriving DecidableEq, Repr

/-- One part of a GAP record (R163, R165): cause, set of detail codes, count, first and last HT, and the saturation mark. -/
structure GapPart where
  cause : Nat
  detail : Nat
  count : Nat
  first : Nat
  last : Nat
  sat : Bool
  deriving DecidableEq, Repr

/-- A GAP record as it travels (R165, R362): the source of its first skip, its own part, the upstream part when MERGED,
and whether it counts flushed bundles (R186). -/
structure Gap where
  src : Nat
  part : GapPart
  up : Option GapPart
  bundles : Bool
  deriving DecidableEq, Repr

/-- A pending GAP record of one producer for one queue (R163, R186). `held` marks a REVOKED record that waits (R251);
`flush` a FLUSH or RESET record. -/
structure PendRec where
  src : Nat
  own : Option GapPart
  up : Option GapPart
  flush : Bool
  bundles : Bool
  held : Bool
  deriving DecidableEq, Repr

/-- An item (R360-R362): type, flags, source, low 16 bits of the stream sequence, item HT, and payload before padding. -/
structure Item where
  ty : Nat
  flags : Nat
  src : Nat
  seq : Nat
  ht : Nat
  payload : List Byte
  deriving DecidableEq, Repr

/-- A transfer request (R245): the descriptor, its eight latched words, its owner, the stream sequence and trigger HT,
and the edge recorded for a join (R269: capture channel and COUNT). -/
structure Request where
  idx : Nat
  words : List Word
  tenant : Nat
  seq : Nat
  trig : Nat
  join : Option (Nat × Nat)
  deriving DecidableEq, Repr

/-- A capture entry (R195), with the edge recorded for a join (R269), the tenants that its stream was owned by or granted to
when it was enqueued (R251), and the spacing of its samples then (R226). -/
structure Capture where
  desc : Nat
  fenced : Bool
  failed : Bool
  hold : Bool
  ht : Nat
  seq : Nat
  data : List Byte
  join : Option (Nat × Nat)
  grant : Nat
  spacing : Nat
  deriving DecidableEq, Repr

/-- What a queue entry holds. -/
inductive Body where
  | request (r : Request)
  | gaps (l : List Gap)
  | capture (c : Capture)
  | item (i : Item)
  | command (payload : List Byte)
  deriving DecidableEq, Repr

/-- A queue entry: the producer whose credits it spent, its slots, and its contents. -/
structure Entry where
  prod : Producer
  slots : Nat
  body : Body
  deriving DecidableEq, Repr

/-- A leased lock (R152): its holder (requester code, tenant, session) and the BROKEN mark. -/
structure Lock where
  holder : Option (Nat × Nat × Nat)
  broken : Bool
  deriving DecidableEq, Repr

/-- The output of an adaptive loop (R148, R149). -/
structure Loop where
  out : Int
  satLo : Bool
  satHi : Bool
  deriving DecidableEq, Repr

/-- A descriptor of the Poll Sequencer (R235-R257): its words, arming, the pending request and its deadline, the next
target (HT for TIME, fraction for ANGLE), the stream sequence, skip record, placement offset, zero-wait run, and the
NO_LOCK bookkeeping (armed since a lock; extrapolated targets are counted). -/
structure Desc where
  words : List Word
  armed : Bool
  pend : Option Request
  next : Nat
  seq : Nat
  skips : Nat
  lastCause : Nat
  lastDetail : Nat
  ofs : Nat
  zrun : Nat
  lockSeen : Bool
  deriving DecidableEq, Repr

/-- A fence entry (R213-R215). -/
structure Fence where
  valid : Bool
  all : Bool
  target : Nat
  drops : Nat
  deriving DecidableEq, Repr

/-- A transfer in progress (R193): its request, the HT at which it was taken, its start HT, whether it is fenced, its arbitration losses, whether
it waits for a free bus to be repeated (R206), whether HOLDOVER was 1 at its start (R264), and the port registers latched
at its start (R193). -/
structure Xfer where
  req : Request
  taken : Nat
  start : Nat
  fenced : Bool
  losses : Nat
  waitFree : Bool
  hold : Bool
  cfg : List Word
  deriving DecidableEq, Repr

/-- A sensor port's state behind its registers; `owed` is the tenant and the take of the last transfer of a two-wire port
whose TBUF is still to be charged (R248). -/
structure Port where
  xfer : Option Xfer
  busFree : Bool
  blocked : Bool
  fences : Map Fence
  owed : Option (Nat × Nat)
  deriving DecidableEq, Repr

/-- A conversion result of the AFE (R223): 24-bit corrected code, flags [31:24], and its sample HT (R226). -/
structure AfeResult where
  code : Int
  flags : Nat
  ht : Nat
  deriving DecidableEq, Repr

/-- An AFE channel (R219-R231): the result buffer, the conversions still to discard after a restart, whether the next
delivered result is the first after a restart, the last good code, the positive-phase result of CHOP, the conversions
made in the phase, the periods left of a Touchstone check and of a calibration, whether each is waiting, the code of its
first half, whether a change of configuration waits for the conversion boundary, the ODR in force (R222), whether the
conversion in progress is the last one of a page that has been disabled (R233), and the HT at which the calibration began. -/
structure AfeCh where
  buf : List AfeResult
  discard : Nat
  first : Bool
  lastGood : Int
  plus : Option (Int × Nat × Bool)
  phaseConv : Nat
  touch : Nat
  cal : Nat
  touchWait : Bool
  calWait : Bool
  codeA : Int
  restartWait : Bool
  odr : Nat
  final : Bool
  calAt : Nat
  deriving DecidableEq, Repr

/-- The AFE as a whole: excitation on, kept off by EXC_OC (R229), the SET pause, the polarity of the CHOP phase, a
change of MCLK or of EXC_MODE that waits for the conversion boundary, with the values in force (R222), and whether the
current was last found below IMIN (R229). -/
structure Afe where
  excOn : Bool
  excBlocked : Bool
  settling : Bool
  negPhase : Bool
  mclkWait : Bool
  modeWait : Bool
  mclk : Nat
  mode : Nat
  excLow : Bool
  deriving DecidableEq, Repr

/-- A capture channel of the Stamp unit (R265-R269): newest stamp, COUNT, MISSED, JMISS, and the join ring
(COUNT and stamp, newest first). -/
structure StpCh where
  newest : Nat
  count : Nat
  missed : Nat
  jmiss : Nat
  ring : List (Nat × Nat × Bool)
  deriving DecidableEq, Repr

/-- A calibration line of the interpolator (R270, R517): the code-density table and the hits counted per code. -/
structure Line where
  table : List Nat
  hits : List Nat
  deriving DecidableEq, Repr

/-- An entry of the SYNC table (R273): stamp, SEQ, paired, its one-second window ended, HOLDOVER at the stamp. -/
structure SyncEntry where
  stamp : Nat
  seq : Nat
  paired : Bool
  ended : Bool
  hold : Bool
  deriving DecidableEq, Repr

/-- The Reckoner (R261-R282): the 128-bit accumulator in units of 2^-96 s, the slew rate q in 2^-40, the remaining
phase R scaled by 2^104 (HT units at the exact product's scale), the offset of the epoch in force, the
last accepted pair (stamp, epoch index, HOLDOVER), the HT between the last two pairs of the epoch, the SYNC table, the
beginnings of this boot's epochs (index and HT, newest first), and the unsent EPOCH payloads per tenant. -/
structure Rck where
  acc : Nat
  q : Int
  phase : Int
  ofs : Option Nat
  prev : Option (Nat × Nat × Bool)
  interval : Option Nat
  fast : Bool
  sync : List SyncEntry
  epochs : List (Nat × Nat)
  unsent : Map (List Item)
  deriving DecidableEq, Repr

/-- An entry of the Sextant's history ring (R298): HT, angle in 2^-64 rev and rate in 2^-32 rev/s; `lost` is the HT of a
loss of lock after it. -/
structure Hist where
  ht : Nat
  theta : Int
  rate : Int
  lost : Option Nat
  deriving DecidableEq, Repr

/-- The Sextant (R286-R298): the angle θ and the output angle as REV, fraction and 32 further bits; speed, gyro rate and
bias in 2^-32 rev/s; the DC estimates scaled by 2^16; GOFS_CUR; the counts of consecutive good and bad measurements, of
IDX and gravity measurements in acquisition; the last stamps and gravity measure; whether a
GYRO lock without IDX has set the angle; the history ring, newest first; the last 16 residuals in 2^-64 rev; the HT, the
angle (REV and fraction) and the speed at the last loss of lock (R255); and per comparator the angle that it has come past
(R296). -/
structure Sxt where
  theta : BitVec 96
  out : BitVec 96
  omega : Int
  gyro : Int
  bias : Int
  xd : Int
  yd : Int
  gofs : BitVec 32
  good : Nat
  bad : Nat
  nIdx : Nat
  nGrav : Nat
  lastIdx : Nat
  lastGrav : Nat
  lastMeas : BitVec 32
  gravTimes : List Nat
  gyroTimes : List Nat
  lastGyro : Nat
  relZero : Bool
  hist : List Hist
  resid : List Int
  lost : Nat × Nat × Int
  cmpPast : List Nat
  deriving DecidableEq, Repr

/-- An input sample of a Resampler channel: its angle (none where the lookup failed), its stamp and its components;
`gap` is the cause of an upstream GAP record that lies before it. -/
structure RsmPoint where
  phi : Option Int
  ht : Nat
  vals : List Int
  gap : Option Nat
  deriving DecidableEq, Repr

/-- A Resampler channel (R299-R304): its last input samples (oldest first), the next target index, the entry being
filled (REV, index, speed and HT of its first sample, its K and LOGN, values, flags), RESTART due, entry and miss counts. -/
structure Rsm where
  points : List RsmPoint
  next : Option Int
  rev : Nat
  idx : Nat
  speed : Int
  ht : Nat
  k : Nat
  logn : Nat
  vals : List Int
  flags : Nat
  restart : Bool
  outCnt : Nat
  miss : Nat
  entries : Nat
  deriving DecidableEq, Repr

/-- A second decision of a CRITICAL unit that is due (R325): the state decided, the tick it enters and the entry to send. -/
structure Pend2 where
  active : Bool
  kind : Nat
  item : Item
  deriving DecidableEq, Repr

/-- An Assay unit's state behind its registers (R309-R333): parameter words; biquad states; decimator phase; the kept
samples of the frame (stamp, value), newest first, and the order phases of those whose lookup succeeded; the frame's
flags (bit 0 SAT, 1 NOLOCK, 5 FENCED, 6 HOLD); the features; ROC's previous value; the window and its second copy,
newest first; the spread D, seeding and n of the baseline (B is the loop's output); frame and kept-sample numbers; the
open output entry (samples newest first, number of its first, flags); RESTART due on each kind of entry; the comparator
results; the count of ASSERT events; a pending second decision; FORCED; the previous edge; the samples of the head entry
already passed. -/
structure Asy where
  params : Map Word
  bq : List (Int × Int)
  dec : Nat
  samples : List (Nat × Int)
  psis : List (Int × Int)
  frameFlags : Nat
  feats : List Int
  rocPrev : Option Int
  cmp : List Bool
  win : List Bool
  win2 : List Bool
  spread : Int
  seeded : Bool
  learnN : Nat
  frameNo : Nat
  keptNo : Nat
  outBuf : List (Nat × Int)
  outFirst : Nat
  outFlags : Nat
  restartOut : Bool
  restartFeat : Bool
  events : Nat
  cpend : Option Pend2
  forced : Bool
  lastEdge : Option Nat
  pos : Nat
  deriving DecidableEq, Repr

/-- An event presented to a Rose channel and not yet taken (R337, R355), with the stamped edge it came from, if any. -/
structure RoseEvent where
  ch : Nat
  word : Word
  edge : Option (Nat × Nat)
  deriving DecidableEq, Repr

/-- An open bundle of a lane (R176, R366-R369): its items in order, their bytes, the HT at which the first was appended,
whether a close condition stands, whether the lane's bundle before it still holds the seal credit (R168), and the granules
of the lane's reserve that it holds (R177). -/
structure Lane where
  items : List Item
  len : Nat
  first : Nat
  closeReq : Bool
  credit : Bool
  res : Nat
  deriving DecidableEq, Repr

/-- A closed bundle (R369-R374): its bytes, its granules, whether the Hallmark engine has finished it, the HT span
of its items, and how many of its granules are of the lane's reserve (R177). -/
structure Bundle where
  seq : Nat
  mode : Nat
  gen : Nat
  header : List Byte
  payload : List Byte
  tag : List Byte
  granules : Nat
  done : Bool
  firstHt : Nat
  lastHt : Nat
  res : Nat
  deriving DecidableEq, Repr

/-- A pending EVICT record (R179, R362). -/
structure Evict where
  count : Nat
  seqA : Nat
  seqB : Nat
  htA : Nat
  htB : Nat
  deriving DecidableEq, Repr

/-- A key slot in NV (R386): generation, key, whether it is valid, page writes. -/
structure KeySlot where
  gen : Nat
  key : List Byte
  valid : Bool
  writes : Nat
  deriving DecidableEq, Repr

/-- A command that has reached execution and has no final response yet (R393, R397, R398): the commanding tenant, the
tenant it concerns, opcode and counter, the generation whose key verified it (0: none), and whether PENDING was answered. -/
structure Ticket where
  tenant : Nat
  concern : Nat
  opcode : Nat
  counter : Nat
  gen : Nat
  answered : Bool
  deriving DecidableEq, Repr

/-- A key update under way (R388): the generation and key to write, the enrolment-key hash that comes with it, its
target slot, whether step 3 has verified, the command it carries out, its place in the order of NV writes (R79: the
writes requested before it that are still to come, and its number among the key updates), and whether SYS_DIP.DEFERRED
counts it. -/
structure KeyUpdate where
  gen : Nat
  key : List Byte
  hash : List Byte
  slotB : Bool
  written : Bool
  ticket : Ticket
  behind : Nat
  asked : Nat
  deferred : Bool
  deriving DecidableEq, Repr

/-- A chart in NV (R402, R403): its bytes, header included, and its store number. -/
structure Chart where
  bytes : List Byte
  store : Nat
  deriving DecidableEq, Repr

/-- A tenant's volatile security state: the active slot, the command-counter high-water H, the last tag that reached
execution and the response to that command, the stored response, the header of an open chart upload and its staged body,
the pending key update, whether a chart commit is pending, the attestation report and whether it is being signed,
REMOVING, commands decided and the last command's record, the next bundle sequence, the record counter and the bundles
closed. -/
structure Ten where
  activeB : Option Bool
  hw : Nat
  lastTag : List Byte
  execRsp : List Byte
  response : List Byte
  upload : Option (List Byte)
  staged : List (Option Byte)
  update : Option KeyUpdate
  chartPend : Bool
  report : List Byte
  signing : Bool
  removing : Bool
  cmds : Nat
  last : Nat
  seqNext : Nat
  recCnt : Nat
  bundles : Nat
  deriving DecidableEq, Repr

/-- A tenant's stored state in NV: the two key slots, the enrolment-key hash, the counter ceiling C, the
bundle-sequence high-water, the active and the older chart, EXIST. -/
structure TenNv where
  slotA : KeySlot
  slotB : KeySlot
  hash : List Byte
  ceil : Nat
  seqHw : Nat
  chart : Option Chart
  exist : Bool
  deriving DecidableEq, Repr

/-- A Logbook entry in NV (R462): its 32 bytes and whether they read back without an uncorrectable error. -/
structure LogSlot where
  bytes : List Byte
  good : Bool
  deriving DecidableEq, Repr

/-- An NV write that waits or runs (R79), and what its completion commits: a sequence reservation (R376), the oldest
waiting Logbook entry (R465), or a part of a command: chart bytes (offset, length), a chart, the node configuration,
patch bytes, a patch image, the erasure of a removed tenant. -/
inductive NvJob where
  | seqReserve (t hw : Nat)
  | logEntry
  | chartData (k : Ticket) (off len : Nat)
  | chartCommit (k : Ticket) (bytes : List Byte)
  | config (k : Ticket) (stored : Map Word)
  | patchData (k : Ticket) (off len : Nat)
  | patchCommit (k : Ticket) (image : List Byte)
  | erase (k : Ticket) (t : Nat)
  deriving DecidableEq, Repr

/-- What factory trim fixes of a part (log entry 7). -/
structure Trim where
  letter : Nat
  devLo : Nat
  devHi : Nat
  deviceKey : List Byte
  devicePub : List Byte
  logKey : List Byte
  cload : Nat
  tmin : List Nat
  idcode : Nat
  twarn : Nat
  good : Bool
  deriving DecidableEq, Repr

/-- The NV store (R476): lifecycle word and its inverse, node configuration (address and value of every stored
register), boot ring, per-tenant contents, the committed patch image and the half that holds it, Logbook, Flyleaf, factory
trim, the erase count per page, and the pages that page integrity marks invalid after an abandoned write (R79). -/
structure Nv where
  life : Nat
  lifeInv : Nat
  config : Option (Map Word)
  configGood : Bool
  bootNum : Nat
  ringGood : Bool
  tens : Map TenNv
  patch : Option (List Byte)
  patchHi : Bool
  log : Map LogSlot
  logSeq : Nat
  fly : List LogSlot
  trim : Trim
  erases : Map Nat
  bad : List Nat
  deriving DecidableEq, Repr

/-- A host-port transaction (R415-R419): its port is the map key. The requester, whether it reads, the running address,
the staged bytes (address, byte) in order, the bytes staged in all, the tenant and lane and sequence of each bundle it
has begun to deliver with the bytes delivered, the denials, the results that apply, a pop stall in progress (tenant),
whether pop bytes are replaced by 0x00 from now on, and the sample of each register that a read of it has begun (R418). -/
structure Tx where
  req : Requester
  addr7 : Nat
  read : Bool
  ptr : Nat
  staged : List (Nat × Byte)
  count : Nat
  popT : Option Nat
  bundles : List (Nat × Nat × Nat)
  denied : Nat
  result : Nat
  stall : Option Nat
  left : Nat
  zero : Bool
  started : Bool
  opc : Nat
  samples : List (Nat × Word)
  deriving DecidableEq, Repr

/-- A command assembly of a TN page (R437): its bytes, and its place among the complete ones. -/
structure Assembly where
  bytes : List Byte
  complete : Bool
  order : Nat
  deriving DecidableEq, Repr

/-- The command envelope (R438): header, payload and tag, and the tenant page it came from. -/
structure Envelope where
  header : List Byte
  payload : List Byte
  tag : List Byte
  deriving DecidableEq, Repr

/-- Power, reset and host state behind the registers. VSTORE and VHARV in mV, IHARV in mA, temperature in 0.1 °C as
last presented; `retained` is the intact retention domain (R96); `coldBoot` a boot reached through VSTART (R68); `wdog`
the watchdog count in ticks (R103); `keepOn` the KEEP-0 rails that were on at Stow entry (R89); `lockout` VHOST locked out (R74); `flares` the
flares whose pulse runs (R349); `dipCounted` the dip that settles is counted (R82); `csLow` HCS_N is low (R55, R86);
`rewound` the tenants whose bundles a FULL reset rewound, shown at the end of boot (R185). -/
structure Sys where
  phase : Phase
  pstate : PState
  nrstLow : Bool
  holding : Nat
  holdTime : Bool
  cause : Cause
  vstore : Nat
  vharv : Nat
  iharv : Nat
  temp : Int
  aboveVstart : Bool
  retained : Bool
  coldBoot : Bool
  pulse : Bool
  vhostOn : Bool
  vhostV : Nat
  vhostCycle : Bool
  vhostSettle : Bool
  bumped : Bool
  trips : List Nat
  railV : Nat
  railShed : Nat
  railStow : Nat
  dipStart : Option Nat
  dipMin : Nat
  dipEnd : Nat
  dipWins : List (Nat × Nat)
  wakes : Nat
  pins : Nat
  wdog : Nat
  keepOn : Nat
  lockout : Bool
  flares : Nat
  dipCounted : Bool
  csLow : Bool
  rewound : Nat
  deriving DecidableEq, Repr

/-- Resets in progress (R97): the HT of a DATAPATH reset in progress, the HT of the last TENANT reset of each tenant,
and the set of the TENANT resets in progress. -/
structure Rst where
  dp : Option Nat
  tens : Map (Option Nat)
  busy : Nat
  deriving DecidableEq, Repr

/-- The clock behind the registers: the oscillator mode in use, a held gear request (R47), the gear an upshift ramps
for (R46), the timing floors in force per holder (gear + 1). -/
structure Clk where
  mode : Nat
  held : Option Nat
  ramp : Option Nat
  floors : Map Nat
  deriving DecidableEq, Repr

/-- The Planisher (R478-R491): the learned code per gear (index 6 for GS), z of the governor, the MPPT direction and
last power, the sum and number of power samples, the VOC pause, the zero-power run, a change of gear in the AVS period,
and whether a VOC resample is due. -/
structure Pln where
  codes : Map Nat
  z : Nat
  dirUp : Bool
  pPrev : Nat
  pSum : Nat
  pCount : Nat
  vocPause : Bool
  zeroRun : Nat
  gearMoved : Bool
  vocWait : Bool
  deriving DecidableEq, Repr

/-- The tamper monitor behind its registers: classes whose condition is in force is TAM_LATCH.COND; here the last two
temperature samples and how many were taken, a thermal trip decided once, the probe window's raised mark, the
comparator's crossing, the supply detectors active now, and of the last TAMPER entry of each class its HT (plus 1) and its
audience beyond tenant 0. -/
structure Tam where
  t0 : Int
  t1 : Int
  nSamples : Nat
  thermal1 : Bool
  probeRaised : Bool
  cross : Bool
  vcoreLow : Bool
  vstoreHigh : Bool
  entryAt : Map Nat
  auds : Map Nat
  deriving DecidableEq, Repr

/-- A Logbook entry that waits to be written (R462, R465): type, subtype, audience, response level, HT, epoch, data. -/
structure LogPend where
  ty : Nat
  sub : Nat
  aud : Nat
  level : Nat
  ht : Nat
  epoch : Nat
  data : Nat
  deriving DecidableEq, Repr

/-- The Logbook behind its registers: entries awaiting writing, LOSS due on the next, the Flyleaf entries to copy back
after a clean scan (R471), an entry kept through HOLD, and the class, TAM_LAST value and audience that the next boot
latches again (R460). -/
structure Log where
  pend : List LogPend
  loss : Bool
  clean : Bool
  kept : Option LogPend
  hold : Option (Nat × Nat × Nat)
  deriving DecidableEq, Repr

/-- The Steward: a lifecycle transition decided once (target state and the command that asks for it), the patch upload
and its staging half, and the pending NV writes (R79) with whether the first of them runs and whether VSTORE was at or
above KEYW_MIN when it started, and which of them SYS_DIP.DEFERRED counts; the number of the next key update; the order of
the next complete command assembly. -/
structure Stw where
  life1 : Option (Nat × Ticket)
  patchOpen : Bool
  patchBuf : List (Option Byte)
  nvq : List NvJob
  nvActive : Bool
  nvOk : Bool
  nvDef : List Bool
  keySeq : Nat
  order : Nat
  deriving DecidableEq, Repr

/-- The Hallmark engine and seal queue (R374): the bundles waiting (lane and sequence), the one in work, the tenants
whose further sequence reservation is requested (R376), and the Bundler's round-robin place (R366). -/
structure Seal where
  queue : List (Nat × Nat)
  work : Option (Nat × Nat)
  rsvReq : Nat
  rr : Nat
  deriving DecidableEq, Repr

/-- How a command stops the model. No command of the table does: every command of this block runs. -/
inductive Fault where
  /-- Raised by no meaning: the spec gives every command an effect. Safe. -/
  | noFault
  deriving DecidableEq, Repr

/-- Why the model refuses a command. -/
inductive Refusal where
  /-- Raised by an arm of `exec` whose command has no meaning yet. Safe: the run stops. -/
  | notModelled (mnemonic : String)
  deriving DecidableEq, Repr

/-- The state of the hub. -/
structure State where
  regs : Map Word
  sys : Sys
  rst : Rst
  clk : Clk
  pln : Pln
  locks : Map Lock
  shadowBad : List Nat
  pownBad : List Nat
  sel : Map Nat
  samp : Map Nat
  streams : Map Nat
  queues : Map (List Entry)
  pendg : Map (List PendRec)
  capped : Bool
  loops : Map Loop
  descs : Map Desc
  chainDue : List Nat
  charge : Map Nat
  chargeLast : Map Nat
  ports : Map Port
  afe : Afe
  afeCh : Map AfeCh
  stp : Map StpCh
  lines : Map Line
  icalRun : Nat
  rck : Rck
  sxt : Sxt
  rsm : Map Rsm
  asy : Map Asy
  asyLast : Nat
  rose : List RoseEvent
  lanes : Map Lane
  closed : Map (List Bundle)
  evicts : Map (Option Evict)
  hallmark : Seal
  routes : Map Nat
  tens : Map Ten
  stw : Stw
  nv : Nv
  tx : Map (Option Tx)
  ptrs : Map Nat
  asm : Map Assembly
  env : Option Envelope
  port : Map (List Byte)
  tam : Tam
  log : Log
  rdata : Word
  pending : List Instr
  deriving DecidableEq, Repr

/-! ## Reset values of the keyed parts: what an unlisted key holds. -/

def lock0 : Lock := ⟨none, true⟩
def desc0 : Desc := ⟨[0, 0, 0, 0, 0, 0, 0, 0], false, none, 0, 0, 0, 0, 0, 0, 0, false⟩
def fence0 : Fence := ⟨false, false, 0, 0⟩
def port0 : Port := ⟨none, false, false, [], none⟩
def afeCh0 : AfeCh := ⟨[], 2, true, 0, none, 0, 0, 0, false, false, 0, false, 4, false, 0⟩
def stpCh0 : StpCh := ⟨0, 0, 0, 0, []⟩

/-- The nominal code centres T_c = 8c + 4 (R517). -/
def line0 : Line := ⟨(List.range 40).map (fun c => 8 * c + 4), List.replicate 40 0⟩
def rsm0 : Rsm := ⟨[], none, 0, 0, 0, 0, 1, 4, [], 0, true, 0, 0, 0⟩
def asy0 : Asy :=
  ⟨[], [(0, 0), (0, 0), (0, 0), (0, 0)], 0, [], [], 0, List.replicate 13 0, none, [false, false, false, false], [], [],
   0, false, 0, 0, 0, [], 0, 0, true, true, 0, none, false, none, 0⟩
def lane0 : Lane := ⟨[], 0, 0, false, false, 0⟩
def slot0 : KeySlot := ⟨0, [], false, 0⟩
def tenNv0 : TenNv := ⟨slot0, slot0, [], 0, 0, none, false⟩
def ten0 : Ten := ⟨none, 0, [], [], [], none, [], none, false, [], false, false, 0, 0, 0, 0, 0⟩
def asm0 : Assembly := ⟨[], false, 0⟩

/-- The home value of each adaptive loop by the address of its group (R478). The core voltage loop's home is TMIN of
the gear in force; it is set when the loop is used. -/
def loopHome (a : Nat) : Int :=
  if a = 0x0480 then 250
  else if a = 0x06D0 then 128
  else if a = 0x0780 then 100
  else if a = 0x2050 then 63488
  else if a = 0x0440 then 6
  else 0

def loop0 (a : Nat) : Loop := ⟨loopHome a, false, false⟩

/-- The typical part of the spec's figures: a KF7420-A (log entry 7). -/
def trim0 : Trim := ⟨0x41, 0, 0, [], [], [], 48, [6, 10, 16, 26, 42, 58, 0], 0, 0xBD18, true⟩

def nv0 : Nv := ⟨3, 12, none, true, 0, true, [], none, false, [], 0, [], trim0, [], []⟩
def sys0 : Sys :=
  ⟨.unpowered, .off, false, 0, false, .por, 0, 0, 0, 0, false, false, false, false, false, 0, false, false, false, [],
   0, 0, 0, none, 0, 0, [], 0, 0, 0, 0, false, 0, false, false, 0⟩
def stw0 : Stw := ⟨none, false, [], [], false, false, [], 0, 0⟩
def tam0 : Tam := ⟨0, 0, 0, false, false, false, false, false, [], []⟩
def log0 : Log := ⟨[], false, false, none, none⟩
def rck0 : Rck := ⟨0, 0, 0, none, none, none, false, [], [(0, 0)], []⟩
def sxt0 : Sxt :=
  ⟨0, 0, 0, 0, 0, 0, 0, 0, 0, 0, 0, 0, 0, 0, 0, [], [], 0, false, [], [], (0, 0, 0), List.replicate 16 0⟩

/-- The hub at its first power-up, before VSTORE has risen (R10, R84, R116): every register at its reset value, nothing
stored, nothing retained, no command waiting (log entry 9). -/
def State.reset : State where
  regs := []
  sys := sys0
  rst := ⟨none, [], 0⟩
  clk := ⟨0, none, none, []⟩
  pln := ⟨[], 0, true, 0, 0, 0, false, 0, false, true⟩
  locks := []
  shadowBad := []
  pownBad := []
  sel := []
  samp := []
  streams := []
  queues := []
  pendg := []
  capped := false
  loops := []
  descs := []
  chainDue := []
  charge := []
  chargeLast := []
  ports := []
  afe := ⟨false, false, false, false, false, false, 0, 0, false⟩
  afeCh := []
  stp := []
  lines := []
  icalRun := 0
  rck := rck0
  sxt := sxt0
  rsm := []
  asy := []
  asyLast := 0
  rose := []
  lanes := []
  closed := []
  evicts := []
  hallmark := ⟨[], none, 0, 0⟩
  routes := []
  tens := []
  stw := stw0
  nv := nv0
  tx := []
  ptrs := []
  asm := []
  env := none
  port := []
  tam := tam0
  log := log0
  rdata := 0
  pending := []

end Sys2Proof.Machine
end

