-- ==== Sys2Proof/Machine/Ops.lean ====
section
/-! DEFINITION. The named operations over the register file and the other keyed parts of the state, Hub Time, the
identity of requesters, pages and tenants, and the numbers of R42. -/

namespace Sys2Proof.Machine

/-! ## Registers and fields -/

/-- A word of single bits, each at its place. -/
def bits1 (l : List (Nat × Bool)) : Nat := l.foldl (fun n x => if x.2 then n + 2 ^ x.1 else n) 0

/-- The word with the `n` bits from `lo` replaced by the low bits of `v`. -/
def putBits (w : Word) (lo n v : Nat) : Word :=
  (w &&& ~~~ (BitVec.ofNat 32 ((2 ^ n - 1) * 2 ^ lo))) ||| BitVec.ofNat 32 ((v % 2 ^ n) * 2 ^ lo)

/-- The `n` bits of a word from `lo`, as a number. -/
def getBits (w : Word) (lo n : Nat) : Nat := w.toNat / 2 ^ lo % 2 ^ n

/-- The register at byte address `a`. -/
def State.reg (s : State) (a : Nat) : Word := mapGet resetOf s.regs a

/-- The state with `w` in the register at byte address `a`. -/
def State.setReg (s : State) (a : Nat) (w : Word) : State := { s with regs := mapSet resetOf s.regs a w }

/-- The value of a field. -/
def State.fld (s : State) (f : Fld) : Nat := getBits (s.reg f.addr) f.lo f.w

/-- The state with a field changed. -/
def State.setFld (s : State) (f : Fld) (v : Nat) : State := s.setReg f.addr (putBits (s.reg f.addr) f.lo f.w v)

/-- A field is not 0. -/
def State.on (s : State) (f : Fld) : Bool := s.fld f != 0

/-- A field of several flags: its bit `k`. -/
def State.bit (s : State) (f : Fld) (k : Nat) : Bool := (s.fld f).testBit k

/-- Sets bit `k` of a field. -/
def State.setBit (s : State) (f : Fld) (k : Nat) : State := s.setFld f (s.fld f ||| 2 ^ k)

/-- Clears bit `k` of a field. -/
def State.clrBit (s : State) (f : Fld) (k : Nat) : State :=
  if s.bit f k then s.setFld f (s.fld f - 2 ^ k) else s

/-- Bit `k` of a field as told by `b`. -/
def State.putBit (s : State) (f : Fld) (k : Nat) (b : Bool) : State := if b then s.setBit f k else s.clrBit f k

/-- A one-bit field as told by `b`. -/
def State.putOn (s : State) (f : Fld) (b : Bool) : State := s.setFld f (if b then 1 else 0)

/-- Adds to a counter field that saturates at its highest code. -/
def State.addSat (s : State) (f : Fld) (n : Nat) : State := s.setFld f (min (s.fld f + n) (2 ^ f.w - 1))

/-- Adds to a counter field that wraps. -/
def State.addWrap (s : State) (f : Fld) (n : Nat) : State := s.setFld f (s.fld f + n)

/-! ## Time -/

/-- Hub Time: the upper 64 bits of the accumulator (R515). -/
def State.ht (s : State) : Nat := s.rck.acc / 2 ^ 64 % 2 ^ 64

/-- HT units in `n` microseconds, rounded down. -/
def htUs (n : Nat) : Nat := n * 2 ^ 32 / 1000000

/-- Ticks per cycle of a gear, in CLK_GEAR coding (R42). -/
def gearTicks (g : Nat) : Nat :=
  match g with
  | 0 => 64
  | 1 => 32
  | 2 => 16
  | 3 => 8
  | 4 => 4
  | 5 => 2
  | _ => 640

/-- The tick target of a time in nanoseconds (R49). -/
def nsTicks (n : Nat) : Nat := ceilDiv (n * 48) 125

/-- The tick target while holdover lengthens interval timings (R58). -/
def State.spanTicks (s : State) (k : Nat) : Nat := if s.on F.CLK_SYN_HOLDOVER then k + ceilDiv k 16 else k

/-- CCLK runs: in every state but OFF, reset and STOW-COLD (R84). -/
def State.cclk (s : State) : Bool :=
  match s.sys.phase with
  | .booting => true
  | .stow => decide (s.sys.pstate = .stowWarm)
  | .running => true
  | _ => false

/-- The hub is in WATCH or RUN (R84). -/
def State.awake (s : State) : Bool := decide (s.sys.phase = .running)

/-- The datapath runs: the hub is in WATCH or RUN, and no DATAPATH reset is in progress (R84, R97). -/
def State.running (s : State) : Bool := s.awake && s.rst.dp.isNone

/-! ## Selections and samples per requester (R236, R263) -/

/-- The requester's own selection in a register whose selection is held per requester (R236). -/
def State.selOf (s : State) (a : Nat) (rq : Requester) : Nat := mapGet (fun _ => 0) s.sel (selKey a rq)

def State.setSel (s : State) (a : Nat) (rq : Requester) (v : Nat) : State :=
  { s with sel := mapSet (fun _ => 0) s.sel (selKey a rq) v }

/-- The requester's own sample of the half of a value that a read of the other half took (R263). -/
def State.sampOf (s : State) (a : Nat) (rq : Requester) : Nat := mapGet (fun _ => 0) s.samp (selKey a rq)

def State.setSamp (s : State) (a : Nat) (rq : Requester) (v : Nat) : State :=
  { s with samp := mapSet (fun _ => 0) s.samp (selKey a rq) v }

/-! ## Lifecycle and tenants -/

/-- SYS_LIFE.STATE (R116). -/
def State.life (s : State) : Nat := s.fld F.SYS_LIFE_STATE
def State.fielded (s : State) : Bool := s.life == 9
def State.blankOpen (s : State) : Bool := s.life == 3 || s.life == 5

def State.tenExists (s : State) (t : Nat) : Bool := decide (t < 8) && s.bit F.SYS_DORM_EXIST t
def State.dormant (s : State) (t : Nat) : Bool := s.bit F.SYS_DORM_DORMANT t

def State.ten (s : State) (t : Nat) : Ten := mapGet (fun _ => ten0) s.tens t
def State.modTen (s : State) (t : Nat) (f : Ten → Ten) : State := { s with tens := mapMod (fun _ => ten0) s.tens t f }
def State.tnv (s : State) (t : Nat) : TenNv := mapGet (fun _ => tenNv0) s.nv.tens t
def State.modTnv (s : State) (t : Nat) (f : TenNv → TenNv) : State :=
  { s with nv := { s.nv with tens := mapMod (fun _ => tenNv0) s.nv.tens t f } }

/-- The slot of a tenant: B or A (R386). -/
def State.slot (s : State) (t : Nat) (b : Bool) : KeySlot := if b then (s.tnv t).slotB else (s.tnv t).slotA

/-! ## Pages -/

/-- The owner of a page whose owner is fixed or assigned; none where resources have their own, and none while POWN
itself has mismatched (R129, R144). -/
def State.pageOwner (s : State) (p : Nat) : Option Nat :=
  match pageDef p with
  | none => none
  | some d =>
    if s.pownBad.contains p then none
    else match d.owner with
      | .fixed n => some n
      | .assignable => some (s.fld (F.POWN_OWNER p))
      | .perResource => none

/-- The tenant whose L0 takes a page's EVENT items, and whose L1 takes its port's records: tenant 0 where the owner is
per resource (R135, R365). -/
def State.pageTenant (s : State) (p : Nat) : Nat := (s.pageOwner p).getD 0

/-- The page interrupt line (R134). -/
def State.pageLine (s : State) (p : Nat) : Bool := s.reg (256 * p + 0x18) &&& s.reg (256 * p + 0x14) != 0

/-- PCTL.EN of a page. -/
def State.pageOn (s : State) (p : Nat) : Bool := s.on (F.PCTL_EN p)

/-! ## Ports: 0-3 TWC0-TWC3, 4-6 SPC0-SPC2, 7 AFE (DSC_W0.PORT coding). -/

def portPage (p : Nat) : Nat := if p < 7 then 0x10 + p else 0x17
def State.prt (s : State) (p : Nat) : Port := mapGet (fun _ => port0) s.ports p
def State.modPrt (s : State) (p : Nat) (f : Port → Port) : State :=
  { s with ports := mapMod (fun _ => port0) s.ports p f }

/-- The level of a synchronised pin: EV0-EV7 (0-7), IDX (8), SYNC (9). -/
def State.pin (s : State) (k : Nat) : Bool := s.sys.pins.testBit k
def State.setPin (s : State) (k : Nat) (up : Bool) : State :=
  { s with sys := { s.sys with pins := if up then s.sys.pins ||| 2 ^ k else s.sys.pins - (s.sys.pins &&& 2 ^ k) } }

/-- Changes what stands behind the power, reset and host registers. -/
def State.modSys (s : State) (f : Sys → Sys) : State := { s with sys := f s.sys }

/-! ## Keyed parts -/

def State.desc (s : State) (d : Nat) : Desc := mapGet (fun _ => desc0) s.descs d
def State.modDesc (s : State) (d : Nat) (f : Desc → Desc) : State :=
  { s with descs := mapMod (fun _ => desc0) s.descs d f }
def State.unit (s : State) (u : Nat) : Asy := mapGet (fun _ => asy0) s.asy u
def State.modUnit (s : State) (u : Nat) (f : Asy → Asy) : State := { s with asy := mapMod (fun _ => asy0) s.asy u f }
def State.chan (s : State) (c : Nat) : StpCh := mapGet (fun _ => stpCh0) s.stp c
def State.modChan (s : State) (c : Nat) (f : StpCh → StpCh) : State :=
  { s with stp := mapMod (fun _ => stpCh0) s.stp c f }
def State.rchan (s : State) (c : Nat) : Rsm := mapGet (fun _ => rsm0) s.rsm c
def State.modRchan (s : State) (c : Nat) (f : Rsm → Rsm) : State := { s with rsm := mapMod (fun _ => rsm0) s.rsm c f }
def State.ach (s : State) (c : Nat) : AfeCh := mapGet (fun _ => afeCh0) s.afeCh c
def State.modAch (s : State) (c : Nat) (f : AfeCh → AfeCh) : State :=
  { s with afeCh := mapMod (fun _ => afeCh0) s.afeCh c f }
def State.lane (s : State) (l : Nat) : Lane := mapGet (fun _ => lane0) s.lanes l
def State.modLane (s : State) (l : Nat) (f : Lane → Lane) : State :=
  { s with lanes := mapMod (fun _ => lane0) s.lanes l f }
def State.closedOf (s : State) (l : Nat) : List Bundle := mapGet (fun _ => []) s.closed l

/-- A closed bundle by its lane and sequence. -/
def State.bundleAt (s : State) (k seq : Nat) : Option Bundle := firstWith (fun b => b.seq == seq) (s.closedOf k)
def State.setClosed (s : State) (l : Nat) (b : List Bundle) : State :=
  { s with closed := mapSet (fun _ => []) s.closed l b }
def State.lock (s : State) (k : Nat) : Lock := mapGet (fun _ => lock0) s.locks k
def State.setLock (s : State) (k : Nat) (l : Lock) : State := { s with locks := mapSet (fun _ => lock0) s.locks k l }
def State.txOf (s : State) (p : Nat) : Option Tx := mapGet (fun _ => none) s.tx p
def State.setTx (s : State) (p : Nat) (t : Option Tx) : State := { s with tx := mapSet (fun _ => none) s.tx p t }
def State.asmOf (s : State) (n : Nat) : Assembly := mapGet (fun _ => asm0) s.asm n
def State.setAsm (s : State) (n : Nat) (a : Assembly) : State := { s with asm := mapSet (fun _ => asm0) s.asm n a }
def State.sent (s : State) (p : Nat) (bs : List Byte) : State :=
  { s with port := mapMod (fun _ => []) s.port p (fun l => l ++ bs) }

/-- The registers the spec clears or the model resets one by one: each back to its reset value. -/
def State.resetRegs (s : State) (l : List Nat) : State := forEach l (fun a s => s.setReg a (resetOf a)) s

/-- The hub can start work of a command: the event takes effect only while `c` holds; otherwise nothing happens. -/
def State.when (s : State) (c : Bool) (f : State → State) : State := if c then f s else s

end Sys2Proof.Machine
end

