-- ==== Sys2Proof/Machine/Queue.lean ====
section
/-! DEFINITION. The queue mechanism of R159-R166, R186 and R365: credits, skips, pending GAP records, folding, flushing;
and the byte layout of a GAP record (R362). Queue keys are the target indices of R167: output lanes 0x00-0x1F, capture
0x20 + port, unit input 0x28 + unit, Resampler input 0x40 + channel, intake 0x48 + 4·tenant + lane, command 0x68; the
dispatch queue of a port is 0x70 + port. -/

namespace Sys2Proof.Machine

def qOut (t l : Nat) : Nat := 4 * t + l
def qCap (p : Nat) : Nat := 0x20 + p
def qUnit (u : Nat) : Nat := 0x28 + u
def qRsm (c : Nat) : Nat := 0x40 + c
def qIntake (t l : Nat) : Nat := 0x48 + 4 * t + l
def qCmd : Nat := 0x68
def qDisp (p : Nat) : Nat := 0x70 + p

def prodCode : Producer → Nat
  | .psq => 0
  | .port => 1
  | .stamp => 2
  | .assay => 3
  | .resampler => 4
  | .record => 5
  | .bundler => 6
  | .host => 7

/-- The producer of a code; none above 7. -/
def prodOf (n : Nat) : Option Producer :=
  match n with
  | 0 => some .psq
  | 1 => some .port
  | 2 => some .stamp
  | 3 => some .assay
  | 4 => some .resampler
  | 5 => some .record
  | 6 => some .bundler
  | 7 => some .host
  | _ => none

/-- The base credits of a producer of a queue (R167). -/
def queBase (q : Nat) (p : Producer) : Nat :=
  if 0x20 ≤ q ∧ q < 0x28 then (if p = .port then 16 else 0)
  else if 0x28 ≤ q ∧ q < 0x48 then (if p = .stamp ∨ p = .assay ∨ p = .resampler then 16 else 0)
  else if 0x48 ≤ q ∧ q < 0x68 then
    (match p with | .stamp => 14 | .assay => 12 | .resampler => 8 | .record => 6 | _ => 0)
  else if q = 0x68 then (if p = .host then 128 else 0)
  else if 0x70 ≤ q ∧ q < 0x78 then (if p = .psq then 2 else 0)
  else 0

def State.queue (s : State) (q : Nat) : List Entry := mapGet (fun _ => []) s.queues q
def State.setQueue (s : State) (q : Nat) (l : List Entry) : State :=
  { s with queues := mapSet (fun _ => []) s.queues q l }

/-- Slots of a queue taken by entries of one producer. -/
def slotsOf (l : List Entry) (p : Producer) : Nat :=
  l.foldl (fun n e => if e.prod = p then n + e.slots else n) 0

/-- The input queues of the Assay units and of the Resampler channels, each of which has the one producer that its input
select names (R167). -/
def isInput (q : Nat) : Bool := decide (0x28 ≤ q) && decide (q < 0x48)

/-- The producer that the input select of a unit or channel names. -/
def State.feeder (s : State) (q : Nat) : Producer :=
  if q < 0x40 then
    (match s.fld (F.ASY_IN_SRC (q - 0x28)) with | 1 => .assay | 2 => .resampler | _ => .stamp)
  else if s.fld (F.RSM_CH_IN_SRC (q - 0x40)) = 1 then .assay else .stamp

/-- The credits a producer holds (R161): its base less the slots of its own entries. An input queue grants its 16 to the
producer that its input select names; entries of a producer named before keep their slots until they are dequeued (DESIGN
CHOICE, log entry 148). -/
def State.credits (s : State) (q : Nat) (p : Producer) : Nat :=
  if isInput q then
    (if s.feeder q = p then queBase q p - (s.queue q).foldl (fun n e => n + e.slots) 0 else 0)
  else queBase q p - slotsOf (s.queue q) p

/-- The key of a producer's pending records for a queue; those of an input queue stand in one place, so that they go on with
the producer that its input select names (log entry 148). -/
def pendKey (q : Nat) (p : Producer) : Nat := q * 16 + (if isInput q then 0 else prodCode p)
def State.pendOf (s : State) (q : Nat) (p : Producer) : List PendRec := mapGet (fun _ => []) s.pendg (pendKey q p)
def State.setPend (s : State) (q : Nat) (p : Producer) (l : List PendRec) : State :=
  { s with pendg := mapSet (fun _ => []) s.pendg (pendKey q p) l }

/-! ## GAP records -/

/-- Causes of R166. -/
def gcCREDIT : Nat := 1
def gcQUOTA : Nat := 2
def gcFLUSH : Nat := 3
def gcRESET : Nat := 4
def gcRAIL : Nat := 5
def gcBANK : Nat := 6
def gcECC : Nat := 7
def gcSEQ : Nat := 8

/-- A part that counts one skip; `detail` is none where the cause has no detail code (R254). -/
def part1 (cause : Nat) (detail : Option Nat) (ht : Nat) : GapPart :=
  ⟨cause, match detail with | none => 0 | some d => 2 ^ d, 1, ht, ht, false⟩

/-- Two parts in one (R163, R165): counts add and saturate, the span covers both, the cause stays that of the first. -/
def joinPart (a b : GapPart) : GapPart :=
  ⟨a.cause, a.detail ||| b.detail, min (a.count + b.count) (2 ^ 32 - 1), min a.first b.first, max a.last b.last,
   a.sat || b.sat || decide (2 ^ 32 - 1 < a.count + b.count)⟩

def joinOpt (a b : Option GapPart) : Option GapPart :=
  match a, b with
  | none, x => x
  | x, none => x
  | some x, some y => some (joinPart x y)

/-- A part with a later skip (R163): its span ends with the HT of that skip. -/
def extendPart (a b : GapPart) : GapPart := { joinPart a b with first := a.first, last := b.last }

def extendOpt (a b : Option GapPart) : Option GapPart :=
  match a, b with
  | none, x => x
  | x, none => x
  | some x, some y => some (extendPart x y)

/-- The record as it is enqueued (R165): merged when both parts are there. -/
def PendRec.gap (r : PendRec) : Option Gap :=
  match r.own, r.up with
  | none, none => none
  | some o, none => some ⟨r.src, o, none, r.bundles⟩
  | none, some u => some ⟨r.src, u, none, r.bundles⟩
  | some o, some u => some ⟨r.src, o, some u, r.bundles⟩

/-- The slots of a GAP record: two when merged in a granule queue (R164). -/
def gapSlots (g : Gap) : Nat := match g.up with | none => 1 | some _ => 2

def encPart (p : GapPart) (flags : Nat) : List Byte :=
  bytesLE 1 p.cause ++ bytesLE 1 p.detail ++ bytesLE 1 flags ++ [0] ++ bytesLE 4 p.count ++ bytesLE 8 p.first
    ++ bytesLE 8 p.last

/-- The GAP payload: 24 bytes, 48 when MERGED (R362). -/
def encGap (g : Gap) : List Byte :=
  let fl := (if g.part.sat then 1 else 0) + (if g.up.isSome then 2 else 0) + (if g.bundles then 4 else 0)
  encPart g.part fl ++ (match g.up with | none => [] | some u => encPart u 0)

/-- A GAP record as the upstream part it folds into (R165). -/
def gapAsUp (g : Gap) : GapPart := (match g.up with | none => g.part | some u => joinPart g.part u)

/-! ## Enqueue -/

/-- Puts an entry at the end of a queue. -/
def State.push (s : State) (q : Nat) (e : Entry) : State := s.setQueue q (s.queue q ++ [e])

/-- Enqueues a producer's pending GAP records, oldest first, while its credits allow (R164): a record needs one credit
more than its slots. A held record is not enqueued and stops none behind it. -/
def drainGaps (q : Nat) (p : Producer) : List PendRec → List PendRec → State → State
  | [], kept, s => s.setPend q p kept
  | r :: t, kept, s =>
    match r.gap with
    | none => drainGaps q p t kept s
    | some g =>
      if r.held then drainGaps q p t (kept ++ [r]) s
      else if gapSlots g + 1 ≤ s.credits q p then
        drainGaps q p t kept ((s.push q ⟨p, gapSlots g, .gaps [g]⟩).addSat F.QUE_STAT_GAPS 1)
      else s.setPend q p (kept ++ r :: t)

def State.drain (s : State) (q : Nat) (p : Producer) : State := drainGaps q p (s.pendOf q p) [] s

/-- The pending list with one more skip: it extends the newest own record, a FLUSH or RESET record included (R186), and
otherwise opens one. Held records are passed over. -/
def addSkip (src : Nat) (x : GapPart) : List PendRec → List PendRec
  | [] => [⟨src, some x, none, false, false, false⟩]
  | [r] => if r.held then [r, ⟨src, some x, none, false, false, false⟩]
           else [{ r with own := extendOpt r.own (some x) }]
  | r :: t => r :: addSkip src x t

/-- The pending list with a dequeued GAP record folded into it (R165). -/
def addFold (g : Gap) : List PendRec → List PendRec
  | [] => [⟨g.src, none, some (gapAsUp g), false, g.bundles, false⟩]
  | [r] => if r.held then [r, ⟨g.src, none, some (gapAsUp g), false, g.bundles, false⟩]
           else [{ r with up := joinOpt r.up (some (gapAsUp g)) }]
  | r :: t => r :: addFold g t

/-- A producer skips an item: its pending GAP record opens or grows (R163). -/
def State.skip (s : State) (q : Nat) (p : Producer) (src cause : Nat) (detail : Option Nat) (ht : Nat) : State :=
  s.setPend q p (addSkip src (part1 cause detail ht) (s.pendOf q p))

/-- A RESET record waits for its producer's first new item, whose HT ends its span (R95). -/
def endReset (ht : Nat) (l : List PendRec) : List PendRec :=
  l.map (fun r => match r.own with
    | some o => if r.held && o.cause == gcRESET then { r with own := some { o with last := max o.last ht }, held := false }
                else r
    | none => r)

/-- A producer enqueues an item of `slots` slots (R162, R164): pending GAP records go first; then the item, when the
producer holds a credit more than its slots and no record waits before it; otherwise the whole item is skipped. -/
def State.enqueue (s : State) (q : Nat) (p : Producer) (slots : Nat) (b : Body) (src ht : Nat) : State :=
  let s := (s.setPend q p (endReset ht (s.pendOf q p))).drain q p
  if (s.pendOf q p).all (fun r => r.held) && decide (slots + 1 ≤ s.credits q p) then s.push q ⟨p, slots, b⟩
  else s.skip q p src gcCREDIT none ht

/-- An entry of `slots` slots would be enqueued, not skipped (R164). -/
def State.canPut (s : State) (q : Nat) (p : Producer) (slots ht : Nat) : Bool :=
  let s1 := (s.setPend q p (endReset ht (s.pendOf q p))).drain q p
  (s1.pendOf q p).all (fun r => r.held) && decide (slots + 1 ≤ s1.credits q p)

/-- A consumer forwards a dequeued GAP record into one of its own queues, or folds it (R165). -/
def State.forwardGap (s : State) (q : Nat) (p : Producer) (g : Gap) : State :=
  let s := s.drain q p
  if (s.pendOf q p).all (fun r => r.held) && decide (gapSlots g + 1 ≤ s.credits q p) then
    (s.push q ⟨p, gapSlots g, .gaps [g]⟩).addSat F.QUE_STAT_GAPS 1
  else s.setPend q p (addFold g (s.pendOf q p))

/-! ## Flush -/

/-- The HT and the source of an entry, for the GAP record that accounts for it. -/
def entryHt (e : Entry) : Nat :=
  match e.body with
  | .request r => r.trig
  | .gaps l => match l with | [] => 0 | g :: _ => g.part.first
  | .capture c => c.ht
  | .item i => i.ht
  | .command _ => 0

def entrySrc (e : Entry) : Nat :=
  match e.body with
  | .request r => r.idx
  | .gaps l => match l with | [] => 0 | g :: _ => g.src
  | .capture c => c.desc
  | .item i => i.src
  | .command _ => 0

/-- An entry as a part of the record that accounts for its removal: an item counts one skip; a GAP record that was
queued joins the upstream part, so that nothing it counts is lost (log entry 10). -/
def lostEntry (cause : Nat) (r : Option PendRec) (e : Entry) : Option PendRec :=
  match e.body with
  | .gaps l => l.foldl (fun r g => some (match r with
      | none => ⟨g.src, none, some (gapAsUp g), true, false, false⟩
      | some x => { x with up := joinOpt x.up (some (gapAsUp g)) })) r
  | _ => some (match r with
      | none => ⟨entrySrc e, some (part1 cause none (entryHt e)), none, true, false, false⟩
      | some x => { x with own := extendOpt x.own (some (part1 cause none (entryHt e))) })

def allProducers : List Producer := [.psq, .port, .stamp, .assay, .resampler, .record, .bundler, .host]

/-- The record of one producer over what a flush or reset removes. A RESET record spans from the reset cycle and waits
for the first new item (R95). -/
def lostRecord (cause ht : Nat) (l : List Entry) (p : Producer) : Option PendRec :=
  match (l.filter (fun e => e.prod = p)).foldl (lostEntry cause) none with
  | none => none
  | some r =>
    if cause = gcRESET then
      some { r with own := r.own.map (fun o => { o with first := ht, last := ht }), held := r.own.isSome }
    else some r

/-- The cause of a pending record. -/
def PendRec.cause (r : PendRec) : Option Nat := (r.own.or r.up).map (fun x => x.cause)

/-- A flush or reset record grows by a further one of its cause. -/
def joinLost (x r : PendRec) : PendRec :=
  { x with own := extendOpt x.own r.own, up := joinOpt x.up r.up, held := x.held || r.held }

/-- A flush record behind the pending ones (R186): the record that a producer already holds stays as it is, whatever its
cause; a record that already waits behind another, or a RESET record that waits for the producer's first new item, grows by
a further loss of its own cause. -/
def addLost (r : PendRec) : List PendRec → List PendRec
  | [] => [r]
  | [x] => if x.held && r.held && x.cause == r.cause then [joinLost x r] else [x, r]
  | x :: y :: t =>
    if t.isEmpty && y.flush && y.cause == r.cause && y.bundles == r.bundles then [x, joinLost y r] else x :: addLost r (y :: t)

/-- Removes the entries of a queue that `hit` names, and opens each producer's record for what it had there (R95, R186). -/
def State.removeFrom (s : State) (q : Nat) (cause : Nat) (hit : Entry → Bool) : State :=
  let gone := (s.queue q).filter hit
  let s1 := s.setQueue q ((s.queue q).filter (fun e => !(hit e)))
  forEach allProducers (fun p s => match lostRecord cause s1.ht gone p with
    | none => s
    | some r => s.setPend q p (addLost r (s.pendOf q p))) s1

/-- The head entry of a queue is gone: what a unit had taken of it counts for no other entry. -/
def State.headGone (s : State) (q : Nat) : State :=
  if 0x28 ≤ q ∧ q < 0x40 then s.modUnit (q - 0x28) (fun x => { x with pos := 0 }) else s

/-- A flush of one internal queue (R186). -/
def State.flushQueue (s : State) (q : Nat) (cause : Nat) : State := (s.removeFrom q cause (fun _ => true)).headGone q

/-- The internal queues other than the command queue. -/
def internalQueues : List Nat :=
  (List.range 72).map (fun i => 0x20 + i) ++ (List.range 8).map (fun i => 0x70 + i)

/-- Takes the entry at the head of a queue; its credit returns to its producer (R160, R161). -/
def State.popQueue (s : State) (q : Nat) : Option (Entry × State) :=
  match s.queue q with
  | [] => none
  | e :: t => some (e, s.setQueue q t)

end Sys2Proof.Machine
end

