-- ==== Sys2Proof/Machine/Events.lean ====
section
/-! DEFINITION. Record items and the record counter (R360, R364), and the producer taps of the Rose with its gates
(R337-R340). -/

namespace Sys2Proof.Machine

/-! ## Record items -/

/-- Granules of an item: its 8-byte header and its payload padded to 4 bytes, in 32-byte granules (R360). -/
def itemBytes (i : Item) : Nat := 8 + (i.payload.length + 3) / 4 * 4
def itemSlots (i : Item) : Nat := ceilDiv (itemBytes i) 32

def srcDesc (d : Nat) : Nat := d
def srcUnit (u : Nat) : Nat := 0x1000 + u
def srcRsm (c : Nat) : Nat := 0x2000 + c
def srcCap (c : Nat) : Nat := 0x3000 + c
def srcPage (p : Nat) : Nat := 0x4000 + p

/-- Enqueues an item into an intake queue. -/
def State.intake (s : State) (t l : Nat) (p : Producer) (i : Item) : State :=
  s.enqueue (qIntake t l) p (itemSlots i) (.item i) i.src i.ht

/-- A record item of the block of `page` for tenant `t` (R360, R364): it takes the tenant's record counter. A DORMANT
tenant emits its CHART record and nothing else (R111; log entry 156). -/
def State.record (s : State) (t l ty page : Nat) (ht : Nat) (payload : List Byte) : State :=
  s.when (ty == 0x09 || !(s.dormant t)) fun s =>
    let n := (s.ten t).recCnt
    (s.modTen t (fun x => { x with recCnt := (x.recCnt + 1) % 65536 })).intake t l .record
      ⟨ty, 0, srcPage page, n, ht, payload⟩

/-- The 24-byte FAULT payload (R362). -/
def encFault (cls cause unit flags seq ht target idx count : Nat) : List Byte :=
  bytesLE 1 cls ++ bytesLE 1 cause ++ bytesLE 1 unit ++ bytesLE 1 flags ++ bytesLE 4 seq ++ bytesLE 8 ht
    ++ bytesLE 2 target ++ bytesLE 1 idx ++ [0] ++ bytesLE 2 count ++ [0, 0]

/-- A FAULT record of a rail to tenant 0's L1 (R74, R77). -/
def State.railFault (s : State) (cause rail : Nat) : State :=
  s.record 0 1 0x07 0x03 s.ht (encFault 2 cause rail 0 0 s.ht 0 0 0)

/-! ## The Rose: producer taps -/

/-- The level of gate `g` (R340). Unit gates take the unit named by ROS_GSEL. -/
def State.gateLevel (s : State) (g : Nat) : Bool :=
  if g = 0 then true
  else if g < 8 then s.on (F.ROS_GSW_LEVEL (g - 1))
  else if g = 8 then s.on F.SXT_STAT_LOCK
  else if g = 9 then !(s.on F.SYS_DIP_ACTIVE)
  else if g = 10 then s.on F.SYS_HREL_RELEASED
  else if g = 11 then !(s.on F.CLK_SYN_HOLDOVER)
  else s.on (F.ASY_STAT_ACTIVE (s.fld (F.ROS_GSEL_UNIT (g - 12))))

/-- The gate of a channel is open. -/
def State.gateOpen (s : State) (c : Nat) : Bool :=
  s.gateLevel (s.fld (F.ROS_CH_GATE c)) != s.on (F.ROS_CH_GINV c)

/-- The consumer tap of a channel, when exactly one is enabled (R337). -/
def State.consumer (s : State) (c : Nat) : Option Nat :=
  match s.fld (F.ROS_CH_CEN c) with
  | 1 => some 0
  | 2 => some 1
  | 4 => some 2
  | 8 => some 3
  | _ => none

/-- Presents an event on a channel whose gate is open and which has one consumer (R337); events of one channel before
its consumer takes them form one event. -/
def State.presentOn (s : State) (c : Nat) (edge : Option (Nat × Nat)) : State :=
  if s.cclk && s.gateOpen c && (s.consumer c).isSome then
    if s.rose.any (fun e => e.ch == c) then s else { s with rose := s.rose ++ [⟨c, s.reg (A.ROS_CH c), edge⟩] }
  else s

/-- Presents an event of producer tap `k` on every channel that enables it and that `wired` names (R338). -/
def State.present (s : State) (k : Nat) (wired : Nat → Bool) (edge : Option (Nat × Nat)) : State :=
  forEach (List.range 64) (fun c s =>
    if wired c && s.bit (F.ROS_CH_PEN c) k then s.presentOn c edge else s) s

/-- A stamped edge of capture channel `k` with its COUNT (P0, R339). -/
def State.presentEdge (s : State) (k count : Nat) : State :=
  if s.on (F.STP_CH_CFG_EN k) then s.present 0 (fun c => c % 10 == k) (some (k, count)) else s

/-- RISE and FALL of an Assay unit (P1, P3). -/
def State.presentRise (s : State) (u : Nat) : State := s.present 1 (fun c => c % 24 == u) none
def State.presentFall (s : State) (u : Nat) : State :=
  s.present 3 (fun c => decide (c < 48) && c % 24 == u) none

/-- A Sextant comparator (P2). -/
def State.presentCmp (s : State) (k : Nat) : State := s.present 2 (fun c => c % 16 == k) none

/-- A special source of P3 of channels 48-63. -/
def State.presentAt (s : State) (ch : Nat) : State := s.present 3 (fun c => c == ch) none

/-- The channel whose P3 is a page's interrupt; none for a page without a tap (R338, R339). -/
def pageTap (p : Nat) : Option Nat :=
  if p = 0x23 then some 48
  else if p = 0x03 then some 51
  else if p = 0x02 then some 52
  else if p = 0x05 then some 55
  else if 0x10 ≤ p ∧ p < 0x14 then some (56 + (p - 0x10))
  else if 0x14 ≤ p ∧ p < 0x17 then some (60 + (p - 0x14))
  else if p = 0x20 then some 63
  else none

end Sys2Proof.Machine
end

