-- ==== Sys2Proof/Machine/Flags.lean ====
section
/-! DEFINITION. The flags that a happening raises: the host wake (R89, R134), page interrupts and their routes, and the
fault flag of a page's status (R134). -/

namespace Sys2Proof.Machine

/-! ## Host wake -/

/-- HWAKE is high while any bit of SYS_HWAKE is 1 (R90). -/
def State.hwake (s : State) : Bool := s.reg A.SYS_HWAKE != 0

/-- Sets a bit of SYS_HWAKE; a rise of HWAKE ends a watchdog suspension and restarts the count (R104). -/
def State.wakeHost (s : State) (f : Fld) : State :=
  let s1 := s.setFld f 1
  if s.hwake || !(s.on F.SYS_WDOG_STAT_SUSPENDED) then s1
  else { s1.setFld F.SYS_WDOG_STAT_SUSPENDED 0 with sys := { s1.sys with wdog := 0 } }

/-! ## Page interrupts -/

/-- The routes of a rising page interrupt line (R135, R339). -/
def State.routeLine (s : State) (p : Nat) : State :=
  let s1 := if s.on (F.PIRQ_ROUTE_HWAKE p) then s.wakeHost F.SYS_HWAKE_PIRQ else s
  let s2 := if s1.on (F.PIRQ_ROUTE_ROSE p) then (match pageTap p with | none => s1 | some c => s1.presentAt c) else s1
  if s2.on (F.PIRQ_ROUTE_RECORD p) then
    s2.record (s2.pageTenant p) 0 0x04 p s2.ht (bytesLE 4 (s2.fld (F.PIRQ p)) ++ bytesLE 4 0 ++ bytesLE 8 s2.ht)
  else s2

/-- Latches a source of a page interrupt, whether or not it is enabled (R134). -/
def State.raise (s : State) (p b : Nat) : State :=
  let s1 := s.setBit (F.PIRQ p) b
  if !(s.pageLine p) && s1.pageLine p then s1.routeLine p else s1

/-- PSTAT.FAULT of the pages whose home chapter defines it (R134); 0 on the others. -/
def State.pageFault (s : State) (p : Nat) : Bool :=
  if p = 0x02 then s.on F.CLK_SYN_HOLDOVER
  else if p = 0x03 then s.sys.lockout || s.reg A.PWR_RAILEVT != 0
  else if p = 0x04 then s.on F.PLN_GEAR_STAT_FLOOR_UNMET
  else if p = 0x05 then s.on F.RCK_STAT_HOLDOVER
  else if p = 0x07 then s.pageOn 0x07 && !(s.on F.SXT_STAT_LOCK)
  else if 0x1A ≤ p ∧ p < 0x20 then
    (List.range 4).any (fun i => s.on (F.ASY_STAT_DOUBLE (4 * (p - 0x1A) + i)) || s.on (F.ASY_STAT_FORCED (4 * (p - 0x1A) + i)))
  else if p = 0x20 then s.on F.QUE_STAT_ECC_UNCORR
  else if p = 0x21 then s.on F.BND_HSTAT_STOPPED
  else if 0x23 ≤ p ∧ p < 0x27 then s.on F.TAM_LATCH_LATCHED
  else false

/-- Raises PIRQ bit 2 on each of the pages whose PSTAT.FAULT rose from `s0` to `s` (R134). -/
def State.risen (s0 : State) (ps : List Nat) (s : State) : State :=
  forEach ps (fun p s => if !(s0.pageFault p) && s.pageFault p then s.raise p 2 else s) s

end Sys2Proof.Machine
end

