-- ==== Sys2Proof/Machine/Loops.lean ====
section
/-! DEFINITION. The adaptive loops as their registers hold them (R148-R151, R478). -/

namespace Sys2Proof.Machine

/-! ## Adaptive loops -/

/-- The group addresses of the eleven loops (R478), in its order. -/
def loopAVS : Nat := 0x0440
def loopGEAR : Nat := 0x0460
def loopMPPT : Nat := 0x0480
def loopDISC : Nat := 0x0560
def loopICAL : Nat := 0x06D0
def loopBW : Nat := 0x0780
def loopBL (u : Nat) : Nat := 0x1A50 + 256 * (u / 4) + 32 * (u % 4)
def loopELR (p : Nat) : Nat := 0x1080 + 256 * p
def loopPLC : Nat := 0x2050
def loopSPL : Nat := 0x1870
def loopCAL (c : Nat) : Nat := 0x1780 + 16 * c

/-- The loops of R478, each with its instances. -/
def loopTable : List (List Nat) :=
  [[loopAVS], [loopGEAR], [loopMPPT], [loopDISC], [loopICAL], [loopBW], (List.range 24).map loopBL,
   (List.range 4).map loopELR, [loopPLC], [loopSPL], [loopCAL 0, loopCAL 1]]

def allLoops : List Nat := loopTable.flatten

/-- The loop groups of a page. -/
def pageLoops (p : Nat) : List Nat := allLoops.filter (fun a => a / 256 == p)

/-- The loop whose group holds address `a`. -/
def loopAt (a : Nat) : Option Nat := firstWith (fun g => decide (g ≤ a) && decide (a < g + 16)) (pageLoops (a / 256))

/-- Loops whose bounds and output are signed. -/
def loopSigned (g : Nat) : Bool := g == loopDISC || g / 256 == 0x17 || decide (0x1A ≤ g / 256 ∧ g / 256 < 0x20)

/-- The hard range of a loop (R478). -/
def loopRange (g : Nat) : Int × Int :=
  if g = loopAVS then (0, 70)
  else if g = loopGEAR then (0, 5)
  else if g = loopMPPT then (40, 900)
  else if g = loopDISC then (-1099511628, 1099511628)
  else if g = loopICAL then (0, 255)
  else if g = loopBW then (1, 20000)
  else if g = loopPLC then (0, 63488)
  else if g = loopSPL then (0, 32767)
  else if g / 256 = 0x17 then (-1048576, 1048576)
  else if 0x10 ≤ g / 256 ∧ g / 256 < 0x14 then (0, 2047)
  else (-2147483648, 2147483647)

/-- A bound register read in the format of OUT. -/
def loopNum (g : Nat) (w : Word) : Int :=
  if g / 256 = 0x17 then signed 24 (w.toNat % 2 ^ 24) else if loopSigned g then w.toInt else w.toNat

def State.loopLo (s : State) (g : Nat) : Int := loopNum g (s.reg (g + 4))
def State.loopHi (s : State) (g : Nat) : Int := loopNum g (s.reg (g + 8))
def State.loopEn (s : State) (g : Nat) : Bool := s.on ⟨g, 0, 1⟩
def State.loopFrz (s : State) (g : Nat) : Bool := s.on ⟨g, 1, 1⟩

/-- STEP; 0 reads as 1 (R148). -/
def State.loopStep (s : State) (g : Nat) : Nat := max 1 (s.fld ⟨g, 8, 8⟩)

def State.loop (s : State) (g : Nat) : Loop := mapGet loop0 s.loops g
def State.setLoop (s : State) (g : Nat) (l : Loop) : State := { s with loops := mapSet loop0 s.loops g l }

/-- PSTAT.SAT of a page (R151): the flags of a loop whose EN is 0 are 0 (R149). -/
def State.pageSat (s : State) (p : Nat) : Bool :=
  (pageLoops p).any (fun g => s.loopEn g && ((s.loop g).satLo || (s.loop g).satHi))

/-- Stores a loop's output and flags; a rise of the page's SAT is PIRQ bit 3. -/
def State.putLoop (s : State) (g : Nat) (l : Loop) : State :=
  let s1 := s.setLoop g l
  if !(s.pageSat (g / 256)) && s1.pageSat (g / 256) then s1.raise (g / 256) 3 else s1

/-- Marks a loop as saturated at its upper bound by what stands in its way; a loop whose EN is 0 keeps its flags 0 (R149). -/
def State.satHigh (s : State) (g : Nat) : State :=
  s.when (s.loopEn g) fun s => s.putLoop g { s.loop g with satHi := true }

/-- A result clamped to bounds, with the flags of R149. -/
def clampLoop (lo hi r : Int) : Loop :=
  if r < lo then ⟨lo, true, false⟩ else if hi < r then ⟨hi, false, true⟩ else ⟨r, false, false⟩

/-- An update of a loop with the unclamped result `r` (R149). -/
def State.loopUpdate (s : State) (g : Nat) (r : Int) : State :=
  s.putLoop g (clampLoop (s.loopLo g) (s.loopHi g) r)

/-- The loop updates: EN is 1 and FREEZE is 0 (R149). -/
def State.loopLive (s : State) (g : Nat) : Bool := s.loopEn g && !(s.loopFrz g)

/-- The output in force: the home value `h` while EN is 0 (R149). -/
def State.loopOut (s : State) (g : Nat) (h : Int) : Int := if s.loopEn g then (s.loop g).out else h

/-- What a commit to a loop's group leaves (R149): the home value while EN is 0, and OUT within the bounds. -/
def State.loopCommitted (s : State) (g : Nat) (home : Int) : State :=
  if s.loopEn g then
    let l := s.loop g
    if l.out < s.loopLo g then s.putLoop g ⟨s.loopLo g, true, l.satHi⟩
    else if s.loopHi g < l.out then s.putLoop g ⟨s.loopHi g, l.satLo, true⟩
    else s
  else s.putLoop g ⟨home, false, false⟩

end Sys2Proof.Machine
end

