-- ==== Sys2Proof/Machine/Guard.lean ====
section
/-! DEFINITION. NV write order (R79), Logbook entries (R461-R470), the granules of a tenant (R171), flushes of output
lanes (R186, R187), the FULL reset (R95, R96), and tamper occurrences with their responses (R446, R455-R460). -/

namespace Sys2Proof.Machine

/-! ## NV writes -/

/-- KEYW_MIN in mV (R65). -/
def State.keyw (s : State) : Nat := 2200 + 10 * s.fld F.PWR_THR_KEYW

/-- VCHG in mV (R65). -/
def State.vchg (s : State) : Nat := 2200 + 10 * s.fld F.PWR_THR_VCHG

/-- VWARN in mV (R65). -/
def State.vwarn (s : State) : Nat := 2200 + 10 * s.fld F.PWR_THR_VWARN

/-- A supply dip or its settling defers NV writes (R78, R80). -/
def State.dipHold (s : State) : Bool := s.on F.SYS_DIP_ACTIVE || s.on F.SYS_DIP_SETTLING

/-- Boot has not reached the start of step 6, before which nothing is written to NV (R101). -/
def State.bootHold (s : State) : Bool :=
  decide (s.sys.phase = .booting) && [1, 2, 0xE].contains (s.fld F.SYS_BOOT_STAGE)

/-- A key update stands between the verification of its step 3 and its commit word (R388). -/
def State.keyWriting (s : State) : Bool :=
  s.tens.any (fun x => match x.2.update with | none => false | some u => u.written)

/-- The pages of NV that a write erases once more (R476). -/
def State.nvErase (s : State) (pg : Nat) : State :=
  let n := mapGet (fun _ => 0) s.nv.erases pg + 1
  let s1 := { s with nv := { s.nv with erases := mapSet (fun _ => 0) s.nv.erases pg n } }
  if n = 20000 then s1.raise 0x26 9 else s1

/-- An NV failure in the record of the NVS page (R476). -/
def State.nvFail (s : State) (pg cause : Nat) : State :=
  ((s.setFld F.NVS_ERR_PAGE pg).setFld F.NVS_ERR_CAUSE cause).addSat F.NVS_ERR_COUNT 1

/-- An uncorrectable read of NV (R476). -/
def State.nvUncorr (s : State) (pg : Nat) : State := ((s.nvFail pg 2).addSat F.NVS_ECC_UNCORR 1).raise 0x26 8

/-- The page of a chart slot (R403): tenant 0's two slots of 16 pages come first, then those of 6 pages; the slot not
active is that of the next store number. -/
def State.chartPage (s : State) (t off : Nat) : Nat :=
  let store := match (s.tnv t).chart with | none => 0 | some c => c.store
  (if t = 0 then 128 + 16 * (store % 2) else 148 + 12 * t + 6 * (store % 2)) + off / 256

/-- The first page of the patch half that stages an image (R109): the one that does not hold the committed patch. -/
def State.stagePage (s : State) : Nat := if s.nv.patch.isNone || s.nv.patchHi then 0 else 64

/-- A staged image is the committed patch, and its half that patch's (R109). -/
def State.patchStand (s : State) (l : List Byte) : State :=
  { s with nv := { s.nv with patch := some l, patchHi := s.stagePage == 64 } }

/-- The stored node configuration reads back good (R102): a write of it that was abandoned leaves its page invalid (R79). -/
def State.configReads (s : State) : Bool := s.nv.configGood && !(s.nv.bad.contains 244)

/-- The page that an NV write goes to first. -/
def State.jobPage (s : State) : NvJob → Nat
  | .seqReserve _ _ => 272
  | .logEntry => if s.on F.LOG_STATUS_DEAD && !s.log.clean then 480 + s.nv.fly.length / 8 else 288 + (s.nv.logSeq + 1) % 1536 / 8
  | .chartData k off _ => s.chartPage k.tenant (48 + off)
  | .chartCommit k _ => s.chartPage k.tenant 0
  | .config _ _ => 244
  | .patchData _ off _ => s.stagePage + off / 256
  | .patchCommit _ _ => s.stagePage
  | .erase _ n => 256 + 2 * n

/-- The page of the NV write in work. -/
def State.nvPage (s : State) : Nat := match s.stw.nvq with | [] => 0 | j :: _ => s.jobPage j

/-- A bundle that waits for its seal, or is being sealed, names the generation that a slot holds (R388 step 1). -/
def State.sealNames (s : State) (t : Nat) (b : Bool) : Bool :=
  (s.hallmark.queue ++ s.hallmark.work.toList).any (fun x => x.1 / 4 == t && (match s.bundleAt x.1 x.2 with
    | none => false
    | some y => y.gen != 0 && y.gen == (s.slot t b).gen))

/-- A key update cannot begin its step 3 (R388 steps 1 and 2). -/
def State.keyWait (s : State) (t : Nat) (b : Bool) : Bool :=
  s.sealNames t b || s.dipHold || !(s.on F.PWR_THR_STAT_ABOVE_KEYW)

/-- The number of a tenant's key update whose turn it is (R79): its own waits have ended, and every write requested before
it has been carried out. -/
def State.keyReady (s : State) (t : Nat) : Option Nat :=
  match (s.ten t).update with
  | none => none
  | some u => if !u.written && u.behind == 0 && !(s.keyWait t u.slotB) then some u.asked else none

/-- No key update whose turn it is was requested before the `n`-th. -/
def State.keyFirst (s : State) (n : Nat) : Bool :=
  (List.range 8).all (fun t => match s.keyReady t with | none => true | some m => decide (n ≤ m))

/-- Changes every key update under way. -/
def State.modUpdates (s : State) (f : KeyUpdate → KeyUpdate) : State :=
  forEach (List.range 8) (fun t s => match (s.ten t).update with
    | none => s
    | some u => s.modTen t (fun x => { x with update := some (f u) })) s

/-- SYS_DIP.DEFERRED: the abandoned writes, and those requested in a dip, that have not started (R79, R93). DESIGN CHOICE
(log entry 135): a write requested before the dip that still waits when it begins is not counted. -/
def State.deferShow (s : State) : State :=
  let keys := (List.range 8).filter (fun t => match (s.ten t).update with | none => false | some u => u.deferred)
  s.setFld F.SYS_DIP_DEFERRED (min ((s.stw.nvDef.filter (fun b => b)).length + keys.length) (2 ^ F.SYS_DIP_DEFERRED.w - 1))

/-- Starts the first waiting NV write when none runs, neither a dip nor the boot defers it, and no key update requested
before it is ready to run (R79, R101). -/
def State.nvStart (s : State) : State :=
  if s.stw.nvq.isEmpty || s.stw.nvActive || s.dipHold || s.bootHold || s.keyWriting
      || (List.range 8).any (fun t => (s.keyReady t).isSome) then s
  else
    { s with stw := { s.stw with
        nvActive := true, nvOk := decide (s.keyw ≤ s.sys.vstore), nvDef := false :: s.stw.nvDef.drop 1 } }.deferShow

/-- Requests an NV write; during a dip it is deferred and counted (R79). -/
def State.nvRequest (s : State) (j : NvJob) : State :=
  { s with stw := { s.stw with nvq := s.stw.nvq ++ [j], nvDef := s.stw.nvDef ++ [s.dipHold] } }.deferShow.nvStart

/-- The first waiting NV write has ended: its target is valid again, and the key updates behind it are one place further. -/
def State.nvEnd (s : State) : State :=
  let pg := s.nvPage
  let s1 : State := { s with
    stw := { s.stw with nvq := s.stw.nvq.drop 1, nvActive := false, nvDef := s.stw.nvDef.drop 1 }
    nv := { s.nv with bad := s.nv.bad.filter (fun p => p != pg) } }
  (s1.modUpdates (fun u => { u with behind := u.behind - 1 })).nvStart

/-- The NV write that runs is abandoned and deferred (R79): the page integrity marks its target invalid. -/
def State.nvDrop (s : State) : State :=
  ({ s with
      stw := { s.stw with nvActive := false, nvDef := true :: s.stw.nvDef.drop 1 }
      nv := { s.nv with bad := s.nvPage :: s.nv.bad.filter (fun p => p != s.nvPage) } }.deferShow).nvFail s.nvPage 4

/-! ## Logbook entries -/

/-- A Logbook entry for the tenants of `aud` besides tenant 0 (R463, R465): it waits to be written; a 17th is lost; in
RETIRED none is written (R468). -/
def State.logEntry (s : State) (ty sub aud level data : Nat) : State :=
  if s.life == 0xE then s.addSat F.LOG_CNT_LOST 1
  else if 16 ≤ s.log.pend.length then
    ({ s.addSat F.LOG_CNT_LOST 1 with log := { s.log with loss := true } }).raise 0x24 9
  else
    let e : LogPend := ⟨ty, sub, aud ||| 1, level, s.ht, s.fld F.RCK_EPOCH_ID, data⟩
    ({ s with log := { s.log with pend := s.log.pend ++ [e] } }).nvRequest .logEntry

/-- The 32 bytes of an entry (R462, R464). -/
def encLog (key : List Byte) (e : LogPend) (seq : Nat) (fly loss : Bool) : List Byte :=
  let b := bytesLE 1 e.ty ++ bytesLE 1 e.sub ++ bytesLE 1 e.aud
    ++ bytesLE 1 (e.level % 8 + (if fly then 8 else 0) + (if loss then 16 else 0))
    ++ bytesLE 4 seq ++ bytesLE 4 e.epoch ++ bytesLE 8 e.ht ++ bytesLE 4 e.data
  b ++ (Config.cmac key b).take 8

/-- Stores bytes in the Logbook slot of their sequence, erasing the page before its first slot (R461). -/
def State.logStore (s : State) (seq : Nat) (bytes : List Byte) (good : Bool) : State :=
  let slot := seq % 1536
  let s1 := if slot % 8 = 0 then
      { s.nvErase (288 + slot / 8) with
        nv := { (s.nvErase (288 + slot / 8)).nv with log := s.nv.log.filter (fun x => x.1 / 8 != slot / 8) } }
    else s
  { s1 with nv := { s1.nv with log := mapSet (fun _ => ⟨[], true⟩) s1.nv.log slot ⟨bytes, good⟩ } }

/-- Forwards a written entry as LOG items to L2 of the tenants of its audience and of LOG_FWD (R467). -/
def State.logForward (s : State) (aud : Nat) (bytes : List Byte) : State :=
  forEach (List.range 8) (fun t s =>
    if aud.testBit t && s.bit F.LOG_FWD_T t && s.tenExists t then
      s.record t 2 0x0A 0x24 s.ht (bytesLE 8 s.ht ++ bytes)
    else s) s

/-- Writes one entry to the Logbook as the next sequence, verified good (R461, R465). -/
def State.logWrite (s : State) (e : LogPend) : State :=
  let seq := (s.nv.logSeq + 1) % 2 ^ 32
  let bytes := encLog s.nv.trim.logKey e seq false s.log.loss
  let s1 := s.logStore seq bytes true
  let s2 := { s1 with nv := { s1.nv with logSeq := seq }, log := { s1.log with loss := false } }
  ((s2.setFld F.LOG_SEQ_SEQ seq).addSat F.LOG_CNT_WRITTEN 1).logForward e.aud bytes

/-- Writes one entry to the next Flyleaf slot, which is filled once (R470); `good` tells whether it verifies. -/
def State.flyWrite (s : State) (e : LogPend) (good : Bool) : State :=
  if s.on F.LOG_STATUS_FLYDEAD then s
  else if 32 ≤ s.nv.fly.length then s.addSat F.LOG_FLYLOST_COUNT 1
  else
    let seq := (s.nv.logSeq + 1) % 2 ^ 32
    let bytes := encLog s.nv.trim.logKey e seq true s.log.loss
    let slot : LogSlot := ⟨bytes, good⟩
    let s1 := { s with nv := { s.nv with fly := s.nv.fly ++ [slot], logSeq := seq },
                       log := { s.log with loss := false } }
    let s2 := (s1.setFld F.LOG_SEQ_SEQ seq).setFld F.LOG_STATUS_FLY_USED s1.nv.fly.length
    if good then s2.logForward e.aud bytes
    else (s2.setFld F.LOG_STATUS_FLYDEAD 1).nvFail (480 + s.nv.fly.length / 8) 1

/-! ## Granules and output lanes -/

/-- Granules of the pool: the tenant area less the MINs (R170). -/
def State.poolSize (s : State) : Nat :=
  63488 - (List.range 8).foldl (fun n t => n + 16 * s.fld (F.QUE_TQ_MIN t)) 0

/-- Granules of the pool not loaned. -/
def State.poolFree (s : State) : Nat :=
  s.poolSize - (List.range 8).foldl (fun n t => n + s.fld (F.QUE_TUSE_LOANED t)) 0

/-- POOL_LOW: FREE below QUE_PLC_CFG.FREE; its rise is PIRQ bit 10 (R192). -/
def State.poolMark (s : State) : State :=
  let low := decide (s.poolFree < s.fld F.QUE_PLC_CFG_FREE)
  let s1 := s.putOn F.QUE_STAT_POOL_LOW low
  if low && !(s.on F.QUE_STAT_POOL_LOW) then s1.raise 0x20 10 else s1

/-- Frees granules of a tenant: loans are repaid first (R171). -/
def State.freeGran (s : State) (t n : Nat) : State :=
  ((s.setFld (F.QUE_TUSE_USED t) (s.fld (F.QUE_TUSE_USED t) - n)).setFld (F.QUE_TUSE_LOANED t)
    (s.fld (F.QUE_TUSE_LOANED t) - n)).poolMark

/-- Granules of a tenant's MIN that it does not use, less `res` granules held back (R171, R177). -/
def State.ownFree (s : State) (t res : Nat) : Nat :=
  16 * s.fld (F.QUE_TQ_MIN t) - res - (s.fld (F.QUE_TUSE_USED t) - s.fld (F.QUE_TUSE_LOANED t))

/-- Takes granules for a tenant: its own MIN first, then loans (R171). -/
def State.takeGran (s : State) (t n res : Nat) : State :=
  let own := s.ownFree t res
  ((s.setFld (F.QUE_TUSE_USED t) (s.fld (F.QUE_TUSE_USED t) + n)).setFld (F.QUE_TUSE_LOANED t)
    (s.fld (F.QUE_TUSE_LOANED t) + (n - own))).poolMark

/-- Granules of an open bundle: header and payload so far (R176). -/
def laneGran (l : Lane) : Nat := if l.items.isEmpty then 0 else ceilDiv (32 + l.len) 32

/-- The bytes of a closed bundle. -/
def bundleBytes (b : Bundle) : List Byte := b.header ++ b.payload ++ b.tag

/-- A bundle of a lane has been read to its last byte in a transaction still open (R184). -/
def State.readInFull (s : State) (lane : Nat) (b : Bundle) : Bool :=
  [0, 1].any (fun p => match s.txOf p with
    | none => false
    | some x => x.bundles.any (fun y => y.1 == lane && y.2.1 == b.seq && decide ((bundleBytes b).length ≤ y.2.2)))

/-- A transaction is delivering a bundle of the lane, and not yet to its last byte (R187). -/
def State.delivering (s : State) (p lane : Nat) : Bool :=
  match s.txOf p with
  | none => false
  | some x => x.bundles.any (fun y =>
      y.1 == lane && (s.closedOf lane).any (fun b => b.seq == y.2.1 && decide (y.2.2 < (bundleBytes b).length)))

/-- Flushes one output lane (R186, R187): every bundle in it but those read in full, the open one included; the FLUSH
record counts bundles and their HT span. -/
def State.flushLane (s : State) (t l : Nat) (cause : Nat) : State :=
  let k := qOut t l
  let keep := (s.closedOf k).filter (fun b => s.readInFull k b)
  let gone := (s.closedOf k).filter (fun b => !(s.readInFull k b))
  let ln := s.lane k
  let openSpan := match ln.items with | [] => none | i :: r => some (i.ht, r.foldl (fun (m : Nat) (x : Item) => max m x.ht) i.ht)
  let spans := gone.map (fun b => (b.firstHt, b.lastHt)) ++ openSpan.toList
  let free := gone.foldl (fun n b => n + b.granules) 0 + laneGran ln
  let hit := [0, 1].filter (fun p => s.delivering p k)
  let s1 := forEach hit (fun p s => s.setTx p ((s.txOf p).map (fun x => { x with zero := true }))) s
  let s2 := if hit.isEmpty then s1 else (s1.setFld (F.QUE_PSTAT_FLUSHED t) 1).raise 0x20 9
  let s3 := (s2.setClosed k keep).modLane k (fun _ => lane0)
  let s4 := { s3 with hallmark := { s3.hallmark with
      queue := s3.hallmark.queue.filter (fun x => x.1 != k),
      work := match s3.hallmark.work with | some x => if x.1 = k then none else some x | none => none } }
  let s5 := s4.freeGran t free
  match spans with
  | [] => s5
  | (a, b) :: r =>
    let part : GapPart := ⟨cause, 0, spans.length, r.foldl (fun m x => min m x.1) a, r.foldl (fun m x => max m x.2) b, false⟩
    s5.setPend k .bundler (addLost ⟨srcPage 0x21, some part, none, true, true, false⟩ (s5.pendOf k .bundler))

/-! ## The FULL reset -/

/-- VSTORE kept the retention domain, and no response zeroized the batch memory in it (R96). -/
def State.keptDomain (s : State) : Bool := s.sys.retained && !(s.on F.TAM_LATCH_ZEROIZED)

/-- The phase a FULL reset leaves by its cause: its source may still hold the hub (R10, R84, R99). -/
def resetPhase (c : Cause) (s : State) : Phase :=
  if c = .bor then .unpowered
  else if c = .nrst ∨ c = .hold ∨ s.sys.nrstLow then .inReset
  else .booting

/-- A FULL reset (R94-R96, R479): every register and every block as State.reset has it; the NV store stands; the closed
bundles that the Hallmark engine has finished stand while the retention domain does; the supplies, the temperature and
the pins are as they are outside. -/
def fullReset (c : Cause) (hold : Nat) (s : State) : State :=
  let keep := s.keptDomain
  let read := ([0, 1].filterMap (fun p => s.txOf p)).flatMap (fun x => x.bundles.map (fun b => b.1 / 4))
  { State.reset with
    nv := s.nv
    closed := if keep then
        (s.closed.map (fun x => (x.1, x.2.filter (fun b => b.done)))).filter (fun x => !x.2.isEmpty)
      else []
    log := { log0 with kept := s.log.kept, hold := s.log.hold }
    sys := { sys0 with
      phase := resetPhase c s
      nrstLow := s.sys.nrstLow
      holding := hold
      holdTime := decide (c = .hold)
      cause := c
      vstore := s.sys.vstore
      vharv := s.sys.vharv
      iharv := s.sys.iharv
      temp := s.sys.temp
      aboveVstart := s.sys.aboveVstart && decide (c ≠ .bor)
      retained := keep
      vhostV := s.sys.vhostV
      pins := s.sys.pins
      rewound := if keep then bits1 ((List.range 8).map (fun t => (t, read.contains t))) else 0 }
    tam := { tam0 with cross := s.tam.cross || (decide (c = .hold) && hold == 2), vcoreLow := s.tam.vcoreLow, vstoreHigh := s.tam.vstoreHigh }
    pending := s.pending }

/-! ## Tamper -/

def tcSHADOW : Nat := 1
def tcTHERMAL : Nat := 2
def tcDOUBLE : Nat := 3
def tcCLOCK : Nat := 4
def tcSUPPLY : Nat := 5
def tcPROBE : Nat := 6
def tcNVINTEG : Nat := 7

def State.respOf (s : State) (cls : Nat) : Nat := s.fld (F.TAM_RESP_LEVEL (cls - 1))
def State.latched (s : State) (cls : Nat) : Bool := s.bit F.TAM_LATCH_LATCHED (cls - 1)

/-- The level in force: the highest level among the latched classes (R458). -/
def State.levelInForce (s : State) : Nat :=
  (List.range 7).foldl (fun m i => if s.latched (i + 1) then max m (s.respOf (i + 1)) else m) 0

/-- ZEROIZE_VOLATILE (R456, R459): volatile keys are gone until FULL reset; every queue is flushed; assemblies, the
envelope and stored responses are gone. A key update that has only its commit word to write goes on. -/
def State.zeroizeVolatile (s : State) : State :=
  let s1 := (s.setFld F.TAM_LATCH_ZEROIZED 1)
  let s2 := forEach internalQueues (fun q s => s.flushQueue q gcFLUSH) (s1.setQueue qCmd [])
  let s3 := forEach (List.range 32) (fun k s => s.flushLane (k / 4) (k % 4) gcFLUSH) s2
  let s4 := forEach (List.range 8) (fun n s =>
    if s.fld (F.TN_CSTAT_STATE n) = 4 then s else (s.setFld (F.TN_CSTAT_STATE n) 0).setFld (F.TN_CSTAT_COUNT n) 0) s3
  let s5 := forEach (List.range 8) (fun n s => s.modTen n (fun x => { x with
      response := []
      execRsp := []
      update := match x.update with
        | none => none
        | some u => if u.written then some u else none })) s4
  ({ s5 with asm := [], env := none }).deferShow.nvStart

/-- HOLD (R460): the class's entry is written, or kept where R79 lets it not start; then a FULL reset with cause HOLD.
The next boot latches the class again. -/
def State.hold (s : State) (cls : Nat) (e : LogPend) : State :=
  let s0 := { s with log := { s.log with hold := some (cls, (s.reg A.TAM_LAST).toNat, e.aud) } }
  let s1 := if s.life == 0xE then s0.addSat F.LOG_CNT_LOST 1
    else if s.dipHold || s.bootHold || s.stw.nvActive || s.keyWriting || s.on F.LOG_STATUS_SCAN then
      { s0 with log := { s0.log with kept := some e } }
    else if s.on F.LOG_STATUS_DEAD then s0.flyWrite e true
    else s0.logWrite e
  fullReset .hold cls s1

/-- TAM_LAST of an occurrence. -/
def State.tamLast (s : State) (cls level req page off : Nat) : State :=
  ((((s.setFld F.TAM_LAST_CLASS cls).setFld F.TAM_LAST_LEVEL level).setFld F.TAM_LAST_REQ req).setFld F.TAM_LAST_PAGE
    page).setFld F.TAM_LAST_OFFSET off

/-- The TAMPER entry of an occurrence: one when the class was not latched, and at most one a second while it is (R446). -/
def State.tamEntry (s : State) (was : Bool) (cls level aud : Nat) : State :=
  let last := mapGet (fun _ => 0) s.tam.entryAt cls
  let mark := fun (s : State) => { s with tam := { s.tam with
    entryAt := mapSet (fun _ => 0) s.tam.entryAt cls (s.ht + 1)
    auds := mapSet (fun _ => 0) s.tam.auds cls aud } }
  if !was then mark (s.logEntry 0x01 cls aud level (s.reg A.TAM_LAST).toNat)
  else if last = 0 ∨ last - 1 + 2 ^ 32 ≤ s.ht then
    mark (s.logEntry 0x01 cls aud level
      ((s.reg A.TAM_LAST).toNat % 2 ^ 24 + s.fld (F.TAM_CNT_CNT (cls - 1)) * 2 ^ 24))
  else s

/-- Boot has halted on a failed check of the ROM or of the trim (R102): only NRST or a power cycle starts a new boot. -/
def State.halted (s : State) : Bool := decide (s.sys.phase = .booting) && s.fld F.SYS_BOOT_STAGE == 15

/-- An occurrence of a tamper class (R446, R456): latched, counted, logged, and its response applied. `req`, `page` and
`off` go to TAM_LAST; `aud` is the audience beyond tenant 0. -/
def occur (cls req page off aud : Nat) (s : State) : State :=
  s.when (!s.halted) fun s =>
  let was := s.latched cls
  let lv := s.respOf cls
  let s1 := ((s.setBit F.TAM_LATCH_LATCHED (cls - 1)).addSat (F.TAM_CNT_CNT (cls - 1)) 1).tamLast cls lv req page off
  let s2 := if cls = tcDOUBLE ∨ cls = tcNVINTEG then s1 else s1.setBit F.TAM_LATCH_COND (cls - 1)
  let s3 := s.risen [0x23, 0x24, 0x25, 0x26] s2
  if 4 ≤ lv then
    s3.zeroizeVolatile.hold cls
      ⟨0x01, cls, aud ||| 1, lv, s3.ht, s3.fld F.RCK_EPOCH_ID, (s3.reg A.TAM_LAST).toNat⟩
  else
    let s4 := s3.tamEntry was cls lv aud
    let s5 := if 1 ≤ lv then s4.raise 0x23 8 else s4
    let s6 := if 1 ≤ lv ∧ s5.sys.phase = .stow then { s5 with sys := { s5.sys with wakes := s5.sys.wakes ||| 2 ^ 16 } } else s5
    let s7 := if 2 ≤ s6.levelInForce then s6.setFld F.TAM_LATCH_SEALSTOP 1 else s6
    if 3 ≤ lv then s7.zeroizeVolatile else s7

/-- The MAC of an entry verifies (R464). -/
def State.macGood (s : State) (e : LogSlot) : Bool :=
  (Config.cmac s.nv.trim.logKey (e.bytes.take 24)).take 8 == e.bytes.drop 24

/-- The Logbook fails (R469): DEAD, the LOG_DEAD entry and the entry whose write failed in the Flyleaf, then NVINTEG. -/
def State.logDead (s : State) (sub seq : Nat) (failed : Option LogPend) : State :=
  let s1 := (s.setFld F.LOG_STATUS_DEAD 1).raise 0x24 8
  let mark : LogPend := ⟨9, sub, s.fld F.SYS_DORM_EXIST ||| 1, 0, s.ht, s.fld F.RCK_EPOCH_ID, seq⟩
  let s2 := s1.flyWrite mark true
  let s3 := match failed with | none => s2 | some e => s2.flyWrite e true
  occur tcNVINTEG 15 0x24 0 0 { s3 with log := { s3.log with clean := false } }

/-- An uncorrectable slot of page `pg` is read (R469, R476): the Logbook fails, once (log entry 124). -/
def State.logUnread (s : State) (pg : Nat) (e : LogSlot) : State :=
  let s1 := s.nvUncorr pg
  if s1.on F.LOG_STATUS_DEAD then s1 else s1.logDead 2 (fieldLE e.bytes 4 4) none

/-- A slot of page `pg` is read whose MAC does not verify (R455, R464). -/
def State.logForged (s : State) (pg : Nat) : State :=
  occur tcNVINTEG 15 0x24 0 0 ((s.nvFail pg 3).raise 0x24 10)

/-- The check of an entry at its read (R464, R469). -/
def State.logChecked (s : State) (pg : Nat) (e : LogSlot) : State :=
  if !e.good then s.logUnread pg e else if s.macGood e then s else s.logForged pg

/-- The condition of a class ends (R445). -/
def State.condEnd (s : State) (cls : Nat) : State := s.clrBit F.TAM_LATCH_COND (cls - 1)

/-- One more denial in the probe window; above the threshold PROBE is raised once in the window (R147, R454), for the owner
`aud` of what was accessed. -/
def State.probe (s : State) (req page off aud : Nat) : State :=
  let s1 := s.addSat F.TAM_PCNT_CUR 1
  if !s1.tam.probeRaised && decide (max 1 (s.fld F.TAM_PROBE_THR) < s.fld F.TAM_PCNT_CUR + 1) then
    occur tcPROBE req page off aud { s1 with tam := { s1.tam with probeRaised := true } }
  else s1

/-- A shadow mismatch in a field of register `a` (R447): recorded in PSHD, PIRQ bit 1, and SHADOW raised. -/
def State.shadow (s : State) (a aud : Nat) : State :=
  let p := a / 256
  let s1 := ((s.setFld (F.PSHD_MISM p) 1).addSat (F.PSHD_COUNT p) 1).setFld (F.PSHD_LAST_OFF p) (a % 256)
  occur tcSHADOW 15 p (a % 256) aud (s1.raise p 1)

end Sys2Proof.Machine
end

