-- ==== Sys2Proof/Machine/Psq.lean ====
section
/-! DEFINITION. The shared operations of the Poll Sequencer: descriptor fields (R235), skips and their per-descriptor
GAP records (R252, R253), the conditions of R247, triggers (R243, R244), completions (R242) and arming (R238, R239). -/

namespace Sys2Proof.Machine

/-! ## Descriptor words (R235) -/

def dWord (ws : List Word) (i : Nat) : Word := ws.getD i 0
def dEn (ws : List Word) : Bool := getBits (dWord ws 0) 0 1 == 1
def dUrgent (ws : List Word) : Bool := getBits (dWord ws 0) 1 1 == 1
def dTrig (ws : List Word) : Nat := getBits (dWord ws 0) 2 2
def dPort (ws : List Word) : Nat := getBits (dWord ws 0) 4 3
def dKind (ws : List Word) : Nat := getBits (dWord ws 0) 8 2
def dWp (ws : List Word) : Bool := getBits (dWord ws 0) 10 1 == 1
def dHp (ws : List Word) : Bool := getBits (dWord ws 0) 11 1 == 1
def dOwner (ws : List Word) : Nat := getBits (dWord ws 0) 12 3
def dLock (ws : List Word) : Bool := getBits (dWord ws 0) 15 1 == 1
def dLen (ws : List Word) : Nat := getBits (dWord ws 0) 16 9
def dAddr (ws : List Word) : Nat := getBits (dWord ws 1) 0 7
def dSel (ws : List Word) : Nat := getBits (dWord ws 1) 8 1
def dPtrw (ws : List Word) : Nat := getBits (dWord ws 1) 9 2
def dHdr (ws : List Word) : Nat := getBits (dWord ws 1) 12 3
def dGrant (ws : List Word) : Nat := getBits (dWord ws 1) 24 8
def dPeriod (ws : List Word) : Nat := (dWord ws 3).toNat
def dPhase (ws : List Word) : Nat := (dWord ws 4).toNat
def dStart (ws : List Word) : Nat := (dWord ws 3).toNat

/-- STEP of an ANGLE descriptor as a fraction; 0 means one revolution. -/
def dStep (ws : List Word) : Nat := if (dWord ws 4).toNat = 0 then 2 ^ 32 else (dWord ws 4).toNat
def dLine (ws : List Word) : Nat := getBits (dWord ws 3) 0 4
def dSrc (ws : List Word) : Nat := getBits (dWord ws 3) 0 8
def dAny (ws : List Word) : Bool := getBits (dWord ws 3) 8 1 == 1
def dJit (ws : List Word) : Nat := getBits (dWord ws 5) 0 16

/-- The target of a transfer: the TWC address, the SPC chip select, the AFE channel. -/
def dTarget (ws : List Word) : Nat := if dPort ws < 4 then dAddr ws else dSel ws

/-- A tenant may take the descriptor's stream: the owner, or by GRANT (R250). -/
def dUsable (ws : List Word) (t : Nat) : Bool := dOwner ws == t || (dGrant ws).testBit t

/-- The descriptors that differ from reset. -/
def State.liveDescs (s : State) : List Nat := s.descs.map (fun x => x.1)

/-! ## Skips -/

/-- One more skip in the pending GAP record of a dispatch queue, which counts each descriptor on its own (R252). -/
def addDescSkip (src : Nat) (x : GapPart) : List PendRec → List PendRec
  | [] => [⟨src, some x, none, false, false, false⟩]
  | r :: t => if r.src = src then { r with own := extendOpt r.own (some x) } :: t else r :: addDescSkip src x t

/-- The Sequencer counts a skip of a descriptor in its pending record for the port's dispatch queue (R247, R252). -/
def State.psqSkip (s : State) (port d cause : Nat) (detail : Option Nat) : State :=
  let s1 := s.modDesc d (fun x => { x with skips := min (x.skips + 1) (2 ^ 32 - 1), lastCause := cause, lastDetail := detail.getD 0 })
  let s2 := s1.setPend (qDisp port) .psq (addDescSkip (srcDesc d) (part1 cause detail s.ht) (s1.pendOf (qDisp port) .psq))
  (s2.addSat F.PSQ_SKIP_COUNT 1).raise 0x18 8

/-- The Sequencer counts `n` skips of a descriptor at once, each of which advances its stream sequence (R240, R244). -/
def State.psqSkips (s : State) (d cause : Nat) (detail : Option Nat) (n : Nat) : State :=
  if n = 0 then s
  else
    let port := dPort (s.desc d).words
    let s1 := s.modDesc d (fun x => { x with
      seq := (x.seq + n) % 2 ^ 32, skips := min (x.skips + n) (2 ^ 32 - 1), lastCause := cause, lastDetail := detail.getD 0 })
    let part : GapPart := { part1 cause detail s.ht with count := min n (2 ^ 32 - 1), sat := decide (2 ^ 32 - 1 < n) }
    let s2 := s1.setPend (qDisp port) .psq (addDescSkip (srcDesc d) part (s1.pendOf (qDisp port) .psq))
    (s2.addSat F.PSQ_SKIP_COUNT n).raise 0x18 8

/-- One more loss to a reset in the RESET record of a source, which waits for the source's first new item (R95). -/
def addReset (src : Nat) (x : GapPart) : List PendRec → List PendRec
  | [] => [⟨src, some x, none, true, false, true⟩]
  | r :: t =>
    if r.src == src && r.held && (match r.own with | some o => o.cause == gcRESET | none => false) then
      { r with own := joinOpt r.own (some x) } :: t
    else r :: addReset src x t

/-- A producer loses an item to a reset (R95). -/
def State.resetSkip (s : State) (q : Nat) (p : Producer) (src ht : Nat) : State :=
  s.setPend q p (addReset src (part1 gcRESET none ht) (s.pendOf q p))

/-- The HT of the reset in progress of a tenant's part of the hub; the present one at its request (R95, R97). -/
def State.resetHt (s : State) (t : Nat) : Nat :=
  match s.rst.dp with
  | some h => h
  | none => if s.rst.busy.testBit t then (mapGet (fun _ => none) s.rst.tens t).getD s.ht else s.ht

/-- The Sequencer counts `n` requests of a descriptor that a reset removed or kept from being produced; the record's span
begins at the reset (R95). -/
def State.psqReset (s : State) (d n : Nat) : State :=
  if n = 0 then s
  else
    let ws := (s.desc d).words
    let q := qDisp (dPort ws)
    let part : GapPart := { part1 gcRESET none (s.resetHt (dOwner ws)) with
      count := min n (2 ^ 32 - 1), sat := decide (2 ^ 32 - 1 < n) }
    let s1 := s.modDesc d (fun x => { x with
      skips := min (x.skips + n) (2 ^ 32 - 1), lastCause := gcRESET, lastDetail := 0 })
    let s2 := s1.setPend q .psq (addReset (srcDesc d) part (s1.pendOf q .psq))
    (s2.addSat F.PSQ_SKIP_COUNT n).raise 0x18 8

/-- A reset of the tenant's part of the hub is in progress (R97). -/
def State.resetting (s : State) (t : Nat) : Bool := s.rst.dp.isSome || s.rst.busy.testBit t

/-- The GAP records at the head of a port's dispatch queue pass into its capture queue, one per descriptor, in every state of
the port (R253). -/
def State.passGaps (s : State) (p : Nat) : State :=
  match s.queue (qDisp p) with
  | ⟨_, _, .gaps l⟩ :: rest => forEach l (fun g s => s.forwardGap (qCap p) .port g) (s.setQueue (qDisp p) rest)
  | _ => s

/-- The Sequencer enqueues its pending record for a port, a part per descriptor, when it holds both credits of the dispatch
queue (R252); the port forwards it in the cycle in which it becomes visible (R253), which the model takes at once. A held
RESET part waits for its descriptor's next request. -/
def State.psqGaps (s : State) (p : Nat) : State :=
  let l := s.pendOf (qDisp p) .psq
  let due := (l.filter (fun r => !r.held)).filterMap (fun r => r.gap)
  if 2 ≤ s.credits (qDisp p) .psq ∧ !due.isEmpty then
    (((s.setPend (qDisp p) .psq (l.filter (fun r => r.held))).push (qDisp p) ⟨.psq, 1, .gaps due⟩).addSat
      F.QUE_STAT_GAPS 1).passGaps p
  else s

/-! ## Conditions at a trigger (R247) -/

/-- A VSENS rail that powers the port is not ON (R76). -/
def State.railOff (s : State) (p : Nat) : Bool :=
  (List.range 3).any (fun n => s.bit (F.PWR_VSENS_PORTS n) p && s.fld (F.PWR_VSENS_STATE n) != 3)

/-- The sensor bank of the port is lost (R27); the AFE balls belong to no switched bank. -/
def State.bankOff (s : State) (p : Nat) : Bool := decide (p < 7) && !(s.on F.PWR_BANK_VSENSIO_OK)

/-- The cause and detail with which a trigger on port `p` is skipped, if any (R247). -/
def State.portRefuses (s : State) (p : Nat) : Option (Nat × Option Nat) :=
  if s.railOff p then some (gcRAIL, none)
  else if s.bankOff p then some (gcBANK, none)
  else if (s.prt p).blocked then some (gcSEQ, some 2)
  else if !(s.pageOn (portPage p)) then some (gcSEQ, some 3)
  else if !(s.pageOn 0x18) then some (gcSEQ, some 6)
  else none

/-- A pending request is withdrawn and counted as a skip. -/
def State.withdraw (s : State) (d cause : Nat) (detail : Option Nat) : State :=
  match (s.desc d).pend with
  | none => s
  | some r => (s.modDesc d (fun x => { x with pend := none })).psqSkip (dPort r.words) d cause detail

/-- Withdraws the pending requests that `hit` names. -/
def State.withdrawAll (s : State) (hit : Nat → Desc → Bool) (cause : Nat) (detail : Option Nat) : State :=
  forEach s.liveDescs (fun d s => if hit d (s.desc d) then s.withdraw d cause detail else s) s

/-- The request in a port's dispatch queue that the port has not begun is withdrawn too, and counted. -/
def State.recall (s : State) (p cause : Nat) (detail : Option Nat) : State :=
  forEach (s.queue (qDisp p)) (fun e s => match e.body with
    | .request r => s.psqSkip p r.idx cause detail
    | _ => s) (s.setQueue (qDisp p) ((s.queue (qDisp p)).filter (fun e => match e.body with | .request _ => false | _ => true)))

/-- Withdraws what waits for ports that now meet a condition of R247. -/
def State.checkPorts (s : State) (ps : List Nat) : State :=
  forEach ps (fun p s => match s.portRefuses p with
    | none => s
    | some (c, d) => (s.withdrawAll (fun _ x => match x.pend with
        | some r => dPort r.words == p
        | none => false) c d).recall p c d) s

/-! ## Triggers -/

/-- The deadline of a pending request; none when JIT is 0 (R243). -/
def deadline (r : Request) : Option Nat :=
  if dJit r.words = 0 then none else some (r.trig + htUs (dJit r.words))

/-- A descriptor triggers (R243, R244, R247): its stream sequence moves on; it is skipped, or becomes pending, or meets
its own pending request. `join` names the stamped edge it came from (R269). -/
def State.trigger (s : State) (d : Nat) (join : Option (Nat × Nat)) : State :=
  let x := s.desc d
  let seq := (x.seq + 1) % 2 ^ 32
  let s1 := s.modDesc d (fun x => { x with seq := seq })
  let req : Request := ⟨d, x.words, dOwner x.words, seq, s.ht, join⟩
  if s.resetting (dOwner x.words) then s1.psqReset d 1
  else match s.portRefuses (dPort x.words) with
  | some (c, det) => s1.psqSkip (dPort x.words) d c det
  | none =>
    match x.pend with
    | none => s1.modDesc d (fun y => { y with pend := some req })
    | some r =>
      if dJit r.words = 0 ∧ dTrig x.words < 2 then
        (s1.modDesc d (fun y => { y with pend := some req })).psqSkip (dPort r.words) d gcSEQ (some 1)
      else s1.psqSkip (dPort x.words) d gcSEQ (some 0)

/-- The smallest TIME target after HT `h` (R239): (PHASE + k·PERIOD)·2^8 for an integer k. -/
def nextTime (ws : List Word) (h : Nat) : Nat :=
  let p : Int := dPeriod ws * 256
  let ph : Int := dPhase ws * 256
  (ph + (((h : Int) - ph) / p + 1) * p).toNat

/-- The smallest TIME target at or after HT `h`, to which a changed descriptor re-arms (R238). -/
def timeFrom (ws : List Word) (h : Nat) : Nat :=
  let p : Int := dPeriod ws * 256
  let ph : Int := dPhase ws * 256
  (ph + (((h : Int) - ph + p - 1) / p) * p).toNat

/-- An angle of revolutions and fraction: REV wraps (R286). -/
def wrapAngle (a : Int) : Nat := (a % 2 ^ 64).toNat

/-- The smallest ANGLE target at or after the angle `a` (revolutions and fraction, R240). -/
def nextAngle (ws : List Word) (a : Nat) : Nat :=
  let st : Int := dStep ws
  let start : Int := dStart ws
  wrapAngle (start + (((a : Int) - start + st - 1) / st) * st)

/-- The largest ANGLE target at or before the angle `a`, for a shaft that turns backward. -/
def prevAngle (ws : List Word) (a : Nat) : Nat :=
  let st : Int := dStep ws
  let start : Int := dStart ws
  wrapAngle (start + (((a : Int) - start) / st) * st)

/-- The output angle: revolutions and fraction (R286, R295). -/
def State.outAngle (s : State) : Nat := s.sxt.out.toNat / 2 ^ 32

/-- The angle extrapolated from the last locked angle and speed (R255). -/
def State.extAngle (s : State) : Nat :=
  wrapAngle (((s.sxt.lost.2.1 : Int) * 2 ^ 32 + s.sxt.lost.2.2 * ((s.ht : Int) - s.sxt.lost.1)) / 2 ^ 32)

/-- The angle that ANGLE descriptors go by: the output angle while the Sextant indicates lock (R240), else the extrapolated
one (R255); and whether it turns backward. -/
def State.angleNow (s : State) : Nat := if s.on F.SXT_STAT_LOCK then s.outAngle else s.extAngle
def State.angleBack (s : State) : Bool :=
  if s.on F.SXT_STAT_LOCK then s.on F.SXT_STAT_NEG else decide (s.sxt.lost.2.2 < 0)

/-- The first ANGLE target at or after that angle, in the direction of rotation. -/
def State.firstAngle (s : State) (ws : List Word) : Nat :=
  if s.angleBack then prevAngle ws s.angleNow else nextAngle ws s.angleNow

/-- How far that angle lies past the target `a`, in the direction of rotation, in 2^-32 revolution. -/
def State.anglePast (s : State) (a : Nat) : Int :=
  let d := (BitVec.ofNat 64 s.angleNow - BitVec.ofNat 64 a).toInt
  if s.angleBack then -d else d

/-- The target `by'` further on from `a` in the direction of rotation. -/
def State.angleOn (s : State) (a by' : Nat) : Nat :=
  wrapAngle (if s.angleBack then (a : Int) - by' else (a : Int) + by')

/-- Arms a descriptor at its first target: after the effect cycle when it is enabled (R239), at or after it when it is
changed (R238). An ANGLE descriptor counts nothing until the first lock (R256). -/
def State.arm (s : State) (d : Nat) (fresh : Bool) : State :=
  s.modDesc d (fun x =>
    if !(dEn x.words) then { x with armed := false }
    else
      let target :=
        if dTrig x.words = 0 then (if fresh then nextTime x.words s.ht else timeFrom x.words s.ht)
        else if dTrig x.words = 1 then s.firstAngle x.words
        else 0
      { x with armed := true, next := target, lockSeen := x.lockSeen || s.on F.SXT_STAT_LOCK })

/-- The CHAIN descriptors that a completion of `d` triggers are due, once for each completion (R242). -/
def State.complete (s : State) (d : Nat) (ok : Bool) : State :=
  let due := s.liveDescs.filter (fun c =>
    let ws := (s.desc c).words
    dEn ws && dTrig ws == 3 && dSrc ws == d && (ok || dAny ws))
  { s with chainDue := s.chainDue ++ due }

/-! ## Shares (R248) -/

def shareKey (p t : Nat) : Nat := 8 * p + t

/-- The 10 ms window of an HT. -/
def shareWindow (h : Nat) : Nat := h * 100 / 2 ^ 32

/-- The place of the number of the window that `State.charge` counts for. -/
def shareMark : Nat := 64

def State.shareNow (s : State) : Nat := mapGet (fun _ => 0) s.charge shareMark

/-- HT has passed the end of the window that `State.charge` counts for. -/
def State.shareDue (s : State) : Bool := s.shareNow != shareWindow s.ht

/-- The charges when the window of the present HT begins: those of the window before it become those of the last complete
one. -/
def State.shareTurn (s : State) : State :=
  { s with
    chargeLast := if s.shareNow + 1 = shareWindow s.ht then s.charge else []
    charge := mapSet (fun _ => 0) [] shareMark (shareWindow s.ht) }

/-- A tenant's charge on a port in the present window, and in the last complete one (PSQ_USED). -/
def State.chargeOf (s : State) (k : Nat) : Nat := if s.shareDue then 0 else mapGet (fun _ => 0) s.charge k
def State.chargeWas (s : State) (k : Nat) : Nat :=
  if !s.shareDue then mapGet (fun _ => 0) s.chargeLast k
  else if s.shareNow + 1 = shareWindow s.ht then mapGet (fun _ => 0) s.charge k
  else 0

/-- Charges `n` HT units to the window in which the transfer was taken. -/
def State.chargeAdd (s0 : State) (p t taken n : Nat) : State :=
  let s := s0.when s0.shareDue State.shareTurn
  let k := shareKey p t
  if shareWindow taken = shareWindow s.ht then { s with charge := mapMod (fun _ => 0) s.charge k (fun x => x + n) }
  else if shareWindow taken + 1 = shareWindow s.ht then { s with chargeLast := mapMod (fun _ => 0) s.chargeLast k (fun x => x + n) }
  else s

/-- Charges a transfer: from the take to the cycle in which the port is ready. -/
def State.chargeShare (s : State) (p t taken : Nat) : State := s.chargeAdd p t taken (s.ht - taken)

/-- RES(p, t). -/
def State.share (s : State) (p t : Nat) : Nat := s.fld (F.PSQ_RES_SHARE (8 * p + t))

/-- A tenant's charge on a port lies below its reservation (R246): RES/256 of 10 ms, in HT units. -/
def State.underShare (s : State) (p t : Nat) : Bool :=
  decide (s.chargeOf (shareKey p t) * 25600 < s.share p t * 2 ^ 32)

/-! ## Dispatch -/

/-- The port can be given a request (R245): its dispatch queue is empty, it has no transfer, and the bus of a two-wire port
is free (R204): before that the port is not idle, and a request would wait (DEDUCED, log entry 150). -/
def State.portReady (s : State) (p : Nat) : Bool :=
  (s.queue (qDisp p)).isEmpty && (s.prt p).xfer.isNone && (decide (4 ≤ p) || (s.prt p).busFree)

/-- Class and order of a candidate (R246): class 1-3, then trigger HT, then index. -/
def State.rank (s : State) (r : Request) : Nat × Nat × Nat :=
  if dUrgent r.words then (1, 0, r.idx)
  else if s.underShare (dPort r.words) r.tenant then (2, r.trig, r.idx)
  else (3, r.trig, r.idx)

def rankLt (a b : Nat × Nat × Nat) : Bool :=
  decide (a.1 < b.1) || (a.1 == b.1 && (decide (a.2.1 < b.2.1) || (a.2.1 == b.2.1 && decide (a.2.2 < b.2.2))))

/-- The request that the Sequencer dispatches next. -/
def State.nextRequest (s : State) : Option Request :=
  s.liveDescs.foldl (fun best d => match (s.desc d).pend with
    | none => best
    | some r => if !(s.portReady (dPort r.words)) then best
      else match best with
        | none => some r
        | some b => if rankLt (s.rank r) (s.rank b) then some r else some b) none

/-- The most that placement moves a descriptor, in µs: half its jitter window; 0 where it is never placed (R257). -/
def placeRoom (ws : List Word) : Nat := if dTrig ws = 0 then dJit ws / 2 else 0

/-- The placement offset within the bounds in force; half the jitter window governs (R257). -/
def State.placeIn (s : State) (x : Desc) : Nat :=
  min (placeRoom x.words) (min (s.loopHi loopSPL).toNat (max (s.loopLo loopSPL).toNat x.ofs))

/-- The slot placement update of a TIME descriptor with JIT at its dispatch (R257), as the descriptor now stands; `w` is the
wait in whole µs. -/
def State.place (s : State) (d : Nat) (r : Request) : State :=
  let x := s.desc d
  if dTrig x.words = 0 ∧ 0 < dJit x.words ∧ s.loopLive loopSPL then
    let w := (s.ht - r.trig) * 1000000 / 2 ^ 32
    let step := s.loopStep loopSPL
    let decay := max 1 (s.fld F.PSQ_SPL_CFG_DECAY)
    let (o, z) : Int × Nat :=
      if s.fld F.PSQ_SPL_CFG_HIGH < w then ((x.ofs : Int) + step, 0)
      else if w = 0 then (if decay ≤ x.zrun + 1 then ((x.ofs : Int) - step, 0) else ((x.ofs : Int), x.zrun + 1))
      else ((x.ofs : Int), 0)
    let half : Int := (dJit x.words / 2 : Nat)
    let lo := s.loopLo loopSPL
    let hi := s.loopHi loopSPL
    let l : Loop := if half < lo then ⟨half, false, true⟩ else clampLoop lo (min hi half) o
    (s.putLoop loopSPL l).modDesc d (fun y => { y with ofs := l.out.toNat, zrun := z })
  else s

/-- DISPATCH (R245, R246): at most one request, to a ready port; the pending GAP record goes ahead of it in the same
slot (R252). -/
def execDispatch (s : State) : Host.Outcome State Fault Refusal :=
  .next (s.when s.running fun s =>
    match s.nextRequest with
    | none => s
    | some r =>
      let p := dPort r.words
      let s1 := s.setPend (qDisp p) .psq ((s.pendOf (qDisp p) .psq).map (fun x =>
        if x.src = srcDesc r.idx then (endReset r.trig [x]).headD x else x))
      let s2 := (s1.psqGaps p).place r.idx r
      ((s2.modDesc r.idx (fun x => { x with pend := none })).push (qDisp p) ⟨.psq, 1, .request r⟩).addSat F.PSQ_DISP_COUNT 1)

/-! ## Trigger commands -/

/-- TIME_TRIGGER (R239): HT has reached the next target plus the placement offset. -/
def execTimeTrigger (d : Nat) (s : State) : Host.Outcome State Fault Refusal :=
  let x := s.desc d
  .next (s.when (s.running && x.armed && dEn x.words && dTrig x.words == 0
      && decide (x.next + htUs x.ofs ≤ s.ht)) fun s =>
    (s.modDesc d (fun y => { y with next := y.next + dPeriod y.words * 256 })).trigger d none)

/-- CHAIN_TRIGGER (R242): the source descriptor has completed. -/
def execChainTrigger (d : Nat) (s : State) : Host.Outcome State Fault Refusal :=
  let x := s.desc d
  .next (s.when (s.running && s.chainDue.contains d && dEn x.words && dTrig x.words == 3) fun s =>
    ({ s with chainDue := s.chainDue.erase d }).trigger d none)

/-- JIT_DEADLINE (R243): the pending request has reached its deadline and its port is not ready (R189). -/
def execJitDeadline (d : Nat) (s : State) : Host.Outcome State Fault Refusal :=
  .next (s.when s.running fun s =>
    match (s.desc d).pend with
    | none => s
    | some r => match deadline r with
      | none => s
      | some h => if decide (h ≤ s.ht) && !(s.portReady (dPort r.words)) then s.withdraw d gcSEQ (some 1) else s)

/-- EVENT on a trigger line (R241): every enabled EVENT descriptor on it triggers. A join does not apply to the AFE
(R269). -/
def State.lineEvent (s : State) (line : Nat) (join : Option (Nat × Nat)) : State :=
  forEach s.liveDescs (fun d s =>
    let ws := (s.desc d).words
    if dEn ws && dTrig ws == 2 && dLine ws == line then s.trigger d (if dPort ws = 7 then none else join) else s) s

/-- SHARE_WINDOW_END (R248): HT has reached a multiple of 10 ms; the charges of the window become those of the last complete
one. -/
def execShareWindowEnd (s : State) : Host.Outcome State Fault Refusal :=
  .next (s.when (s.cclk && s.shareDue) State.shareTurn)

end Sys2Proof.Machine
end

