-- ==== Sys2Proof/Machine/Epochs.lean ====
section
/-! DEFINITION. Epochs of the Reckoner (R278-R282): openings, offsets, and the unsent EPOCH records. -/

namespace Sys2Proof.Machine

def epDEFINE : Nat := 1
def epSTEP : Nat := 2
def epFROZEN : Nat := 3
def epCLOCK : Nat := 4

/-- An offset as it is held: an undefined one is 0x8000_0000_0000_0000 (R278). -/
def ofsWord (o : Option Nat) : Nat := o.getD (2 ^ 63)

/-- Puts the offset of the epoch in force into RCK_OFS and RCK_STAT.DEFINED. -/
def State.putOfs (s : State) (o : Option Nat) : State :=
  let s1 := { s with rck := { s.rck with ofs := o } }
  ((s1.setFld F.RCK_OFS_LO_OFS (ofsWord o % 2 ^ 32)).setFld F.RCK_OFS_HI_OFS (ofsWord o / 2 ^ 32)).putOn
    F.RCK_STAT_DEFINED o.isSome

/-- The 32-byte EPOCH payload (R280). -/
def encEpoch (kind source seq id ht before after : Nat) : List Byte :=
  bytesLE 1 kind ++ bytesLE 1 source ++ bytesLE 2 seq ++ bytesLE 4 id ++ bytesLE 8 ht ++ bytesLE 8 before
    ++ bytesLE 8 after

def State.unsentOf (s : State) (t : Nat) : List Item := mapGet (fun _ => []) s.rck.unsent t
def State.setUnsent (s : State) (t : Nat) (l : List Item) : State :=
  { s with rck := { s.rck with unsent := mapSet (fun _ => []) s.rck.unsent t l } }

/-- One more unsent EPOCH record of a tenant: at most four wait, and a fifth drops the oldest, counted as a skip (R281). -/
def State.epochUnsent (s : State) (t : Nat) (i : Item) : State :=
  let l := s.unsentOf t
  if l.length < 4 then s.setUnsent t (l ++ [i])
  else (s.setUnsent t (l.drop 1 ++ [i])).skip (qIntake t 1) .record i.src gcCREDIT none ((l.map (fun x => x.ht)).headD s.ht)

/-- Emits an EPOCH record to the L1 of every tenant that exists and is not DORMANT (R280). -/
def State.epochRecord (s : State) (kind source seq before after : Nat) : State :=
  let i : Item := ⟨0x06, 0, srcPage 0x05, 0, s.ht, encEpoch kind source seq (s.fld F.RCK_EPOCH_ID) s.ht before after⟩
  forEach (List.range 8) (fun t s => if s.tenExists t && !(s.dormant t) then s.epochUnsent t i else s) s

/-- The epoch index: the low 12 bits of the epoch ID (R278). -/
def State.epochIndex (s : State) : Nat := s.fld F.RCK_EPOCH_ID % 4096

/-- Opens an epoch with the offset `o` (R278, R280); its index reaching 4095 exhausts the epochs (R282), and none opens
from then on. -/
def State.openEpoch (s : State) (kind source seq : Nat) (o : Option Nat) : State :=
  if s.on F.RCK_STAT_EXHAUSTED then s
  else
    let before := ofsWord s.rck.ofs
    let n := s.epochIndex + 1
    let s1 := (s.setFld F.RCK_EPOCH_ID (s.fld F.RCK_EPOCH_ID + 1)).putOfs o
    let s2 := { s1 with rck := { s1.rck with interval := none, epochs := (n, s1.ht) :: s1.rck.epochs } }
    let s3 := (s2.epochRecord kind source seq before (ofsWord o)).raise 0x05 8
    if n = 4095 then ((s3.setFld F.RCK_STAT_EXHAUSTED 1).raise 0x05 10).setFld F.SYS_STOW_COLD_EN 0 else s3

/-- The index of the epoch in force at an HT: the latest beginning not after it (R279). -/
def epochAt : List (Nat × Nat) → Nat → Nat
  | [], _ => 0
  | (i, b) :: t, h => if b ≤ h then i else epochAt t h

/-- The epoch ID in force at an HT (R278, R279). -/
def State.epochIdAt (s : State) (h : Nat) : Nat := s.fld F.IDN_BOOTNUM_NUM * 4096 + epochAt s.rck.epochs h

/-- EPOCH_RECORD_ENQUEUE (R281): the oldest unsent record of tenant `t` enters its L1 intake when the credits allow. -/
def execEpochRecordEnqueue (t : Nat) (s : State) : Host.Outcome State Fault Refusal :=
  .next (s.when s.running fun s =>
    match s.unsentOf t with
    | [] => s
    | i :: r =>
      if s.canPut (qIntake t 1) .record (itemSlots i) i.ht then
        let n := (s.ten t).recCnt
        ((s.setUnsent t r).modTen t (fun x => { x with recCnt := (x.recCnt + 1) % 65536 })).intake t 1 .record
          { i with seq := n }
      else s.drain (qIntake t 1) .record)

end Sys2Proof.Machine
end

