-- ==== Sys2Proof/Machine/Floors.lean ====
section
/-! DEFINITION. The gear in force, the timing floors (R53-R55), the floors of the governor (R485-R487), and the conditions
under which the hub may enter Stow (R86). -/

namespace Sys2Proof.Machine

def gGS : Nat := 7

/-- The gear in force, in CLK_GEAR coding. -/
def State.gear (s : State) : Nat := s.fld F.CLK_GEAR_CUR

/-- Gear `a` is slower than gear `b` (R42). -/
def gearLt (a b : Nat) : Bool := decide (gearTicks b < gearTicks a)

/-- A gear change is in progress (R47, R62). -/
def State.changing (s : State) : Bool := s.on F.CLK_GEAR_SWITCHING || s.on F.CLK_GEAR_VRAMP

/-- The gear at which CCLK runs: during the changeover the slower of the old and the new gear (R45). -/
def State.cycleGear (s : State) : Nat :=
  if s.on F.CLK_GEAR_SWITCHING && gearLt (s.fld F.CLK_GEAR_TGT) s.gear then s.fld F.CLK_GEAR_TGT else s.gear

/-! ## Timing floors -/

/-- The highest timing floor in force (R53, R55). -/
def State.floorGear (s : State) : Nat := s.clk.floors.foldl (fun m x => max m (x.2 - 1)) 0

/-- The HSP floor holds: HCS_N is low (R55). -/
def State.hspFloor (s : State) : Bool := mapGet (fun _ => 0) s.clk.floors 8 != 0

def floorSrc (l : Map Nat) : Nat := l.foldl (fun m x => m ||| 2 ^ x.1) 0

/-- The floor of one holder, ports 0-7 and HSP 8, or none; CLK_FLOOR shows the highest and the holders. -/
def State.putFloor (s : State) (h : Nat) (g : Option Nat) : State :=
  let l := mapSet (fun _ => 0) s.clk.floors h (match g with | none => 0 | some x => x + 1)
  let s1 := { s with clk := { s.clk with floors := l } }
  (s1.setFld F.CLK_FLOOR_GEAR s1.floorGear).setFld F.CLK_FLOOR_SRC (floorSrc l)

/-- The lowest gear whose cycle is at most half of `k` ticks; G5 below 4 ticks (R53). -/
def floorOf (k : Nat) : Nat := (firstWith (fun g => decide (2 * gearTicks g ≤ k)) [0, 1, 2, 3, 4]).getD 5

/-- The interval timings that a two-wire port's floor takes, in ns (R202): every non-zero one, with the edge-rate
extension on TLOW and THIGH. -/
def State.twcTimes (s : State) (p : Nat) : List Nat :=
  let e := (s.loopOut (loopELR p) 0).toNat
  let f : List Nat := [s.fld (F.TWC_TDAT_TSUDAT p), s.fld (F.TWC_TDAT_THDDAT p), s.fld (F.TWC_TSTA_TSUSTA p),
    s.fld (F.TWC_TSTA_THDSTA p), s.fld (F.TWC_TSTO_TSUSTO p), s.fld (F.TWC_TSTO_TBUF p), s.fld (F.TWC_CFG_GLITCH p)]
  ([s.fld (F.TWC_TCLK_TLOW p) + e, s.fld (F.TWC_TCLK_THIGH p) + e] ++ f).filter (fun n => n != 0)

/-- The SCK phase of a chip select in ticks (R210). -/
def State.sckTicks (s : State) (c sel : Nat) : Nat :=
  ceilDiv ((if sel = 0 then s.fld (F.SPC_SCK_PERA c) else s.fld (F.SPC_SCK_PERB c)) * 24) 125

/-- The timing floor of a transfer on port `p` (R53, R202); the AFE's is that of its modulator (R220). -/
def State.portFloor (s : State) (p : Nat) (ws : List Word) : Nat :=
  if p < 4 then
    let l := (s.twcTimes p).map nsTicks
    floorOf (l.foldl min (l.headD 0))
  else if p < 7 then floorOf (s.sckTicks (p - 4) (dSel ws))
  else if s.afe.mclk = 0 then 2 else 0

/-- The gear that waiting work asks for: the highest floor of the transfers that wait in the dispatch queues of idle ports
(R54), and HSP_CFG.GEAR while an SPI transaction is open (R431). -/
def State.wantGear (s : State) : Nat :=
  (List.range 7).foldl (fun m p => match s.queue (qDisp p) with
    | ⟨_, _, .request r⟩ :: _ => if (s.prt p).xfer.isNone && !((s.prt p).blocked) then max m (s.portFloor p r.words) else m
    | _ => m) (if s.on F.HSP_STAT_ACTIVE then s.fld F.HSP_CFG_GEAR else 0)

/-! ## The floors of the governor (R485-R487) -/

def allUnits : List Nat := List.range 24

/-- A CRITICAL unit is enabled (R486). -/
def State.critical (s : State) : Bool := allUnits.any (fun u => s.on (F.ASY_CFG_EN u) && s.on (F.ASY_CFG_CRITICAL u))

/-- The urgent floor: G5 while its field has mismatched (19 Falling together). -/
def State.urgentGear (s : State) : Nat := if s.shadowBad.contains A.PLN_URG then 5 else s.fld F.PLN_URG_GEAR

/-- A tenant has work in the datapath (R487). -/
def State.hasWork (s : State) (t : Nat) : Bool :=
  s.liveDescs.any (fun d => match (s.desc d).pend with | none => false | some r => r.tenant == t)
    || allUnits.any (fun u => s.fld (F.ASY_CFG_OWNER u) == t && !((s.queue (qUnit u)).isEmpty))
    || (List.range 8).any (fun c => s.fld (F.RSM_CH_CFG_OWNER c) == t && !((s.queue (qRsm c)).isEmpty))
    || s.hallmark.queue.any (fun x => x.1 / 4 == t)
    || (match s.hallmark.work with | none => false | some x => x.1 / 4 == t)

/-- The highest tenant floor in force (R487). -/
def State.tenantFloor (s : State) : Option Nat :=
  (List.range 8).foldl (fun m t =>
    if s.tenExists t && !(s.dormant t) && s.hasWork t then
      some (max (m.getD 0) (s.fld (F.PLN_TFLOOR_GEAR t)))
    else m) none

/-- g before the floors: the loop's output, or the request of CLK_GREQ while the loop is frozen (R62). -/
def State.govGear (s : State) : Nat :=
  if s.loopFrz loopGEAR && s.on F.CLK_GREQ_EN then s.fld F.CLK_GREQ_GEAR else (s.loopOut loopGEAR 0).toNat

/-- g′: capped by DIPMAX during a dip (R485). -/
def State.capGear (s : State) : Nat :=
  if s.on F.SYS_DIP_ACTIVE then min s.govGear (s.fld F.PLN_GEAR_CFG_DIPMAX) else s.govGear

/-- The floors by source, in the order of FSRC: URG, TENANT, TIMING, HSP, FMP (R485). -/
def State.floorList (s : State) : List (Option Nat) :=
  let timing := s.clk.floors.filter (fun x => x.1 != 8)
  let hsp := mapGet (fun _ => 0) s.clk.floors 8
  [if s.critical then some s.urgentGear else none, s.tenantFloor,
   if timing.isEmpty then none else some (timing.foldl (fun m x => max m (x.2 - 1)) 0),
   if hsp = 0 then none else some (hsp - 1),
   if s.on F.HTW_CFG_FMP then some 1 else none]

def maxFloor (l : List (Option Nat)) : Nat := l.foldl (fun m x => max m (x.getD 0)) 0

/-- The effective gear (R485). -/
def State.effGear (s : State) : Nat := max s.capGear (maxFloor s.floorList)

/-- The bits of FSRC: each floor above g′, and DIP while the cap holds (R485). -/
def State.floorBits (s : State) : Nat :=
  let g := s.capGear
  let bits := s.floorList.map (fun x => match x with | none => 0 | some f => if g < f then 1 else 0)
  (bits.foldr (fun b n => b + 2 * n) 0) + (if g < s.govGear then 32 else 0)

/-- PLN_GEAR_STAT, PLN_URG.CRIT and FLOOR_UNMET with its interrupts (R485, R486, R488). -/
def State.floorStat (s : State) : State :=
  let unmet := s.floorList.any (fun x => match x with | none => false | some f => gearLt s.gear f)
  let met := !(s.critical) || !(gearLt s.gear s.urgentGear)
  let s1 := ((s.setFld F.PLN_GEAR_STAT_EFF s.effGear).setFld F.PLN_GEAR_STAT_FSRC s.floorBits).putOn
    F.PLN_GEAR_STAT_URG_MET met
  let s2 := (s1.putOn F.PLN_GEAR_STAT_FLOOR_UNMET unmet).putOn F.PLN_URG_CRIT s.critical
  if unmet && !(s.on F.PLN_GEAR_STAT_FLOOR_UNMET) then (s.risen [0x04] s2).raise 0x04 8 else s2

/-! ## The conditions of Stow (R86) -/

/-- CH_EN of an AFE channel. -/
def State.afeEn (s : State) (ch : Nat) : Bool := s.bit F.AFE_CFG_CH_EN ch

/-- The channel is enabled: its page and its enable are on (R220; DEDUCED, log entry 151). -/
def State.afeOn (s : State) (ch : Nat) : Bool := s.pageOn 0x17 && s.afeEn ch

/-- The channel converts: it is enabled, or the last conversion of its disabled page runs to its boundary (R233). -/
def State.converts (s : State) (ch : Nat) : Bool := s.afeOn ch || (s.ach ch).final

/-- Nothing of the datapath is in progress (R86): no transfer, no seal, no NV write, no AFE conversion. -/
def State.datapathIdle (s : State) : Bool :=
  (List.range 7).all (fun p => (s.prt p).xfer.isNone) && !(s.converts 0) && !(s.converts 1) && s.hallmark.work.isNone
    && !s.stw.nvActive && !s.keyWriting

/-- A TIME descriptor is enabled. -/
def State.timeEnabled (s : State) : Bool := s.liveDescs.any (fun d => dEn (s.desc d).words && dTrig (s.desc d).words == 0)

/-- An ANGLE descriptor is armed. -/
def State.angleArmed (s : State) : Bool :=
  s.liveDescs.any (fun d => dEn (s.desc d).words && dTrig (s.desc d).words == 1 && (s.desc d).armed)

/-- GUARD in HT units; codes below 50 read as 50 (R93). -/
def State.guardHt (s : State) : Nat := htUs (max 50 (s.fld F.SYS_STOW_GUARD))

/-- Every TIME target lies more than GUARD ahead. -/
def State.timeAhead (s : State) : Bool :=
  s.liveDescs.all (fun d => let x := s.desc d
    !(dEn x.words && dTrig x.words == 0 && x.armed) || decide (s.ht + s.guardHt < x.next + htUs x.ofs))

/-- AGE ms of a lane will have passed since its first item was appended in `d` HT units (R367). -/
def State.ageDue (s : State) (k d : Nat) : Bool :=
  decide (s.fld (F.BND_LCFG_AGE k) * 2 ^ 32 ≤ (s.ht + d - (s.lane k).first) * 1000)

/-- Every age deadline of an open bundle lies more than GUARD ahead (R86, R367). -/
def State.ageAhead (s : State) : Bool :=
  (List.range 32).all (fun k => k % 4 == 0 || (s.lane k).items.isEmpty || (s.lane k).closeReq
    || !(s.on (F.BND_LCFG_AGE k)) || !(s.ageDue k s.guardHt))

/-- A beacon pair awaits its master-time write (R273). -/
def State.awaiting (s : State) : Nat := (s.rck.sync.filter (fun e => !e.paired && !e.ended)).length

/-- A host has the hub's attention (R86): a transaction is open on a host port, an address was acknowledged whose
transaction has not ended, or HCS_N is low. -/
def State.hostBusy (s : State) : Bool :=
  (s.txOf 0).isSome || (s.txOf 1).isSome || s.fld F.HTW_STAT_STATE == 4 || s.sys.csLow || s.hspFloor

/-- The conditions of R86 for Stow, with those of R350 and R486. A transfer that waits for its gear (R54) is in progress. -/
def State.mayStow (s : State) : Bool :=
  s.on F.SYS_STOW_EN && !(s.hostBusy) && s.datapathIdle && s.wantGear == 0
    && !(s.pageOn 0x07) && !(s.angleArmed)
    && (List.range 3).all (fun n => s.fld (F.PWR_VSENS_STATE n) == 0 || s.fld (F.PWR_VSENS_STATE n) == 3)
    && s.timeAhead && s.ageAhead && !(s.hwake) && !(s.dipHold) && s.sys.wakes == 0 && !(s.on F.CLK_SYN_HOLDOVER)
    && !(s.critical && decide (0 < s.urgentGear)) && s.sys.flares == 0

end Sys2Proof.Machine
end

