-- ==== Sys2Proof/Machine/Clock.lean ====
section
/-! DEFINITION. Gears and the clock monitor: voltage codes (R480, R482), gear changes (R44-R48), the effective gear's request
(R85, R485), and the loss and return of the reference (R57-R60, R264). -/

namespace Sys2Proof.Machine

/-! ## Voltage codes -/

/-- The place of a gear in the tables of the Planisher: G0-G5, then GS. -/
def codeKey (g : Nat) : Nat := if g = gGS then 6 else g

def State.tmin (s : State) (g : Nat) : Nat := s.nv.trim.tmin.getD (codeKey g) 0

/-- The learned code C[g]; factory trim loads TMIN (R480). -/
def State.learned (s : State) (g : Nat) : Nat := mapGet (fun k => s.nv.trim.tmin.getD k 0) s.pln.codes (codeKey g)

def State.setLearned (s : State) (g c : Nat) : State :=
  { s with pln := { s.pln with codes := mapSet (fun k => s.nv.trim.tmin.getD k 0) s.pln.codes (codeKey g) c } }

/-- The code that the core buck regulates to for a gear (R480); the home value TMIN while the loop is off (R149). -/
def State.codeFor (s : State) (g : Nat) : Nat :=
  if s.loopEn loopAVS then max (s.learned g) (s.tmin g) else s.tmin g

/-- VSET and the loop's OUT take the code of a gear; a frozen loop holds its output, to which VSET returns (R482). -/
def State.applyCode (s : State) (g : Nat) : State :=
  if s.loopFrz loopAVS then s.setFld F.PWR_CORE_VSET (s.loop loopAVS).out.toNat
  else
    let c := s.codeFor g
    (s.setLoop loopAVS { s.loop loopAVS with out := (c : Int) }).setFld F.PWR_CORE_VSET c

/-! ## Gear changes -/

/-- A held request, shown by HELD and TGT (R47, R53). -/
def State.holdGear (s : State) (h : Nat) : State :=
  let s1 := { s with clk := { s.clk with held := some h } }.setFld F.CLK_GEAR_HELD 1
  if s.changing then s1 else s1.setFld F.CLK_GEAR_TGT h

/-- No request is held. -/
def State.dropHeld (s : State) : State :=
  let s1 := { s with clk := { s.clk with held := none } }.setFld F.CLK_GEAR_HELD 0
  if s.changing then s1 else s1.setFld F.CLK_GEAR_TGT s.gear

/-- The changeover to a gear begins: its cycles run at the slower of the two gears (R45), which CLK_PERIOD shows. -/
def State.switchTo (s : State) (h : Nat) : State :=
  let s1 := (s.setFld F.CLK_GEAR_TGT h).setFld F.CLK_GEAR_SWITCHING 1
  s1.setFld F.CLK_PERIOD_TICKS (gearTicks s1.cycleGear)

/-- An upshift that holdover or a frozen core voltage refuses (R58, R482, R488). -/
def State.upRefused (s : State) (holdover : Bool) : State :=
  let s1 := s.satHigh loopGEAR
  if holdover then s1.setFld F.CLK_EVT_UPSHIFT_REFUSED 1 else s1

/-- A gear is requested of the clock system (R44-R48, R58). -/
def State.gearRequest (s : State) (h : Nat) : State :=
  if s.changing then (if s.fld F.CLK_GEAR_TGT = h then s.dropHeld else s.holdGear h)
  else if h = s.gear then s.dropHeld
  else if gearLt s.gear h then
    if s.on F.CLK_SYN_HOLDOVER then s.upRefused true
    else if s.loopFrz loopAVS then
      (if (s.loop loopAVS).out < (s.codeFor h : Int) then s.upRefused false else s.dropHeld.switchTo h)
    else if s.fld F.PWR_CORE_VSET < s.codeFor h then
      let s1 := ((s.dropHeld.setFld F.CLK_GEAR_TGT h).setFld F.CLK_GEAR_VRAMP 1).setFld F.PLN_AVS_STAT_RAMP 1
      { s1 with clk := { s1.clk with ramp := some h } }
    else s.dropHeld.switchTo h
  else if s.hspFloor then s.holdGear h
  else s.dropHeld.switchTo h

/-- The governor's request (R485): the effective gear, or the higher one that a dispatched transfer asks for (R54); G0 while
the conditions of Stow hold (R85); a gear below the timing floors stays held behind it (R53). -/
def State.regear (s : State) : State :=
  if s.sys.phase = .running ∧ s.gear ≠ gGS then
    let s1 := s.floorStat
    let s2 := s1.gearRequest (if s1.mayStow then 0 else max s1.effGear s1.wantGear)
    let base := max s1.capGear (maxFloor ((s1.floorList.take 2) ++ (s1.floorList.drop 4)))
    if base < s2.floorGear ∧ !(s2.changing) then s2.holdGear base else s2
  else s.floorStat

/-- A holder's floor changes, and the governor answers (R53, R55). -/
def State.setFloor (s : State) (h : Nat) (g : Option Nat) : State := (s.putFloor h g).regear

/-- WATCH or RUN by the gear in force (R84, R85). -/
def State.runState (s : State) : State :=
  let p : PState := if s.gear = 0 then .watch else .run
  { s with sys := { s.sys with pstate := p } }.setFld F.SYS_PSTATE_STATE (if s.gear = 0 then 1 else 2)

/-- A gear change completes (R45, R46). -/
def State.switched (s : State) : State :=
  let h := s.fld F.CLK_GEAR_TGT
  let s1 := (((s.setFld F.CLK_GEAR_CUR h).setFld F.CLK_GEAR_SWITCHING 0).setFld F.CLK_PERIOD_TICKS (gearTicks h)).addSat
    F.CLK_GSW_COUNT 1
  let s2 := { s1 with pln := { s1.pln with gearMoved := true } }.applyCode h
  s2.raise 0x02 10

/-- VCORE_RAMP_DONE (R46): VCORE has reached the level for the new gear, and the switch begins. DESIGN CHOICE (log entry
133): an upshift that was already ramping when holdover began completes; R58 refuses the requests made during it. -/
def execVcoreRampDone (s : State) : Host.Outcome State Fault Refusal :=
  .next (s.when (s.cclk && s.on F.CLK_GEAR_VRAMP) fun s =>
    match s.clk.ramp with
    | none => s
    | some h =>
      let s1 := (s.setFld F.CLK_GEAR_VRAMP 0).setFld F.PLN_AVS_STAT_RAMP 0
      ({ s1 with clk := { s1.clk with ramp := none } }.applyCode h).switchTo h)

/-! ## Stow, wake -/

/-- The synthesizer stops (R41, R44). -/
def State.synthOff (s : State) : State := (s.setFld F.CLK_SYN_ON 0).setFld F.CLK_SYN_LOCK 0

/-- GEAR_SWITCH_DONE (R44-R47). At GS the synthesizer stops; from GS the wake goes on; otherwise the held request is
carried out. -/
def execGearSwitchDone (s : State) : Host.Outcome State Fault Refusal :=
  .next (s.when (s.cclk && s.on F.CLK_GEAR_SWITCHING) fun s =>
    let s1 := s.switched
    if s1.gear = gGS then s1.synthOff
    else if s1.sys.phase = .running then
      let s2 := s1.runState
      match s2.clk.held with
      | none => s2.dropHeld.regear
      | some h => (s2.dropHeld.gearRequest h).regear
    else s1)

/-- SYNTH_LOCK (R44): on a wake the started synthesizer has locked and the move to G0 begins. -/
def execSynthLock (s : State) : Host.Outcome State Fault Refusal :=
  .next (s.when (s.cclk && decide (s.sys.phase = .stow) && s.sys.wakes != 0 && s.gear == gGS && !(s.changing)) fun s =>
    ((s.setFld F.CLK_SYN_ON 1).setFld F.CLK_SYN_LOCK 1).switchTo 0)

/-! ## Clock monitor -/

/-- The flags of holdover (R58, R60); RCK_STAT shows it too. -/
def State.holdFlags (s : State) : State := (s.setFld F.CLK_SYN_HOLDOVER 1).setFld F.RCK_STAT_HOLDOVER 1

/-- Holdover has begun since `s0`: the pages' faults rise, and CLOCK occurs (R58). -/
def State.holdFrom (s0 s : State) : State := occur tcCLOCK 15 0 0 0 (s0.risen [0x02, 0x05] s)

/-- R58: holdover begins. -/
def State.holdover (s : State) : State := s.holdFrom s.holdFlags

/-- Lock is lost or given up: counted once while it was there. -/
def State.unlock (s : State) : State :=
  if s.on F.CLK_SYN_LOCK then (s.setFld F.CLK_SYN_LOCK 0).addSat F.CLK_SYN_LOSS_CNT 1 else s

/-- R60, steps 1 and 2: the synthesizer starts free-running, and the change to G0 is made on its own edges; the cause is
CLOCK. A move to GS that was still in progress is over (log entry 134). -/
def State.freeRun (s : State) : State :=
  let s1 := ((s.unlock.setFld F.CLK_SYN_ON 1).setFld F.CLK_SYN_FREERUN 1).setFld F.CLK_EVT_FREERUN_SEEN 1
  let s2 := (if s1.on F.CLK_GEAR_SWITCHING && s1.gear == 0 then s1.switched else s1).setFld F.CLK_GEAR_TGT 0
  s2.switched.modSys (fun y => { y with wakes := y.wakes ||| 2 ^ 15 })

/-- LOCK_LOST (R57, R58): only while the synthesizer is on. -/
def execLockLost (s : State) : Host.Outcome State Fault Refusal :=
  .next (s.when (s.cclk && s.on F.CLK_SYN_ON) fun s =>
    ((s.unlock.setFld F.CLK_EVT_LOCK_LOST 1).raise 0x02 9).holdover)

/-- LOCK_REGAINED (R59, R264): 64 good edges end holdover; the fall of FREERUN opens a CLOCK epoch (R278). -/
def execLockRegained (s : State) : Host.Outcome State Fault Refusal :=
  .next (s.when (s.cclk && s.on F.CLK_SYN_ON && s.on F.CLK_SYN_HOLDOVER) fun s =>
    let free := s.on F.CLK_SYN_FREERUN
    let s1 := ((s.setFld F.CLK_SYN_HOLDOVER 0).setFld F.CLK_SYN_LOCK 1).setFld F.RCK_STAT_HOLDOVER 0
    let s2 := ((s1.setFld F.CLK_SYN_FREERUN 0).setFld F.CLK_MON_AMP_OK 1).condEnd tcCLOCK
    let s3 := if free then s2.openEpoch epCLOCK 0 0 none else s2
    s3.regear)

end Sys2Proof.Machine
end

