-- ==== Sys2Proof/Machine/Ports.lean ====
section
/-! DEFINITION. The two-wire and SPI sensor ports (R193-R218): transfers, capture entries, failures, fences, stretching,
arbitration, bus recovery and the edge-rate loop. -/

namespace Sys2Proof.Machine

/-! ## Registers by port -/

def State.xfer (s : State) (p : Nat) : Option Xfer := (s.prt p).xfer
def State.setXfer (s : State) (p : Nat) (x : Option Xfer) : State := s.modPrt p (fun y => { y with xfer := x })

def faultFld (p : Nat) : Fld := if p < 4 then F.TWC_FAULT_BITS p else F.SPC_FAULT_BITS (p - 4)

/-- Sets a bit of a port's FAULT register; PIRQ bit 8 when it rose (R217). -/
def State.portFault (s : State) (p b : Nat) : State :=
  if s.bit (faultFld p) b then s else (s.setBit (faultFld p) b).raise (portPage p) 8

/-- STAT.STATE of a port. -/
def State.portState (s : State) (p v : Nat) : State :=
  if p < 4 then s.setFld (F.TWC_STAT_STATE p) v else s.setFld (F.SPC_STAT_STATE (p - 4)) (if v = 0 then 0 else 1)

/-- STAT.TGT or STAT.CS: the target of the current or last transfer. -/
def State.portTarget (s : State) (p : Nat) (ws : List Word) : State :=
  if p < 4 then s.setFld (F.TWC_STAT_TGT p) (dAddr ws) else s.setFld (F.SPC_STAT_CS (p - 4)) (dSel ws)

/-- One more transfer counted in CNT.XFER. -/
def State.portCount (s : State) (p : Nat) : State :=
  if p < 4 then s.addSat (F.TWC_CNT_XFER p) 1 else s.addSat (F.SPC_CNT_XFER (p - 4)) 1

/-- The configuration latched at the first cycle of a transfer (R193): CFG, TDAT, TLIM, ELR_CFG, TCLK, TSTA and TSTO of a
TWC with its edge-rate extension E (R208), CFG, SCK, CSA and CSB of an SPC. -/
def State.latchPort (s : State) (p : Nat) : List Word :=
  if p < 4 then [s.reg (A.TWC_CFG p), s.reg (A.TWC_TDAT p), s.reg (A.TWC_TLIM p), s.reg (A.TWC_ELR_CFG p),
    s.reg (A.TWC_TCLK p), s.reg (A.TWC_TSTA p), s.reg (A.TWC_TSTO p),
    BitVec.ofNat 32 (s.loopOut (loopELR p) 0).toNat]
  else [s.reg (A.SPC_CFG (p - 4)), s.reg (A.SPC_SCK (p - 4)), s.reg (A.SPC_CSA (p - 4)), s.reg (A.SPC_CSB (p - 4))]

/-! ## Fences (R213-R215) -/

def fenceOf (l : Map Fence) (k : Nat) : Fence := mapGet (fun _ => fence0) l k
def putFence (l : Map Fence) (k : Nat) (f : Fence) : Map Fence := mapSet (fun _ => fence0) l k f

def fenceHits (f : Fence) (target : Nat) : Bool := f.valid && (f.all || f.target == target)

/-- The entry that fences tenant `t` from a target, if any. -/
def State.fencedBy (s : State) (p t target : Nat) : Option Nat :=
  let l := (s.prt p).fences
  if fenceHits (fenceOf l (2 * t)) target then some (2 * t)
  else if fenceHits (fenceOf l (2 * t + 1)) target then some (2 * t + 1)
  else none

/-- A fence on the pair of tenant and target, and whether it became ALL (R213). -/
def fenceSet (l : Map Fence) (t target : Nat) : Map Fence × Bool :=
  let a := fenceOf l (2 * t)
  let b := fenceOf l (2 * t + 1)
  if fenceHits a target || fenceHits b target then (l, false)
  else if !a.valid then (putFence l (2 * t) ⟨true, false, target, 0⟩, false)
  else if !b.valid then (putFence l (2 * t + 1) ⟨true, false, target, 0⟩, false)
  else (putFence (putFence l (2 * t) ⟨true, true, 0, 0⟩) (2 * t + 1) fence0, true)

/-- The fences after a write to FCLR (R215): ALL clears both entries of the tenant; otherwise the entry of the target,
but for one marked ALL. -/
def fenceClr (l : Map Fence) (t target : Nat) (all : Bool) : Map Fence :=
  if all then putFence (putFence l (2 * t) fence0) (2 * t + 1) fence0
  else forEach [2 * t, 2 * t + 1] (fun k l =>
    let f := fenceOf l k
    if f.valid && !f.all && f.target == target then putFence l k fence0 else l) l

/-! ## The end of a transfer -/

/-- The port has no transfer any more: floor and state (R53). An SPI port is ready, and the transfer is charged; a two-wire
port is ready when its bus is free (R248). -/
def State.portIdle (s : State) (p : Nat) (x : Xfer) : State :=
  let s1 := s.setXfer p none
  let s2 := if p < 4 then s1.modPrt p (fun y => { y with owed := some (x.req.tenant, x.taken) })
    else s1.chargeShare p x.req.tenant x.taken
  ((s2.portState p 0).portCount p).setFloor p none

/-- The bus of a two-wire port is free again after its transfer, which is charged up to now, TBUF included (R248). -/
def State.portPaid (s : State) (p : Nat) : State :=
  match (s.prt p).owed with
  | none => s
  | some (t, taken) => (s.modPrt p (fun y => { y with owed := none })).chargeShare p t taken

/-- The tenants to which a descriptor's stream is owned or granted, as a set (R250). -/
def State.grantNow (s : State) (d : Nat) : Nat :=
  bits1 ((List.range 8).map (fun t => (t, dUsable (s.desc d).words t)))

/-- The capture entry of a read (R195). -/
def State.captureRead (s : State) (p : Nat) (x : Xfer) (data : List Byte) (failed : Bool) : State :=
  s.enqueue (qCap p) .port (ceilDiv (16 + data.length) 32)
    (.capture ⟨x.req.idx, x.fenced, failed, x.hold, x.start, x.req.seq, data, x.req.join, s.grantNow x.req.idx, 0⟩)
    (srcDesc x.req.idx) x.start

/-- FAULT bit of a cause of R211. -/
def faultBit (code : Nat) : Nat := if code < 6 then code - 1 else 5

/-- A transfer fails with a cause of R211 after `done` bytes. A posted write is fenced (R213); anything else completes
without success (R212); a FAULT record goes to the owner of the descriptor. A failed read leaves a FAILED entry with the
bytes received, unless a reset ended it (R98, R195). -/
def State.transferFail (s : State) (p code done : Nat) (data : List Byte) : State :=
  match s.xfer p with
  | none => s
  | some x =>
    let ws := x.req.words
    let posted := dKind ws == 2
    let target := if p < 4 then dAddr ws else dSel ws
    let fz := fenceSet (s.prt p).fences x.req.tenant target
    let s1 := s.portFault p (faultBit code)
    let s2 := if posted then (s1.modPrt p (fun y => { y with fences := fz.1 })).raise (portPage p) 9 else s1
    let s3 := if posted && fz.2 then s2.portFault p 7 else s2
    let flags := (if posted then 3 else 0) + (if posted && fz.2 then 4 else 0)
    let s4 := s3.record x.req.tenant 1 0x07 (portPage p) s.ht
      (encFault 1 code p flags x.req.seq s.ht (if p < 4 then target else target * 256) x.req.idx done)
    let s5 := if dKind ws = 0 ∧ code ≠ 8 then s4.captureRead p x (data.take (dLen ws)) true else s4
    let s6 := if posted then s5 else s5.complete x.req.idx false
    (s6.portIdle p x).modPrt p (fun y => { y with busFree := false })

/-- A transfer in progress on a port that is not waiting to be repeated. -/
def State.driving (s : State) (p : Nat) : Bool :=
  match s.xfer p with
  | none => false
  | some x => !x.waitFree

/-! ## TRANSFER_START -/

/-- The port can take a request now: running, enabled, unblocked, its rail and bank good, idle, its bus free
(R27, R76, R204, R205). -/
def State.canTake (s : State) (p : Nat) : Bool :=
  s.running && s.pageOn (portPage p) && !((s.prt p).blocked) && !(s.railOff p) && !(s.bankOff p) && (s.xfer p).isNone
    && (decide (4 ≤ p) || (s.prt p).busFree)

/-- The first cycle of a transfer: configuration latched, START or chip select driven (R193). -/
def State.drive (s : State) (p : Nat) (r : Request) (fenced : Bool) : State :=
  let x : Xfer := ⟨r, s.ht, s.ht, fenced, 0, false, s.on F.CLK_SYN_HOLDOVER, s.latchPort p⟩
  (((s.setXfer p (some x)).portState p 1).portTarget p r.words).setFloor p (some (s.portFloor p r.words))

/-- A request at the head of its dispatch queue is taken (R194, R212, R214). -/
def State.takeRequest (s : State) (p : Nat) (r : Request) : State :=
  let ws := r.words
  let target := if p < 4 then dAddr ws else dSel ws
  if dKind ws = 0 then
    if s.canPut (qCap p) .port (ceilDiv (16 + dLen ws) 32) s.ht then
      s.drive p r (s.fencedBy p r.tenant target).isSome
    else (s.drain (qCap p) .port).skip (qCap p) .port (srcDesc r.idx) gcCREDIT none s.ht
  else
    let posted := dKind ws == 2
    let s1 := if posted then s.complete r.idx true else s
    match s1.fencedBy p r.tenant target with
    | some k => s1.modPrt p (fun y =>
        let f := fenceOf y.fences k
        { y with fences := putFence y.fences k { f with drops := min (f.drops + 1) 65535 } })
    | none => s1.drive p r false

/-- TRANSFER_START (R193), ports 0-6: a floor above the gear in force asks for the upshift first (R54). -/
def execTransferStart (p : Nat) (s : State) : Host.Outcome State Fault Refusal :=
  .next (s.when (decide (p < 7) && s.canTake p) fun s =>
    match s.popQueue (qDisp p) with
    | none => s
    | some (e, s1) => match e.body with
      | .request r =>
        if gearLt s.cycleGear (s.portFloor p r.words) then s.regear
        else s1.takeRequest p r
      | .gaps l => forEach l (fun g s => s.forwardGap (qCap p) .port g) s1
      | _ => s1)

/-! ## TRANSFER_END -/

/-- The rise-time limit of R200 in ns, by mode. -/
def riseLimit (mode : Nat) : Nat := if mode = 0 then 1000 else if mode = 1 then 300 else 120

/-- RISE and SLOW (R207), and, where the transfer was completed, the edge-rate loop's update with the setup margin `m`
(R208). -/
def State.edgeRate (s : State) (p : Nat) (x : Xfer) (rise m : Nat) (good : Bool) : State :=
  let cfg := x.cfg.getD 0 0
  let elr := x.cfg.getD 3 0
  let s1 := s.setFld (F.TWC_STAT_RISE p) (min rise 1023)
  let s2 := if riseLimit (getBits cfg 0 2) < rise then s1.portFault p 6 else s1
  let g := loopELR p
  if good && s2.loopLive g then
    let need := getBits (x.cfg.getD 1 0) 0 16 + getBits elr 0 10
    let e := (s2.loop g).out
    let step : Int := s2.loopStep g
    s2.loopUpdate g (if m < need then e + step else if need + getBits elr 16 10 < m then e - step else e)
  else s2

/-- A port's data as the bus gave it, `n` bytes. -/
def dataOf (n : Nat) (l : List Byte) : List Byte := l.take n ++ List.replicate (n - l.length) 0

/-- A transfer fails for a cause whose command gives no rise time; RISE and SLOW are written from the largest rise time
that the port had measured, a free value (R207). -/
def State.transferBreak (s : State) (p code done : Nat) (data : List Byte) : State :=
  match s.xfer p with
  | none => s
  | some x => (if p < 4 then s.edgeRate p x (Config.riseTime p s.ht) 0 false else s).transferFail p code done data

/-- TRANSFER_END (R195, R211): `fail` is 0, or the code of a NACK on a two-wire port. -/
def execTransferEnd (p : Nat) (data : List Byte) (fail done rise mmin : Nat) (s : State) :
    Host.Outcome State Fault Refusal :=
  .next (s.when (decide (p < 7) && s.driving p && (fail == 0 || (decide (p < 4) && decide (fail ≤ 2)))) fun s =>
    match s.xfer p with
    | none => s
    | some x =>
      let s0 := if p < 4 then s.edgeRate p x rise mmin (fail == 0) else s
      if fail ≠ 0 then s0.transferFail p fail done data
      else
        let n := dLen x.req.words
        let s1 := if dKind x.req.words = 0 then s0.captureRead p x (dataOf n data) false else s0
        let s2 := if dKind x.req.words = 2 then s1 else s1.complete x.req.idx true
        (s2.portIdle p x).modPrt p (fun y => { y with busFree := false }))

/-- ARB_LOST (R206) after the bytes that `lost` holds: the loss is counted; the transfer waits for a free bus and is repeated, or
fails after ARB_RETRY lost repeats. -/
def execArbLost (lost : PortBytes) (s : State) : Host.Outcome State Fault Refusal :=
  let p := lost.port
  .next (s.when (decide (p < 4) && s.driving p) fun s =>
    match s.xfer p with
    | none => s
    | some x =>
      let s1 := s.addSat (F.TWC_CNT_ARB p) 1
      if getBits (x.cfg.getD 0 0) 4 4 ≤ x.losses then s1.transferBreak p 4 lost.data.length lost.data
      else ((s1.setXfer p (some { x with losses := x.losses + 1, waitFree := true })).portState p 2).modPrt p
        (fun y => { y with busFree := false }))

/-- STRETCH_TIMEOUT (R203). -/
def execStretchTimeout (p : Nat) (data : List Byte) (s : State) : Host.Outcome State Fault Refusal :=
  .next (s.when (decide (p < 4) && s.driving p) fun s => s.transferBreak p 3 data.length data)

/-- The port works its bus: it is enabled, or a transfer that its disabling found is still to complete (R132); and its bank
is good, without which its balls are high-impedance (R27). -/
def State.portLive (s : State) (p : Nat) : Bool :=
  s.running && !(s.bankOff p) && (s.pageOn (portPage p) || (s.xfer p).isSome)

/-- BUS_STUCK (R205): BLOCKED; the transfer in progress fails; pending requests of the port are withdrawn (R247). -/
def execBusStuck (p : Nat) (data : List Byte) (s : State) : Host.Outcome State Fault Refusal :=
  .next (s.when (decide (p < 4) && s.portLive p && !((s.prt p).blocked)) fun s =>
    let s1 := s.modPrt p (fun y => { y with blocked := true, busFree := false })
    let s2 := if (s1.xfer p).isSome then s1.transferBreak p 5 data.length data else s1.portFault p 4
    ((s2.portState p 4).raise (portPage p) 10).checkPorts [p])

/-- BUS_FREE (R204): the bus is free; a waiting repeat starts; BLOCKED ends when SCL has been seen high. -/
def execBusFree (p : Nat) (s : State) : Host.Outcome State Fault Refusal :=
  .next (s.when (decide (p < 4) && s.portLive p && !(s.driving p)) fun s =>
    let s1 := (s.modPrt p (fun y => { y with blocked := false, busFree := true })).portPaid p
    match s1.xfer p with
    | none => s1.portState p 0
    | some x => (s1.setXfer p (some { x with waitFree := false, start := s1.ht, hold := s1.on F.CLK_SYN_HOLDOVER })).portState p 1)

/-- BUS_RECOVERY (R204): SDA held low with SCL high and no transfer in progress; counted, and the STOP follows. -/
def execBusRecovery (p : Nat) (s : State) : Host.Outcome State Fault Refusal :=
  .next (s.when (decide (p < 4) && s.portLive p && !(s.driving p)) fun s =>
    let s1 := (s.addSat (F.TWC_CNT_RECOV p) 1).modPrt p (fun y => { y with blocked := false, busFree := false })
    s1.portState p 3)

/-- The transfer in progress on a port ends at its next byte boundary with a cause of R211, after the bytes that it has
completed by then (R98, R211). -/
def State.cutPort (s : State) (p code : Nat) : State :=
  match s.xfer p with
  | none => s
  | some x =>
    let n := if x.waitFree then 0 else min (Config.cutBytes p x.start s.ht) (dLen x.req.words)
    s.transferBreak p code n ((List.range n).map (Config.cutByte p x.start))

/-- Ends whatever transfers are in progress on the ports named, with a cause of R211. -/
def State.cutPorts (s : State) (ps : List Nat) (code : Nat) : State :=
  forEach ps (fun p s => s.cutPort p code) s

end Sys2Proof.Machine
end

