-- ==== Sys2Proof/Machine/Afe.lean ====
section
/-! DEFINITION. The analog front end (R219-R234): conversions, the result buffers, draining, excitation, the Touchstone
check and the background calibration. -/

namespace Sys2Proof.Machine

/-- A quotient: exact where it is whole; where the spec gives no rounding, a free choice of the two whole numbers beside it
(log entry 11). -/
def quot (n d : Int) : Int :=
  if d = 0 then Config.inexact n d
  else if n % d = 0 then n / d
  else n / d + (if 0 < d then 1 else -1) * (Config.inexact n d % 2)

/-- The integer square root, bit by bit from bit 79. -/
def isqrtFrom (n : Nat) : Nat → Nat → Nat
  | 0, r => r
  | k + 1, r => isqrtFrom n k (if (r + 2 ^ k) * (r + 2 ^ k) ≤ n then r + 2 ^ k else r)

def isqrt (n : Nat) : Nat := isqrtFrom n 80 0

/-- The square root of a fraction: exact where it is whole, else a free choice of the two whole numbers beside it
(log entry 81). -/
def rootFree (n d : Nat) : Nat :=
  let r := isqrt (n / d)
  if r ^ 2 * d = n then r else r + (if Config.rootUp n d then 1 else 0)

/-- A quotient rounded to the nearest whole number, halves away from zero upward. -/
def nearest (n d : Nat) : Nat := (2 * n + d) / (2 * d)

/-- The conversion rate of an ODR code in Sa/s (R221). -/
def odrRate (o : Nat) : Nat :=
  [10, 20, 50, 60, 100, 200, 400, 500, 1000, 2000, 4000, 8000, 16000, 32000, 64000].getD o 10

/-- The modulator rate in Hz, by the MCLK in force (R220). -/
def State.modRate (s : State) : Nat := if s.afe.mclk = 0 then 3840000 else 960000

/-- OSR by the ODR in force (R221). -/
def State.osr (s : State) (ch : Nat) : Nat := s.modRate / odrRate (s.ach ch).odr

/-- The group delay in HT units: 3·(OSR − 1)/2 modulator periods (R226). -/
def State.groupDelay (s : State) (ch : Nat) : Nat := nearest (3 * (s.osr ch - 1) * 2 ^ 32) (2 * s.modRate)

/-- A conversion period in HT units (R226). -/
def State.convPeriod (s : State) (ch : Nat) : Nat := nearest (2 ^ 32) (odrRate (s.ach ch).odr)

def State.modAfe (s : State) (f : Afe → Afe) : State := { s with afe := f s.afe }

/-- AFE_STAT from the state of both channels (R233), and AFE_GDLY. -/
def State.afeShow (s : State) : State :=
  let st : Nat → Nat := fun ch =>
    let c := s.ach ch
    if !(s.converts ch) then 0 else if c.touch ≠ 0 then 4 else if c.cal ≠ 0 then 3
    else if s.afe.settling || c.discard != 0 then 1 else 2
  let s1 := (s.setFld F.AFE_STAT_STATE0 (st 0)).setFld F.AFE_STAT_STATE1 (st 1)
  let s2 := (s1.setFld F.AFE_STAT_FILL0 (s.ach 0).buf.length).setFld F.AFE_STAT_FILL1 (s.ach 1).buf.length
  let s3 := s2.setFld F.AFE_STAT_EXC_I (if s.afe.excOn then Config.excCurrent s.ht else 0)
  forEach [0, 1] (fun ch s => if s.converts ch then s.setFld (F.AFE_GDLY_D ch) (s.groupDelay ch) else s) s3

/-- The filter of a channel restarts (R221): two conversions are discarded, and a CHOP pair under way is abandoned. The
ODR written last is in force from here on; in CHOP every channel runs at that of AFE_CH0 (R222, R228). -/
def State.filterRestart (s : State) (ch : Nat) : State :=
  let o := s.fld (F.AFE_CH_ODR (if s.afe.mode = 2 then 0 else ch))
  s.modAch ch (fun c => { c with
    discard := 2, first := true, plus := none, phaseConv := 0, restartWait := false, odr := o, final := false })

/-- The AFE's floor: a transfer is in progress while a channel is enabled (R220). -/
def State.afeFloor (s : State) : State :=
  s.setFloor 7 (if s.converts 0 || s.converts 1 then some (s.portFloor 7 []) else none)

/-- The excitation goes on, with the SET pause before the filters restart (R227). -/
def State.excSwitchOn (s : State) : State := s.modAfe (fun a => { a with excOn := true, settling := true, negPhase := false })

/-- EXC_MODE takes effect (R222, R227). -/
def State.excApply (s : State) : State :=
  let m := s.fld F.AFE_CFG_EXC_MODE
  let s1 := s.modAfe (fun a => { a with modeWait := false, mode := m })
  if m = 0 then s1.modAfe (fun a => { a with excOn := false, settling := false, negPhase := false })
  else if s.afe.excBlocked then s1
  else s1.excSwitchOn

/-- Changes of MCLK and EXC_MODE at a conversion boundary: both channels restart (R222). -/
def State.afeBoundary (s : State) : State :=
  let s1 := if s.afe.modeWait then s.excApply else s
  let s2 := s1.modAfe (fun a => { a with mclkWait := false, mclk := s.fld F.AFE_CFG_MCLK })
  ((s2.filterRestart 0).filterRestart 1).afeFloor

/-- An AFE fault bit; PIRQ bit 8 when it rose (R233). -/
def State.afeFault (s : State) (f : Fld) (k : Nat) : State := if s.bit f k then s else (s.setBit f k).raise 0x17 8

/-- A FAULT record of the AFE to the L1 of the page owner (R229, R230). -/
def State.afeRecord (s : State) (cause ch : Nat) : State :=
  s.record (s.pageTenant 0x17) 1 0x07 0x17 s.ht (encFault 1 cause 7 0 0 s.ht ch 0 0)

/-- The excitation current is below IMIN: it was found so, the excitation is on, and it still is (R229). -/
def State.excStarved (s : State) : Bool :=
  s.afe.excLow && s.afe.excOn && decide (Config.excCurrent s.ht < s.fld F.AFE_EXC_IMIN)

/-- The flags byte of a result: EXCF until the fault bit is cleared and the condition is gone (R223, R229). An overcurrent
is gone with the excitation that it switches off. -/
def State.resultFlags (s : State) (f : Nat) : Nat :=
  f + (if s.on F.AFE_FAULT_EXC_OC || s.on F.AFE_FAULT_EXC_OPEN || s.excStarved then 32 else 0)

/-- The sample HT of a conversion that completes now (R226). -/
def State.sampleHt (s : State) (ch : Nat) : Nat := s.ht - s.groupDelay ch

/-- A result completes into the buffer (R224); a full buffer loses its oldest, counted as AFE_OVERRUN. The conversion
is presented to the Rose. -/
def State.bufferResult (s : State) (ch : Nat) (code : Int) (flags ht : Nat) : State :=
  let r : AfeResult := ⟨code, s.resultFlags flags, ht⟩
  let c := s.ach ch
  let s1 := if 16 ≤ c.buf.length then
      let s2 := (s.skip (qCap 7) .port (srcPage 0x17) gcSEQ (some 5) ((c.buf.headD r).ht)).drain (qCap 7) .port
      (s2.afeFault F.AFE_FAULT_OVERRUN ch).addSat F.AFE_CNT_LOST 1
    else s
  (s1.modAch ch (fun c => { c with buf := (if 16 ≤ c.buf.length then c.buf.drop 1 else c.buf) ++ [r] })).presentAt (53 + ch)

def ovrHi : Int := 2 ^ 23 - 1
def ovrLo : Int := -(2 ^ 23 : Int)

/-- The corrected code: (raw − OFS) × (1 + GCOR), GCOR in 2^-24 (R219, R231). -/
def State.corrected (s : State) (ch : Nat) (raw : Int) : Int :=
  let ofs := s.loopOut (loopCAL ch) 0
  let g := signed 24 (s.fld (F.AFE_GCOR_GCOR ch))
  satInt 24 (quot ((raw - ofs) * (2 ^ 24 + g)) (2 ^ 24))

/-- A code beyond full scale is the end of the range on its side (R219). -/
def rangeCode (ovr : Bool) (raw code : Int) : Int := if ovr then (if raw < 0 then ovrLo else ovrHi) else code

/-- After a Touchstone check or a calibration, the one that waits begins; otherwise the filter restarts (R221, R230,
R231). -/
def State.intervalEnd (s : State) (ch : Nat) : State :=
  let c := s.ach ch
  if c.touchWait then s.modAch ch (fun c => { c with touch := 6, touchWait := false })
  else if c.calWait then s.modAch ch (fun c => { c with cal := 6, calWait := false, calAt := s.ht })
  else s.filterRestart ch

/-- The outcome of a Touchstone check with deviation `dev` in ppm (R230); none fails with DEV 0x8000. -/
def State.touchResult (s : State) (ch : Nat) (dev : Option Int) : State :=
  let ok := match dev with
    | none => false
    | some d => decide (d.natAbs ≤ 10 * s.fld F.AFE_TS_TOL)
  let w := match dev with
    | none => 0x8000
    | some d => code 16 (satInt 16 d)
  let s1 := ((s.setFld (F.AFE_TSRES_DEV ch) w).putOn (F.AFE_TSRES_PASS ch) ok).setFld (F.AFE_TSRES_DONE ch) 1
  let s2 := if ok then s1 else (s1.afeFault F.AFE_FAULT_TS_FAIL ch).afeRecord 0xB ch
  s2.raise 0x17 9

/-- One conversion of a Touchstone check (R230). -/
def State.touchStep (s : State) (ch : Nat) (raw : Int) (ovr : Bool) : State :=
  let c := s.ach ch
  let v := rangeCode ovr raw (s.corrected ch raw)
  let s1 := (s.bufferResult ch c.lastGood 10 (s.sampleHt ch)).modAch ch (fun x =>
    { x with touch := x.touch - 1, codeA := if x.touch = 4 then v else x.codeA })
  if c.touch = 1 then
    let half := quot (c.codeA - v) 2
    (s1.touchResult ch (some (quot ((half - Config.touchCode ch) * 1000000) (2 ^ 23)))).intervalEnd ch
  else s1

/-- One conversion of a calibration (R231). -/
def State.calStep (s : State) (ch : Nat) (raw : Int) : State :=
  let c := s.ach ch
  let s1 := (s.bufferResult ch c.lastGood 6 (s.sampleHt ch)).modAch ch (fun x =>
    { x with cal := x.cal - 1, codeA := if x.cal = 4 then raw else x.codeA })
  if c.cal = 1 then
    let g := loopCAL ch
    let k := min (s.loopStep g) 16
    let s2 := if s1.loopLive g then
        let o := (s1.loop g).out
        let s3 := s1.loopUpdate g (o + quot (c.codeA - o) (2 ^ k))
        let e := quot (2 ^ 46) (raw - (s3.loop g).out) - 2 ^ 24
        let gc := signed 24 (s3.fld (F.AFE_GCOR_GCOR ch))
        let r := gc + quot (e - gc) (2 ^ k)
        let s4 := s3.setFld (F.AFE_GCOR_GCOR ch) (code 24 (clampInt (-(2 ^ 18 : Int)) (2 ^ 18) r))
        if r < -(2 ^ 18 : Int) ∨ (2 ^ 18 : Int) < r then s4.afeFault F.AFE_FAULT_GSAT ch else s4
      else s1
    (s2.raise 0x17 10).intervalEnd ch
  else s1

/-- A CHOP phase is complete when every enabled channel has made its three conversions: the excitation reverses. -/
def State.chopReverse (s : State) : State :=
  if s.afe.mode = 2 ∧ s.afe.excOn ∧ [0, 1].any (fun ch => decide (3 ≤ (s.ach ch).phaseConv))
      ∧ [0, 1].all (fun ch => !(s.converts ch) || decide (3 ≤ (s.ach ch).phaseConv)) then
    forEach [0, 1] (fun ch s => s.modAch ch (fun c => { c with phaseConv := 0, discard := 2, first := true }))
      (s.modAfe (fun a => { a with settling := true, negPhase := !a.negPhase }))
  else s

/-- One conversion in CHOP (R228): the third of a phase is kept; after a negative phase half the difference is
delivered, at the mean of the two sample HTs; OVR where one of the two was beyond full scale. -/
def State.chopStep (s : State) (ch : Nat) (v : Int) (ovr : Bool) : State :=
  let c := s.ach ch
  let n := c.phaseConv + 1
  let s1 := s.modAch ch (fun x => { x with phaseConv := n, discard := x.discard - 1 })
  if n ≠ 3 then s1.chopReverse
  else
    let s2 :=
      if !s.afe.negPhase then s1.modAch ch (fun x => { x with plus := some (v, s.sampleHt ch, ovr) })
      else match c.plus with
        | none => s1
        | some (r, h, o) =>
          let d := quot (r - v) 2
          (s1.modAch ch (fun x => { x with plus := none, lastGood := d, first := false })).bufferResult ch d
            ((if ovr || o then 1 else 0) + 16) (quot ((h : Int) + s.sampleHt ch) 2).toNat
    s2.chopReverse

/-- An ordinary conversion (R221): the first two after a restart are discarded, the third carries RESTART. -/
def State.plainStep (s : State) (ch : Nat) (v : Int) (ovr : Bool) : State :=
  let c := s.ach ch
  if c.discard ≠ 0 then s.modAch ch (fun x => { x with discard := x.discard - 1 })
  else
    (s.modAch ch (fun x => { x with first := false, lastGood := v })).bufferResult ch v
      ((if ovr then 1 else 0) + (if c.first then 16 else 0)) (s.sampleHt ch)

/-- AFE_CONVERSION (R221): a conversion of channel `ch` completes with the code `raw`; `over` beyond full scale. At its
end the changes that wait for a boundary take effect (R222), and the conversions of a disabled page stop (R233). A GAIN that
is written during a Touchstone check is in force after it; the model holds no GAIN but for that restart, which the end of the
check makes. -/
def execAfeConversion (ch : Nat) (raw : Int) (ovr : Bool) (s : State) : Host.Outcome State Fault Refusal :=
  .next (s.when (decide (ch < 2) && s.running && s.converts ch && !s.afe.settling) fun s =>
    let c := s.ach ch
    let v := rangeCode ovr raw (s.corrected ch raw)
    let chop := s.afe.mode == 2
    let s0 := if ovr then s.afeFault F.AFE_FAULT_OVR ch else s
    let s1 :=
      if c.touch ≠ 0 then s0.touchStep ch raw ovr
      else if c.cal ≠ 0 then s0.calStep ch raw
      else if chop && s.afe.excOn then s0.chopStep ch v ovr
      else if chop then s0.plainStep ch c.lastGood false
      else s0.plainStep ch v ovr
    let s2 := if (s1.ach ch).restartWait then s1.filterRestart ch else s1
    let s3 := if (s2.afe.mclkWait || s2.afe.modeWait) && (ch == 0 || !(s2.converts 0)) then s2.afeBoundary else s2
    let s4 := s3.modAfe (fun a => { a with excLow := a.excLow && s3.excStarved })
    if c.final then ((s4.modAch ch (fun x => { x with final := false })).afeFloor).afeShow else s4.afeShow)

/-- The bytes of a result (R223). -/
def encResult (r : AfeResult) : List Byte := bytesLE 3 (code 24 r.code) ++ bytesLE 1 r.flags

/-- `n` cycles of the gear in force, in HT units. -/
def State.cyclesHt (s : State) (n : Nat) : Nat := n * gearTicks s.cycleGear * 2 ^ 32 / 384000000

/-- AFE_DRAIN (R225): the oldest results of the descriptor's channel go into one capture entry, whose spacing is the
conversion period (R226). The port is ready again when the last slot of the entry is enqueued (R160, R248; DEDUCED, log
entry 152). -/
def execAfeDrain (s : State) : Host.Outcome State Fault Refusal :=
  .next (s.when (s.running && s.pageOn 0x17 && !(s.railOff 7)) fun s =>
    match s.popQueue (qDisp 7) with
    | none => s
    | some (e, s1) => match e.body with
      | .request r =>
        let ch := dSel r.words
        let n := min (dLen r.words / 4) (s.ach ch).buf.length
        let s1 := s1.chargeAdd 7 r.tenant s.ht (s.cyclesHt (max 1 (if n = 0 then 0 else ceilDiv (16 + 4 * n) 32)))
        if n = 0 then (s1.addSat F.AFE_CNT_EMPTY 1).complete r.idx true
        else if s1.canPut (qCap 7) .port (ceilDiv (16 + 4 * n) 32) s.ht then
          let l := (s.ach ch).buf.take n
          let h := (l.map (fun x => x.ht)).headD 0
          let data := l.foldl (fun b x => b ++ encResult x) []
          let s2 := s1.modAch ch (fun c => { c with buf := c.buf.drop n })
          ((s2.enqueue (qCap 7) .port (ceilDiv (16 + 4 * n) 32)
            (.capture ⟨r.idx, false, false, s.on F.CLK_SYN_HOLDOVER, h, r.seq, data, none, s.grantNow r.idx,
              s.convPeriod ch⟩) (srcDesc r.idx) h).complete r.idx true).afeShow
        else (s1.drain (qCap 7) .port).skip (qCap 7) .port (srcDesc r.idx) gcCREDIT none s.ht
      | .gaps l => forEach l (fun g s => s.forwardGap (qCap 7) .port g) s1
      | _ => s1)

/-- EXC_SETTLE_END (R227): the pause of AFE_EXC.SET ends and the filters restart; in CHOP the phase begins. -/
def execExcSettleEnd (s : State) : Host.Outcome State Fault Refusal :=
  .next (s.when (s.running && s.afe.settling) fun s =>
    let s1 := s.modAfe (fun a => { a with settling := false })
    (forEach [0, 1] (fun ch s => s.modAch ch (fun c => { c with discard := 2, first := true, phaseConv := 0 })) s1).afeShow)

/-- EXC_OVERCURRENT (R229): the excitation goes off and stays off until the fault bit is cleared. -/
def execExcOvercurrent (s : State) : Host.Outcome State Fault Refusal :=
  .next (s.when (s.running && s.afe.excOn) fun s =>
    let s1 := s.modAfe (fun a => { a with excOn := false, excBlocked := true, settling := false, negPhase := false })
    let s2 := forEach [0, 1] (fun ch s => s.modAch ch (fun c => { c with plus := none, phaseConv := 0 })) s1
    ((s2.afeFault F.AFE_FAULT_EXC_OC 0).afeRecord 9 0).afeShow)

/-- EXC_OPEN (R229): the current stays below IMIN while the excitation is on. -/
def execExcOpen (s : State) : Host.Outcome State Fault Refusal :=
  .next (s.when (s.running && s.afe.excOn) fun s =>
    ((s.modAfe (fun a => { a with excLow := true })).afeFault F.AFE_FAULT_EXC_OPEN 0).afeRecord 0xA 0)

/-- A Touchstone check of a channel is asked for (R230): it fails at once while the excitation is off, waits for a
calibration in progress, and is absorbed into one in progress or waiting; a calibration that fell due together with it
follows it (R231). -/
def State.touchStart (s : State) (ch : Nat) : State :=
  let c := s.ach ch
  if !s.afe.excOn then s.touchResult ch none
  else if c.touch ≠ 0 then s
  else if c.cal = 6 ∧ c.calAt = s.ht then s.modAch ch (fun c => { c with touch := 6, cal := 0, calWait := true })
  else if c.cal ≠ 0 then s.modAch ch (fun c => { c with touchWait := true })
  else (s.modAch ch (fun c => { c with touch := 6, plus := none, phaseConv := 0 })).afeShow

/-- TOUCHSTONE_START (R230): the period of AFE_TS.PER has passed. -/
def execTouchstoneStart (ch : Nat) (s : State) : Host.Outcome State Fault Refusal :=
  .next (s.when (decide (ch < 2) && s.running && s.converts ch && s.on F.AFE_TS_PER) fun s => s.touchStart ch)

/-- AFE_CAL_START (R231): the calibration of an enabled channel whose loop runs falls due; a Touchstone check goes first. -/
def execAfeCalStart (ch : Nat) (s : State) : Host.Outcome State Fault Refusal :=
  .next (s.when (decide (ch < 2) && s.running && s.converts ch && s.on F.AFE_CALPER_SEC && s.loopLive (loopCAL ch)) fun s =>
    let c := s.ach ch
    if c.cal ≠ 0 then s
    else if c.touch ≠ 0 ∨ c.touchWait then s.modAch ch (fun c => { c with calWait := true })
    else (s.modAch ch (fun c => { c with cal := 6, calAt := s.ht, plus := none, phaseConv := 0 })).afeShow)

end Sys2Proof.Machine
end

