-- ==== Sys2Proof/Machine/HostBase.lean ====
section
/-! DEFINITION. What a session increment and the end of a host-port transaction do (R106, R185, R415, R419, R439), and
the host reset pulse (R105). Port 0 is the two-wire target, port 1 the SPI target. -/

namespace Sys2Proof.Machine

def txPage (p : Nat) : Nat := if p = 0 then 0x0D else 0x0E

/-- The positions of a requester's stream registers return to byte 0 (R124, R397, R412, R474). -/
def State.streamsEnd (s : State) (rq : Requester) : State :=
  { s with streams := s.streams.filter (fun x => x.1 % 64 != reqKey rq) }

/-- The result of a transaction's end, and its counters (R419, R442, R443). -/
def State.showEnd (s : State) (p : Nat) (x : Tx) (r regs denied : Nat) : State :=
  if p = 0 then
    let a := ((s.setFld F.HTW_LAST_RESULT r).setFld F.HTW_LAST_REGS (min regs 255)).setFld F.HTW_LAST_DENIED (min denied 255)
    ((a.setFld F.HTW_LAST_ADDR x.addr7).setFld F.HTW_STAT_STATE 0).addSat F.HTW_CNT_TRANS 1
  else
    let a := ((s.setFld F.HSP_LAST_RESULT r).setFld F.HSP_LAST_REGS (min regs 255)).setFld F.HSP_LAST_DENIED (min denied 255)
    (a.setFld F.HSP_STAT_ACTIVE 0).addSat F.HSP_CNT_TRANS 1

/-- A transaction is over: its requester's stream positions return to byte 0. -/
def State.dropTx (s : State) (p : Nat) (x : Tx) : State := (s.setTx p none).streamsEnd x.req

/-- HCS_N is high: its floor ends (R55). -/
def State.spiFree (s : State) : State := if s.hspFloor then s.setFloor 8 none else s

/-- A transaction aborts (R185, R415): nothing is committed, and every bundle it has delivered rewinds. -/
def State.abortTx (s : State) (p code : Nat) : State :=
  match s.txOf p with
  | none => s
  | some x =>
    let s1 := forEach x.bundles (fun b s => s.setFld (F.QUE_PSTAT_REWOUND (b.1 / 4)) 1) s
    let s2 := (s1.dropTx p x).showEnd p x (max x.result code) 0 x.denied
    (if p = 0 then s2.addSat F.HTW_CNT_ABORT 1 else s2.addSat F.HSP_CNT_ABORT 1).raise (txPage p) 8

/-- The locks held by the old session are free and BROKEN (R106, R155). -/
def State.breakHostLocks (s : State) : State :=
  forEach (List.range 16) (fun k s => match (s.lock k).holder with
    | some (r, _, _) => if r ≤ 8 then (s.setLock k ⟨none, true⟩).addSat F.LCK_CNT_BREAKS 1 else s
    | none => s) s

/-- Every command assembly is discarded (R439). -/
def State.dropAssemblies (s : State) : State :=
  forEach (List.range 8) (fun n s =>
    if (s.asmOf n).bytes.isEmpty then s
    else ((s.setAsm n asm0).setFld (F.TN_CSTAT_STATE n) 0).setFld (F.TN_CSTAT_COUNT n) 0) s

/-- The host session increments (R106). -/
def State.sessionInc (s : State) : State :=
  (((s.addWrap F.SYS_SESSION_NUM 1).breakHostLocks.abortTx 0 3).abortTx 1 3).dropAssemblies

/-- A host reset pulse begins (R105, R106); one in progress absorbs it. -/
def State.hostPulse (s : State) : State :=
  if s.on F.SYS_HREL_RELEASED then
    let s1 := s.setFld F.SYS_HREL_RELEASED 0
    ({ s1 with sys := { s1.sys with pulse := true } }).sessionInc
  else s

end Sys2Proof.Machine
end

