-- ==== Sys2Proof/Machine/Keys.lean ====
section
/-! DEFINITION. Keys (R384-R387): the key derivation of SP 800-108, the active slot, and the tenant's keys. -/

namespace Sys2Proof.Machine

/-- ASCII bytes of a label. -/
def ascii (l : List Nat) : List Byte := l.map (BitVec.ofNat 8)

/-- "KF7420 " -/
def labelHead : List Byte := ascii [75, 70, 55, 52, 50, 48, 32]
def labelTENANT : List Byte := labelHead ++ ascii [84, 69, 78, 65, 78, 84]
def labelBUNDLE : List Byte := labelHead ++ ascii [66, 85, 78, 68, 76, 69]
def labelCOMMAND : List Byte := labelHead ++ ascii [67, 79, 77, 77, 65, 78, 68]
def labelWRAP : List Byte := labelHead ++ ascii [87, 82, 65, 80]

/-- IDN_DEVID, eight bytes. -/
def State.devId (s : State) : List Byte := bytesLE 4 s.nv.trim.devLo ++ bytesLE 4 s.nv.trim.devHi

/-- The context of a derivation (R384). -/
def State.kdfContext (s : State) (t gen : Nat) : List Byte := s.devId ++ bytesLE 1 t ++ bytesLE 2 gen

/-- KDF in counter mode (R384): K(1) and K(2) over [i], the label, 0x00, the context and [L]. -/
def kdf (key label context : List Byte) : List Byte :=
  let one := fun (i : Nat) => Config.cmac key (bytesLE 1 i ++ label ++ [0] ++ context ++ [1, 0])
  one 1 ++ one 2


def State.modSlot (s : State) (t : Nat) (b : Bool) (f : KeySlot → KeySlot) : State :=
  s.modTnv t (fun n => if b then { n with slotB := f n.slotB } else { n with slotA := f n.slotA })

/-- The active slot of a tenant; none without an active key. It stays after a zeroization of the volatile copies (R387,
R459). -/
def State.activeSlot (s : State) (t : Nat) : Option KeySlot := (s.ten t).activeB.map (fun b => s.slot t b)

/-- The active generation; 0 without an active key. -/
def State.activeGen (s : State) (t : Nat) : Nat := match s.activeSlot t with | none => 0 | some k => k.gen

/-- The keys that derive from a tenant key (R384). -/
def State.bundleKey (s : State) (t gen : Nat) (tk : List Byte) : List Byte := kdf tk labelBUNDLE (s.kdfContext t gen)
def State.commandKey (s : State) (t gen : Nat) (tk : List Byte) : List Byte := kdf tk labelCOMMAND (s.kdfContext t gen)
def State.wrapKey (s : State) (t gen : Nat) (tk : List Byte) : List Byte := kdf tk labelWRAP (s.kdfContext t gen)

/-- The tenant key of a generation, from the slot that holds it. -/
def State.heldKey (s : State) (t gen : Nat) : List Byte :=
  if (s.slot t false).gen = gen then (s.slot t false).key
  else if (s.slot t true).gen = gen then (s.slot t true).key
  else Config.goneKey t gen

/-- The tenant key of an enrolment public key (R384); none for a key that fails its validation. -/
def State.tenantKey (s : State) (t gen : Nat) (q : List Byte) : Option (List Byte) :=
  (Config.ecdh s.nv.trim.deviceKey q).map (fun z => kdf z labelTENANT (s.kdfContext t gen))

/-- The slot that `activeB` names for a tenant at boot (R387): the valid slot of the higher generation. -/
def State.bestSlot (s : State) (t : Nat) : Option Bool :=
  let a := (s.tnv t).slotA
  let b := (s.tnv t).slotB
  if a.valid && b.valid then some (decide (a.gen < b.gen))
  else if a.valid then some false
  else if b.valid then some true
  else none

end Sys2Proof.Machine
end

