-- ==== Sys2Proof/Machine/Answer.lean ====
section
/-! DEFINITION. The responses of the Steward (R393, R396-R398): their layout, where they are kept, and what a response
counts and raises. -/

namespace Sys2Proof.Machine

/-! ## Status codes (R393) -/

def stDONE : Nat := 0x00
def stPARTIAL : Nat := 0x01
def stPENDING : Nat := 0x02
def stFORMAT : Nat := 0x10
def stLENGTH : Nat := 0x11
def stTENANT : Nat := 0x12
def stLIFECYCLE : Nat := 0x13
def stNOKEY : Nat := 0x14
def stKEYGEN : Nat := 0x15
def stTAG : Nat := 0x16
def stREPLAY : Nat := 0x17
def stOPCODE : Nat := 0x18
def stDENIED : Nat := 0x19
def stPARAM : Nat := 0x1A
def stRETRY : Nat := 0x1B
def stWORN : Nat := 0x1C
def stUNWRAP : Nat := 0x1D
def stSPACE : Nat := 0x1E
def stVERSION : Nat := 0x1F
def stSTATE : Nat := 0x20
def stBUSY : Nat := 0x21

/-- The outcome of a command: its status, and the records that were refused, the first of them by address and cause. -/
structure Outcome where
  status : Nat
  refused : Nat
  addr : Nat
  cause : Nat
  deriving DecidableEq, Repr

def Outcome.of (st : Nat) : Outcome := ⟨st, 0, 0, 0⟩

/-! ## The response (R397) -/

/-- A response closed by the tag of the key that verified the command, or by zeros. -/
def State.tagged (s : State) (t gen : Nat) (body : List Byte) : List Byte :=
  body ++ (if gen = 0 then List.replicate 16 0 else Config.cmac (s.commandKey t gen (s.heldKey t gen)) body)

/-- Bytes 0-31 of a response. -/
def State.rspBody (s : State) (k : Ticket) (o : Outcome) : List Byte :=
  [0xC6, 1] ++ bytesLE 1 (16 * k.tenant) ++ bytesLE 1 k.opcode ++ bytesLE 1 o.status
    ++ bytesLE 1 (if k.answered then 2 else 0) ++ bytesLE 2 o.refused ++ bytesLE 8 k.counter
    ++ bytesLE 8 (s.ten k.concern).hw ++ bytesLE 2 o.addr ++ bytesLE 1 o.cause ++ [0] ++ bytesLE 2 (s.activeGen k.concern)
    ++ [0, 0]

/-- KEY_TLAST of a tenant: status, opcode and AUTH (R414). -/
def lastWord (st op gen : Nat) : Nat := st % 256 + 256 * (op % 256) + (if gen = 0 then 0 else 65536)

/-- A response counts, unless it is the second of its command, and a refusal is PIRQ bit 8 of the KEY page (R414). -/
def State.countAnswer (s : State) (st : Nat) (second : Bool) : State :=
  let s1 := if second then s else s.addSat (if st < 0x10 then F.KEY_CNT_ACCEPTED else F.KEY_CNT_REFUSED) 1
  if st < 0x10 then s1 else s1.raise 0x22 8

/-- The outcome of a command that reached execution: its response replaces the stored one (R397, R398). -/
def State.answer (s : State) (k : Ticket) (o : Outcome) : State :=
  let r := s.tagged k.tenant k.gen (s.rspBody k o)
  (s.modTen k.tenant (fun x => { x with
    response := r, execRsp := r, last := lastWord o.status k.opcode k.gen })).countAnswer o.status k.answered

/-- The command of a ticket, unless it was answered before, gets its PENDING response (R393). -/
def State.pendAnswer (s : State) (k : Ticket) : State × Ticket :=
  if k.answered then (s, k) else (s.answer k (.of stPENDING), { k with answered := true })

/-! ## NV writes that a dip defers (R79, R393) -/

/-- The command that an NV write belongs to. -/
def jobTicket : NvJob → Option Ticket
  | .seqReserve _ _ => none
  | .logEntry => none
  | .chartData k _ _ => some k
  | .chartCommit k _ => some k
  | .config k _ => some k
  | .patchData k _ _ => some k
  | .patchCommit k _ => some k
  | .erase k _ => some k

def withTicket (k : Ticket) : NvJob → NvJob
  | .seqReserve t h => .seqReserve t h
  | .logEntry => .logEntry
  | .chartData _ o n => .chartData k o n
  | .chartCommit _ b => .chartCommit k b
  | .config _ m => .config k m
  | .patchData _ o n => .patchData k o n
  | .patchCommit _ i => .patchCommit k i
  | .erase _ t => .erase k t

/-- Answers PENDING for the NV writes of a list, and marks them so. -/
def pendJobs : List NvJob → List NvJob → State → State
  | [], l, s => { s with stw := { s.stw with nvq := l } }
  | j :: t, l, s =>
    match jobTicket j with
    | none => pendJobs t (l ++ [j]) s
    | some k => pendJobs t (l ++ [withTicket (s.pendAnswer k).2 j]) (s.pendAnswer k).1

/-- A key update that has not begun waits: its command is answered PENDING. -/
def State.pendUpdate (s : State) (t : Nat) : State :=
  match (s.ten t).update with
  | none => s
  | some u => if u.written then s
    else (s.pendAnswer u.ticket).1.modTen t (fun x => { x with update := some { u with ticket := (s.pendAnswer u.ticket).2 } })

/-- A dip defers every NV write that waits: their commands are answered PENDING. -/
def State.pendAll (s : State) : State :=
  let run := if s.stw.nvActive then s.stw.nvq.take 1 else []
  let wait := if s.stw.nvActive then s.stw.nvq.drop 1 else s.stw.nvq
  forEach (List.range 8) (fun t s => s.pendUpdate t) (pendJobs wait run s)

end Sys2Proof.Machine
end

