-- ==== Sys2Proof/Machine/Power.lean ====
section
/-! DEFINITION. Power (R65-R83, R91, R27): the rails, the supply dip, the harvester's stops, the bank-good flags and
PWR_MEAS. Voltages arrive in mV. -/

namespace Sys2Proof.Machine


/-- A supply event can act: the supervisor is awake, in any state but OFF and In reset. -/
def State.powered (s : State) : Bool := s.cclk || decide (s.sys.phase = .stow)

/-- The ports that a VSENS rail powers. -/
def State.railPorts (s : State) (n : Nat) : List Nat := (List.range 8).filter (fun p => s.bit (F.PWR_VSENS_PORTS n) p)

/-! ## VHOST (R72-R74) -/

/-- VHOST goes off with HRST_N low (R73): the sequence counts as one host reset pulse. -/
def State.vhostDown (s : State) : State :=
  (s.hostPulse).modSys (fun y => { y with vhostOn := false, vhostSettle := false })

/-- VHOST goes on at VSEL with soft start, and the 0.5 ms begin (R72, R73). DESIGN CHOICE (log entry 137): nothing is pending
from then on, and VSEL_PEND reads 0. -/
def State.vhostUp (s : State) : State :=
  if s.sys.vhostOn || s.sys.lockout then s
  else
    let v := if s.fld F.PWR_VHOST_VSEL = 3 then 0 else s.fld F.PWR_VHOST_VSEL
    (s.setFld F.PWR_VHOST_VSEL_PEND 0).modSys (fun y =>
      { y with vhostOn := true, vhostV := v, vhostSettle := true, vhostCycle := false })

/-- PWR_VHOST.EN is written 0. -/
def State.vhostDisable (s : State) : State := s.vhostDown.modSys (fun y => { y with vhostCycle := false })

/-- VHOST_SETTLE_END (R73): HRST_N is driven high. DESIGN CHOICE (log entry 138): a reset pulse that was still in progress
ends with it, since the off-and-on sequence is one host reset pulse. -/
def execVhostSettleEnd (s : State) : Host.Outcome State Fault Refusal :=
  .next (s.when (s.powered && decide (s.sys.phase ≠ .booting) && s.sys.vhostOn && s.sys.vhostSettle) fun s =>
    (s.setFld F.SYS_HREL_RELEASED 1).modSys (fun y => { y with vhostSettle := false, pulse := false }))

/-- VHOST_TRIP (R74): the rail is cycled and counted; the third trip within 10 s locks it out. -/
def execVhostTrip (s : State) : Host.Outcome State Fault Refusal :=
  .next (s.when (s.powered && s.sys.vhostOn) fun s =>
    let recent := s.ht :: s.sys.trips.filter (fun h => decide (s.ht ≤ h + 10 * 2 ^ 32))
    let locked := decide (3 ≤ recent.length)
    let s1 := (s.vhostDown.addSat F.PWR_VHOST_TRIPS 1).modSys (fun y =>
      { y with trips := recent, vhostCycle := !locked, lockout := locked })
    let s2 := s1.setFld F.PWR_RAILEVT_VHOST_TRIP 1
    let s3 := if locked then (s2.setFld F.PWR_RAILEVT_VHOST_LOCKOUT 1).setFld F.PWR_VHOST_EN 0 else s2
    ((((s1.risen [0x03] s3).wakeHost F.SYS_HWAKE_RAIL).railFault (if locked then 3 else 2) 3)).raise 0x03 10)

/-- VHOST_CYCLE_OFF_END (R74): the rail goes on again. -/
def execVhostCycleOffEnd (s : State) : Host.Outcome State Fault Refusal :=
  .next (s.when (s.powered && s.sys.vhostCycle && s.on F.PWR_VHOST_EN) fun s => s.vhostUp)

/-! ## VSENS rails (R75-R77) -/

/-- A rail begins its ramp at VSEL (R75). -/
def State.railOn (s : State) (n : Nat) : State :=
  if s.fld (F.PWR_VSENS_STATE n) ≠ 0 then s
  else
    let v := if s.on (F.PWR_VSENS_VSEL n) then s.sys.railV ||| 2 ^ n else s.sys.railV - (s.sys.railV &&& 2 ^ n)
    (s.setFld (F.PWR_VSENS_STATE n) 1).modSys (fun y => { y with railV := v })

/-- A rail goes off: transfers on its ports fail with RAIL, and what waits for them is withdrawn (R76, R211, R247). -/
def State.railCut (s : State) (n : Nat) : State :=
  if s.fld (F.PWR_VSENS_STATE n) = 0 then s
  else
    let s1 := s.setFld (F.PWR_VSENS_STATE n) 0
    ((s1.cutPorts (s1.railPorts n) 7)).checkPorts (s1.railPorts n)

/-- PWR_VSENSn.EN is written 1: during a dip a sheddable rail only takes EN (R78). -/
def State.railEnable (s : State) (n : Nat) : State :=
  if s.on F.SYS_DIP_ACTIVE && s.on (F.PWR_VSENS_SHED n) then s.modSys (fun y => { y with railShed := y.railShed ||| 2 ^ n })
  else s.railOn n

/-- VSENS_RAMP_DONE (R75). -/
def execVsensRampDone (n : Nat) (s : State) : Host.Outcome State Fault Refusal :=
  .next (s.when (decide (n < 3) && s.powered && s.fld (F.PWR_VSENS_STATE n) == 1) fun s => s.setFld (F.PWR_VSENS_STATE n) 2)

/-- VSENS_SETTLE_DONE (R75): an interval on CCLK. -/
def execVsensSettleDone (n : Nat) (s : State) : Host.Outcome State Fault Refusal :=
  .next (s.when (decide (n < 3) && s.cclk && s.fld (F.PWR_VSENS_STATE n) == 2) fun s => s.setFld (F.PWR_VSENS_STATE n) 3)

/-- VSENS_TRIP (R77): a shed rail carries no current and does not trip. -/
def execVsensTrip (n : Nat) (s : State) : Host.Outcome State Fault Refusal :=
  .next (s.when (decide (n < 3) && s.powered && s.fld (F.PWR_VSENS_STATE n) != 0) fun s =>
    let s1 := (s.railCut n).setFld (F.PWR_VSENS_EN n) 0
    let s2 := s1.risen [0x03] (s1.setBit F.PWR_RAILEVT_VSENS_TRIP n)
    ((s2.wakeHost F.SYS_HWAKE_RAIL).railFault 1 n).raise 0x03 10)

/-! ## The supply dip (R78-R83) -/

/-- The rails that a dip sheds (R78): on, or waiting to be switched on again, with SHED 1. -/
def State.shedRails (s : State) : List Nat :=
  (List.range 3).filter (fun n => s.on (F.PWR_VSENS_SHED n) && (s.fld (F.PWR_VSENS_STATE n) != 0 || s.sys.railShed.testBit n))

/-- Switches off the sheddable rails. -/
def State.shed (s : State) : State :=
  forEach s.shedRails (fun n s => (s.modSys (fun y => { y with railShed := y.railShed ||| 2 ^ n })).railCut n) s

/-- An NV write that runs when a dip begins below KEYW_MIN is abandoned and deferred (R79). -/
def State.nvAbandon (s : State) : State :=
  if s.stw.nvActive && !s.stw.nvOk then s.nvDrop else s

/-- 5 µs, the filter of a VWARN crossing (R65, R80). -/
def dipFilter : Nat := htUs 5

/-- The comparators of KEYW_MIN and VCHG follow VSTORE (R65, R92); an NV write that a key update held back may start. -/
def State.supplyShow (s : State) : State :=
  ((s.putOn F.PWR_THR_STAT_ABOVE_KEYW (decide (s.keyw ≤ s.sys.vstore))).putOn F.PWR_THR_STAT_ABOVE_VCHG
    (decide (s.vchg ≤ s.sys.vstore))).nvStart

/-- VSTORE is at `mv`, as a supervisor event shows it. -/
def State.supply (s : State) (mv : Nat) : State := (s.modSys (fun y => { y with vstore := mv })).supplyShow

/-- R78, with the HT `start` of the crossing; `fresh` for a dip that does not continue another. DESIGN CHOICE (log entry
139): a dip that continues sets SYS_HWAKE.DIP again and raises no further DIP_START, while DIP_END is raised at each end. -/
def State.dipEnter (s : State) (start : Nat) (fresh : Bool) : State :=
  let s1 := s.modSys (fun y => { y with
    dipStart := some (if fresh then start else y.dipStart.getD start), dipMin := if fresh then 1024 else y.dipMin, dipEnd := 0,
    dipCounted := y.dipCounted && !fresh })
  let s2 := ((s1.setFld F.SYS_DIP_ACTIVE 1).setFld F.SYS_DIP_SETTLING 0).setFld F.PWR_THR_STAT_ABOVE_VWARN 0
  let s3 := (((s2.wakeHost F.SYS_HWAKE_DIP).shed).nvAbandon).pendAll
  (if fresh then s3.raise 0x03 8 else s3).regear

/-- DIP_BEGIN (R78): in Stow the dip is a wake cause, and R78 runs in WATCH (R90). -/
def execDipBegin (mv : Nat) (s : State) : Host.Outcome State Fault Refusal :=
  .next (s.when (s.powered && s.on F.PWR_THR_STAT_ABOVE_VWARN && !(s.dipHold)) fun s =>
    if s.sys.phase = .stow then
      ((s.supply mv).setFld F.PWR_THR_STAT_ABOVE_VWARN 0).modSys (fun y =>
        { y with wakes := y.wakes ||| 2 ^ 14, dipStart := some (s.ht - dipFilter) })
    else (s.dipEnter (s.ht - dipFilter) true).supply mv)

/-- DIP_CONTINUE (R82). -/
def execDipContinue (mv : Nat) (s : State) : Host.Outcome State Fault Refusal :=
  .next (s.when (s.cclk && s.on F.SYS_DIP_SETTLING && !(s.on F.SYS_DIP_ACTIVE)) fun s =>
    (s.dipEnter 0 false).supply mv)

/-- The SUPPLY_DIP entry goes ahead of every deferred write (R80). -/
def State.dipEntry (s : State) : State :=
  let aud := s.fld F.SYS_DORM_EXIST
  if s.life == 0xE then s.addSat F.LOG_CNT_LOST 1
  else if 16 ≤ s.log.pend.length then
    ({ s.addSat F.LOG_CNT_LOST 1 with log := { s.log with loss := true } }).raise 0x24 9
  else
    let e : LogPend := ⟨2, 0, aud ||| 1, 0, s.ht, s.fld F.RCK_EPOCH_ID, (s.reg A.PWR_DIP).toNat⟩
    let run := if s.stw.nvActive then 1 else 0
    let used := if (s.stw.nvq.take run).contains .logEntry then 1 else 0
    { s with
      log := { s.log with pend := s.log.pend.take used ++ [e] ++ s.log.pend.drop used }
      stw := { s.stw with
        nvq := s.stw.nvq.take run ++ [NvJob.logEntry] ++ s.stw.nvq.drop run
        nvDef := s.stw.nvDef.take run ++ [false] ++ s.stw.nvDef.drop run } }.modUpdates
      (fun u => { u with behind := u.behind + 1 })

/-- The dip is over (R80, R81): its window ends, its entry is requested, and the deferred NV writes run. -/
def State.dipFinish (s : State) (windowEnd : Nat) : State :=
  let s1 := s.modSys (fun y => { y with
    railShed := 0, dipWins := y.dipWins ++ [(y.dipStart.getD windowEnd, windowEnd)], dipStart := none })
  ((s1.setFld F.SYS_DIP_SETTLING 0).dipEntry).nvStart

/-- The shed rails that are still enabled. -/
def State.railsBack (s : State) : List Nat :=
  (List.range 3).filter (fun n => s.sys.railShed.testBit n && s.on (F.PWR_VSENS_EN n))

/-- DIP_END (R80): VSTORE has risen above VWARN + 60 mV. -/
def execDipEnd (mv : Nat) (s : State) : Host.Outcome State Fault Refusal :=
  .next (s.when (s.cclk && s.on F.SYS_DIP_ACTIVE) fun s =>
    let h := s.ht - dipFilter
    let start := s.sys.dipStart.getD h
    let vmin := if s.sys.dipMin = 1024 then Config.dipVmin start else s.sys.dipMin
    let dur := min ((h - start) * 100000 / 2 ^ 32) (2 ^ 22 - 1)
    let first := !(s.sys.dipCounted)
    let s1 := (s.supply mv).modSys (fun y => { y with dipEnd := h, dipCounted := true })
    let s2 := ((s1.setFld F.SYS_DIP_ACTIVE 0).setFld F.PWR_THR_STAT_ABOVE_VWARN 1).raise 0x03 9
    let s3 := (s2.setFld F.PWR_DIP_VMIN vmin).setFld F.PWR_DIP_DUR dur
    let s4 := if first then s3.addSat F.PWR_DIPCNT_COUNT 1 else s3
    let back := s4.railsBack
    let s5 := forEach back (fun n s => s.railOn n) s4
    let s6 := if back.isEmpty then (s5.modSys (fun y => { y with dipCounted := false })).dipFinish h
      else s5.setFld F.SYS_DIP_SETTLING 1
    s6.regear)

/-- DIP_SETTLED (R80): every shed rail is ON again. -/
def execDipSettled (s : State) : Host.Outcome State Fault Refusal :=
  .next (s.when (s.cclk && s.on F.SYS_DIP_SETTLING && s.railsBack.all (fun n => s.fld (F.PWR_VSENS_STATE n) == 3)) fun s =>
    (s.modSys (fun y => { y with dipCounted := false })).dipFinish s.ht)

/-! ## VCHG, harvester, PWR_MEAS -/

/-- A wake cause is latched (R89). In WATCH and RUN it is visible for one cycle, and keeps a Stow entry from committing in
that cycle (R87). -/
def State.wakeCause (s : State) (k : Nat) : State := s.modSys (fun y => { y with wakes := y.wakes ||| 2 ^ k })

/-- VCHG_RISE (R65, R89): VSTORE has risen through VCHG. -/
def execVchgRise (s : State) : Host.Outcome State Fault Refusal :=
  .next (s.when s.powered fun s =>
    (s.supply (max s.sys.vstore s.vchg)).when (decide (s.sys.phase ≠ .booting) && s.bit F.SYS_WAKE_EN_WAKE 11) fun s =>
      s.wakeCause 11)

/-- The MPPT loop's preconditions (R489). -/
def State.mpptOk (s : State) : Bool :=
  s.on F.PWR_HARV_EN && !(s.on F.PWR_HSTAT_UVLO) && !(s.on F.PWR_HSTAT_OVP) && !(s.on F.PWR_HSTAT_CEILING)
    && !(s.on F.PWR_HSTAT_ILIM_ACT) && decide (s.sys.pstate ≠ .stowCold)

/-- A precondition has failed: a VOC resample is due when the loop runs again (R491). -/
def State.mpptWatch (s : State) : State := if s.mpptOk then s else { s with pln := { s.pln with vocWait := true } }

/-- The converter switches: enabled and not stopped (R69, R70). -/
def State.harvShow (s : State) : State :=
  s.mpptWatch.putOn F.PWR_HSTAT_CHARGING (s.on F.PWR_HARV_EN && !(s.on F.PWR_HSTAT_OVP) && !(s.on F.PWR_HSTAT_UVLO)
    && !(s.on F.PWR_HSTAT_CEILING) && !s.pln.vocPause)

/-- HARV_OVP (R70). DESIGN CHOICE (log entry 140): PIRQ bit 11 HARV_FAULT is raised at an over-voltage stop and at an
under-voltage stop, and not at the charge ceiling. -/
def execHarvOvp (s : State) : Host.Outcome State Fault Refusal :=
  .next (s.when (s.powered && !(s.on F.PWR_HSTAT_OVP)) fun s =>
    let s1 := s.setFld F.PWR_HSTAT_OVP 1
    ((s1.risen [0x03] (s1.setFld F.PWR_RAILEVT_HARV_OVP 1)).harvShow).raise 0x03 11)

/-- HARV_UVLO (R70), with HARV_FAULT (log entry 140). -/
def execHarvUvlo (s : State) : Host.Outcome State Fault Refusal :=
  .next (s.when (s.powered && !(s.on F.PWR_HSTAT_UVLO)) fun s => ((s.setFld F.PWR_HSTAT_UVLO 1).harvShow).raise 0x03 11)

/-- HARV_CEILING (R69): charging stops, and the maximum-power loop reports saturation (R489). -/
def execHarvCeiling (s : State) : Host.Outcome State Fault Refusal :=
  .next (s.when (s.powered && !(s.on F.PWR_HSTAT_CEILING)) fun s =>
    (s.setFld F.PWR_HSTAT_CEILING 1).harvShow.satHigh loopMPPT)

/-- HARV_RESUME (R69, R70): the stop that ends. -/
def execHarvResume (stop : HarvStop) (s : State) : Host.Outcome State Fault Refusal :=
  .next (s.when s.powered fun s => (match stop with
    | .ovp => s.setFld F.PWR_HSTAT_OVP 0
    | .uvlo => s.setFld F.PWR_HSTAT_UVLO 0
    | .ceiling => s.setFld F.PWR_HSTAT_CEILING 0).harvShow)

/-- ILIM in mA: 25 mA a code; 0 reads as 1, 13-15 as 12 (R92). -/
def State.ilim (s : State) : Nat := 25 * min 12 (max 1 (s.fld F.PWR_HARV_ILIM))

/-- PWR_MEAS_UPDATE (R91): PWR_MEAS, the comparators of KEYW_MIN and VCHG, and the lowest sample of a dip (R80). -/
def execPwrMeasUpdate (vstore vharv iharv : Nat) (s : State) : Host.Outcome State Fault Refusal :=
  .next (s.when s.awake fun s =>
    let v := min (vstore / 10) 1023
    let s1 := s.modSys (fun y => { y with
      vstore := vstore, vharv := vharv, iharv := iharv
      dipMin := if s.on F.SYS_DIP_ACTIVE then min y.dipMin v else y.dipMin })
    let s2 := ((s1.setFld F.PWR_MEAS_VSTORE v).setFld F.PWR_MEAS_VHARV (min (quot vharv 20).toNat 1023)).setFld F.PWR_MEAS_IHARV (min iharv 511)
    (s2.putOn F.PWR_HSTAT_ILIM_ACT (decide (s2.ilim ≤ iharv))).supplyShow.mpptWatch)

/-! ## Banks (R27, R28) -/

/-- BANK_LOST (R27): VSENSIO takes the sensor ports, VIOH both host ports. Neither this command nor its return drives a tap
of the Rose by itself; DESIGN CHOICE (log entry 141): the page interrupt that the loss raises (R92) reaches channel 51
where its enable and PIRQ_ROUTE.ROSE say so (R339). HCS_N, which the hub cannot sense without VIOH, counts as high (log
entry 147). -/
def execBankLost (sens : Bool) (s : State) : Host.Outcome State Fault Refusal :=
  let f := if sens then F.PWR_BANK_VSENSIO_OK else F.PWR_BANK_VIOH_OK
  .next (s.when (s.powered && s.on f) fun s =>
    let s1 := s.setFld f 0
    let s2 := if sens then (s1.cutPorts [0, 1, 2, 3, 4, 5, 6] 6).checkPorts [0, 1, 2, 3, 4, 5, 6]
      else (((s1.abortTx 0 3).abortTx 1 3).modSys (fun y => { y with csLow := false })).spiFree
    s2.raise 0x03 12)

/-- The pins of a bank, as bits of the synchronisers: EV0-EV7 and IDX in VSENSIO, SYNC in VIOH (SYS_WAKE_EN order). -/
def bankMask (sens : Bool) : Nat := if sens then 0x1FF else 0x200

/-- BANK_RESTORED (R27): the flag is set and the bank's synchronisers are loaded with its pins; nothing is stamped. -/
def execBankRestored (sens : Bool) (pins : Nat) (s : State) : Host.Outcome State Fault Refusal :=
  let f := if sens then F.PWR_BANK_VSENSIO_OK else F.PWR_BANK_VIOH_OK
  .next (s.when (s.powered && !(s.on f)) fun s =>
    let m := bankMask sens
    (s.setFld f 1).modSys (fun y => { y with pins := (y.pins &&& (0x3FF - m)) ||| (pins &&& m) }))

end Sys2Proof.Machine
end

