-- ==== Sys2Proof/Machine/Stow.lean ====
section
/-! DEFINITION. Stow (R85-R90, R426) and the loss of the reference's amplitude (R57, R60). -/

namespace Sys2Proof.Machine

/-! ## Entry (R86, R87) -/

/-- The further conditions for STOW-COLD. -/
def State.mayCold (s : State) : Bool := s.on F.SYS_STOW_COLD_EN && !(s.timeEnabled) && s.awaiting == 0

/-- The KEEP-0 rails that are on. -/
def State.dropRails (s : State) : List Nat :=
  (List.range 3).filter (fun n => s.fld (F.PWR_VSENS_STATE n) != 0 && !(s.on (F.PWR_VSENS_KEEP n)))

/-- STOW_ENTRY (R87): the commit cycle at G0. In STOW-COLD the oscillator stops, the core buck is at 0.55 V, code 0, and the
converter works at the setpoint it has (R69, R84, R489). -/
def execStowEntry (s : State) : Host.Outcome State Fault Refusal :=
  .next (s.when (s.running && s.gear == 0 && !(s.changing) && s.mayStow) fun s =>
    let cold := s.mayCold
    let rails := s.dropRails
    let mask := rails.foldl (fun m n => m ||| 2 ^ n) 0
    let s1 := forEach rails (fun n s => s.railCut n) s
    let s2 := s1.modAfe (fun a => { a with excOn := false, settling := false, negPhase := false })
    let s3 := (s2.setFld F.SYS_PSTATE_LAST_STOW (if cold then 2 else 1)).addSat F.SYS_PSTATE_STOW_CNT 1
    let s4 := s3.modSys (fun y => { y with
      phase := .stow, pstate := if cold then .stowCold else .stowWarm, keepOn := mask })
    let s5 := s4.switchTo gGS
    if cold then
      let s6 := ((s5.switched.synthOff).setFld F.CLK_MON_AMP_OK 0).setFld F.PWR_CORE_VSET 0
      { s6 with pln := { s6.pln with vocPause := false, vocWait := true } }.harvShow
    else s5)

/-! ## Wake causes (R88, R89) -/

/-- STOW_TIME_WAKE (R88): in STOW-WARM, once the next TIME target or age deadline is no longer more than GUARD ahead. -/
def execStowTimeWake (s : State) : Host.Outcome State Fault Refusal :=
  .next (s.when (decide (s.sys.phase = .stow) && decide (s.sys.pstate = .stowWarm) && !(s.timeAhead && s.ageAhead)) fun s =>
    s.wakeCause 13)

/-- WAKE_EDGE (R89): an edge on EV0-EV7 (0-7), IDX (8) or SYNC (9), or of HCS_N (10), as the synchronisers see it. It is a
wake cause where SYS_WAKE_EN enables it and it has the polarity of SYS_WAKE_POL, for HCS_N falling; in WATCH and RUN it
keeps a Stow entry from committing (R87). The pins of a lost bank are held (R27). -/
def execWakeEdge (pin : Nat) (falling : Bool) (s : State) : Host.Outcome State Fault Refusal :=
  let good := if pin < 9 then s.on F.PWR_BANK_VSENSIO_OK else s.on F.PWR_BANK_VIOH_OK
  let dir := if pin = 10 then falling else s.bit F.SYS_WAKE_POL_FALL pin == falling
  .next (s.when ((decide (s.sys.phase = .stow) || s.awake) && decide (pin ≤ 10) && good) fun s =>
    let s1 := if pin = 10 then s.modSys (fun y => { y with csLow := falling }) else s.setPin pin (!falling)
    s1.when (dir && s.bit F.SYS_WAKE_EN_WAKE pin) fun s => s.wakeCause pin)

/-- An address is one of the hub's (R421): the requester it stands for. -/
def State.addrOf (s : State) (a : Nat) : Option Requester :=
  if a = s.fld F.HTW_ADDR_CHART then some .host
  else
    let b := s.fld F.HTW_ADDR_WBASE
    if b ≤ a ∧ a < b + 8 ∧ s.bit F.HTW_ADDR_WEN (a - b) then some (.window (a - b)) else none

/-- LOOKOUT_MATCH (R426): the address is acknowledged and wakes the hub; any other address is ignored. -/
def execLookoutMatch (addr : Nat) (_read : Bool) (s : State) : Host.Outcome State Fault Refusal :=
  .next (s.when (decide (s.sys.phase = .stow) && s.on F.PWR_BANK_VIOH_OK && (s.addrOf addr).isSome) fun s =>
    (((s.wakeCause 12).setFld F.HTW_LOOK_LAST_ADDR addr).addSat F.HTW_LOOK_WAKES 1).setFld F.HTW_STAT_STATE 4)

/-! ## Wake (R89, R90) -/

/-- The gear reaches G0 and the synthesizer is locked (R44). -/
def State.toG0 (s : State) : State :=
  let s1 := if s.on F.CLK_GEAR_SWITCHING then s.switched else s
  if s1.gear = gGS then
    let s2 := ((s1.setFld F.CLK_SYN_ON 1).setFld F.CLK_SYN_LOCK 1).setFld F.CLK_MON_AMP_OK 1
    (s2.switchTo 0).switched
  else s1

/-- The wake (R89, R90): the causes are recorded, the hub is in WATCH, a frozen gap opens an epoch, and the rails come
back; a dip that woke the hub is handled under R78, and the rails it sheds stay off. -/
def State.wakeUp (s : State) : State :=
  let w := s.sys.wakes
  let cold := decide (s.sys.pstate = .stowCold)
  let s1 := (s.toG0).modSys (fun y => { y with phase := .running, pstate := .watch, wakes := 0 })
  let s2 := (s1.setReg A.SYS_WAKE_CAUSE (s1.reg A.SYS_WAKE_CAUSE ||| BitVec.ofNat 32 w)).setFld F.SYS_PSTATE_STATE 1
  let s3 := if w &&& s2.fld F.SYS_WAKE_EN_HOST != 0 then s2.wakeHost F.SYS_HWAKE_STOW_WAKE else s2
  let s4 := if w.testBit 12 then s3.raise 0x0D 10 else s3
  let s5 := if cold then
      let t := s4.openEpoch epFROZEN 0 0 none
      { t with clk := { t.clk with mode := t.fld F.CLK_XO_MODE } }
    else s4
  let dip := w.testBit 14
  let s6 := forEach (List.range 3) (fun n s =>
    if !(s.sys.keepOn.testBit n) then s
    else if dip && s.on (F.PWR_VSENS_SHED n) then s.modSys (fun y => { y with railShed := y.railShed ||| 2 ^ n })
    else s.railOn n) s5
  let s7 := (s6.modSys (fun y => { y with keepOn := 0 })).excApply
  if dip then s7.dipEnter (s7.sys.dipStart.getD s7.ht) true else s7

/-- STOW_WAKE (R89, R90): the hub leaves Stow on the causes it has latched, and the governor answers. -/
def execStowWake (s : State) : Host.Outcome State Fault Refusal :=
  .next (s.when (decide (s.sys.phase = .stow) && s.sys.wakes != 0) fun s => s.wakeUp.regear)

/-! ## AMP_LOST (R57, R60) -/

/-- AMP_LOST: in WATCH, RUN and Booting the synthesizer runs, and holdover begins (R58). At GS, or when the oscillator fails
to start on a wake from STOW-COLD, the synthesizer runs free and the hub enters WATCH with HOLDOVER 1, where R58 applies
(R60); so it does where the move to GS is not yet complete (log entry 134). -/
def execAmpLost (startFailed : Bool) (s : State) : Host.Outcome State Fault Refusal :=
  let atStart := decide (s.sys.phase = .stow) && decide (s.sys.pstate = .stowCold) && s.sys.wakes != 0
  .next (s.when (if startFailed then atStart else s.cclk && s.on F.CLK_MON_AMP_OK) fun s =>
    let s1 := ((s.setFld F.CLK_MON_AMP_OK 0).setFld F.CLK_EVT_AMP_LOST 1).raise 0x02 8
    if s1.sys.phase = .stow then
      let s2 := s1.holdFrom s1.freeRun.holdFlags.wakeUp
      s2.when s2.awake State.regear
    else s1.unlock.holdover)

/-! ## Retention (R96) -/

/-- RETENTION_LOSS (R96): VSTORE fell below VRET; the batch memory and the output-queue pointers are lost. -/
def execRetentionLoss (s : State) : Host.Outcome State Fault Refusal :=
  .next (s.when (decide (s.sys.phase = .unpowered)) fun s =>
    { (s.modSys (fun y => { y with retained := false })) with closed := [], log := { s.log with kept := none } })

end Sys2Proof.Machine
end

