-- ==== Sys2Proof/Machine/Reckoner.lean ====
section
/-! DEFINITION. The Reckoner (R261-R264, R273-R277): the advance of Hub Time in a cycle, SYNC stamps, beacons, the
discipline loop and the slew. -/

namespace Sys2Proof.Machine

/-! ## Hub Time (R261) -/

/-- The nominal tick of 125/48 ns in accumulator units, rounded to the nearest. -/
def tickUnits : Nat := (2 * 125 * 2 ^ 96 + 48 * 1000000000) / (2 * 48 * 1000000000)

/-- F, in units of 2^-40: the home value 0 while the loop is off. -/
def State.rateF (s : State) : Int := s.loopOut loopDISC 0

/-- The rate 1 + F + q in units of 2^-40. -/
def State.rckRate (s : State) : Int := 2 ^ 40 + s.rateF + s.rck.q

/-- HT advances by one cycle of the gear at which CCLK runs (R45, R261), and the slew takes its part of the phase (R277). -/
def State.advance (s : State) : State :=
  let n := gearTicks s.cycleGear
  let inc := ((n * tickUnits : Nat) * s.rckRate) / 2 ^ 40
  let r := s.rck.phase - (n * tickUnits : Nat) * s.rck.q
  let ovr := decide (r = 0) || (decide (0 < r) != decide (0 < s.rck.phase))
  let stop := s.rck.q != 0 && ovr
  { s with rck := { s.rck with
      acc := (s.rck.acc + inc.toNat) % 2 ^ 128
      phase := if stop then 0 else if s.rck.q = 0 then s.rck.phase else r
      q := if stop then 0 else s.rck.q } }

/-! ## Slew (R277) -/

/-- KP; codes above 8 read 8. -/
def State.kp (s : State) : Nat := min 8 (s.fld F.RCK_DISC_CFG_KP)

/-- SLEW_MAX in units of 2^-40; 0 reads 1, above 1,000 reads 1,000. -/
def State.slewMax (s : State) : Int := ((min 1000 (max 1 (s.fld F.RCK_SLEWMAX_PPM)) * 2 ^ 40 / 1000000 : Nat) : Int)

/-- R in whole HT units. -/
def State.phaseHt (s : State) : Int := s.rck.phase.tdiv (2 ^ 104)

/-- Sets q for the remaining phase; the phase of a pair beyond STEP_LIMIT after the epochs are exhausted is slewed at
SLEW_MAX (R282). -/
def State.slewSet (s : State) : State :=
  let q : Int := if !(s.on F.RCK_CTRL_SLEW_EN) || s.rck.phase = 0 then 0
    else if s.rck.fast then (if 0 < s.rck.phase then s.slewMax else -s.slewMax)
    else clampInt (-s.slewMax) s.slewMax ((s.phaseHt * 2 ^ 40).tdiv ((2 ^ s.kp : Nat) * (s.rck.interval.getD (2 ^ 32) : Nat)))
  { s with rck := { s.rck with q := q } }

/-- A new phase replaces R; `fast` for one beyond STEP_LIMIT. -/
def State.setPhase (s : State) (r : Int) (fast : Bool) : State :=
  ({ s with rck := { s.rck with phase := r * 2 ^ 104, fast := fast } }).slewSet

/-! ## SYNC stamps and beacons (R273-R276) -/

/-- A SYNC stamp enters the table (R273); PIRQ bit 11. -/
def State.syncStamp (s : State) (stamp seq : Nat) : State :=
  let e : SyncEntry := ⟨stamp, seq % 65536, false, false, s.on F.CLK_SYN_HOLDOVER⟩
  let s1 := { s with rck := { s.rck with sync := e :: s.rck.sync.take 3 } }
  (((s1.setFld F.RCK_SYNC_LO_T (stamp % 2 ^ 32)).setFld F.RCK_SYNC_HI_T (stamp / 2 ^ 32)).setFld F.RCK_SYNC_SEQ_SEQ
    (seq % 65536)).raise 0x05 11

/-- STEP_LIMIT in HT units, rounded down (R276); codes below 10 read 10, above 1,000,000 read 1,000,000. -/
def State.stepLimit (s : State) : Nat := htUs (min 1000000 (max 10 (s.fld F.RCK_STEPLIM_US)))

/-- The outcome of a beacon (R274). -/
def State.beaconDone (s : State) (result : Nat) : State :=
  let s1 := s.setFld F.RCK_BCN_STAT_RESULT result
  if result < 4 then s1.addSat F.RCK_BCN_STAT_ACC 1 else (s1.addSat F.RCK_BCN_STAT_REF 1).raise 0x05 9

/-- The last accepted pair is this one, in the epoch now in force. -/
def State.pairDone (s : State) (e : SyncEntry) : State :=
  { s with rck := { s.rck with
      prev := some (e.stamp, s.epochIndex, e.hold)
      sync := s.rck.sync.map (fun x => if x = e then { x with paired := true } else x) } }

/-- F after a pair (R276): divisions truncate toward zero; the result is clamped under R149. -/
def State.discipline (s : State) (phi : Int) (dt : Nat) : State :=
  s.loopUpdate loopDISC ((s.loop loopDISC).out + (((phi * 2 ^ 40).tdiv (dt : Int)) * (s.loopStep loopDISC : Int)).tdiv 256)

/-- An accepted beacon (R276). -/
def State.beaconAccept (s : State) (e : SyncEntry) (src mt : Nat) : State :=
  let ofs := (mt + 2 ^ 64 - e.stamp % 2 ^ 64) % 2 ^ 64
  match s.rck.ofs with
  | none =>
    let before := ofsWord s.rck.ofs
    ((((s.putOfs (some ofs)).setPhase 0 false).epochRecord epDEFINE src e.seq before ofs).raise 0x05 8).pairDone e |>.beaconDone 3
  | some o =>
    let phi := signed 64 ((ofs + 2 ^ 64 - o) % 2 ^ 64)
    let s1 := s.setFld F.RCK_LASTPHI_PHI (code 32 (satInt 32 phi))
    if s.stepLimit < phi.natAbs ∧ !(s.on F.RCK_STAT_EXHAUSTED) then
      (((s1.openEpoch epSTEP src e.seq (some ofs)).setPhase 0 false).pairDone e).beaconDone 2
    else
      let s2 := match s1.rck.prev with
        | none => s1
        | some (sp, ep, hold) =>
          if ep = s1.epochIndex ∧ sp < e.stamp then
            let dt := e.stamp - sp
            let s3 := if !hold && !e.hold && !(s1.on F.CLK_SYN_HOLDOVER) && s1.loopLive loopDISC then s1.discipline phi dt else s1
            { s3 with rck := { s3.rck with interval := some dt } }
          else s1
      ((s2.setPhase phi (decide (s.stepLimit < phi.natAbs))).pairDone e).beaconDone 1

/-- A beacon is submitted (R274, R275): `signed` for one of STEWARD acting for tenant 0. The cycle in which HT reaches the
end of the window is still within it (R189). -/
def State.beacon (s : State) (isSigned : Bool) (seq mt : Nat) : State :=
  if (s.on F.RCK_CTRL_BSRC || s.shadowBad.contains A.RCK_CTRL) && !isSigned then s.beaconDone 0xC
  else match firstWith (fun e => e.seq == seq % 65536) s.rck.sync with
    | none => s.beaconDone 8
    | some e =>
      if e.paired then s.beaconDone 0xA
      else if (match s.rck.prev with | none => false | some (sp, _, _) => decide (e.stamp < sp)) then s.beaconDone 0xB
      else if e.stamp + 2 ^ 32 + s.cyclesHt 1 < s.ht then s.beaconDone 9
      else s.beaconAccept e (if isSigned then 2 else 1) mt

/-- BEACON_WINDOW_END (R273): one second after a SYNC stamp its pair stops awaiting its write. -/
def execBeaconWindowEnd (seq : Nat) (s : State) : Host.Outcome State Fault Refusal :=
  .next (s.when s.cclk fun s =>
    { s with rck := { s.rck with sync := s.rck.sync.map (fun e =>
        if e.seq == seq % 65536 && !e.paired && decide (e.stamp + 2 ^ 32 ≤ s.ht) then { e with ended := true } else e) } })

end Sys2Proof.Machine
end

