-- ==== Sys2Proof/Machine/Sextant.lean ====
section
/-! DEFINITION. The Sextant (R286-R298): inputs, the tracking observer, lock, the output angle, the bandwidth loop and
the angle lookup. Angles are integers in 2^-64 revolution, rates in 2^-32 rev/s. -/

namespace Sys2Proof.Machine

def State.modSxt (s : State) (f : Sxt → Sxt) : State := { s with sxt := f s.sxt }

/-! ## Inputs in use (R288) -/

def State.sxtMode (s : State) : Nat := s.fld F.SXT_CFG_MODE

/-- The gyro sets the rate. -/
def State.gyroUsed (s : State) : Bool :=
  s.on F.SXT_YIN_EN && (s.sxtMode == 2 || s.sxtMode == 3)

/-- IDX gives absolute measurements. -/
def State.idxUsed (s : State) : Bool :=
  s.sxtMode == 0 || s.sxtMode == 3 || (s.sxtMode == 2 && s.on F.SXT_CFG_GYRO_IDX)

/-- VMAX in rev/s; 0 reads 1. -/
def State.vmax (s : State) : Nat := max 1 (s.fld F.SXT_CFG_VMAX)

/-- The gravity input is used: enabled, in its modes, and at no more than VMAX. -/
def State.gravUsed (s : State) : Bool :=
  s.on F.SXT_GIN_EN && (s.sxtMode == 1 || s.sxtMode == 3) && decide (s.sxt.omega.natAbs ≤ s.vmax * 2 ^ 32)

/-- GYRO without IDX: gyro samples are the measurements (R293). -/
def State.gyroAlone (s : State) : Bool := s.sxtMode == 2 && !(s.on F.SXT_CFG_GYRO_IDX)

/-- ACQ, LOSE, MISS: 0 reads 1. -/
def State.acq (s : State) : Nat := max 1 (s.fld F.SXT_LOCK_ACQ)
def State.lose (s : State) : Nat := max 1 (s.fld F.SXT_LOCK_LOSE)
def State.miss (s : State) : Nat := max 1 (s.fld F.SXT_LOCK_MISS)

def State.locked (s : State) : Bool := s.on F.SXT_STAT_LOCK

/-! ## The displays (R307) -/

/-- SXT_STAT, SXT_SPEED, SXT_BIAS and SXT_GOFS_CUR. REL is 1 where a first lock set the zero (R288). -/
def State.sxtShow (s : State) : State :=
  let s0 := s.putOn F.SXT_STAT_REL (s.gyroAlone && s.sxt.relZero)
  let s1 := ((s0.putOn F.SXT_STAT_NEG (decide (s.sxt.omega < 0))).putOn F.SXT_STAT_GRAV s.gravUsed).putOn F.SXT_STAT_GYRO s.gyroUsed
  let s2 := (s1.setFld F.SXT_STAT_GOOD (min 15 s.sxt.good)).setFld F.SXT_SPEED_W (code 32 (quot s.sxt.omega (2 ^ 16)))
  (s2.setFld F.SXT_BIAS_B (code 32 (quot s.sxt.bias (2 ^ 16)))).setFld F.SXT_GOFS_CUR_A s.sxt.gofs.toNat

/-! ## The output angle (R295) -/

/-- θo follows θ, never against the direction of rotation. -/
def State.follow (s : State) : State :=
  let d := (s.sxt.theta - s.sxt.out).toInt
  if (if s.on F.SXT_STAT_NEG then d ≤ 0 else 0 ≤ d) then s.modSxt (fun x => { x with out := x.theta }) else s

/-- The prediction of one cycle (R291), `d` the HT advance in HT units. -/
def State.predict (s : State) (d : Nat) : State :=
  if s.pageOn 0x07 then
    (s.modSxt (fun x => { x with theta := x.theta + BitVec.ofInt 96 (x.omega * (d : Int)) })).follow
  else s

/-! ## Lock (R293, R294) -/

/-- 0.1 ≤ |ω| ≤ 1,000 rev/s. -/
def State.tooSlow (s : State) : Bool := decide (s.sxt.omega.natAbs * 10 < 2 ^ 32)
def State.tooFast (s : State) : Bool := decide (1000 * 2 ^ 32 < s.sxt.omega.natAbs)

/-- Lock is lost (R294): acquisition begins again, and REV continues. -/
def State.sxtLose (s : State) (cause : Nat) : State :=
  if s.locked then
    let s1 := (s.setFld F.SXT_STAT_LOCK 0).setFld F.SXT_STAT_CAUSE cause
    let s2 := ((s1.setFld F.SXT_EVT_LOST 1).setFld F.SXT_EVT_REV_SUSPECT 1).addSat F.SXT_CNT_LOSSES 1
    let s3 := s2.modSxt (fun x => { x with
      good := 0, bad := 0, nIdx := 0, nGrav := 0, gyroTimes := [], lost := (s.ht, s.outAngle, x.omega)
      hist := match x.hist with | [] => [] | h :: t => { h with lost := some (h.lost.getD s.ht) } :: t })
    (((((s.risen [0x07] s3).raise 0x07 8).raise 0x18 9).presentAt 49)).sxtShow
  else s

/-- Lock is acquired (R293-R295): θo takes θ, and no comparator fires for the angle that it takes (R296); each armed ANGLE
descriptor triggers next at its first target (R256). -/
def State.sxtGain (s : State) : State :=
  let first := s.gyroAlone && !s.sxt.relZero
  let s1 := if first then
      (s.modSxt (fun x => { x with
        theta := BitVec.ofNat 96 (x.theta.toNat / 2 ^ 64 * 2 ^ 64 + s.fld F.SXT_ZERO_A * 2 ^ 32), relZero := true }))
    else s
  let s2 := (s1.setFld F.SXT_STAT_LOCK 1).modSxt (fun x => { x with
    out := x.theta, bad := 0, cmpPast := List.replicate 16 (x.theta.toNat / 2 ^ 32) })
  let s3 := ((s2.setFld F.SXT_EVT_GAINED 1).addSat F.SXT_CNT_LOCKS 1).sxtShow
  let s4 := forEach s3.liveDescs (fun d s => s.modDesc d (fun x =>
    if dEn x.words && dTrig x.words == 1 && x.armed then { x with next := s.firstAngle x.words, lockSeen := true } else x)) s3
  (s4.raise 0x07 9).presentAt 50

/-- What the state of the observer decides about lock after a correction or a gyro sample. -/
def State.lockCheck (s : State) : State :=
  if s.locked then
    if s.lose ≤ s.sxt.bad then s.sxtLose 1
    else if s.tooSlow then s.sxtLose 3
    else if s.tooFast then s.sxtLose 4
    else s
  else if s.acq ≤ s.sxt.good ∧ !(s.tooSlow) ∧ !(s.tooFast) then s.sxtGain
  else s

/-- A history entry at a correction or a gyro sample while LOCK is 1 (R298). -/
def State.history (s : State) : State :=
  if s.locked then s.modSxt (fun x => { x with hist := (⟨s.ht, x.theta.toInt, x.omega, none⟩ :: x.hist).take 256 }) else s

/-! ## Measurements (R292) -/

/-- A whole fraction as an angle in [-1/2, 1/2) revolution. -/
def wrapRev (x : Int) : Int := signed 64 (code 64 x)

/-- SXT_RESID: the last residual and the root of the mean square of the last 16. -/
def State.residual (s : State) (e : Int) : State :=
  let s1 := s.modSxt (fun x => { x with resid := (e :: x.resid).take 16 })
  let l := s1.sxt.resid
  let ms := quot (l.foldl (fun a x => a + x * x) 0) ((l.length : Int) * 2 ^ 80)
  (s1.setFld F.SXT_RESID_LAST (code 16 (satInt 16 (quot e (2 ^ 40))))).setFld F.SXT_RESID_RMS (min 65535 (rootFree ms.natAbs 1))

/-- The equations of R292, with the residual `e`, the interval `t` since the measurement before of its kind; `count` tells
that GOOD counts the measurement: in acquisition the first three of a kind do not, so that a lock takes 3 and ACQ more
(R305). -/
def State.correct (s : State) (isIdx : Bool) (e : Int) (t : Nat) (count : Bool) : State :=
  let one : Int := 2 ^ 32
  let wt : Int := Config.wnT (s.loopOut loopBW 100).toNat t
  let k1 : Int := if s.locked then min one (quot (14142 * wt) 10000) else one
  let k2 : Int := if s.locked then min (quot (k1 * k1) (2 * one)) (quot (wt * wt) one) else one / 2
  let dth := quot (k1 * e) one
  let dw := quot (k2 * e) (one * (t : Int))
  let s1 := s.modSxt (fun x => { x with
    theta := x.theta + BitVec.ofInt 96 dth
    bias := if s.gyroUsed then x.bias - dw else x.bias
    omega := x.omega + dw
    gofs := if s.sxtMode == 3 && s.locked && !isIdx then
        x.gofs - BitVec.ofInt 32 (quot e (2 ^ (s.fld F.SXT_CFG_GL + 32)))
      else x.gofs })
  let thr : Int := s.fld F.SXT_LOCK_THR * 2 ^ 50
  let ok := decide ((e.natAbs : Int) ≤ thr)
  let bad := decide (2 * thr < (e.natAbs : Int))
  (s1.modSxt (fun x => { x with good := if ok && count then x.good + 1 else 0, bad := if bad then x.bad + 1 else 0 })).residual e

/-- The second measurement of a kind sets ω in acquisition, unless the gyro is used. The direction of an IDX edge is
DIR, or what gravity has sensed in FUSED (R288). -/
def State.setSpeed (s : State) (isIdx : Bool) (m : BitVec 32) (t : Nat) : State :=
  if s.gyroUsed then s
  else
    let back := if s.sxtMode == 3 && s.gravUsed && decide (2 ≤ s.sxt.nGrav) then decide (s.sxt.omega < 0) else s.on F.SXT_CFG_DIR
    let w : Int :=
      if isIdx then (if back then -(quot (2 ^ 64) t) else quot (2 ^ 64) t)
      else quot ((m - s.sxt.lastMeas).toInt * 2 ^ 32) t
    s.modSxt (fun x => { x with omega := w })

/-- An absolute measurement `m` with its stamp (R292). -/
def State.measure (s : State) (isIdx : Bool) (m : BitVec 32) (stamp : Nat) : State :=
  let n := if isIdx then s.sxt.nIdx else s.sxt.nGrav
  let last := if isIdx then s.sxt.lastIdx else s.sxt.lastGrav
  let t := if last = 0 then Config.firstInterval stamp else stamp - last
  let s1 :=
    if !(s.locked) && n == 0 then
      s.modSxt (fun x => { x with theta := BitVec.ofNat 96 (x.theta.toNat / 2 ^ 64 * 2 ^ 64 + m.toNat * 2 ^ 32) })
    else if !(s.locked) && n == 1 then s.setSpeed isIdx m t
    else
      let pred : Int := s.sxt.theta.toNat - s.sxt.omega * ((s.ht : Int) - stamp)
      s.correct isIdx (wrapRev ((m.toNat : Int) * 2 ^ 32 - pred)) t (s.locked || decide (3 ≤ n))
  let s2 := s1.modSxt (fun x =>
    if isIdx then { x with lastIdx := stamp, nIdx := x.nIdx + 1 }
    else { x with lastGrav := stamp, nGrav := x.nGrav + 1, lastMeas := m })
  (((s2.sxtShow).history).follow).lockCheck.sxtShow

/-- IDX_MEASUREMENT (R292): the newest IDX stamp, 5 cycles after its edge. -/
def execIdxMeasurement (s : State) : Host.Outcome State Fault Refusal :=
  let st := (s.chan 8).newest
  .next (s.when (s.awake && s.pageOn 0x07 && s.idxUsed && decide (s.sxt.lastIdx < st)) fun s =>
    (s.setFld F.SXT_STAT_NOIDX 0).measure true (BitVec.ofNat 32 (s.fld F.SXT_ZERO_A)) st)

/-- No IDX measurement for MISS intervals of 1/|ω| (R293). -/
def State.idxLate (s : State) : Bool := decide (s.miss * 2 ^ 64 ≤ s.sxt.omega.natAbs * (s.ht - s.sxt.lastIdx))

/-- NOIDX (R293): IDX is missing in FUSED. -/
def State.idxMissing (s : State) : State :=
  if s.sxtMode == 3 && s.idxLate then s.setFld F.SXT_STAT_NOIDX 1 else s

/-- No measurement since `last` for MISS means of the last 8 intervals between the samples stamped `l`, newest first
(R293). -/
def State.sampleLate (s : State) (l : List Nat) (last : Nat) : Bool :=
  decide (s.miss * (l.headD 0 - l.getLast?.getD 0) ≤ (s.ht - last) * (l.length - 1))

/-- MISSING (R293): every kind of measurement in use is late. -/
def State.sxtMissing (s : State) : Bool :=
  (!s.idxUsed || s.idxLate) && (!s.gravUsed || s.sampleLate s.sxt.gravTimes s.sxt.lastGrav)
    && (!s.gyroAlone || s.sampleLate s.sxt.gyroTimes s.sxt.lastGyro)

/-! ## Samples (R289, R290) -/

/-- The byte of a sample; one beyond its end is a free value. -/
def byteAt (l : List Byte) (i : Nat) : Byte := l.getD i (Config.noByte i)

/-- A signed value of `n` bytes at an offset, in either byte order. -/
def valAt (l : List Byte) (off n : Nat) (be : Bool) : Int :=
  let bs := (List.range n).map (fun i => byteAt l (off + i))
  signed (8 * n) (if be then numBE bs else numLE bs)

/-- A gravity sample (R289). -/
def State.gravitySample (s : State) (data : List Byte) (stamp : Nat) : State :=
  let be := s.on F.SXT_GIN_BE
  let x0 := valAt data (s.fld F.SXT_GIN_XOFF) 2 be
  let y0 := valAt data (s.fld F.SXT_GIN_YOFF) 2 be
  let x := (if s.on F.SXT_GIN_XNEG then -x0 else x0) * 2 ^ 16
  let y := (if s.on F.SXT_GIN_YNEG then -y0 else y0) * 2 ^ 16
  let k : Int := 2 ^ s.fld F.SXT_CFG_DCK
  let s1 := s.modSxt (fun z => { z with
    xd := z.xd + quot (x - z.xd) k, yd := z.yd + quot (y - z.yd) k, gravTimes := (stamp :: z.gravTimes).take 9 })
  let u := x - s1.sxt.xd
  let v := y - s1.sxt.yd
  let amin : Int := s.fld F.SXT_GCFG_AMIN * 2 ^ 16
  if u * u + v * v < amin * amin then s1.setFld F.SXT_EVT_WEAK 1
  else
    let m := s1.sxt.gofs - BitVec.ofInt 32 (Config.atan2 v u)
    let d := signed 16 (s.fld F.SXT_GCFG_DELAY)
    (s1.measure false m ((stamp : Int) - quot (d * 2 ^ 32) 1000000).toNat).idxMissing

/-- A gyro sample (R290): the rate is g − b; in GYRO without IDX it counts as a measurement. -/
def State.gyroSample (s0 : State) (data : List Byte) (stamp : Nat) : State :=
  let s := s0.modSxt (fun x => { x with gyroTimes := (stamp :: x.gyroTimes).take 9 })
  let raw0 := valAt data (s.fld F.SXT_YIN_OFF) 2 (s.on F.SXT_YIN_BE)
  if raw0 = 0x7FFF ∨ raw0 = -0x8000 then s.setFld F.SXT_EVT_GSAT 1
  else
    let g := (if s.on F.SXT_YIN_NEG then -raw0 else raw0) * (s.fld F.SXT_YSCALE_K : Int)
    let s1 := s.modSxt (fun x => { x with gyro := g, omega := g - x.bias, lastGyro := stamp, good := if s.gyroAlone && (s.locked || decide (4 ≤ x.gyroTimes.length)) then x.good + 1 else x.good })
    ((((s1.sxtShow).history).follow).lockCheck).idxMissing.sxtShow

/-- An input of the Sextant may take samples of descriptor `d` (R287): it is enabled, and its stream is the page owner's or
granted to it; `grant` are the tenants that it was owned by or granted to when the sample was enqueued (R251). -/
def State.sxtTakes (s : State) (d grant : Nat) : Bool :=
  dEn (s.desc d).words && dUsable (s.desc d).words (s.pageTenant 0x07) && grant.testBit (s.pageTenant 0x07)

/-- A sample of descriptor `d` is presented to the Sextant (R287). -/
def State.sextantSample (s : State) (d grant : Nat) (data : List Byte) (stamp : Nat) : State :=
  if s.pageOn 0x07 && s.sxtTakes d grant then
    let s1 := if s.gravUsed && s.fld F.SXT_GIN_DSC == d then s.gravitySample data stamp else s
    if s1.gyroUsed && s1.fld F.SXT_YIN_DSC == d then s1.gyroSample data stamp else s1
  else s

/-- The observer restarts in acquisition (R292, R307, R411): lock is lost with the cause. -/
def State.sxtRestart (s : State) (cause : Nat) : State :=
  ((s.sxtLose cause).modSxt (fun x => { x with
    omega := 0, bias := 0, xd := 0, yd := 0, gofs := BitVec.ofNat 32 (s.fld F.SXT_GOFS_A)
    good := 0, bad := 0, nIdx := 0, nGrav := 0, relZero := false, resid := [], gravTimes := [], gyroTimes := [] })).sxtShow

/-- SXT_LOCK_LOST (R293, R294): a loss that the observer's state or the lack of measurements decides. -/
def execSxtLockLost (cause : Nat) (s : State) : Host.Outcome State Fault Refusal :=
  let holds := match cause with
    | 1 => decide (s.lose ≤ s.sxt.bad)
    | 2 => s.sxtMissing
    | 3 => s.tooSlow
    | 4 => s.tooFast
    | _ => false
  .next (s.when (s.awake && s.pageOn 0x07 && holds) fun s => s.sxtLose cause)

/-- The angle that a comparator has come past (R296): θo when it was enabled or lock was acquired, then each angle at which
it fires. -/
def State.cmpFrom (s : State) (k : Nat) : Nat := s.sxt.cmpPast.getD k 0

/-- How far on from there the comparator's ANGLE next lies: more than nothing, and at most one revolution. -/
def State.cmpDist (s : State) (k : Nat) : Nat :=
  let a : Int := s.fld (F.SXT_CMP_ANGLE k) * 256
  let p : Int := s.cmpFrom k
  (((if s.angleBack then p - a else a - p) - 1) % 2 ^ 32).toNat + 1

/-- θo has reached or passed the comparator's angle since (R296). -/
def State.cmpPasses (s : State) (k : Nat) : Bool := decide ((s.cmpDist k : Int) ≤ s.anglePast (s.cmpFrom k))

/-- ANGLE_COMPARATOR_FIRE (R296): θo has reached or passed an enabled comparator's angle. -/
def execAngleComparatorFire (k : Nat) (s : State) : Host.Outcome State Fault Refusal :=
  .next (s.when (decide (k < 16) && s.awake && s.locked && s.on (F.SXT_CMP_EN k) && s.cmpPasses k) fun s =>
    let s0 := s.modSxt (fun x => { x with cmpPast := listSet x.cmpPast k (s.angleOn (s.cmpFrom k) (s.cmpDist k)) })
    let s1 := (s0.setBit F.SXT_CMPSTAT_FIRED k).raise 0x07 10
    let s2 := if s1.on (F.SXT_CMP_ONCE k) then s1.setFld (F.SXT_CMP_EN k) 0 else s1
    s2.presentCmp k)

/-- BANDWIDTH_UPDATE (R297). -/
def execBandwidthUpdate (s : State) : Host.Outcome State Fault Refusal :=
  .next (s.when (s.awake && s.pageOn 0x07 && s.locked && s.loopLive loopBW) fun s =>
    let b := (s.loop loopBW).out
    let step : Int := s.loopStep loopBW
    let num : Int := (s.sxt.omega.natAbs * max 1 (s.fld F.SXT_BW_CFG_RATIO) * 100 : Nat)
    let den : Int := 256 * 2 ^ 32
    s.loopUpdate loopBW (if (b + step) * den < num then b + step else if num < (b - step) * den then b - step else quot num den))

/-! ## Angle lookup (R298) -/

/-- The latest entry at or before `h`. -/
def histAt (h : Nat) (l : List Hist) : Option Hist := firstWith (fun e => decide (e.ht ≤ h)) l

/-- The angle at HT `h`, in 2^-64 revolution; none where the lookup fails. -/
def State.lookup (s : State) (h : Nat) : Option Int :=
  match histAt h s.sxt.hist with
  | none => none
  | some e => if (match e.lost with | none => false | some l => decide (l ≤ h)) then none
    else some (e.theta + e.rate * ((h : Int) - e.ht))

/-! ## ANGLE descriptors (R240, R255) -/

/-- ANGLE_TRIGGER (R240): the output angle has reached or passed the next target; each target passed over beyond the
first is a skip with detail OVERRUN. -/
def execAngleTrigger (d : Nat) (s : State) : Host.Outcome State Fault Refusal :=
  let x := s.desc d
  let gone := s.anglePast x.next
  .next (s.when (s.running && x.armed && dEn x.words && dTrig x.words == 1 && s.locked && decide (0 ≤ gone)) fun s =>
    let n := gone.toNat / dStep x.words
    ((s.modDesc d (fun y => { y with next := s.angleOn x.next ((n + 1) * dStep x.words) })).trigger d none).psqSkips d gcSEQ
      (some 0) n)

/-- NO_LOCK_TARGET_SKIP (R255): the extrapolated angle has reached or passed the next target of an armed ANGLE descriptor. -/
def execNoLockTargetSkip (d : Nat) (s : State) : Host.Outcome State Fault Refusal :=
  let x := s.desc d
  .next (s.when (s.running && x.armed && x.lockSeen && dEn x.words && dTrig x.words == 1 && !(s.locked)
      && decide (0 ≤ s.anglePast x.next)) fun s =>
    (s.modDesc d (fun y => { y with next := s.angleOn x.next (dStep x.words) })).psqSkips d gcSEQ (some 4) 1)

/-- ANGLE_WITHDRAW (R255): in the cycle after lock is lost the pending requests of ANGLE descriptors are withdrawn. -/
def execAngleWithdraw (s : State) : Host.Outcome State Fault Refusal :=
  .next (s.when (s.running && !(s.locked)) fun s =>
    s.withdrawAll (fun _ x => match x.pend with | some r => dTrig r.words == 1 | none => false) gcSEQ (some 4))

end Sys2Proof.Machine
end

