-- ==== Sys2Proof/Machine/Streams.lean ====
section
/-! DEFINITION. Streams and their copies (R226, R250, R251, R268, R329, R331, R363): who selects a stream, one copy per
consumer, REVOKED records; edge stamps (R265-R269), interpolator calibration (R270-R272), and the service of the capture
queues by the Stamp unit (R494). -/

namespace Sys2Proof.Machine

/-! ## Selections -/

def routeKey (kind idx t : Nat) : Nat := (kind * 256 + idx) * 8 + t

/-- The route of a stream for a tenant: EN and LANE as BND_DROUTE has them. -/
def State.route (s : State) (kind idx t : Nat) : Nat := mapGet (fun _ => 0) s.routes (routeKey kind idx t)
def State.setRoute (s : State) (kind idx t v : Nat) : State :=
  { s with routes := mapSet (fun _ => 0) s.routes (routeKey kind idx t) v }

/-- The enabled units whose input select names the source. -/
def State.unitsOn (s : State) (src idx : Nat) : List Nat :=
  allUnits.filter (fun u => s.on (F.ASY_CFG_EN u) && s.fld (F.ASY_IN_SRC u) == src && s.fld (F.ASY_IN_SRCIDX u) == idx)

/-- The enabled Resampler channels whose input names the source. -/
def State.rsmsOn (s : State) (src idx : Nat) : List Nat :=
  (List.range 8).filter (fun c =>
    s.on (F.RSM_CH_CFG_EN c) && s.fld (F.RSM_CH_IN_SRC c) == src && s.fld (F.RSM_CH_IN_SRCIDX c) == idx)

/-- A consumer of a stream: its queue and whether the stream is owned by, or granted to, its owner. -/
def State.consumers (s : State) (unitSrc : Nat) (rsmSrc : Option Nat) (routeKind : Option Nat) (idx : Nat)
    (may : Nat → Bool) : List (Nat × Bool) :=
  (s.unitsOn unitSrc idx).map (fun u => (qUnit u, may (s.fld (F.ASY_CFG_OWNER u))))
    ++ (match rsmSrc with
        | none => []
        | some r => (s.rsmsOn r idx).map (fun c => (qRsm c, may (s.fld (F.RSM_CH_CFG_OWNER c)))))
    ++ (match routeKind with
        | none => []
        | some k => ((List.range 8).filter (fun t => (s.route k idx t).testBit 0)).map
            (fun t => (qIntake t (s.route k idx t / 2 % 4), may t)))

/-- The consumers of a descriptor's stream (R250). -/
def State.descConsumers (s : State) (d : Nat) : List (Nat × Bool) :=
  s.consumers 0 (some 0) (some 0) d (fun t => dUsable (s.desc d).words t)

/-- The consumers of a capture entry: the grants are those in force when it was enqueued (R251). -/
def State.captureConsumers (s : State) (c : Capture) : List (Nat × Bool) :=
  s.consumers 0 (some 0) (some 0) c.desc (fun t => c.grant.testBit t)

/-- The owner of a capture channel; channel 9 is tenant 0's. -/
def State.chanOwner (s : State) (c : Nat) : Nat := if c = 9 then 0 else s.fld (F.STP_CH_CFG_OWNER c)

/-- The consumers of an edge stream: only its owner's. -/
def State.edgeConsumers (s : State) (c : Nat) : List (Nat × Bool) :=
  s.consumers 3 none (some 1) c (fun t => t == s.chanOwner c)

/-- The consumers of a unit's output stream other than its own lane (R329, R331). -/
def State.unitConsumers (s : State) (u : Nat) : List (Nat × Bool) :=
  s.consumers 1 (some 1) none u (fun t => t == s.fld (F.ASY_CFG_OWNER u) || s.bit (F.ASY_OUT_GRANT u) t)

/-- The units that select a Resampler channel (R302). -/
def State.rsmConsumers (s : State) (c : Nat) : List (Nat × Bool) :=
  s.consumers 2 none none c (fun t => t == s.fld (F.RSM_CH_CFG_OWNER c))

/-! ## Copies -/

/-- Slots of an item in a queue: an intake queue holds its header too. -/
def copySlots (q : Nat) (i : Item) : Nat :=
  if 0x48 ≤ q ∧ q < 0x68 then itemSlots i else ceilDiv i.payload.length 32

/-- One more withheld copy in the held REVOKED record of a source (R251). -/
def addRevoked (src : Nat) (x : GapPart) : List PendRec → List PendRec
  | [] => [⟨src, some x, none, false, false, true⟩]
  | r :: t =>
    if r.src == src && r.held && (match r.own with | some o => o.detail == 128 | none => false) then
      { r with own := extendOpt r.own (some x) } :: t
    else r :: addRevoked src x t

/-- The REVOKED record of a source is held no longer: the grant is back, or the consumer has let the stream go. -/
def dropRevoked (src : Nat) (l : List PendRec) : List PendRec :=
  l.map (fun r =>
    if r.src == src && r.held && (match r.own with | some o => o.detail == 128 | none => false) then { r with held := false }
    else r)

def State.unrevoke (s : State) (q : Nat) (p : Producer) (src : Nat) : State :=
  s.setPend q p (dropRevoked src (s.pendOf q p))

/-- One copy of an item for one consumer. -/
def State.copyTo (s : State) (p : Producer) (i : Item) (c : Nat × Bool) : State :=
  if c.2 then (s.unrevoke c.1 p i.src).enqueue c.1 p (copySlots c.1 i) (.item i) i.src i.ht
  else s.setPend c.1 p (addRevoked i.src (part1 gcSEQ (some 7) i.ht) (s.pendOf c.1 p))

def State.copyAll (s : State) (p : Producer) (i : Item) (l : List (Nat × Bool)) : State :=
  forEach l (fun c s => s.copyTo p i c) s

/-- A GAP record goes on to every consumer, or to the owner's L1 where there is none (R165, R365). -/
def State.gapAll (s : State) (p : Producer) (g : Gap) (owner : Nat) (l : List (Nat × Bool)) : State :=
  let l1 := l.filter (fun c => c.2)
  if l1.isEmpty then s.forwardGap (qIntake owner 1) p g else forEach l1 (fun c s => s.forwardGap c.1 p g) s

/-! ## Edge stamps (R265-R269) -/

/-- A stamp on a channel: COUNT advances, the join ring takes it. Stamps of a channel are strictly increasing. -/
def State.stampChan (s : State) (ch stamp missed : Nat) : State :=
  s.modChan ch (fun c =>
    let t := if c.newest = 0 then stamp else max stamp (c.newest + 1)
    let n := (c.count + 1 + missed) % 2 ^ 30
    { c with
      newest := t
      count := n
      missed := min (c.missed + missed) 65535
      ring := ((n, t, s.on F.CLK_SYN_HOLDOVER) :: c.ring).take 16 })

/-- A channel's sample of the edge stream (R268). -/
def State.edgeStream (s : State) (ch : Nat) (falling : Bool) : State :=
  if s.on (F.STP_CH_CFG_STREAM ch) then
    let c := s.chan ch
    let hold := s.on F.CLK_SYN_HOLDOVER
    let w := c.count + (if hold then 2 ^ 30 else 0) + (if falling then 2 ^ 31 else 0)
    s.copyAll .stamp ⟨0x01, if hold then 4 else 0, srcCap ch, c.count % 65536, c.newest, bytesLE 8 c.newest ++ bytesLE 4 w⟩
      (s.edgeConsumers ch)
  else s

/-- SKEW of a channel, signed ps. -/
def State.skew (s : State) (ch : Nat) : Int := signed 16 (s.fld (F.STP_CH_CFG_SKEW ch))

/-- The stamp of R267, in HT units: `ticks` from the start of the cycle to E, tap code `c`; rounded to the nearest. -/
def State.edgeTime (s : State) (ch ticks c : Nat) : Nat :=
  let tc : Int := ((mapGet (fun _ => line0) s.lines ch).table.getD c 0 : Nat)
  let perTick : Int := (tickUnits : Int) * s.rckRate
  let acc : Int := ((s.rck.acc : Int) * 2 ^ 40 * 256 + ((ticks : Int) * 256 - tc) * perTick) * 1000000000000
  let skew : Int := s.skew ch * 2 ^ 96 * 2 ^ 40 * 256
  let unit : Int := 2 ^ 104 * 256 * 1000000000000
  ((2 * (acc - skew) + unit) / (2 * unit)).toNat

/-- EDGE_STAMP (R266, R267): an edge of a pin channel; `missed` further qualified edges fell in the cycle. The synchroniser
holds the level after it (R27). -/
def execEdgeStamp (ch : Nat) (falling : Bool) (missed ticks code : Nat) (s : State) : Host.Outcome State Fault Refusal :=
  let e := s.fld (F.STP_CH_CFG_EDGE ch)
  let good := if ch < 9 then s.on F.PWR_BANK_VSENSIO_OK else s.on F.PWR_BANK_VIOH_OK
  let dir := e == 2 || (e == 0 && !falling) || (e == 1 && falling)
  let up := if e = 2 ∧ missed % 2 = 1 then falling else !falling
  let pinned := s.when (decide (ch < 10) && s.awake && good) fun s => s.setPin ch up
  .next (pinned.when (decide (ch < 10) && s.awake && s.on (F.STP_CH_CFG_EN ch) && good && dir) fun s =>
    let s1 := s.stampChan ch (s.edgeTime ch ticks code) missed
    let s2 := if 0 < missed then s1.raise 0x06 8 else s1
    let c := s2.chan ch
    let s3 := (s2.setFld (F.STP_CH_LO_T ch) (c.newest % 2 ^ 32)).setFld (F.STP_CH_HI_T ch) (c.newest / 2 ^ 32)
    let s4 := if ch = 9 then s3.syncStamp c.newest c.count else s3
    (s4.presentEdge ch c.count).edgeStream ch falling)

/-! ## Interpolator calibration (R270-R272) -/

def State.lineOf (s : State) (n : Nat) : Line := mapGet (fun _ => line0) s.lines n
def State.setLine (s : State) (n : Nat) (l : Line) : State := { s with lines := mapSet (fun _ => line0) s.lines n l }

/-- N = 2^NLOG; codes below 10 read 10. -/
def State.icalN (s : State) : Nat := 2 ^ max 10 (s.fld F.STP_ICAL_CFG_NLOG)

/-- The table after an update (R270): the running sum of hits, and each code's centre. -/
def tableUpdate (n tab : Nat) : Int → List Nat → List Nat → List Nat
  | _, [], _ => []
  | acc, t :: ts, hs =>
    let h : Int := (hs.headD 0 : Nat)
    let c : Int := (256 * (acc + h / 2)).tdiv n
    ((t : Int) + (c - t).tdiv (2 ^ tab)).toNat :: tableUpdate n tab (acc + h) ts (hs.drop 1)

def lineHits (l : Line) : Nat := l.hits.foldl (· + ·) 0

/-- An update of every line's table, of the shared trim (R271), and of ICAL_READY (R272). -/
def State.icalUpdate (s : State) : State :=
  let n := s.icalN
  let tab := min 8 (s.fld F.STP_ICAL_CFG_TAB)
  let en := (List.range 10).filter (fun c => s.on (F.STP_CH_CFG_EN c))
  let ovr := en.foldl (fun m c => m + ((s.lineOf c).hits.drop 32).foldl (· + ·) 0) 0
  let tops := en.map (fun c => (s.lineOf c).hits.getD 31 0)
  let s1 := forEach (List.range 10) (fun c s =>
    let l := s.lineOf c
    s.setLine c ⟨tableUpdate n tab 0 l.table l.hits, List.replicate 40 0⟩) s
  let g := loopICAL
  let o := (s1.loop g).out
  let step : Int := s1.loopStep g
  let s2 :=
    if s1.loopLive g && !en.isEmpty then
      s1.loopUpdate g (if n / 1024 < ovr then o + step else if tops.foldl min (tops.headD 0) < n / 64 then o - step else o)
    else s1
  let same := decide (s2.loopOut g 128 = s1.loopOut g 128)
  let s3 : State := { s2 with icalRun := if same then s2.icalRun + 1 else 0 }.addSat F.STP_STAT_UPDATES 1
  if 8 ≤ s3.fld F.STP_STAT_UPDATES ∧ 2 ≤ s3.icalRun ∧ !(s3.on F.STP_STAT_ICAL_READY) then
    (s3.setFld F.STP_STAT_ICAL_READY 1).raise 0x06 9
  else s3

/-- ICAL_HIT (R270): a hit on a line while the synthesizer is on; the update follows when every line has N. -/
def execIcalHit (line code : Nat) (s : State) : Host.Outcome State Fault Refusal :=
  .next (s.when (decide (line < 10) && decide (code < 40) && s.cclk && s.on F.CLK_SYN_ON) fun s =>
    let l := s.lineOf line
    let s1 := if s.icalN ≤ lineHits l then s
      else s.setLine line { l with hits := listSet l.hits code (l.hits.getD code 0 + 1) }
    if (List.range 10).all (fun c => decide (s1.icalN ≤ lineHits (s1.lineOf c))) then s1.icalUpdate else s1)

/-! ## The Stamp unit (R494) -/

/-- The head entry of a capture queue comes from an URGENT descriptor. -/
def State.urgentHead (s : State) (p : Nat) : Bool :=
  match s.queue (qCap p) with
  | ⟨_, _, .capture c⟩ :: _ => dUrgent (s.desc c.desc).words
  | _ => false

/-- The stamp of the recorded edge and HOLDOVER at it, while it is in the channel's ring (R269). -/
def State.joined (s : State) (j : Nat × Nat) : Option (Nat × Bool) :=
  (firstWith (fun e => e.1 == j.2) (s.chan j.1).ring).map (fun e => e.2)


/-- A capture entry is taken: join, the Sextant, and one copy per consumer. A FAILED entry goes into no stream (R195). -/
def State.takeCapture (s : State) (c : Capture) : State :=
  if c.failed then s
  else
    let (t, edge, hold, s1) : Nat × Bool × Bool × State := match c.join with
      | none => (c.ht, false, c.hold, s)
      | some j => match s.joined j with
        | some h => (h.1, true, h.2, s)
        | none => (c.ht, false, c.hold, s.modChan j.1 (fun x => { x with jmiss := min (x.jmiss + 1) 65535 }))
    let fl := (if c.fenced then 1 else 0) + (if edge then 2 else 0) + (if hold then 4 else 0)
    let i : Item := ⟨0x01, fl, srcDesc c.desc, c.seq % 65536, t,
      bytesLE 4 c.seq ++ bytesLE 8 t ++ bytesLE 4 c.spacing ++ c.data⟩
    (s1.sextantSample c.desc c.grant c.data t).copyAll .stamp i (s1.captureConsumers c)

/-- A GAP record from a capture queue: to the stream's consumers, or to the L1 of the port page's owner when it names no
descriptor (R365). -/
def State.takeGap (s : State) (p : Nat) (g : Gap) : State :=
  if g.src < 256 then s.gapAll .stamp g (dOwner (s.desc g.src).words) (s.descConsumers g.src)
  else s.forwardGap (qIntake (s.pageTenant (portPage p)) 1) .stamp g

/-- The HT of a TENANT reset of the owner of a capture entry that discards what it captured before (R95). -/
def State.resetDiscards (s : State) (c : Capture) : Option Nat :=
  match mapGet (fun _ => none) s.rst.tens (dOwner (s.desc c.desc).words) with
  | none => none
  | some h => if c.ht ≤ h then some h else none

/-- STAMP_SERVICE (R494): the Stamp unit takes the head of the capture queue of port `p`; a head from an URGENT
descriptor goes first, lowest port first. -/
def execStampService (p : Nat) (s : State) : Host.Outcome State Fault Refusal :=
  let urgent := firstWith (fun q => s.urgentHead q) (List.range 8)
  .next (s.when (decide (p < 8) && s.running && (match urgent with | none => true | some q => q == p)) fun s =>
    match s.popQueue (qCap p) with
    | none => s
    | some (e, s1) => match e.body with
      | .capture c =>
        match s1.resetDiscards c with
        | some h => forEach ((s1.captureConsumers c).filter (fun q => q.2)) (fun q s =>
            s.resetSkip q.1 .stamp (srcDesc c.desc) h) s1
        | none => s1.takeCapture c
      | .gaps l => forEach l (fun g s => s.takeGap p g) s1
      | _ => s1)

end Sys2Proof.Machine
end

