-- ==== Sys2Proof/Machine/Assay.lean ====
section
/-! DEFINITION. The Assay units (R309-R333): samples, filters, decimation, features, comparators, the rule, baselines,
critical decisions, outputs and restarts. -/

namespace Sys2Proof.Machine

/-! ## Parameter words (R336) -/

def State.par (s : State) (u w : Nat) : Word := mapGet (fun _ => 0) (s.unit u).params w
def State.parBits (s : State) (u w lo n : Nat) : Nat := getBits (s.par u w) lo n

def State.asyOwner (s : State) (u : Nat) : Nat := s.fld (F.ASY_CFG_OWNER u)
def asyPage (u : Nat) : Nat := 0x1A + u / 4
def State.isActive (s : State) (u : Nat) : Bool := s.on (F.ASY_STAT_ACTIVE u)

/-- W = 2^LW. -/
def State.frameLen (s : State) (u : Nat) : Nat := 2 ^ s.fld (F.ASY_CFG_LW u)

/-- Feature of comparator `c`, and the fields of its word. -/
def State.cmpFeat (s : State) (u c : Nat) : Nat := s.parBits u (40 + 2 * c) 4 4
def State.cmpEn (s : State) (u c : Nat) : Bool := s.parBits u (40 + 2 * c) 0 1 == 1
def State.cmpOp (s : State) (u c : Nat) : Nat := s.parBits u (40 + 2 * c) 1 2
def State.cmpAdapt (s : State) (u c : Nat) : Bool := s.parBits u (40 + 2 * c) 3 1 == 1
def State.ruleMask (s : State) (u : Nat) : Nat := s.parBits u 48 0 4
def State.baseFeat (s : State) (u : Nat) : Nat := s.parBits u 49 0 4

/-! ## Rounding -/

/-- A value rounded to the nearest whole number; which of the two a value halfway between them becomes is left open by the
spec (log entry 81). -/
def roundQ (n d : Int) : Int :=
  if 2 * (n % d) = d then n / d + (if Config.halfway n d then 1 else 0) else (2 * n + d) / (2 * d)

/-- The square root of a fraction, rounded to the nearest whole number. -/
def rootRound (n d : Nat) : Int :=
  let m := isqrt (4 * n / d)
  if m * m * d = 4 * n ∧ m % 2 = 1 then roundQ m 2 else ((m + 1) / 2 : Nat)

/-- A value in the 64 bits of an accumulator. -/
def accum (x : Int) : Int := if -(2 ^ 63 : Int) ≤ x ∧ x < 2 ^ 63 then x else Config.acc64 x

/-! ## Samples (R309, R310) -/

/-- A sample of a unit: stamp, value, and the conditions it carries (bit 5 FENCED, 6 HOLD). -/
structure Sample where
  stamp : Nat
  x : Int
  flags : Nat
  deriving DecidableEq, Repr

/-- FENCED and HOLD of an item as entry flags. -/
def carried (i : Item) : Nat := (if i.flags.testBit 0 then 32 else 0) + (if i.flags.testBit 2 then 64 else 0)

/-- A component of a capture entry's data, on the full 32-bit scale. -/
def compAt (data : List Byte) (off w : Nat) (be : Bool) : Int :=
  if w = 0 then valAt data off 2 be * 2 ^ 16
  else if w = 1 then signed 24 (code 24 (valAt data off 4 be)) * 2 ^ 8
  else valAt data off 4 be

/-- Samples of a descriptor's entry (SRC 0). -/
def State.descSamples (s : State) (u : Nat) (i : Item) : List Sample :=
  let data := i.payload.drop 16
  let off := s.fld (F.ASY_IN_OFF u)
  let w := s.fld (F.ASY_IN_W u)
  let be := s.on (F.ASY_IN_BE u)
  let st := s.fld (F.ASY_IN_STRIDE u)
  let len := [2, 3, 4, 4].getD w 4
  let n := if st = 0 then 1 else if data.length < off + len then 0 else (data.length - off - len) / st + 1
  let spacing := fieldLE i.payload 12 4
  let sper := (s.par u 39).toNat * 256
  (List.range n).map (fun k =>
    let t := if spacing ≠ 0 then i.ht + k * spacing else if st = 0 then i.ht else i.ht - (n - 1 - k) * sper
    ⟨t, compAt data (off + k * st) w be, carried i⟩)

/-- Samples of another unit's output entry (SRC 1). -/
def unitSamples (i : Item) : List Sample :=
  (List.range (fieldLE i.payload 2 2)).map (fun k =>
    ⟨fieldLE i.payload (8 + 12 * k) 8, signed 32 (fieldLE i.payload (16 + 12 * k) 4), carried i⟩)

/-- Samples of a Resampler entry (SRC 2): component OFF of each. -/
def State.rsmSamples (s : State) (u : Nat) (i : Item) : List Sample :=
  let k := fieldLE i.payload 11 1
  let n := 2 ^ fieldLE i.payload 10 1
  let speed := (signed 32 (fieldLE i.payload 12 4)).natAbs
  let h := fieldLE i.payload 16 8
  (List.range (fieldLE i.payload 2 2)).map (fun j =>
    ⟨((h : Int) + quot ((j * 2 ^ 48 : Nat) : Int) ((n * speed : Nat) : Int)).toNat,
     if s.fld (F.ASY_IN_OFF u) < k then signed 32 (fieldLE i.payload (24 + 4 * (j * k + s.fld (F.ASY_IN_OFF u))) 4)
     else valAt [] (4 * (j * k + s.fld (F.ASY_IN_OFF u))) 4 false, carried i⟩)

/-- The sample of an edge (SRC 3): the interval since the previous edge; none for the first after a restart. -/
def State.edgeSamples (s : State) (u : Nat) (i : Item) : List Sample :=
  match (s.unit u).lastEdge with
  | none => []
  | some e => [⟨i.ht, ((min (i.ht - e) 0x7FFFFFFF : Nat) : Int), carried i⟩]

def State.samplesOf (s : State) (u : Nat) (i : Item) : List Sample :=
  match s.fld (F.ASY_IN_SRC u) with
  | 0 => s.descSamples u i
  | 1 => unitSamples i
  | 2 => s.rsmSamples u i
  | _ => s.edgeSamples u i

/-! ## Biquads (R315) -/

/-- One section: the output and its new states. -/
def biquad (b0 b1 b2 a1 a2 x : Int) (st : Int × Int) : Int × (Int × Int) × Bool :=
  let y := roundQ (accum (b0 * x + st.1)) (2 ^ 30)
  let ys := satInt 32 y
  (ys, (accum (b1 * x - a1 * ys + st.2), accum (b2 * x - a2 * ys)), decide (y ≠ ys))

/-- The four sections in order; the flag tells that one saturated. -/
def State.filter (s : State) (u : Nat) (x : Int) : Int × List (Int × Int) × Bool :=
  (List.range 4).foldl (fun (r : Int × List (Int × Int) × Bool) b =>
    if (s.par u (8 * b + 5)).getLsbD 0 then
      let w : Nat → Int := fun k => (s.par u (8 * b + k)).toInt
      let o := biquad (w 0) (w 1) (w 2) (w 3) (w 4) r.1 (r.2.1.getD b (0, 0))
      (o.1, listSet r.2.1 b o.2.1, r.2.2 || o.2.2)
    else r) (x, (s.unit u).bq, false)

/-! ## Features (R317-R319) -/

/-- Limits of a feature's format: unsigned for CREST and ORD_PHASE. -/
def featSat (f : Nat) (x : Int) : Int := if f = 5 ∨ f = 11 then clampInt 0 (2 ^ 32 - 1) x else satInt 32 x

/-- The Goertzel recursion over a frame's values: s1 and s2 as integers at a scale of 2^30 a sample. -/
def goertz (hann : Bool) (w : Nat) (c : Int) : Nat → List Int → Int → Int → Int × Int
  | _, [], s1, s2 => (s1, s2)
  | n, x :: t, s1, s2 =>
    let wt := if hann then Config.hann n w else 2 ^ 30
    goertz hann w c (n + 1) t (wt * x * 2 ^ (30 * n) + c * s1 - s2 * 2 ^ 30) (s1 * 2 ^ 30)

/-- GRT_i (R318). -/
def goertzAmp (hann : Bool) (f : Nat) (xs : List Int) : Int :=
  let w := xs.length
  let c := Config.goertzCoef f
  let r := goertz hann w c 0 xs 0 0
  let v := (r.1 * r.1 + r.2 * r.2) * 2 ^ 30 - c * r.1 * r.2
  let g := if hann then 4 else 2
  rootFree (g * g * v.toNat) (2 ^ (60 * w + 30) * w * w)

/-- ψ of a kept sample in 2^-68 cycle: the fraction of ORDER/16 · θ. -/
def orderPhase (order : Nat) (theta : Int) : Int := (order * theta) % 2 ^ 68

/-- The features of a frame, in code order, before saturation; `old` holds those of a NOLOCK frame. -/
def State.features (s : State) (u : Nat) (xs : List Int) (old : List Int) (noLock : Bool) : List Int :=
  let w : Int := xs.length
  let sum2 := xs.foldl (fun a x => a + x * x) 0
  let rms := rootRound sum2.toNat xs.length
  let peak := xs.foldl (fun a x => max a (x.natAbs : Int)) 0
  let mx := xs.foldl max (xs.headD 0)
  let mn := xs.foldl min (xs.headD 0)
  let a := s.unit u
  let order := s.parBits u 37 0 16
  [xs.getLastD 0, roundQ (xs.foldl (· + ·) 0) w, rms, peak, mx - mn,
   if rms = 0 then 2 ^ 32 - 1 else quot (satInt 32 peak * 2 ^ 16) (satInt 32 rms)]
  ++ (List.range 4).map (fun i => goertzAmp (s.on (F.ASY_CFG_HANN u)) (s.par u (32 + i)).toNat xs)
  ++ (if order = 0 then [0, 0] else if noLock then [old.getD 10 0, old.getD 11 0]
      else [Config.ordAmp a.psis xs.length, (Config.ordPhase a.psis xs.length : Int)])

/-! ## Entries (R330) -/

/-- The flags byte of an entry at its close. -/
def State.asyFlags (s : State) (u cond : Nat) (restart : Bool) : Nat :=
  cond + (if s.on (F.ASY_STAT_LEARN u) then 4 else 0) + (if restart then 8 else 0) + (if s.isActive u then 16 else 0)

/-- FENCED and HOLD of entry flags as item flags. -/
def itemFlags (fl : Nat) : Nat := (if fl.testBit 5 then 1 else 0) + (if fl.testBit 6 then 4 else 0)

/-- The open output entry closes and its copies go out (R329). -/
def State.closeOut (s : State) (u : Nat) : State :=
  let a := s.unit u
  if a.outBuf.isEmpty then s
  else
    let l := a.outBuf.reverse
    let fl := s.asyFlags u a.outFlags a.restartOut
    let ht := (l.map (fun x => x.1)).headD 0
    let data := l.foldl (fun b x => b ++ bytesLE 8 x.1 ++ bytesLE 4 (code 32 x.2)) []
    let i : Item := ⟨0x01, itemFlags fl, srcUnit u, a.outFirst % 65536, ht,
      bytesLE 1 u ++ bytesLE 1 fl ++ bytesLE 2 l.length ++ bytesLE 4 a.outFirst ++ data⟩
    let lane := if s.on (F.ASY_OUT_SEN u) then [(qIntake (s.asyOwner u) (s.fld (F.ASY_OUT_SLANE u)), true)] else []
    (s.modUnit u (fun x => { x with outBuf := [], outFlags := 0, restartOut := false })).copyAll .assay i (lane ++ s.unitConsumers u)

/-- The FEATURES entry of a frame. -/
def State.emitFeatures (s : State) (u first last : Nat) : State :=
  let a := s.unit u
  let mask := s.parBits u 36 0 13
  let fl := s.asyFlags u a.frameFlags a.restartFeat
  let data := (List.range 13).foldl (fun b k => if mask.testBit k then b ++ bytesLE 4 (code 32 (a.feats.getD k 0)) else b) []
  let s1 := s.modUnit u (fun x => { x with restartFeat := false })
  if s.on (F.ASY_OUT_FEN u) then
    let i : Item := ⟨0x03, itemFlags fl, srcUnit u, a.frameNo % 65536, first,
      bytesLE 1 u ++ bytesLE 1 fl ++ bytesLE 2 mask ++ bytesLE 4 a.frameNo ++ bytesLE 8 first ++ bytesLE 8 last ++ data⟩
    s1.copyTo .assay i (qIntake (s.asyOwner u) (s.fld (F.ASY_OUT_FLANE u)), true)
  else s1

/-- The effective threshold T of a comparator (R320): 33 bits, saturated to the feature's format. -/
def State.threshold (s : State) (u c : Nat) : Int :=
  let f := s.cmpFeat u c
  let thr := s.par u (41 + 2 * c)
  if s.cmpAdapt u c then
    let kd := quot ((thr.toNat : Int) * (s.unit u).spread) (2 ^ 16)
    let b := s.loopOut (loopBL u) 0
    featSat f (if s.cmpOp u c = 1 then b - kd else b + kd)
  else if f = 5 ∨ f = 11 then thr.toNat else thr.toInt

/-- The lowest-numbered comparator in MASK. -/
def State.firstCmp (s : State) (u : Nat) : Nat := (firstWith (fun c => (s.ruleMask u).testBit c) [0, 1, 2, 3]).getD 0

def cmpBits (l : List Bool) : Nat := l.foldr (fun b n => (if b then 1 else 0) + 2 * n) 0
def trues (l : List Bool) : Nat := (l.filter (fun b => b)).length

/-- The EVENT entry of a decision (R330); its count is the count after the event. -/
def State.eventItem (s : State) (u kind : Nat) (win : List Bool) (events stamp : Nat) : Item :=
  let a := s.unit u
  let c := s.firstCmp u
  ⟨0x04, itemFlags a.frameFlags, srcUnit u, events % 65536, stamp,
   bytesLE 1 u ++ bytesLE 1 kind ++ bytesLE 1 (cmpBits a.cmp) ++ bytesLE 1 (trues win) ++ bytesLE 4 events
     ++ bytesLE 8 stamp ++ bytesLE 4 (code 32 (a.feats.getD (s.cmpFeat u c) 0)) ++ bytesLE 4 (code 32 (s.threshold u c))⟩

def State.emitEvent (s : State) (u : Nat) (i : Item) : State :=
  if s.on (F.ASY_OUT_EEN u) then s.copyTo .assay i (qIntake (s.asyOwner u) (s.fld (F.ASY_OUT_ELANE u)), true) else s

/-! ## ACTIVE (R321, R322) -/

/-- ACTIVE takes a value: RISE or FALL leaves at the Rose taps. -/
def State.setActive (s : State) (u : Nat) (b : Bool) : State :=
  if s.isActive u == b then s
  else
    let s1 := s.putOn (F.ASY_STAT_ACTIVE u) b
    if b then
      let s2 := (s1.modUnit u (fun x => { x with events := (x.events + 1) % 2 ^ 32 })).addSat (F.ASY_STAT_EVENTS u) 1
      (s2.raise (asyPage u) 8).presentRise u
    else s1.presentFall u

/-- A decided change takes effect, with its entry. -/
def State.decideActive (s : State) (u : Nat) (b : Bool) (i : Item) : State := (s.setActive u b).emitEvent u i

/-- A decision of the rule: at once, or pending a second one on a CRITICAL unit (R325). -/
def State.ruleDecide (s : State) (u : Nat) (b : Bool) (stamp : Nat) : State :=
  let a := s.unit u
  let i := s.eventItem u (if b then 1 else 2) a.win (if b then (a.events + 1) % 2 ^ 32 else a.events) stamp
  if a.forced then s
  else if s.on (F.ASY_CFG_CRITICAL u) then
    (s.modUnit u (fun x => { x with cpend := some ⟨b, if b then 1 else 2, i⟩ })).setFld (F.ASY_STAT_CPEND u) 1
  else s.decideActive u b i

/-- A tick of the rule (R321). -/
def State.ruleTick (s : State) (u stamp : Nat) : State :=
  let mask := s.ruleMask u
  if mask = 0 then s
  else
    let a := s.unit u
    let sel := (List.range 4).filter (fun c => mask.testBit c)
    let c := if s.parBits u 48 4 1 = 1 then sel.any (fun k => a.cmp.getD k false) else sel.all (fun k => a.cmp.getD k false)
    let m := s.parBits u 48 16 5 + 1
    let win := (c :: a.win).take m
    let s1 := (s.modUnit u (fun x => { x with win := win, win2 := (c :: x.win2).take m })).setFld (F.ASY_STAT_COUNT u) (trues win)
    if !(s1.isActive u) && decide (s.parBits u 48 8 5 + 1 ≤ trues win) then s1.ruleDecide u true stamp
    else if s1.isActive u && decide (trues win ≤ s.parBits u 48 24 5) then s1.ruleDecide u false stamp
    else s1

/-! ## Comparators (R320, R324) -/

/-- The result of a comparator on its feature's value. -/
def State.compare (s : State) (u c : Nat) : Bool :=
  let a := s.unit u
  let f := a.feats.getD (s.cmpFeat u c) 0
  let t := s.threshold u c
  let h : Int := 256 * s.parBits u (40 + 2 * c) 8 24
  let was := a.cmp.getD c false
  if s.cmpAdapt u c && (s.on (F.ASY_STAT_LEARN u) || !(s.loopEn (loopBL u)) || !a.seeded) then false
  else match s.cmpOp u c with
    | 0 => if was then decide (t - h < f) else decide (t < f)
    | 1 => if was then decide (f < t + h) else decide (f < t)
    | _ => if was then decide (t - h < (f.natAbs : Int)) else decide (t < (f.natAbs : Int))

/-- The results after a kept sample, or after a frame end as well (`frame`); those of a feature other than SAMPLE hold
through a NOLOCK frame. -/
def State.compareAll (s : State) (u : Nat) (frame noLock : Bool) : State :=
  let l := (List.range 4).map (fun c =>
    let f := s.cmpFeat u c
    if !(s.cmpEn u c) then false
    else if f = 0 ∨ (frame ∧ ¬ noLock) then s.compare u c
    else (s.unit u).cmp.getD c false)
  (s.modUnit u (fun x => { x with cmp := l })).setFld (F.ASY_STAT_CMP u) (cmpBits l)

/-! ## Baseline (R323) -/

/-- An update of the baseline with the feature value `f`: divisions truncate toward zero. -/
def State.baseline (s : State) (u : Nat) (f : Int) : State :=
  let g := loopBL u
  if s.loopLive g && s.on (F.ASY_CFG_EN u) && !(s.isActive u) then
    let k := min 20 (s.loopStep g)
    let a := s.unit u
    if !a.seeded then
      let s1 := (s.loopUpdate g f).modUnit u (fun x => { x with spread := 0, learnN := 0, seeded := true })
      s1.setFld (F.ASY_STAT_LEARN u) 1
    else
      let b := (s.loop g).out
      let s1 := s.loopUpdate g (b + (f - b).tdiv (2 ^ k))
      let b1 := (s1.loop g).out
      let n := if a.learnN < 2 ^ k then a.learnN + 1 else a.learnN
      let d := satInt 32 (a.spread + (((f - b1).natAbs : Int) - a.spread).tdiv (2 ^ k))
      (s1.modUnit u (fun x => { x with spread := d, learnN := n })).putOn (F.ASY_STAT_LEARN u) (decide (n < 2 ^ k))
  else s

/-! ## A pass (R311) -/

/-- A SAT condition of the unit. -/
def State.satCond (s : State) (u : Nat) (b : Bool) : State :=
  if b then (s.setFld (F.ASY_STAT_SATF u) 1).raise (asyPage u) 10 else s

/-- The end of a frame (R317): features, ROC last, the FEATURES entry. -/
def State.frameEnd (s : State) (u : Nat) : State :=
  let a := s.unit u
  let l := a.samples.reverse
  let noLock := a.frameFlags.testBit 1
  let raw := s.features u (l.map (fun x => x.2)) a.feats noLock
  let fs := (List.range 12).map (fun k => featSat k (raw.getD k 0))
  let src := s.parBits u 38 0 4
  let cur := fs.getD src 0
  let rocRaw := match a.rocPrev with | none => 0 | some p => if src = 0 then 0 else cur - p
  let feats := fs ++ [satInt 32 rocRaw]
  let sat := (List.range 12).any (fun k => fs.getD k 0 != raw.getD k 0) || satInt 32 rocRaw != rocRaw
  let s1 := s.modUnit u (fun x => { x with
    feats := feats
    rocPrev := if src = 0 then none else some cur
    frameFlags := x.frameFlags ||| (if sat then 1 else 0) })
  let s2 := (s1.satCond u sat).putOn (F.ASY_STAT_NOLOCK u) noLock
  let s3 := if noLock then (s2.setFld (F.ASY_STAT_NOLOCKF u) 1).raise (asyPage u) 11 else s2
  let first := (l.map (fun x => x.1)).headD 0
  (s3.emitFeatures u first ((l.map (fun x => x.1)).getLastD 0)).modUnit u (fun x => { x with frameNo := (x.frameNo + 1) % 2 ^ 32 })

/-- A kept sample (R316-R321). -/
def State.keep (s : State) (u : Nat) (m : Sample) (y : Int) : State :=
  let order := s.parBits u 37 0 16
  let look := if order = 0 then none else s.lookup m.stamp
  let cond := m.flags ||| (if order ≠ 0 ∧ look.isNone then 2 else 0)
  let s1 := s.modUnit u (fun x => { x with
    samples := (m.stamp, y) :: x.samples
    psis := match look with | none => x.psis | some th => (y, orderPhase order th) :: x.psis
    frameFlags := x.frameFlags ||| cond
    feats := listSet x.feats 0 y
    outFirst := if x.outBuf.isEmpty then x.keptNo else x.outFirst
    outBuf := (m.stamp, y) :: x.outBuf
    outFlags := x.outFlags ||| cond
    keptNo := (x.keptNo + 1) % 2 ^ 32 })
  let full := decide (s1.frameLen u ≤ (s1.unit u).samples.length)
  let s0 := if full || decide (max 1 (s1.fld (F.ASY_OUT_OBLK u)) ≤ (s1.unit u).outBuf.length) then s1.closeOut u else s1
  let s2 := if full then s0.frameEnd u else s0
  let noLock := (s2.unit u).frameFlags.testBit 1
  let s3 := s2.compareAll u full noLock
  let onSample := (List.range 4).any (fun c => (s3.ruleMask u).testBit c && s3.cmpFeat u c == 0)
  let s4 := if onSample || full then s3.ruleTick u m.stamp else s3
  let bf := s4.baseFeat u
  let upd := bf == 0 || (full && !(noLock && (bf == 10 || bf == 11)))
  let s5 := if upd then s4.baseline u ((s4.unit u).feats.getD bf 0) else s4
  if full then s5.modUnit u (fun x => { x with samples := [], psis := [], frameFlags := 0 }) else s5

/-- One input sample through the stages (R311). -/
def State.pass (s : State) (u : Nat) (m : Sample) : State :=
  let (y, bq, sat) := s.filter u m.x
  let s1 := (s.modUnit u (fun x => { x with bq := bq })).satCond u sat
  let d := s.fld (F.ASY_CFG_DECM1 u)
  if (s1.unit u).dec < d then s1.modUnit u (fun x => { x with dec := x.dec + 1 })
  else (s1.modUnit u (fun x => { x with dec := 0 })).keep u { m with flags := m.flags ||| (if sat then 1 else 0) } y

/-- The pass of the next sample of the entry needs the angle of a later HT, and waits for it (R298, R319). -/
def State.passWaits (s : State) (u : Nat) (i : Item) : Bool :=
  match (s.samplesOf u i)[(s.unit u).pos]? with
  | none => false
  | some m => s.parBits u 37 0 16 != 0 && decide (s.fld (F.ASY_CFG_DECM1 u) ≤ (s.unit u).dec) && decide (s.ht < m.stamp)

/-- The item at the head of a unit's input queue. -/
def State.headItem (s : State) (u : Nat) : Option Item :=
  match s.queue (qUnit u) with
  | ⟨_, _, .item i⟩ :: _ => some i
  | _ => none

/-- The unit can have a pass (R312). -/
def State.passReady (s : State) (u : Nat) : Bool :=
  s.on (F.ASY_CFG_EN u) && s.pageOn (asyPage u) && (s.unit u).cpend.isNone && (s.headItem u).isSome

/-- The unit of the next pass (R312): URGENT, lowest first; then the others, round robin. -/
def State.nextUnit (s : State) : Option Nat :=
  match firstWith (fun u => s.passReady u && s.on (F.ASY_CFG_URGENT u)) allUnits with
  | some u => some u
  | none => firstWith (fun u => s.passReady u && !(s.on (F.ASY_CFG_URGENT u)))
      ((List.range 24).map (fun i => (s.asyLast + 1 + i) % 24))

/-- ASSAY_PASS (R311, R312): one sample; its entry is dequeued after the pass of its last sample. -/
def execAssayPass (s : State) : Host.Outcome State Fault Refusal :=
  .next (s.when s.running fun s =>
    match s.nextUnit with
    | none => s
    | some u => match s.headItem u with
      | none => s
      | some i => s.when (!(s.passWaits u i)) fun s =>
        let l := s.samplesOf u i
        let pos := (s.unit u).pos
        let s1 := ((s.setFld F.ASY_PIPE_CUR u).putOn F.ASY_PIPE_URG (s.on (F.ASY_CFG_URGENT u)))
        let s2 : State := if s.on (F.ASY_CFG_URGENT u) then s1 else { s1 with asyLast := u }
        let edge := s.fld (F.ASY_IN_SRC u) == 3
        let s3 := match l[pos]? with
          | none => s2
          | some m => s2.pass u m
        let s4 := if edge then s3.modUnit u (fun x => { x with lastEdge := some i.ht }) else s3
        if l.length ≤ pos + 1 then
          (s4.setQueue (qUnit u) ((s4.queue (qUnit u)).drop 1)).modUnit u (fun x => { x with pos := 0 })
        else s4.modUnit u (fun x => { x with pos := pos + 1 }))

/-- The destinations of a unit's output stream: its lane, and the consumers that select it. -/
def State.outDests (s : State) (u : Nat) : List (Nat × Bool) :=
  (if s.on (F.ASY_OUT_SEN u) then [(qIntake (s.asyOwner u) (s.fld (F.ASY_OUT_SLANE u)), true)] else []) ++ s.unitConsumers u

/-- ASSAY_GAP_INPUT (R332): the open output entry goes first, so that the order of the stream is kept (R165); the record
goes on, the frame in progress is discarded, and the next one carries RESTART. -/
def execAssayGapInput (u : Nat) (s : State) : Host.Outcome State Fault Refusal :=
  .next (s.when (decide (u < 24) && s.running && s.on (F.ASY_CFG_EN u)) fun s =>
    match s.queue (qUnit u) with
    | ⟨_, _, .gaps l⟩ :: t =>
      let s1 := ((s.setQueue (qUnit u) t).closeOut u).modUnit u (fun x => { x with samples := [], psis := [], frameFlags := 0, restartFeat := true })
      forEach l (fun g s => s.gapAll .assay g (s.asyOwner u) (s.outDests u)) s1
    | _ => s)

/-! ## Critical decisions (R325, R326, R328) -/

/-- DOUBLE of a unit: counted, shown and raised. -/
def State.asyDouble (s : State) (u : Nat) : State :=
  let s1 := ((s.addSat F.ASY_CRIT_DISAGREE 1).setFld F.ASY_CRIT_LAST u)
  let s2 := s.risen [asyPage u] (s1.setFld (F.ASY_STAT_DOUBLE u) 1)
  occur tcDOUBLE 15 (asyPage u) u (2 ^ s.asyOwner u) (s2.raise (asyPage u) 9)

/-- CRITICAL_SECOND_DECISION (R325, R326). -/
def execCriticalSecondDecision (u : Nat) (agree : Bool) (s : State) : Host.Outcome State Fault Refusal :=
  .next (s.when (decide (u < 24) && s.running) fun s =>
    match (s.unit u).cpend with
    | none => s
    | some p =>
      let s1 := ((s.modUnit u (fun x => { x with cpend := none })).setFld (F.ASY_STAT_CPEND u) 0).addSat F.ASY_CRIT_DECISIONS 1
      if (s1.unit u).forced then s1
      else if agree then s1.decideActive u p.active p.item
      else
        let s2 := (s1.setActive u true).modUnit u (fun x =>
          if p.active then { x with win2 := x.win } else { x with win := x.win2 })
        let a := s2.unit u
        ((s2.setFld (F.ASY_STAT_COUNT u) (trues a.win)).emitEvent u (s2.eventItem u 3 a.win a.events p.item.ht)).asyDouble u)

/-- A shadow mismatch in a word of a CRITICAL unit (R328): ACTIVE is 1 until FULL reset. -/
def State.asyForce (s : State) (u : Nat) : State :=
  let a := s.unit u
  let s1 := if s.isActive u then s
    else s.decideActive u true (s.eventItem u 1 a.win ((a.events + 1) % 2 ^ 32) s.ht)
  s.risen [asyPage u] ((s1.modUnit u (fun x => { x with forced := true })).setFld (F.ASY_STAT_FORCED u) 1)

/-! ## Restarts (R333) -/

/-- The open output entry is lost to a reset (R95). -/
def State.asyLost (s : State) (u : Nat) : State :=
  if (s.unit u).outBuf.isEmpty then s
  else (forEach (s.outDests u) (fun q s => s.resetSkip q.1 .assay (srcUnit u) s.ht) s).modUnit u
    (fun x => { x with outBuf := [], outFlags := 0 })

/-- A unit restarts: its open output entry goes out first. The baseline and the comparators' results are kept. The entries
that wait in its input queue are kept, those of a producer that ASY_IN no longer names too (DESIGN CHOICE, log entry 148), and
so is the place of the next sample in the entry at its head (R311). -/
def State.asyRestart (s0 : State) (u : Nat) : State :=
  let s := s0.closeOut u
  let a := s.unit u
  let held := a.forced
  let s1 := if s.isActive u && !held then
      (s.setFld (F.ASY_STAT_ACTIVE u) 0).emitEvent u (s.eventItem u 4 a.win a.events s.ht)
    else s
  let s2 := s1.modUnit u (fun x => { x with
    bq := asy0.bq, dec := 0, samples := [], psis := [], frameFlags := 0, rocPrev := none, win := [], win2 := []
    frameNo := 0, keptNo := 0, outBuf := [], outFlags := 0, restartOut := true, restartFeat := true, cpend := none
    lastEdge := none })
  (s2.setFld (F.ASY_STAT_COUNT u) 0).setFld (F.ASY_STAT_CPEND u) 0

/-- LEARN while the unit and its loop are enabled and no frame has been learned yet; 0 while either is disabled. -/
def State.learnShow (s : State) (u : Nat) : State :=
  s.putOn (F.ASY_STAT_LEARN u) (s.on (F.ASY_CFG_EN u) && s.loopEn (loopBL u))

/-- The baseline is unseeded: the unit or the loop is enabled, or its feature changes (R324). -/
def State.unseed (s : State) (u : Nat) : State :=
  (s.modUnit u (fun x => { x with seeded := false, spread := 0, learnN := 0 })).learnShow u

end Sys2Proof.Machine
end

