-- ==== Sys2Proof/Machine/Resampler.lean ====
section
/-! DEFINITION. The Resampler (R299-R304): input points, targets, interpolation, entries and restarts. Angles are
integers in 2^-64 revolution. -/

namespace Sys2Proof.Machine

def State.rsmOwner (s : State) (c : Nat) : Nat := s.fld (F.RSM_CH_CFG_OWNER c)

/-- log2 N of a channel. -/
def State.logN (s : State) (c : Nat) : Nat := s.fld (F.RSM_CH_CFG_LOGN c)

/-- K of a channel. -/
def State.rsmK (s : State) (c : Nat) : Nat := s.fld (F.RSM_CH_CFG_KM1 c) + 1

/-- BLOCK of a channel; 0 reads 1. -/
def State.rsmBlock (s : State) (c : Nat) : Nat := max 1 (s.fld (F.RSM_CH_CFG_BLOCK c))

/-- The components of an input sample at OFF0-OFF3 (R299). -/
def State.rsmVals (s : State) (c : Nat) (data : List Byte) : List Int :=
  let offs := bytesLE 4 (s.fld (F.RSM_CH_OFS_OFF c))
  (offs.take (s.rsmK c)).map (fun o => valAt data o.toNat (if s.on (F.RSM_CH_IN_W32 c) then 4 else 2) (s.on (F.RSM_CH_IN_BE c)))

/-- The samples of an input item with their stamps: one of a port's entry, each result of an AFE entry (R226), each
sample of a unit's output entry. -/
def State.rsmInputs (s : State) (c : Nat) (i : Item) : List (Nat × List Byte) :=
  if s.fld (F.RSM_CH_IN_SRC c) = 1 then
    (List.range (fieldLE i.payload 2 2)).map (fun k => (fieldLE i.payload (8 + 12 * k) 8, sliceB i.payload (8 + 12 * k) 12))
  else
    let data := i.payload.drop 16
    let sp := fieldLE i.payload 12 4
    if sp = 0 then [(i.ht, data)]
    else (List.range (data.length / 4)).map (fun k => (i.ht + k * sp, sliceB data (4 * k) 4))

/-- Adds the samples of an item to the channel's points. -/
def State.rsmTake (s : State) (c : Nat) (i : Item) : State :=
  let pts : List RsmPoint := (s.rsmInputs c i).map (fun x => ⟨s.lookup x.1, x.1, s.rsmVals c x.2, none⟩)
  s.modRchan c (fun r =>
    match r.points.getLast?, pts with
    | some ⟨_, _, [], some g⟩, p :: t => { r with points := r.points.dropLast ++ { p with gap := some g } :: t }
    | _, _ => { r with points := r.points ++ pts })

/-- The destinations of a channel's entries (R302). -/
def State.rsmDests (s : State) (c : Nat) : List (Nat × Bool) :=
  (if s.on (F.RSM_CH_CFG_LANE_EN c) then [(qIntake (s.rsmOwner c) (s.fld (F.RSM_CH_CFG_LANE c)), true)] else [])
    ++ s.rsmConsumers c

/-- The open entry closes (R301, R302). -/
def State.rsmClose (s : State) (c : Nat) : State :=
  let r := s.rchan c
  if r.vals.isEmpty then s
  else
    let k := r.k
    let data := r.vals.foldl (fun b v => b ++ bytesLE 4 (code 32 v)) []
    let i : Item := ⟨0x02, 0, srcRsm c, r.entries % 65536, r.ht,
      bytesLE 1 c ++ bytesLE 1 r.flags ++ bytesLE 2 (r.vals.length / k) ++ bytesLE 4 r.rev ++ bytesLE 2 r.idx
        ++ bytesLE 1 r.logn ++ bytesLE 1 k ++ bytesLE 4 (code 32 r.speed) ++ bytesLE 8 r.ht ++ data⟩
    (s.modRchan c (fun x => { x with vals := [], flags := 0, restart := false, entries := x.entries + 1 })).copyAll
      .resampler i (s.rsmDests c)

/-- A GAP record on the input: the open entry closes, the record goes on (R165), and the bracket across it is not produced
(R303): an empty point marks its place until the next sample takes the mark; a further record before that sample adds none. -/
def State.rsmGap (s : State) (c : Nat) (g : Gap) : State :=
  ((s.rsmClose c).gapAll .resampler g (s.rsmOwner c) (s.rsmDests c)).modRchan c (fun r =>
    match r.points.getLast? with
    | none => r
    | some ⟨_, _, [], _⟩ => r
    | some _ => { r with points := r.points ++ [⟨none, g.part.last, [], some g.part.cause⟩] })

/-- Skips of `n` targets, in every destination's pending record. -/
def State.rsmSkip (s : State) (c cause : Nat) (detail : Option Nat) (n ht : Nat) : State :=
  if n = 0 then s
  else
    let part : GapPart := { part1 cause detail ht with count := n }
    let s1 := forEach (s.rsmDests c) (fun q s =>
      s.setPend q.1 .resampler (addSkip (srcRsm c) part (s.pendOf q.1 .resampler))) s
    s1.modRchan c (fun x => { x with miss := min (x.miss + n) 65535 })

/-- A lookup has failed (R303): the open entry closes, `n` targets are counted, and the next entry carries RESTART. -/
def State.rsmFail (s : State) (c n ht : Nat) : State :=
  ((((s.rsmClose c).rsmSkip c gcSEQ (some 4) n ht).modRchan c (fun x => { x with next := none, restart := true }))).raise 0x08 8

/-- φ as a distance from START in the direction of rotation. -/
def State.rsmPhi (s : State) (c : Nat) (phi : Int) : Int :=
  let d := phi - (s.fld (F.RSM_CH_START_A c) : Int) * 2 ^ 32
  if s.on F.SXT_STAT_NEG then -d else d

/-- The angle beside `f0` that `x` names when REV has wrapped between them (R286). -/
def nearAngle (f0 x : Int) : Int := f0 + signed 96 (code 96 (x - f0))

/-- The rate of the lookup at an HT (R298); ω where the ring has none. -/
def State.rateAt (s : State) (h : Nat) : Int := match histAt h s.sxt.hist with | none => s.sxt.omega | some e => e.rate

/-- Linear interpolation of a value with 8 fractional bits (R300). -/
def linear (y0 y1 num den : Int) : Int := y0 * 256 + quot ((y1 - y0) * 256 * num) den

/-- Four-point Lagrange interpolation at `a` with 8 fractional bits (R300). -/
def lagrange (xs ys : List Int) (a : Int) : Int :=
  let term := fun i =>
    let num := (List.range 4).foldl (fun p j => if j = i then p else p * (a - xs.getD j 0)) 1
    let den := (List.range 4).foldl (fun p j => if j = i then p else p * (xs.getD i 0 - xs.getD j 0)) 1
    (num, den)
  let ts := (List.range 4).map term
  let den := ts.foldl (fun p t => p * t.2) 1
  quot ((List.range 4).foldl (fun n i => n + ys.getD i 0 * 256 * (ts.getD i (0, 1)).1 * (den / (ts.getD i (0, 1)).2)) 0) den

/-- One output sample at target index `j`, from the bracketing points (R300). -/
def State.rsmEmit (s : State) (c : Nat) (pts : List RsmPoint) (lo : Nat) (j : Int) : State :=
  let p0 := pts.getD lo ⟨none, 0, [], none⟩
  let p1 := pts.getD (lo + 1) ⟨none, 0, [], none⟩
  let n := s.logN c
  let a := j * 2 ^ (64 - n)
  let f0 := s.rsmPhi c (p0.phi.getD 0)
  let f1 := nearAngle f0 (s.rsmPhi c (p1.phi.getD 0))
  let cubic := s.on (F.RSM_CH_CFG_INTERP c)
  let xs := pts.map (fun p => nearAngle f0 (s.rsmPhi c (p.phi.getD 0)))
  let raw := (List.range (s.rsmK c)).map (fun k =>
    if cubic then lagrange xs (pts.map (fun p => p.vals.getD k 0)) a
    else linear (p0.vals.getD k 0) (p1.vals.getD k 0) (a - f0) (f1 - f0))
  let vals := raw.map (satInt 32)
  let sat := decide (vals ≠ raw)
  let ht := ((p0.ht : Int) + quot (((p1.ht : Int) - p0.ht) * (a - f0)) (f1 - f0)).toNat
  let d := if s.on F.SXT_STAT_NEG then -a else a
  let ang := d + (s.fld (F.RSM_CH_START_A c) : Int) * 2 ^ 32
  let fl := (if cubic then 1 else 0) ||| (if sat then 2 else 0) ||| (if s.on F.SXT_STAT_NOIDX then 4 else 0)
  let s1 := s.modRchan c (fun x =>
    let y := if x.vals.isEmpty then
        { x with rev := code 32 (ang / 2 ^ 64), idx := (j % 2 ^ n).toNat, speed := quot (s.rateAt ht) (2 ^ 16), ht := ht,
                 k := s.rsmK c, logn := n, flags := if x.restart then 8 else 0 }
      else x
    { y with vals := y.vals ++ vals, flags := y.flags ||| fl, next := some (j + 1), outCnt := min (y.outCnt + 1) 65535 })
  let s2 := if sat then s1.raise 0x08 9 else s1
  if decide (s.rsmBlock c * s.rsmK c ≤ (s2.rchan c).vals.length) || decide ((j + 1) % 2 ^ n = 0) then s2.rsmClose c else s2

/-- Drops the oldest point. -/
def State.rsmDrop (s : State) (c : Nat) : State := s.modRchan c (fun r => { r with points := r.points.drop 1 })

/-- The first target index at or after an angle. -/
def State.rsmFirst (s : State) (c : Nat) (f : Int) : Int := -((-f) / 2 ^ (64 - s.logN c))

/-- What the points allow: none while more input is needed; otherwise the next state and whether a sample was made. -/
def State.rsmStep (s : State) (c : Nat) : Option (State × Bool) :=
  let r := s.rchan c
  let cubic := s.on (F.RSM_CH_CFG_INTERP c)
  let need := if cubic then 4 else 2
  let lo := if cubic then 1 else 0
  let pts := r.points.take need
  if pts.length < need ∨ (pts.any (fun p => p.vals.isEmpty)) then none
  else
    let p0 := pts.getD lo ⟨none, 0, [], none⟩
    let p1 := pts.getD (lo + 1) ⟨none, 0, [], none⟩
    match p0.phi, p1.phi with
    | some a, some b =>
      let f0 := s.rsmPhi c a
      let f1 := nearAngle f0 (s.rsmPhi c b)
      let j := match r.next with
        | none => s.rsmFirst c f0
        | some j => max (s.rsmFirst c f0) (nearAngle f0 (j * 2 ^ (64 - s.logN c)) / 2 ^ (64 - s.logN c))
      let past := s.rsmFirst c f1
      if past ≤ j then some ((s.modRchan c (fun x => { x with next := some j })).rsmDrop c, false)
      else match firstWith (fun p => p.gap.isSome) (pts.drop 1) with
        | some p =>
          some (((s.rsmSkip c (p.gap.getD 0) none (past - j).toNat p1.ht).modRchan c (fun x => { x with next := some past })).rsmDrop c,
            false)
        | none =>
          if pts.any (fun p => p.phi.isNone) then some ((s.rsmFail c (past - j).toNat p1.ht).rsmDrop c, false)
          else some (s.rsmEmit c pts lo j, true)
    | _, _ => some ((s.rsmFail c (Config.lostTargets p0.ht p1.ht) p1.ht).rsmDrop c, false)

/-- The engine works on a channel until it has made one output sample or lacks input; a lookup later than HT waits
(R298). -/
def rsmRun (c : Nat) : Nat → State → State
  | 0, s => s
  | n + 1, s =>
    match s.rsmStep c with
    | some (s1, true) => s1
    | some (s1, false) => rsmRun c n s1
    | none => match s.queue (qRsm c) with
      | [] => s
      | e :: t =>
        let s1 := s.setQueue (qRsm c) t
        match e.body with
        | .item i => if (s.rsmInputs c i).any (fun x => decide (s.ht < x.1)) then s else rsmRun c n (s1.rsmTake c i)
        | .gaps l => rsmRun c n (forEach l (fun g s => s.rsmGap c g) s1)
        | _ => rsmRun c n s1

/-- RESAMPLER_OUTPUT (R300, R304). -/
def execResamplerOutput (ch : Nat) (s : State) : Host.Outcome State Fault Refusal :=
  .next (s.when (decide (ch < 8) && s.running && s.pageOn 0x08 && s.on (F.RSM_CH_CFG_EN ch)) fun s => rsmRun ch 4096 s)

/-- The open entry is lost to a reset (R95). -/
def State.rsmLost (s : State) (c : Nat) : State :=
  if (s.rchan c).vals.isEmpty then s
  else (forEach (s.rsmDests c) (fun q s => s.resetSkip q.1 .resampler (srcRsm c) s.ht) s).modRchan c
    (fun x => { x with vals := [], flags := 0 })

/-- A channel restarts (R303, R308): its points and open entry are gone, and the next entry carries RESTART. -/
def State.rsmRestart (s : State) (c : Nat) : State :=
  s.modRchan c (fun r => { rsm0 with outCnt := r.outCnt, miss := r.miss })

end Sys2Proof.Machine
end

