-- ==== Sys2Proof/Machine/Bundler.lean ====
section
/-! DEFINITION. The Bundler and the Hallmark engine (R176-R179, R360-R376): items into lanes, records of a lane, closing,
the bundle header, sealing, and the sequence reservation; the enqueue of a pending GAP record (R164); the placement loop
(R174); uncorrectable memory errors (R190) and HEALTH records (R379). -/

namespace Sys2Proof.Machine

/-! ## What fits (R171, R177) -/

/-- The mode in which a lane's bundle closes (R371). -/
def State.closeMode (s : State) (k : Nat) : Nat :=
  match s.activeSlot (k / 4) with | none => 0 | some _ => s.fld (F.BND_LCFG_MODE k)

/-- Bytes of the closing tag. -/
def tagLen (mode : Nat) : Nat := if mode = 0 then 0 else 16

/-- WEIGHT of a tenant; 0 reads 1. -/
def State.weight (s : State) (t : Nat) : Nat := max 1 (s.fld (F.QUE_TQ_WEIGHT t))

/-- The loan cap of a tenant (R174). -/
def State.loanCap (s : State) (t : Nat) : Nat :=
  min (16 * (s.fld (F.QUE_TQ_MAX t) - s.fld (F.QUE_TQ_MIN t))) (s.weight t * (s.loopOut loopPLC 63488).toNat)

/-- The granules of a lane's reserve that its bundles have not taken (R177). -/
def State.resLeft (s : State) (k : Nat) : Nat :=
  3 - ((s.lane k).res + (s.closedOf k).foldl (fun n b => n + b.res) 0)

/-- What is left of the reserves of three granules for each lane of an existing tenant (R177). -/
def State.laneReserve (s : State) (t : Nat) : Nat :=
  if s.tenExists t then (List.range 4).foldl (fun n l => n + s.resLeft (qOut t l)) 0 else 0

/-- The tenant's allowance covers `n` granules more, less the reserves (R171, R177). -/
def State.allows (s : State) (t n : Nat) : Bool :=
  let loan := n - s.ownFree t (s.laneReserve t)
  decide (s.fld (F.QUE_TUSE_USED t) + n ≤ 16 * s.fld (F.QUE_TQ_MAX t))
    && (loan == 0 || (decide (s.fld (F.QUE_TUSE_LOANED t) + loan ≤ s.loanCap t) && decide (loan ≤ s.poolFree)))

/-- Granules that a lane needs for an item beyond those it holds, with the closing tag. -/
def State.laneNeed (s : State) (k n : Nat) : Nat :=
  ceilDiv (32 + (s.lane k).len + n + tagLen (s.closeMode k)) 32 - laneGran (s.lane k)

/-- `n` granules more fit the tenant's allowance, or its MIN with what is left of the lane's own reserve, never above MAX
(R171, R177). -/
def State.resFits (s : State) (k n : Nat) : Bool :=
  let t := k / 4
  s.allows t n || (decide (s.fld (F.QUE_TUSE_USED t) + n ≤ 16 * s.fld (F.QUE_TQ_MAX t))
    && decide (n ≤ s.ownFree t 0) && decide (n ≤ s.ownFree t (s.laneReserve t) + s.resLeft k))

/-- The granules of the MIN held back when `n` more are taken: the reserves, unless the lane's own reserve is used. -/
def State.heldBack (s : State) (k n : Nat) : Nat := if s.allows (k / 4) n then s.laneReserve (k / 4) else 0

/-- How many of `n` granules that are taken come from the lane's reserve. -/
def State.fromRes (s : State) (k n : Nat) : Nat :=
  if s.allows (k / 4) n then 0 else n - s.ownFree (k / 4) (s.laneReserve (k / 4))

/-! ## Closing conditions (R367, R168, R376) -/

/-- SIZE of a lane in bytes; 0 and codes above 256 read 256. -/
def State.laneSize (s : State) (k : Nat) : Nat :=
  let z := s.fld (F.BND_LCFG_SIZE k)
  64 * (if z = 0 ∨ 256 < z then 256 else z)

/-- The tenant has a reserved sequence left (R376). -/
def State.seqLeft (s : State) (t : Nat) : Nat := (s.tnv t).seqHw - (s.ten t).seqNext

/-- An existing tenant has no active key (R371). -/
def State.noKey (s : State) (t : Nat) : Bool := s.tenExists t && (s.activeSlot t).isNone

/-- A tenant's open bundles wait for a committed sequence (R376). -/
def State.rsvWait (s : State) (t : Nat) : Bool :=
  s.tenExists t && s.seqLeft t == 0 && (List.range 4).any (fun l => (s.lane (qOut t l)).closeReq)

/-- PIRQ bits 9 and 10 of the BND page are latched where the level of RSV_WAIT or of NOKEY rose from `s0` to `s` (R134). -/
def State.bndRise (s0 : State) (s : State) : State :=
  let s1 := if (List.range 8).any s.rsvWait && !((List.range 8).any s0.rsvWait) then s.raise 0x21 9 else s
  if (List.range 8).any s.noKey && !((List.range 8).any s0.noKey) then s1.raise 0x21 10 else s1

/-- A close condition of a lane stands from now on; a bundle without items never closes. -/
def State.askClose (s : State) (k : Nat) : State :=
  s.bndRise (s.modLane k (fun x => if x.items.isEmpty then x else { x with closeReq := true }))

/-- Granules that the closing tag takes beyond those that the lane holds (R171). -/
def State.tagNeed (s : State) (k : Nat) : Nat := s.laneNeed k 0

/-- The lane can close: its seal credit is back, a sequence is left, and its closing tag fits (R171, R177). -/
def State.canClose (s : State) (k : Nat) : Bool :=
  !(s.lane k).credit && decide (0 < s.seqLeft (k / 4)) && (s.tagNeed k == 0 || s.resFits k (s.tagNeed k))

/-- The payload limit of a bundle. -/
def payloadMax : Nat := 16384

/-- The item would take the lane's payload above the limit. -/
def State.overLimit (s : State) (k n : Nat) : Bool := decide (payloadMax < (s.lane k).len + n)

/-- Appends an item to the open bundle of a lane (R176), `res` granules of the MIN held back. -/
def State.append (s : State) (k : Nat) (i : Item) (res : Nat) : State :=
  let old := laneGran (s.lane k)
  let s1 := s.modLane k (fun x => { x with
    items := x.items ++ [i], len := x.len + itemBytes i, first := if x.items.isEmpty then s.ht else x.first })
  let s2 := s1.takeGran (k / 4) (laneGran (s1.lane k) - old) res
  if k % 4 = 0 ∨ s2.laneSize k ≤ (s2.lane k).len then s2.askClose k else s2

/-! ## Records of a lane (R164, R177, R179, R365) -/

/-- Appends a record item: by the allowance, or by the lane's reserve. None when it cannot be placed now. -/
def State.placeRecord (s : State) (k ty src ht : Nat) (payload : List Byte) : Option State :=
  let t := k / 4
  let i : Item := ⟨ty, 0, src, (s.ten t).recCnt, ht, payload⟩
  let n := s.laneNeed k (itemBytes i)
  if s.overLimit k (itemBytes i) || !(s.resFits k n) then none
  else
    let s1 := (s.modTen t (fun x => { x with recCnt := (x.recCnt + 1) % 65536 })).append k i (s.heldBack k n)
    let taken := laneGran (s1.lane k) - laneGran (s.lane k)
    some (s1.modLane k (fun x => { x with
      res := x.res + (if s.allows t n then 0 else taken - s.ownFree t (s.laneReserve t)) }))

/-- A record of `n` bytes that would take the lane's open bundle above the payload limit goes into a bundle of its own: the
open one closes first (R177). -/
def State.recordWaits (s : State) (k n : Nat) : State := if s.overLimit k n then s.askClose k else s

/-- The bytes of a GAP record as an item. -/
def gapBytes (g : Gap) : Nat := 8 + (encGap g).length

/-- The EVICT payload (R362). -/
def encEvict (e : Evict) : List Byte :=
  bytesLE 4 e.count ++ bytesLE 6 e.seqA ++ bytesLE 6 e.seqB ++ bytesLE 8 e.htA ++ bytesLE 8 e.htB

def State.evictOf (s : State) (t : Nat) : Option Evict := mapGet (fun _ => none) s.evicts t
def State.setEvict (s : State) (t : Nat) (e : Option Evict) : State :=
  { s with evicts := mapSet (fun _ => none) s.evicts t e }

/-- The pending EVICT record goes to L3 ahead of its data (R179). -/
def State.drainEvict (s : State) (k : Nat) : State :=
  if k % 4 = 3 then
    match s.evictOf (k / 4) with
    | none => s
    | some e => match s.placeRecord k 0x0B (srcPage 0x21) e.htA (encEvict e) with
      | none => s.recordWaits k 40
      | some s1 => s1.setEvict (k / 4) none
  else s

/-- Places a lane's pending GAP records, oldest first, while they can be placed. -/
def drainLaneGaps (k : Nat) : List PendRec → List PendRec → State → State
  | [], kept, s => s.setPend k .bundler kept
  | r :: t, kept, s =>
    match r.gap with
    | none => drainLaneGaps k t kept s
    | some g =>
      if r.held then drainLaneGaps k t (kept ++ [r]) s
      else match s.placeRecord k 0x05 g.src g.part.first (encGap g) with
        | none => (s.recordWaits k (gapBytes g)).setPend k .bundler (kept ++ r :: t)
        | some s1 => drainLaneGaps k t kept (s1.addSat F.QUE_STAT_GAPS 1)

/-- The pending records of a lane enter it (R164). -/
def State.drainLane (s : State) (k : Nat) : State :=
  let s1 := s.drainEvict k
  drainLaneGaps k (s1.pendOf k .bundler) [] s1

/-- No record of the lane waits to enter it. -/
def State.laneClear (s : State) (k : Nat) : Bool :=
  (s.pendOf k .bundler).all (fun r => r.held) && (decide (k % 4 ≠ 3) || (s.evictOf (k / 4)).isNone)

/-- One more skip on a lane (R186): a record that counts bundles counts no items. -/
def addLaneSkip (src : Nat) (x : GapPart) : List PendRec → List PendRec
  | [] => [⟨src, some x, none, false, false, false⟩]
  | r :: t => if r.bundles || r.held then r :: addLaneSkip src x t else { r with own := extendOpt r.own (some x) } :: t

/-- A GAP record folded into the lane's own pending record (R165). -/
def addLaneFold (g : Gap) : List PendRec → List PendRec
  | [] => [⟨g.src, none, some (gapAsUp g), false, g.bundles, false⟩]
  | r :: t => if r.bundles || r.held then r :: addLaneFold g t else { r with up := joinOpt r.up (some (gapAsUp g)) } :: t

/-- The Bundler skips an item of a lane. -/
def State.laneSkip (s : State) (k cause : Nat) (i : Item) : State :=
  s.setPend k .bundler (addLaneSkip i.src (part1 cause none i.ht) (s.pendOf k .bundler))

/-- A GAP record goes on into its lane, or is folded (R165). -/
def State.laneGap (s : State) (k : Nat) (g : Gap) : State :=
  let s1 := s.drainLane k
  match (if s1.laneClear k then s1.placeRecord k 0x05 g.src g.part.first (encGap g) else none) with
  | some s2 => s2.addSat F.QUE_STAT_GAPS 1
  | none => (s1.recordWaits k (gapBytes g)).setPend k .bundler (addLaneFold g (s1.pendOf k .bundler))

/-! ## Eviction (R179) -/

/-- A host-port transaction has begun to deliver the bundle. -/
def State.inDelivery (s : State) (k seq : Nat) : Bool :=
  [0, 1].any (fun p => match s.txOf p with
    | none => false
    | some x => x.bundles.any (fun y => y.1 == k && y.2.1 == seq))

/-- The oldest bundle of a tenant's L3 that can be evicted. -/
def State.evictable (s : State) (t : Nat) : Option Bundle :=
  let k := qOut t 3
  firstWith (fun b => b.done && !(s.inDelivery k b.seq)) (s.closedOf k)

/-- The pending EVICT record grows by a bundle. -/
def evictMore (b : Bundle) : Option Evict → Evict
  | none => ⟨1, b.seq, b.seq, b.firstHt, b.lastHt⟩
  | some e => { e with count := e.count + 1, seqB := b.seq, htB := b.lastHt }

/-- An item of `n` bytes fits its lane: no record waits before it, and the allowance covers it (R177). -/
def State.itemFits (s : State) (k n : Nat) : Bool := s.laneClear k && s.allows (k / 4) (s.laneNeed k n)

/-- The bytes that a lane takes with an item of `n` bytes: on L3 the EVICT record that waits goes ahead of it (R179). -/
def State.withEvict (s : State) (k n : Nat) : Nat :=
  if k % 4 = 3 ∧ (s.evictOf (k / 4)).isSome then n + 40 else n

/-- Evicts bundles until an item of `n` bytes fits lane `k`, behind the records that wait there, or none can be evicted. -/
def evictFor (k n : Nat) : Nat → State → State
  | 0, s => s
  | f + 1, s =>
    let s1 := if s.allows (k / 4) (s.laneNeed k (s.withEvict k n)) then s.drainLane k else s
    if s1.itemFits k n then s1
    else match s1.evictable (k / 4) with
      | none => s1
      | some b =>
        let j := qOut (k / 4) 3
        let s2 := (s1.setClosed j ((s1.closedOf j).filter (fun x => x.seq != b.seq))).freeGran (k / 4) b.granules
        evictFor k n f (s2.setEvict (k / 4) (some (evictMore b (s2.evictOf (k / 4)))))

/-- Makes room for an item of `n` bytes, by eviction where L3 keeps the newest. -/
def State.makeRoom (s : State) (k n : Nat) : State :=
  if s.on (F.QUE_TCFG_L3_NEWEST (k / 4)) then evictFor k n ((s.closedOf (qOut (k / 4) 3)).length + 1) s else s

/-! ## Intake (R366) -/

/-- An item enters its lane, or is skipped (R168, R177, R178, R376). -/
def State.intakeItem (s : State) (k : Nat) (i : Item) : State :=
  let t := k / 4
  let s1 := (s.setPend k .bundler (endReset i.ht (s.pendOf k .bundler))).drainLane k
  if s1.overLimit k (itemBytes i) then s1.laneSkip k gcCREDIT i
  else
    let s2 := s1.makeRoom k (itemBytes i)
    if s2.itemFits k (itemBytes i) then s2.append k i (s2.laneReserve t)
    else
      let s3 := s2.laneSkip k gcQUOTA i
      if s3.fld (F.QUE_TUSE_USED t) < 16 * s3.fld (F.QUE_TQ_MAX t) then { s3 with capped := true } else s3

/-- The lanes in the order in which the Bundler serves their intake queues: L0 first, lowest tenant first, then the
others round robin from place `rr`. -/
def intakeOrder (rr : Nat) : List Nat :=
  (List.range 8).map (fun t => qOut t 0)
    ++ (List.range 24).map (fun n => qOut ((rr + n) % 24 / 3) ((rr + n) % 24 % 3 + 1))

/-- The next item of a lane must wait: the lane closes first. -/
def State.mustWait (s : State) (k : Nat) : Bool :=
  match s.queue (qIntake (k / 4) (k % 4)) with
  | ⟨_, _, .item i⟩ :: _ => s.overLimit k (itemBytes i) && s.canClose k
  | _ => false

/-- BUNDLER_INTAKE (R366): the Bundler takes one entry. -/
def execBundlerIntake (s : State) : Host.Outcome State Fault Refusal :=
  .next (s.when s.running fun s =>
    let order := intakeOrder s.hallmark.rr
    let s1 := forEach (order.filter (fun k => s.mustWait k)) (fun k s => s.askClose k) s
    match firstWith (fun k => !(s.queue (qIntake (k / 4) (k % 4))).isEmpty && !(s.mustWait k)) order with
    | none => s1
    | some k =>
      match s1.popQueue (qIntake (k / 4) (k % 4)) with
      | none => s1
      | some (e, s2) =>
        let s3 := if k % 4 = 0 then s2
          else { s2 with hallmark := { s2.hallmark with rr := (3 * (k / 4) + k % 4) % 24 } }
        match e.body with
        | .item i => s3.intakeItem k i
        | .gaps l => forEach l (fun g s => s.laneGap k g) s3
        | _ => s3)

/-- BUNDLE_AGE_EXPIRY (R367): AGE of a lane L1-L3 has passed since its first item. -/
def execBundleAgeExpiry (t l : Nat) (s : State) : Host.Outcome State Fault Refusal :=
  let k := qOut t l
  .next (s.when (s.running && decide (t < 8) && decide (1 ≤ l) && decide (l < 4) && s.on (F.BND_LCFG_AGE k) && s.ageDue k 0) fun s =>
    s.askClose k)

/-- GAP_RECORD_ENQUEUE (R164): the pending records of a producer of a queue enter it as far as its credits allow. -/
def execGapRecordEnqueue (q prod : Nat) (s : State) : Host.Outcome State Fault Refusal :=
  .next (s.when s.running fun s =>
    match prodOf prod with
    | none => s
    | some p =>
      if q < 0x20 then (if p = .bundler then s.drainLane q else s)
      else if 0x70 ≤ q ∧ q < 0x78 then (if p = .psq then s.psqGaps (q - 0x70) else s)
      else if q < 0x68 then s.drain q p
      else s)

/-! ## The header (R370) -/

/-- An HT lies in a dip window, or at or after the start of a dip whose window is open (R81). -/
def State.inDip (s : State) (h : Nat) : Bool :=
  s.sys.dipWins.any (fun w => decide (w.1 ≤ h) && decide (h ≤ w.2))
    || (match s.sys.dipStart with | none => false | some a => decide (a ≤ h))

/-- The flags of an item in a bundle whose first item has the HT `h0` (R360). -/
def State.itemFlags (s : State) (h0 : Nat) (i : Item) : Nat :=
  i.flags % 8 + (if s.inDip i.ht then 8 else 0)
    + 16 * min 7 (epochAt s.rck.epochs i.ht - epochAt s.rck.epochs h0)

/-- An item in a payload (R360). -/
def State.encItem (s : State) (h0 : Nat) (i : Item) : List Byte :=
  bytesLE 1 i.ty ++ bytesLE 1 (s.itemFlags h0 i) ++ bytesLE 2 i.src ++ bytesLE 2 i.payload.length ++ bytesLE 2 i.seq
    ++ padTo 4 i.payload

def flag (b : Bool) (n : Nat) : Nat := if b then n else 0

/-- The health word of a tenant (R370). -/
def State.health (s : State) (t : Nat) : Nat :=
  let vs := (clampInt 0 255 (quot ((s.sys.vstore : Int) - 2000) 20)).toNat
  let tj := (clampInt 0 255 (quot (s.sys.temp + 640) 10)).toNat
  flag (s.on F.SXT_STAT_LOCK) 1 + flag (s.on F.CLK_SYN_HOLDOVER) 2 + flag (s.on F.SYS_DIP_ACTIVE) 4
    + flag (s.activeSlot t).isNone 8 + flag (s.on F.LOG_STATUS_DEAD) 16 + flag s.rck.ofs.isNone 32
    + flag (s.on F.RCK_STAT_EXHAUSTED) 64 + flag (s.on F.SXT_EVT_REV_SUSPECT) 128
    + (if t = 0 then 256 * s.fld F.TAM_LATCH_LATCHED else 0) + 65536 * vs + 16777216 * tj

/-- The flags of a bundle header (R370). -/
def State.bundleFlags (s : State) (t : Nat) (items : List Item) : Nat :=
  let has := fun ty => items.any (fun i => i.ty == ty)
  let eps := items.map (fun i => epochAt s.rck.epochs i.ht)
  flag (has 0x05) 1 + flag (has 0x06 || eps.any (fun e => e != eps.headD 0)) 2
    + flag (items.any (fun i => decide (i.ty ≤ 4) && s.inDip i.ht)) 4 + flag (items.any (fun i => i.flags.testBit 0)) 8
    + flag (has 0x0B) 16 + flag (t == 0 && s.on F.LOG_STATUS_DEAD) 32 + flag (decide (1 ≤ s.levelInForce)) 64
    + flag (has 0x09) 128

/-- The bundle that closes on a lane (R369, R370). -/
def State.makeBundle (s : State) (k : Nat) : Bundle :=
  let t := k / 4
  let ln := s.lane k
  let h0 := (ln.items.map (fun i => i.ht)).headD 0
  let mode := s.closeMode k
  let gen := s.activeGen t
  let seq := (s.ten t).seqNext
  let payload := (ln.items.map (fun i => s.encItem h0 i)).flatten
  let header := [0xB7, 1] ++ bytesLE 1 (16 * t + 4 * (k % 4) + mode) ++ bytesLE 1 (s.bundleFlags t ln.items)
    ++ bytesLE 2 payload.length ++ bytesLE 2 ln.items.length ++ bytesLE 6 seq ++ bytesLE 2 gen
    ++ bytesLE 4 (s.epochIdAt h0) ++ bytesLE 8 h0 ++ bytesLE 4 (s.health t)
  ⟨seq, mode, gen, header, payload, [], ceilDiv (32 + payload.length + tagLen mode) 32, false, h0,
   (ln.items.map (fun i => i.ht)).getLastD h0, ln.res + s.fromRes k (s.tagNeed k)⟩

/-! ## Closing (R368, R369, R376) -/

/-- Requests a further reservation within 4,096 of the committed high-water (R376). -/
def State.reserveSeq (s : State) (t : Nat) : State :=
  if s.seqLeft t ≤ 4096 ∧ !(s.hallmark.rsvReq.testBit t) then
    { s with hallmark := { s.hallmark with rsvReq := s.hallmark.rsvReq ||| 2 ^ t } }.nvRequest
      (.seqReserve t ((s.tnv t).seqHw + 65536))
  else s

/-- The close cycle of a lane (R369). -/
def State.closeLane (s : State) (k : Nat) : State :=
  let t := k / 4
  let b := s.makeBundle k
  let s1 := s.takeGran t (s.tagNeed k) (s.heldBack k (s.tagNeed k))
  let s2 := (s1.modLane k (fun _ => { lane0 with credit := true })).setClosed k (s1.closedOf k ++ [b])
  let s3 := { s2 with hallmark := { s2.hallmark with queue := s2.hallmark.queue ++ [(k, b.seq)] } }
  let s4 := s3.modTen t (fun x => { x with seqNext := x.seqNext + 1, bundles := min (x.bundles + 1) (2 ^ 32 - 1) })
  (s.bndRise s4).reserveSeq t

/-- The lanes in closing order: L0 first, then L1, L2, L3; within a class the lowest tenant first (R368). -/
def closeOrder : List Nat := (List.range 32).map (fun n => qOut (n % 8) (n / 8))

/-- BUNDLE_CLOSE (R367-R369): the first lane whose close condition stands and that can close. -/
def execBundleClose (s : State) : Host.Outcome State Fault Refusal :=
  .next (s.when s.running fun s =>
    match firstWith (fun k => (s.lane k).closeReq && !(s.lane k).items.isEmpty && s.canClose k) closeOrder with
    | none => s
    | some k => s.closeLane k)

/-- SEQ_RESERVATION_COMMIT (R376): the reservation in work is committed. -/
def execSeqReservationCommit (t : Nat) (s : State) : Host.Outcome State Fault Refusal :=
  .next (s.when (s.cclk && s.stw.nvActive) fun s =>
    match s.stw.nvq with
    | .seqReserve u hw :: _ =>
      if u = t then
        let s1 := s.modTnv t (fun n => { n with seqHw := hw })
        { s1 with hallmark := { s1.hallmark with rsvReq := s1.hallmark.rsvReq - (s1.hallmark.rsvReq &&& 2 ^ t) } }.nvEnd
      else s
    | _ => s)

/-! ## The Hallmark engine (R372-R375) -/



/-- SEAL_START (R374, R375): the head of the seal queue, unless SEAL_STOP holds it. -/
def execSealStart (s : State) : Host.Outcome State Fault Refusal :=
  .next (s.when (s.running && s.hallmark.work.isNone) fun s =>
    match s.hallmark.queue with
    | [] => s
    | (k, q) :: rest =>
      let mode := match s.bundleAt k q with | none => 0 | some b => b.mode
      if s.on F.TAM_LATCH_SEALSTOP && mode != 0 then
        if s.on F.BND_HSTAT_STOPPED then s
        else (s.risen [0x21] (s.setFld F.BND_HSTAT_STOPPED 1)).raise 0x21 8
      else { s with hallmark := { s.hallmark with queue := rest, work := some (k, q) } })

/-- The nonce of a bundle (R373). -/
def State.nonce (s : State) (t : Nat) (b : Bundle) : List Byte :=
  bytesLE 4 s.nv.trim.devLo ++ bytesLE 1 t ++ bytesLE 6 b.seq ++ bytesLE 2 b.gen

/-- The bundle key of a generation: of the slot that holds it (R372, R388). -/
def State.genKey (s : State) (t gen : Nat) : List Byte := s.bundleKey t gen (s.heldKey t gen)

/-- What the engine makes of a bundle (R371, R372). -/
def State.sealBundle (s : State) (t : Nat) (b : Bundle) : Bundle :=
  let key := s.genKey t b.gen
  let n := s.nonce t b
  if b.mode = 2 then
    { b with payload := Config.ccmCipher key n b.header b.payload, tag := Config.ccmTag key n b.header b.payload, done := true }
  else if b.mode = 1 then { b with tag := Config.ccmTag key n (b.header ++ b.payload) [], done := true }
  else { b with done := true }

/-- SEAL_DONE (R374): the bundle in work is finished, and its lane's seal credit returns. -/
def execSealDone (s : State) : Host.Outcome State Fault Refusal :=
  .next (s.when s.running fun s =>
    match s.hallmark.work with
    | none => s
    | some (k, q) =>
      let sealed := match s.bundleAt k q with | none => false | some b => b.mode != 0
      let s1 := s.setClosed k ((s.closedOf k).map (fun b => if b.seq = q then s.sealBundle (k / 4) b else b))
      let s2 := (if sealed then s1.addSat F.BND_SEALS_COUNT 1 else s1).modLane k (fun x => { x with credit := false })
      { s2 with hallmark := { s2.hallmark with work := none } })

/-! ## HEALTH (R362, R379) -/

/-- The HEALTH payload (R362). -/
def State.encHealth (s : State) : List Byte :=
  bytesLE 8 s.ht ++ bytesLE 4 (s.health 0) ++ bytesLE 2 s.sys.vstore ++ bytesLE 2 s.sys.vharv
    ++ bytesLE 1 (s.fld F.CLK_GEAR_CUR) ++ bytesLE 1 (s.fld F.SYS_PSTATE_STATE) ++ bytesLE 2 (code 16 s.sys.temp)
    ++ bytesLE 4 s.poolFree ++ bytesLE 2 (getBits (BitVec.ofNat 32 (Config.timing A.ASY_LOAD s.ht)) 0 16) ++ [0, 0]
    ++ bytesLE 4 (s.fld F.SYS_SESSION_NUM)

/-- HEALTH_RECORD (R379): every PER seconds, to tenant 0's L2. -/
def execHealthRecord (s : State) : Host.Outcome State Fault Refusal :=
  .next (s.when (s.running && s.on F.BND_HCFG_PER) fun s => s.record 0 2 0x08 0x21 s.ht s.encHealth)

/-! ## The placement loop (R174) -/

/-- PLACEMENT_UPDATE (R174): a period ends. S follows the free granules of the pool while the loop runs. -/
def execPlacementUpdate (s : State) : Host.Outcome State Fault Refusal :=
  let live := s.loopLive loopPLC && decide (0 < s.poolSize)
  .next (s.when s.cclk fun s =>
    if !live then { s with capped := false } else
    let d := 16 * s.loopStep loopPLC
    let v := (s.loop loopPLC).out
    let low := s.fld F.QUE_PLC_CFG_FREE
    let r : Int :=
      if s.poolFree < low then v - (d : Int)
      else if s.capped ∧ low + d ≤ s.poolFree then v + (d : Int)
      else v
    let s1 := s.loopUpdate loopPLC r
    { s1 with capped := false })

/-! ## Memory errors (R190) -/

/-- The tenants that may have a copy of a discarded entry's stream: those of its capture entry, or the grants in force. -/
def State.lostConsumers (s : State) (e : Entry) : List (Nat × Bool) :=
  match e.body with
  | .capture c => s.captureConsumers c
  | _ => s.descConsumers (entrySrc e)

/-- A command whose payload is discarded ends with it (R190): its envelope goes, and its page is free again. What the
Steward owes is a GAP record with cause ECC in tenant 0's L1 (DESIGN CHOICE, log entry 149). -/
def State.eccCommand (s : State) : State :=
  let s1 := forEach (List.range 8) (fun n s =>
    if s.fld (F.TN_CSTAT_STATE n) = 3 then (s.setFld (F.TN_CSTAT_STATE n) 0).setFld (F.TN_CSTAT_COUNT n) 0 else s) s
  ({ s1 with env := none }).skip (qIntake 0 1) .record (srcPage 0x22) gcECC none s.ht

/-- The consumer of an internal queue accounts for an entry that it discards, toward each of its outputs. -/
def State.eccSkip (s : State) (q : Nat) (e : Entry) : State :=
  let src := entrySrc e
  let ht := entryHt e
  let each := fun (p : Producer) (owner : Nat) (l : List (Nat × Bool)) (s : State) =>
    let l1 := l.filter (fun c => c.2)
    if l1.isEmpty then s.skip (qIntake owner 1) p src gcECC none ht
    else forEach l1 (fun c s => s.skip c.1 p src gcECC none ht) s
  if 0x20 ≤ q ∧ q < 0x28 then
    (if src < 256 then each .stamp (dOwner (s.desc src).words) (s.lostConsumers e) s
     else each .stamp (s.pageTenant (portPage (q - 0x20))) [] s)
  else if 0x28 ≤ q ∧ q < 0x40 then (each .assay (s.asyOwner (q - 0x28)) (s.outDests (q - 0x28)) s).headGone q
  else if 0x40 ≤ q ∧ q < 0x48 then each .resampler (s.rsmOwner (q - 0x40)) (s.rsmDests (q - 0x40)) s
  else if 0x48 ≤ q ∧ q < 0x68 then
    s.setPend (q - 0x48) .bundler (addLaneSkip src (part1 gcECC none ht) (s.pendOf (q - 0x48) .bundler))
  else if q = qCmd then s.eccCommand
  else s

/-- Bytes of a bundle that hold an uncorrectable error: what stands there is a free value. -/
def spoiled (seq start : Nat) (l : List Byte) : List Byte := (List.range l.length).map (fun i => Config.storedByte seq (start + i))

/-- A closed bundle with an uncorrectable error, as it is stored and delivered (R190). -/
def spoil (b : Bundle) : Bundle :=
  { b with
    header := spoiled b.seq 0 b.header
    payload := spoiled b.seq 32 b.payload
    tag := spoiled b.seq (32 + b.payload.length) b.tag }

/-- ECC_UNCORRECTABLE (R190): a double-bit error in the head entry of an internal queue, or in the head bundle of an
output lane. -/
def execEccUncorrectable (q : Nat) (s : State) : Host.Outcome State Fault Refusal :=
  let mark := fun (s : State) => (s.risen [0x20] (s.setFld F.QUE_STAT_ECC_UNCORR 1)).raise 0x20 8
  .next (s.when (s.cclk && decide (q < 0x69)) fun s =>
    if q < 0x20 then
      match s.closedOf q with
      | [] => s
      | b :: l =>
        (mark (s.setClosed q (spoil b :: l))).record (q / 4) 1 0x07 0x20 s.ht
          (bytesLE 1 3 ++ bytesLE 1 1 ++ bytesLE 1 (q % 4) ++ [0] ++ bytesLE 4 0 ++ bytesLE 8 s.ht ++ bytesLE 6 b.seq ++ [0, 0])
    else
      match s.popQueue q with
      | none => s
      | some (e, s1) => (mark s1).eccSkip q e)

end Sys2Proof.Machine
end

