-- ==== Sys2Proof/Machine/Planisher.lean ====
section
/-! DEFINITION. The Planisher's own loops (R480-R491): core voltage, gear governor and harvester MPPT. -/

namespace Sys2Proof.Machine

/-! ## Core voltage (R480-R482) -/

/-- The learned code of the gear in force changes, clamped (R149), and the code in force follows. -/
def State.learn (s : State) (d : Int) : State :=
  let g := s.gear
  let l := clampLoop (s.loopLo loopAVS) (s.loopHi loopAVS) ((s.learned g : Int) + d)
  let s1 := s.setLearned g l.out.toNat
  let c := s1.codeFor g
  (s1.putLoop loopAVS { l with out := (c : Int) }).setFld F.PWR_CORE_VSET c

/-- AVS_UPDATE (R481): the end of a PERIOD with the least margin; a period with a gear change makes no update. -/
def execAvsUpdate (mmin : Nat) (s : State) : Host.Outcome State Fault Refusal :=
  .next (s.when s.cclk fun s =>
    let m := min mmin 63
    let step : Int := s.loopStep loopAVS
    let s1 := s.setFld F.PLN_AVS_STAT_MARGIN m
    let s2 := if !(s1.loopLive loopAVS) || s1.pln.gearMoved || s1.changing then s1
      else if m < s1.fld F.PLN_AVS_CFG_MLO then s1.learn step
      else if s1.fld F.PLN_AVS_CFG_MHI < m then s1.learn (-step)
      else s1.learn 0
    { s2 with pln := { s2.pln with gearMoved := false } })

/-- AVS_CANARY (R481): the margin was 0 in a cycle. -/
def execAvsCanary (s : State) : Host.Outcome State Fault Refusal :=
  .next (s.when s.cclk fun s =>
    let s1 := if s.loopLive loopAVS then s.learn (4 * (s.loopStep loopAVS : Int)) else s
    (s1.addSat F.PLN_AVS_STAT_CANARY 1).raise 0x04 9)

/-! ## Gear governor (R484, R485, R488) -/

/-- U of a window: the largest share of busy cycles in units of 1/256, rounded down. -/
def share256 (cycles : Nat) (busy : List Nat) : Nat := min 256 (busy.foldl (fun m b => max m (256 * b / cycles)) 0)

/-- The governor's g and z after a window with the share `u` (R484). -/
def State.govern (s : State) (u : Nat) : State :=
  let g := (s.loop loopGEAR).out
  let down := max 1 (s.fld F.PLN_GEAR_CFG_DOWN)
  let (g1, z) : Int × Nat :=
    if s.fld F.PLN_GEAR_CFG_UHI < u then (g + (s.loopStep loopGEAR : Int), 0)
    else if u < s.fld F.PLN_GEAR_CFG_ULO then (if down ≤ s.pln.z + 1 then (g - 1, 0) else (g, s.pln.z + 1))
    else (g, 0)
  { s.loopUpdate loopGEAR g1 with pln := { s.pln with z := z } }

/-- GEAR_WINDOW_END (R484): a window ends with the busy cycles of the four engines; the effective gear is requested. -/
def execGearWindowEnd (assay sealing bundler steward cycles : Nat) (s : State) : Host.Outcome State Fault Refusal :=
  .next (s.when s.awake fun s =>
    let u := share256 cycles [assay, sealing, bundler, steward]
    let s1 := s.setFld F.PLN_GEAR_STAT_U (min 255 u)
    (if s1.loopLive loopGEAR then s1.govern u else s1).regear)

/-! ## Harvester MPPT (R489-R491) -/

/-- The loop runs: enabled, not frozen, its preconditions true, and no VOC pause. -/
def State.mpptRuns (s : State) : Bool := s.powered && s.loopLive loopMPPT && s.mpptOk && !s.pln.vocPause

/-- MPPT_POWER_SAMPLE (R490): VSTORE in mV and IHARV in mA; the power in units of 0.1 mW. -/
def execMpptPowerSample (vstore iharv : Nat) (s : State) : Host.Outcome State Fault Refusal :=
  .next (s.when s.mpptRuns fun s =>
    { s with pln := { s.pln with pSum := s.pln.pSum + (quot ((vstore * iharv : Nat) : Int) 100).toNat, pCount := s.pln.pCount + 1 } })

/-- The update of R490 with the mean power `p`. -/
def State.mpptStep (s : State) (p : Nat) : State :=
  let up := if p + s.fld F.PLN_MPPT_CFG_DEAD < s.pln.pPrev then !s.pln.dirUp else s.pln.dirUp
  let step : Int := s.loopStep loopMPPT
  let run := if p = 0 then s.pln.zeroRun + 1 else 0
  let s1 := s.loopUpdate loopMPPT ((s.loop loopMPPT).out + (if up then step else -step))
  let s2 := (s1.setFld F.PLN_MPPT_STAT_P (min p 65535)).setFld F.PLN_MPPT_STAT_DIR (if up then 0 else 1)
  { s2 with pln := { s2.pln with
      dirUp := up, pPrev := p, pSum := 0, pCount := 0
      zeroRun := if 8 ≤ run then 0 else run, vocWait := s2.pln.vocWait || decide (8 ≤ run) } }

/-- MPPT_UPDATE (R489, R490): the end of a PERIOD. -/
def execMpptUpdate (s : State) : Host.Outcome State Fault Refusal :=
  .next (s.when s.powered fun s =>
    if s.mpptRuns then s.mpptStep (quot s.pln.pSum s.pln.pCount).toNat
    else
      let s1 : State := { s with pln := { s.pln with pSum := 0, pCount := 0 } }
      if s.loopLive loopMPPT && (s.on F.PWR_HSTAT_CEILING || s.on F.PWR_HSTAT_ILIM_ACT) then
        s1.putLoop loopMPPT { s1.loop loopMPPT with satHi := true, satLo := false }
      else s1)

/-- VOC_RESAMPLE_START (R491): the converter stops; a resample that falls due in a dip waits. -/
def execVocResampleStart (s : State) : Host.Outcome State Fault Refusal :=
  .next (s.when (s.mpptRuns && !(s.on F.SYS_DIP_ACTIVE) && (s.pln.vocWait || s.on F.PLN_MPPT_CFG_VOCPER)) fun s =>
    ({ s with pln := { s.pln with vocPause := true, vocWait := false } }).harvShow)

/-- VOC_PAUSE_END (R491): 2 ms after the start, with VHARV in mV. -/
def execVocPauseEnd (vharv : Nat) (s : State) : Host.Outcome State Fault Refusal :=
  .next (s.when (s.powered && s.pln.vocPause && decide (s.sys.pstate ≠ .stowCold)) fun s =>
    let c := min (quot vharv 20).toNat 1023
    let s1 := s.setFld F.PLN_MPPT_STAT_VOC c
    let s2 := if s1.loopLive loopMPPT then s1.loopUpdate loopMPPT ((c * s1.fld F.PLN_MPPT_CFG_KOC / 256 : Nat) : Int) else s1
    let s3 := s2.setFld F.PLN_MPPT_STAT_DIR 0
    ({ s3 with pln := { s3.pln with vocPause := false, dirUp := true, pPrev := 0, pSum := 0, pCount := 0, zeroRun := 0 } }.harvShow).raise
      0x04 10)

end Sys2Proof.Machine
end

