-- ==== Sys2Proof/Machine/Rose.lean ====
section
/-! DEFINITION. The Rose (R337-R359): consumers and busy, flares, software fire, the usability of taps and gates, and
detaching. -/

namespace Sys2Proof.Machine

/-! ## Consumers (R338, R344-R346) -/

/-- The destinations of the consumer taps. -/
inductive RoseDest where
  | line (k : Nat)
  | stamp (n : Nat)
  | flare (n : Nat)
  | hostWake
  | close (t l : Nat)
  deriving DecidableEq, Repr

/-- The destination of the enabled consumer tap `k` of channel `c`. -/
def State.dest (s : State) (c k : Nat) : RoseDest :=
  if k = 0 then .line (c % 16)
  else if k = 3 then
    (if c % 2 = 0 then .hostWake else .close (s.fld (F.ROS_CH_OWNER c)) (s.fld (F.ROS_CH_ARG c)))
  else if c < 56 then .flare (k - 1) else .stamp (k - 1)

/-- A channel's bit in ROS_IFLG, ROS_DET or ROS_EVT. -/
def chBit (f : Nat → Fld) (c : Nat) (s : State) : State := s.setBit (f (c / 32)) (c % 32)

/-- An ignored event (R346). -/
def State.roseIgnore (s : State) (c : Nat) : State :=
  (chBit F.ROS_IFLG_BITS c (s.addSat (F.ROS_IGN_CNT c) 1)).raise 0x0C 8

/-- A delivered event. -/
def State.roseTaken (s : State) (c : Nat) : State := chBit F.ROS_EVT_BITS c s

/-- STATE of a flare; its rise is PIRQ bit 10. -/
def State.flareState (s : State) (f : Nat) (b : Bool) : State :=
  let s1 := s.putOn (F.ROS_FLR_STATE f) b
  if b && !(s.on (F.ROS_FLR_STATE f)) then s1.raise 0x0C 10 else s1

def State.pulsing (s : State) (f : Nat) : Bool := s.sys.flares.testBit f
def State.setPulse (s : State) (f : Nat) (b : Bool) : State :=
  s.modSys (fun y => { y with flares := if b then y.flares ||| 2 ^ f else y.flares - (y.flares &&& 2 ^ f) })

/-- A flare is SET (R349): in PULSE mode its pulse begins. -/
def State.flareSet (s : State) (f : Nat) : State :=
  (if s.on (F.ROS_FLR_MODE f) then s.setPulse f true else s).flareState f true

/-- A flare is CLEARed (R349). -/
def State.flareClear (s : State) (f : Nat) : State := (s.setPulse f false).flareState f false

/-- One event reaches a consumer other than a flare. -/
def State.consume (s : State) (c : Nat) (d : RoseDest) (edge : Option (Nat × Nat)) : State :=
  match d with
  | .line k =>
    let join := match edge with
      | none => none
      | some e => if s.on (F.STP_CH_CFG_JOIN e.1) then edge else none
    (s.lineEvent k join).roseTaken c
  | .stamp n =>
    let ch := 10 + n
    if s.on (F.STP_CH_CFG_EN ch) then
      let s1 := s.stampChan ch s.ht 0
      let x := s1.chan ch
      let s2 := (s1.setFld (F.STP_CH_LO_T ch) (x.newest % 2 ^ 32)).setFld (F.STP_CH_HI_T ch) (x.newest / 2 ^ 32)
      (s2.edgeStream ch false).roseTaken c
    else s.roseIgnore c
  | .hostWake =>
    if s.on F.SYS_HWAKE_ROSE then s.roseIgnore c else (s.wakeHost F.SYS_HWAKE_ROSE).roseTaken c
  | .close t l =>
    let k := qOut t l
    if (s.lane k).closeReq && (s.lane k).credit then s.roseIgnore c else (s.askClose k).roseTaken c
  | .flare _ => s

/-- The events of one cycle at the consumers other than flares: the lowest channel is taken, the others find the consumer
busy (R344). -/
def consumeAll : List (Nat × RoseDest × Option (Nat × Nat)) → List RoseDest → State → State
  | [], _, s => s
  | (c, d, e) :: t, used, s =>
    if used.contains d then consumeAll t used (s.roseIgnore c)
    else consumeAll t (d :: used) (s.consume c d e)

/-- The events of one cycle at a flare (R349): SET wins over CLEAR; a SET alone during a pulse is ignored, and so is every
event while the flare is not released. Each event stands with whether it is a CLEAR. -/
def State.flareEvents (s : State) (f : Nat) (es : List (Nat × Bool)) : State :=
  let cs := es.map (fun e => e.1)
  let sets := es.filter (fun e => !e.2)
  let clears := es.filter (fun e => e.2)
  let busy := !(s.on (F.ROS_FLR_REL f))
    || (s.on (F.ROS_FLR_MODE f) && s.pulsing f && clears.isEmpty)
  if cs.isEmpty then s
  else if busy then forEach cs (fun c s => s.roseIgnore c) s
  else
    let s1 := forEach cs (fun c s => s.roseTaken c) s
    let s2 := if clears.isEmpty then s1 else s1.setPulse f false
    if sets.isEmpty then s2.flareClear f else s2.flareSet f

/-- Inserts an event by its channel number. -/
def insertEvent (e : RoseEvent) : List RoseEvent → List RoseEvent
  | [] => [e]
  | x :: t => if e.ch ≤ x.ch then e :: x :: t else x :: insertEvent e t

/-- The consumer that a presented event reaches, by the channel's word in the cycle in which it was presented; the last
part tells that ARG is not 0. -/
def State.roseReach (s : State) (e : RoseEvent) : Option (Nat × RoseDest × Option (Nat × Nat) × Bool) :=
  let w := s.setReg (A.ROS_CH e.ch) e.word
  (w.consumer e.ch).map (fun k => (e.ch, w.dest e.ch k, e.edge, w.fld (F.ROS_CH_ARG e.ch) != 0))

/-- ROSE_EVENT (R337, R344-R349): the events presented in a cycle reach their consumers. -/
def execRoseEvent (s : State) : Host.Outcome State Fault Refusal :=
  .next (s.when s.cclk fun s =>
    let evs := (s.rose.foldr insertEvent []).filterMap (fun e => s.roseReach e)
    let s1 : State := { s with rose := [] }
    let plain := evs.filter (fun x => match x.2.1 with | .flare _ => false | _ => true)
    let s2 := consumeAll (plain.map (fun x => (x.1, x.2.1, x.2.2.1))) [] s1
    forEach [0, 1] (fun f s =>
      s.flareEvents f ((evs.filter (fun x => x.2.1 == .flare f)).map (fun x => (x.1, x.2.2.2)))) s2)

/-- FLARE_PULSE_END (R349): PULSE µs have passed. -/
def execFlarePulseEnd (f : Nat) (s : State) : Host.Outcome State Fault Refusal :=
  .next (s.when (decide (f < 2) && s.cclk && s.pulsing f) fun s => s.flareClear f)

/-! ## Flare balls (R347, R348) -/

/-- The level of a flare ball (R347). -/
def State.flareLevel (s : State) (f : Nat) : Bool :=
  if s.on (F.ROS_FLR_REL f) then s.on (F.ROS_FLR_STATE f) == s.on (F.ROS_FLR_ACT f) else s.on (F.ROS_FLR_RSTLVL f)

/-- REL changed from 0 to 1 (R348): STATE is such that the ball level does not change. -/
def State.flareReleased (s : State) (f : Nat) : State :=
  (s.setPulse f false).flareState f (s.on (F.ROS_FLR_RSTLVL f) == s.on (F.ROS_FLR_ACT f))

/-! ## Permissions (R340-R342) -/

/-- A unit is owned by a tenant or grants it. -/
def State.unitUsable (s : State) (u t : Nat) : Bool :=
  decide (u < 24) && (s.asyOwner u == t || s.bit (F.ASY_OUT_GRANT u) t)

/-- A gate is usable by a tenant (R340). -/
def State.gateUsable (s : State) (g t : Nat) : Bool :=
  if g = 0 ∨ (8 ≤ g ∧ g ≤ 11) then true
  else if g < 8 then s.fld (F.ROS_GSW_OWNER (g - 1)) == t
  else s.unitUsable (s.fld (F.ROS_GSEL_UNIT (g - 12))) t

/-- The owner of a page for a tap: tenant 0 for the QUE page, and where a page has none. -/
def State.tapOwner (s : State) (p t : Nat) : Bool := s.pageTenant p == t

/-- Producer tap `k` of channel `c` is usable by a tenant (R338, R341). -/
def State.producerUsable (s : State) (c k t : Nat) : Bool :=
  if k = 0 then s.chanOwner (c % 10) == t
  else if k = 1 then s.unitUsable (c % 24) t
  else if k = 2 then s.tapOwner 0x07 t
  else if c < 48 then s.unitUsable (c % 24) t
  else if c = 49 ∨ c = 50 then true
  else if c = 48 then s.tapOwner 0x23 t
  else if c = 51 then s.tapOwner 0x03 t
  else if c = 52 then s.tapOwner 0x02 t
  else if c = 53 ∨ c = 54 then s.tapOwner 0x17 t
  else if c = 55 then s.tapOwner 0x05 t
  else if c < 60 then s.tapOwner (0x10 + (c - 56)) t
  else if c < 63 then s.tapOwner (0x14 + (c - 60)) t
  else t == 0

/-- Consumer tap `k` of channel `c` is owned by a tenant (R341). -/
def State.consumerUsable (s : State) (c k t : Nat) : Bool :=
  match s.dest c k with
  | .line n => s.fld (F.PSQ_TOWN_OWNER n) == t
  | .stamp n => s.fld (F.STP_CH_CFG_OWNER (10 + n)) == t
  | .flare n => s.fld (F.ROS_FLR_OWNER n) == t
  | .hostWake => s.bit F.ROS_HWK_ALLOW t
  | .close _ _ => true

/-- ARG is permitted for the enabled consumer (R342). -/
def State.argGood (s : State) (c : Nat) : Bool :=
  let a := s.fld (F.ROS_CH_ARG c)
  match s.consumer c with
  | none => a == 0
  | some k => match s.dest c k with
    | .flare _ => decide (a < 2)
    | .close _ _ => true
    | _ => a == 0

/-- The enabled consumer taps of a channel; at most one is allowed. -/
def State.consCount (s : State) (c : Nat) : Nat :=
  ((List.range 4).filter (fun k => s.bit (F.ROS_CH_CEN c) k)).length

/-- What R342 asks of a channel word in force. -/
def State.channelGood (s : State) (c : Nat) : Bool :=
  let t := s.fld (F.ROS_CH_OWNER c)
  decide (s.consCount c ≤ 1)
    && (List.range 4).all (fun k => !(s.bit (F.ROS_CH_PEN c) k) || s.producerUsable c k t)
    && (match s.consumer c with | none => true | some k => s.consumerUsable c k t)
    && s.gateUsable (s.fld (F.ROS_CH_GATE c)) t && s.argGood c

/-- A channel is locked (R143), or has been since a shadow mismatch (R354). -/
def State.roseLocked (s : State) (c : Nat) : Bool := s.on (F.ROS_CH_LOCK c) || s.shadowBad.contains (A.ROS_CH c)

/-! ## Detaching (R343) -/

/-- The taps of a channel that are enabled and no longer permitted: a mask as PEN and CEN lie in the word. A gate that is
no longer usable takes the consumer tap. -/
def State.lostTaps (s : State) (c : Nat) : Nat :=
  let t := s.fld (F.ROS_CH_OWNER c)
  let p := ((List.range 4).filter (fun k => s.bit (F.ROS_CH_PEN c) k && !(s.producerUsable c k t))).foldl (fun m k => m + 2 ^ k) 0
  match s.consumer c with
  | none => p
  | some k => if s.consumerUsable c k t && s.gateUsable (s.fld (F.ROS_CH_GATE c)) t then p else p + 2 ^ (4 + k)

/-- A change would detach a locked channel that was whole before it. -/
def State.cutsLocked (s0 s : State) : Bool :=
  (List.range 64).any (fun c => s.roseLocked c && s.lostTaps c != 0 && s0.lostTaps c == 0)

/-- Clears the taps no longer permitted, and marks their channels (R343). -/
def State.roseDetach (s : State) : State :=
  forEach (List.range 64) (fun c s =>
    let m := s.lostTaps c
    if m = 0 ∨ s.roseLocked c then s
    else
      let w := s.reg (A.ROS_CH c)
      (chBit F.ROS_DET_BITS c (s.setReg (A.ROS_CH c) (w &&& ~~~ (BitVec.ofNat 32 m)))).raise 0x0C 9) s

/-! ## Fire and resets -/

/-- A software fire of a channel (R351). -/
def State.fire (s : State) (c : Nat) : State := s.presentOn c none

/-- A DATAPATH reset drops what was presented in its cycle (R356). -/
def State.roseReset (s : State) : State := { s with rose := [] }

/-- A SET of a flare has been presented and is taken in the next cycle. -/
def State.setWaits (s : State) (f : Nat) : Bool :=
  (s.rose.filterMap (fun e => s.roseReach e)).any (fun x => x.2.1 == .flare f && !x.2.2.2)

/-- A write of 1 to a released flare's bit of ROS_FCLR (R349): a CLEAR in the cycle after the commit. A SET that is taken in
that cycle wins: the CLEAR then only ends the pulse, so that the SET is not ignored. -/
def State.flareWritten (s : State) (f : Nat) : State :=
  if !(s.on (F.ROS_FLR_REL f)) then s
  else if s.setWaits f then s.setPulse f false
  else s.flareClear f

/-- A BLOCK reset of the status page (R356). -/
def State.roseBlockReset (s : State) : State :=
  let s1 := forEach (List.range 16) (fun j s => s.setReg (A.ROS_IGN + 4 * j) 0) s
  forEach [0, 1] (fun n s => ((s.setReg (A.ROS_IFLG n) 0).setReg (A.ROS_DET n) 0).setReg (A.ROS_EVT n) 0) s1

end Sys2Proof.Machine
end

