-- ==== Sys2Proof/Machine/Resets.lean ====
section
/-! DEFINITION. Resets (R94-R98, R356, R411): the FULL reset's sources, DATAPATH and TENANT requests, the BLOCK reset of each
page, and the host watchdog and reset pulse (R103-R105). -/

namespace Sys2Proof.Machine

/-! ## FULL reset sources -/

/-- VSTART_RISE (R65, R10): the unpowered state ends. Boot begins as a boot through VSTART (R68), unless NRST still holds
the hub: then the source of its reset is NRST (02 Balls and package), and the boot after it is no cold start. -/
def execVstartRise (s : State) : Host.Outcome State Fault Refusal :=
  .next (s.when (decide (s.sys.phase = .unpowered)) fun s =>
    let held := s.sys.nrstLow
    s.modSys (fun y => { y with
      phase := if held then .inReset else .booting, aboveVstart := true, coldBoot := !held
      cause := if held then .nrst else if y.retained then y.cause else .por }))

/-- A power failure within step 4 of a tenant's key update (R389): the slot is valid if its commit word reads back
consistent. -/
def State.cutKey (s : State) (t : Nat) : State :=
  match (s.ten t).update with
  | none => s
  | some u =>
    if u.written && Config.cutReads t s.nv.bootNum then
      s.modTnv t (fun n => { n with
        slotA := { n.slotA with valid := n.slotA.valid || !u.slotB }
        slotB := { n.slotB with valid := n.slotB.valid || u.slotB }
        hash := if u.hash.isEmpty then n.hash else u.hash
        exist := n.exist || decide (u.ticket.opcode = 0x20) })
    else s

/-- What an NV write in work leaves if the commit word it was programming reads back consistent (R403, R376). -/
def State.cutJob (s : State) : NvJob → State
  | .seqReserve t hw => s.modTnv t (fun n => { n with seqHw := hw })
  | .chartCommit k l => s.modTnv k.tenant (fun n =>
      { n with chart := some ⟨l, (match n.chart with | none => 0 | some c => c.store) + 1⟩ })
  | .config _ m => { s with nv := { s.nv with config := some m, configGood := true } }
  | .patchCommit _ l => s.patchStand l
  | .logEntry => s
  | .chartData _ _ _ => s
  | .patchData _ _ _ => s
  | .erase _ _ => s

/-- A power failure while NV is written: each commit word in work stands or does not. -/
def State.cutWrites (s : State) : State :=
  let s1 := forEach (List.range 8) (fun t s => s.cutKey t) s
  if s1.stw.nvActive && Config.cutReads 8 s1.nv.bootNum then
    match s1.stw.nvq with
    | [] => s1
    | j :: _ => s1.cutJob j
  else s1

/-- BOR (R65): VSTORE fell below VRST. A commit word in work stands or does not (R389). -/
def execBor (s : State) : Host.Outcome State Fault Refusal :=
  .next (if s.sys.phase = .unpowered then s else fullReset .bor 0 s.cutWrites)

/-- NRST_LOW (R94): NRST is low; while it already holds the hub In reset nothing more happens. -/
def execNrstLow (s : State) : Host.Outcome State Fault Refusal :=
  let s1 := s.modSys (fun y => { y with nrstLow := true })
  .next (if s.sys.phase = .unpowered ∨ s.sys.phase = .inReset then s1 else fullReset .nrst 0 s1)

/-- No source of a FULL reset holds the hub In reset (R99, R460): NRST is high, the holding time is over, and so is the
condition of a HOLD for THERMAL or SUPPLY. -/
def State.mayBoot (s : State) : Bool :=
  decide (s.sys.phase = .inReset) && !s.sys.nrstLow && !s.sys.holdTime && !(s.sys.holding == tcTHERMAL && s.tam.cross)
    && !(s.sys.holding == tcSUPPLY && (s.tam.vcoreLow || s.tam.vstoreHigh))

/-- Boot begins once nothing holds the hub In reset. -/
def State.leaveReset (s : State) : State := if s.mayBoot then s.modSys (fun y => { y with phase := .booting }) else s

/-- NRST_RELEASE (R99): boot begins when no other source of a FULL reset remains. -/
def execNrstRelease (s : State) : Host.Outcome State Fault Refusal :=
  .next (s.modSys (fun y => { y with nrstLow := false })).leaveReset

/-- HOLD_END (R460): the holding time of a HOLD response is over. -/
def execHoldEnd (s : State) : Host.Outcome State Fault Refusal :=
  .next (s.when (decide (s.sys.phase = .inReset) && s.sys.holdTime) fun s =>
    (s.modSys (fun y => { y with holdTime := false })).leaveReset)

/-! ## Parts of a reset -/

/-- A GAP part of a payload (R362). -/
def decPart (l : List Byte) : GapPart :=
  ⟨fieldLE l 0 1, fieldLE l 1 1, fieldLE l 4 4, fieldLE l 8 8, fieldLE l 16 8, false⟩

/-- The GAP record that an item carries. -/
def decGap (i : Item) : Gap :=
  let fl := fieldLE i.payload 2 1
  ⟨i.src, { decPart i.payload with sat := fl.testBit 0 }, if fl.testBit 1 then some (decPart (i.payload.drop 24)) else none,
   fl.testBit 2⟩

/-- An item of an open bundle as an entry, so that a reset accounts for it. -/
def laneEntry (i : Item) : Entry := ⟨.bundler, 0, if i.ty = 0x05 then .gaps [decGap i] else .item i⟩

/-- The open bundle of a lane is discarded (R95): its granules are freed, and the Bundler's RESET record counts its items. -/
def State.dropOpen (s : State) (k : Nat) : State :=
  let ln := s.lane k
  let s1 := (s.modLane k (fun x => { lane0 with credit := x.credit })).freeGran (k / 4) (laneGran ln)
  match lostRecord gcRESET s.ht (ln.items.map laneEntry) .bundler with
  | none => s1
  | some r => s1.setPend k .bundler (s1.pendOf k .bundler ++ [r])

/-- The pending requests of the descriptors that `hit` names are gone; each is counted in its RESET record. -/
def State.dropPending (s : State) (hit : Desc → Bool) : State :=
  forEach s.liveDescs (fun d s =>
    if hit (s.desc d) && (s.desc d).pend.isSome then (s.modDesc d (fun x => { x with pend := none })).psqReset d 1 else s) s

/-- The requests in the dispatch queues that `hit` names are gone, each counted in its descriptor's RESET record. A GAP
record that waits there stays. -/
def State.dropDispatch (s : State) (hit : Request → Bool) : State :=
  forEach (List.range 8) (fun p s =>
    let q := qDisp p
    let gone := (s.queue q).filterMap (fun e => match e.body with | .request r => if hit r then some r.idx else none | _ => none)
    let s1 := s.setQueue q ((s.queue q).filter (fun e => match e.body with | .request r => !(hit r) | _ => true))
    forEach gone (fun d s => s.psqReset d 1) s1) s

/-- Ends the transfers that `hit` names (R98); a read that is cut is counted in the port's RESET record. -/
def State.cutTransfers (s : State) (hit : Xfer → Bool) : State :=
  forEach (List.range 7) (fun p s => match s.xfer p with
    | none => s
    | some x =>
      if hit x then
        let s1 := if dKind x.req.words = 0 then s.resetSkip (qCap p) .port (srcDesc x.req.idx) s.ht else s
        s1.cutPort p 8
      else s) s

/-- Descriptors that `hit` names are disarmed until the restart. -/
def State.disarm (s : State) (hit : Desc → Bool) : State :=
  forEach s.liveDescs (fun d s => if hit (s.desc d) then s.modDesc d (fun x => { x with armed := false }) else s) s

/-- The AFE's buffers are emptied, each result counted in the port's RESET record, and the filters restart (R232). -/
def State.afeReset (s : State) : State :=
  let s1 := forEach [0, 1] (fun ch s =>
    let s2 := forEach (s.ach ch).buf (fun _ s => s.resetSkip (qCap 7) .port (srcPage 0x17) s.ht) s
    (s2.modAch ch (fun c => { c with buf := [] })).filterRestart ch) s
  s1.afeShow

/-! ## DATAPATH and TENANT requests (R95, R97, R98, R411) -/

/-- SYS_RST_PART of a reset. -/
def State.rstPart (s : State) (cnt : Fld) (scope t req : Nat) : State :=
  (((s.addSat cnt 1).setFld F.SYS_RST_PART_LAST_SCOPE scope).setFld F.SYS_RST_PART_LAST_TENANT t).setFld
    F.SYS_RST_PART_LAST_REQ req

/-- A DATAPATH reset is requested by the requester of code `req`; one in progress absorbs it. -/
def State.dpReset (s : State) (req : Nat) : State :=
  if s.rst.dp.isSome then s
  else
    let s1 := s.rstPart F.SYS_RST_PART_DP_CNT 1 (s.fld F.SYS_RST_PART_LAST_TENANT) req
    let s2 := (s1.dropPending (fun _ => true)).dropDispatch (fun _ => true)
    let s3 := forEach internalQueues (fun q s => s.flushQueue q gcRESET) s2
    let s4 := forEach (List.range 32) (fun k s => s.dropOpen k) s3
    let s5 := (((s4.cutTransfers (fun _ => true)).disarm (fun _ => true)).afeReset).roseReset
    let s6 : State := { s5 with chainDue := [] }
    let s7 := forEach allUnits (fun u s => (s.asyLost u).asyRestart u) s6
    let s8 := forEach (List.range 8) (fun c s => (s.rsmLost c).rsmRestart c) s7
    { s8 with rst := { s8.rst with dp := some s8.ht } }

/-- Locks held by STEWARD for a tenant, or by its window, are freed and BROKEN (R411). -/
def State.breakTenLocks (s : State) (t : Nat) : State :=
  forEach (List.range 16) (fun k s => match (s.lock k).holder with
    | some (r, u, _) => if r = t ∨ (r = 9 ∧ u = t) then (s.setLock k ⟨none, true⟩).addSat F.LCK_CNT_BREAKS 1 else s
    | none => s) s

/-- A TENANT reset of `t` is requested; a DATAPATH reset, or one of the same tenant, in progress absorbs it (R97). -/
def State.tenReset (s : State) (t req : Nat) : State :=
  if s.resetting t then s
  else
    let mine := fun (x : Desc) => dOwner x.words == t
    let s1 := s.rstPart F.SYS_RST_PART_TN_CNT 2 t req
    let s2 := (s1.dropPending mine).dropDispatch (fun r => r.tenant == t)
    let units := allUnits.filter (fun u => s.asyOwner u == t)
    let chans := (List.range 8).filter (fun c => s.rsmOwner c == t)
    let qs := (List.range 4).map (fun l => qIntake t l) ++ units.map qUnit ++ chans.map qRsm
    let s3 := forEach qs (fun q s => s.flushQueue q gcRESET) s2
    let s4 := forEach (List.range 4) (fun l s => s.dropOpen (qOut t l)) s3
    let s5 := (s4.cutTransfers (fun x => x.req.tenant == t)).disarm mine
    let s6 : State := { s5 with
      rose := s5.rose.filter (fun e => s5.fld (F.ROS_CH_OWNER e.ch) != t)
      chainDue := s5.chainDue.filter (fun d => dOwner (s5.desc d).words != t) }
    let s7 := forEach units (fun u s => (s.asyLost u).asyRestart u) s6
    let s8 := forEach chans (fun c s => (s.rsmLost c).rsmRestart c) s7
    let s9 := if s8.pageOwner 0x07 = some t then s8.sxtRestart 6 else s8
    let s10 := if s9.pageOwner 0x17 = some t then s9.afeReset else s9
    let s11 := (s10.breakTenLocks t).modTen t (fun x => { x with upload := none })
    { s11 with rst := { s11.rst with
        tens := mapSet (fun _ => none) s11.rst.tens t (some s11.ht), busy := s11.rst.busy ||| 2 ^ t } }

/-- A FULL reset by command (R94): cause CMD. -/
def State.cmdReset (s : State) : State := s.when (!s.halted) (fullReset .cmd 0)

/-! ## BLOCK resets (R133) -/

/-- Every lock is free and BROKEN (R155). -/
def State.locksReset (s : State) : State := { s with locks := [] }

/-- The BLOCK reset of a page, as its home chapter has it; absorbed by a DATAPATH reset in progress (R97). -/
def State.blockReset (s : State) (p : Nat) : State :=
  if s.rst.dp.isSome then s
  else if p = 0x01 then (s.setFld F.SYS_WDOG_STAT_EXPIRED 0).setFld F.SYS_WDOG_STAT_BAD_KICK 0
  else if p = 0x02 then (s.setReg A.CLK_EVT 0).setReg A.CLK_GSW 0
  else if p = 0x03 then s.setReg A.PWR_RAILEVT 0
  else if p = 0x06 then forEach (List.range 12) (fun c s => s.modChan c (fun x => { x with ring := [], missed := 0, jmiss := 0 })) s
  else if p = 0x07 then s.sxtRestart 6
  else if p = 0x08 then
    forEach (List.range 8) (fun c s => ((s.flushQueue (qRsm c) gcRESET).rsmClose c).rsmRestart c) s
  else if p = 0x09 then s.locksReset
  else if p = 0x0C then s.roseBlockReset
  else if 0x10 ≤ p ∧ p < 0x17 then
    let q := p - 0x10
    let s1 := s.recall q gcRESET none
    match s1.xfer q with
    | none => s1
    | some x =>
      (if dKind x.req.words = 0 then s1.resetSkip (qCap q) .port (srcDesc x.req.idx) s.ht else s1).cutPort q 8
  else if p = 0x17 then
    let s1 := forEach [0, 1] (fun ch s => (s.modAch ch (fun c => { c with buf := [] })).filterRestart ch) (s.recall 7 gcRESET none)
    (s1.modAfe (fun a => { a with excOn := false, settling := false, negPhase := false })).afeShow
  else if p = 0x18 then
    let s1 := s.withdrawAll (fun _ x => x.pend.isSome) gcRESET none
    forEach s1.liveDescs (fun d s => s.arm d false) s1
  else if 0x1A ≤ p ∧ p < 0x20 then
    forEach (List.range 4) (fun i s => (s.flushQueue (qUnit (4 * (p - 0x1A) + i)) gcRESET).asyRestart (4 * (p - 0x1A) + i)) s
  else s

/-! ## Watchdog and reset pulse -/

/-- SYS_WDOG.PERIOD in ticks: below 10 ms reads 10, above 60,000 reads 60,000 (R103); lengthened in holdover (R58). -/
def State.wdogTicks (s : State) : Nat := s.spanTicks (384000 * min 60000 (max 10 (s.fld F.SYS_WDOG_PERIOD)))

/-- The watchdog counts (R103). -/
def State.wdogRuns (s : State) : Bool :=
  s.cclk && s.on F.SYS_WDOG_EN && s.on F.SYS_HREL_RELEASED && !(s.on F.SYS_WDOG_STAT_SUSPENDED)

/-- The watchdog expires (R103): a host reset pulse, the count of expiries and PIRQ bit 8; the count begins again. -/
def State.wdogExpire (s : State) : State :=
  ((s.hostPulse.addSat F.SYS_WDOG_STAT_EXPIRED 1).modSys (fun y => { y with wdog := 0 })).raise 0x01 8

/-- WDOG_EXPIRE (R103): the count has reached PERIOD. -/
def execWdogExpire (s : State) : Host.Outcome State Fault Refusal :=
  .next (s.when (s.wdogRuns && decide (s.wdogTicks ≤ s.sys.wdog)) fun s => s.wdogExpire)

/-- HOST_PULSE_END (R105): HRST_N goes high again, unless VHOST is off or settling (R73, R74). -/
def execHostPulseEnd (s : State) : Host.Outcome State Fault Refusal :=
  .next (s.when (s.powered && s.sys.pulse) fun s =>
    let s1 := s.modSys (fun y => { y with pulse := false })
    if s.sys.vhostOn && !s.sys.vhostSettle then s1.setFld F.SYS_HREL_RELEASED 1 else s1)

/-- Counts `n` ticks on the watchdog. -/
def State.wdogTick (s : State) (n : Nat) : State :=
  s.when s.wdogRuns fun s => s.modSys (fun y => { y with wdog := y.wdog + n })

end Sys2Proof.Machine
end

