-- ==== Sys2Proof/Machine/Access.lean ====
section
/-! DEFINITION. Who may access a register (R136-R146): the writable bits of every register, the owner and the sealed
attributes in force for it, the causes of denial in their order, and the record of a denied access. -/

namespace Sys2Proof.Machine

/-! ## What a register is -/

/-- The access masks of a register: RW, W1C and WO bits, and its kind. -/
structure Masks where
  rw : Nat
  w1c : Nat
  wo : Nat
  kind : RegKind
  deriving DecidableEq, Repr

/-- The masks of a header register (R130). No field of the IDN page can be written (R124). PCTL.EN can be written on
every other page, though on some a write has no effect (R132). -/
def headerMasks (d : PageDef) (o : Nat) : Masks :=
  if d.page = 0 then ⟨0, 0, 0, .plain⟩
  else if o = 0x08 then ⟨1 + (if d.srst then 2 else 0), 0, 0, .plain⟩
  else if o = 0x14 then ⟨d.irq + 0xF, 0, 0, .plain⟩
  else if o = 0x18 then ⟨0, d.irq + 0xF, 0, .plain⟩
  else if o = 0x1C then ⟨7, 0, 0, .plain⟩
  else if o = 0x20 then
    ⟨(match d.owner with | .assignable => 7 | _ => 0) + (if d.wpFixed || d.page == 9 then 0 else 16)
      + (if d.page = 9 then 0 else 32) + 256, 0, 0, .plain⟩
  else ⟨0, 0, 0, .plain⟩

/-- The masks of the register at byte address `a`; none where none is implemented (R126, R130). -/
def masksAt (a : Nat) : Option Masks :=
  match pageDef (a / 256) with
  | none => none
  | some d =>
    if a % 256 < 0x30 then some (headerMasks d (a % 256))
    else match rowAt d.rows (a % 256) with
      | none => none
      | some r => some ⟨r.rw, r.w1c, r.wo, r.kind⟩

/-- The registers that take a write though they hold no written bits: the locks (R154), a TN page's locks, command
stream and window to other pages (R434, R437). -/
def takesWrite (a : Nat) : Bool :=
  (decide (A.LCK_L 0 ≤ a) && decide (a < A.LCK_L 0 + 64))
    || (decide (0x30 ≤ a / 256) && decide (a / 256 < 0x38)
        && (a % 256 == 0x44 || a % 256 == 0x48 || a % 256 == 0x68 || (decide (0x80 ≤ a % 256) && decide (a % 256 < 0xC0))))

/-- A write to the register is checked; any other is ignored without a check (R145). -/
def writable (a : Nat) : Bool :=
  match masksAt a with
  | none => false
  | some m => m.rw + m.w1c + m.wo != 0 || takesWrite a

def rwBits (a : Nat) : Nat := match masksAt a with | none => 0 | some m => m.rw

/-- A register of WO bits only, which reads 0. -/
def woOnly (a : Nat) : Bool :=
  match masksAt a with
  | none => false
  | some m => m.wo != 0 && m.rw == 0 && m.w1c == 0 && a != A.SYS_SESSION

def isSel (a : Nat) : Bool := match masksAt a with | some ⟨_, _, _, .sel⟩ => true | _ => false

/-- The selections that every requester reaching the page can write, WP and LOCK notwithstanding: DSC_IDX (R236), KEY_SEL
(R414), and those that are held as DSC_IDX is under R236 (R308, R379, R474, R493). ASY_PSEL, BND_SEL and NVS_WSEL are held
per requester and no rule exempts them from the page's WP and LOCK. -/
def freeSel (a : Nat) : Bool :=
  [A.DSC_IDX, A.KEY_SEL, A.RSM_SEL, A.BND_DSEL, A.LOG_SEL, A.PLN_VSEL].contains a

/-- The bits of a register that R18 reserves to tenant 0: flare reset levels (R348: all of ROS_FLRn), tamper responses, quota
minimums and maximums, per-port shares, and the urgent gear floor. -/
def reservedMask (a : Nat) : Nat :=
  if a = A.ROS_FLR 0 ∨ a = A.ROS_FLR 1 ∨ a = A.TAM_RESP then 0xFFFFFFFF
  else if A.QUE_TQ 0 ≤ a ∧ a < A.QUE_TQ 8 then 0x0FFF0FFF
  else if A.PSQ_RES ≤ a ∧ a < A.PSQ_RES + 64 then 0xFFFFFFFF
  else if a = A.PLN_URG then 7
  else 0

/-! ## Requesters -/

/-- A host port can serve: the hub runs, and VIOH is good (R10, R27). -/
def State.portServes (s : State) : Bool := s.awake && s.on F.PWR_BANK_VIOH_OK

/-- An access of the requester can reach the register machinery (R10, R27): the hub's own accesses and STEWARD's while CCLK
runs, those of the host ports and of JTAG, whose balls lie in the VIOH bank, while the hub is Running and VIOH is good. -/
def State.reachable (s : State) (rq : Requester) : Bool :=
  match rq with
  | .internal => s.cclk
  | .steward _ => s.cclk
  | .host => s.portServes
  | .window _ => s.portServes
  | .jtag => s.portServes

/-- STEWARD acting for the tenant that owns. -/
def stewardFor (rq : Requester) (owner : Option Nat) : Bool :=
  match rq with
  | .steward t => owner == some t
  | _ => false

/-- The requester acts as tenant 0: its window, STEWARD for it, or the board in a state without sealing (R116). -/
def State.asTenant0 (s : State) (rq : Requester) : Bool :=
  match rq with
  | .window n => n == 0
  | .steward t => t == 0
  | .internal => true
  | .host => !s.fielded
  | .jtag => s.blankOpen

/-! ## Seats: the owner and attributes in force for a register -/

/-- The owner and attributes of a register. `free`: a register of each requester's own, or of none, to which the cause OWNER
does not apply. `bad`: its security attributes have mismatched, so that only internal accesses reach it, in every lifecycle
state (R144). -/
structure Seat where
  free : Bool
  bad : Bool
  owner : Option Nat
  wp : Bool
  hp : Bool
  lock : Bool
  deriving DecidableEq, Repr

def Seat.open : Seat := ⟨true, false, none, false, false, false⟩
def Seat.sealed : Seat := ⟨false, true, none, true, true, true⟩

/-- The seat of a page's header, and of the registers of a page with one owner. -/
def State.pageSeat (s : State) (p : Nat) : Seat :=
  if s.pownBad.contains p then Seat.sealed
  else ⟨false, false, some (s.pageTenant p), s.on (F.POWN_WP p), s.on (F.POWN_HP p), s.on (F.POWN_LOCK p)⟩

/-- The seat of a resource with attributes of its own (R139); the page's LOCK acts alongside (R143). -/
def State.resSeat (s : State) (p : Nat) (mism bad : Bool) (owner : Nat) (wp hp lock : Bool) : Seat :=
  if s.pownBad.contains p then Seat.sealed
  else if mism then { Seat.sealed with bad := bad }
  else ⟨false, false, some owner, wp, hp, lock || s.on (F.POWN_LOCK p)⟩

/-- The seat of a resource that a tenant owns, under the page's attributes. -/
def State.tenSeat (s : State) (p t : Nat) : Seat := { s.pageSeat p with owner := if s.pownBad.contains p then none else some t }

/-- The key under which the mismatch of a descriptor's attributes is kept. -/
def badDesc (d : Nat) : Nat := 0x10000 + d

def State.chanSeat (s : State) (c : Nat) : Seat :=
  s.resSeat 0x06 (s.shadowBad.contains (A.STP_CH_CFG c)) true (s.chanOwner c) (s.on (F.STP_CH_CFG_WP c))
    (s.on (F.STP_CH_CFG_HP c)) (s.on (F.STP_CH_CFG_LOCK c))

def State.rsmSeat (s : State) (c : Nat) : Seat :=
  s.resSeat 0x08 (s.shadowBad.contains (A.RSM_CH_CFG c)) true (s.rsmOwner c) (s.on (F.RSM_CH_CFG_WP c))
    (s.on (F.RSM_CH_CFG_HP c)) (s.on (F.RSM_CH_CFG_LOCK c))

/-- A Rose channel: SEALED stands in for WP and HP (R352). -/
def State.roseSeat (s : State) (c : Nat) : Seat :=
  s.resSeat (0x0A + c / 32) (s.shadowBad.contains (A.ROS_CH c)) false (s.fld (F.ROS_CH_OWNER c))
    (s.on (F.ROS_CH_SEALED c)) (s.on (F.ROS_CH_SEALED c)) (s.on (F.ROS_CH_LOCK c))

def State.descSeat (s : State) (d : Nat) : Seat :=
  let ws := (s.desc d).words
  s.resSeat 0x19 (s.shadowBad.contains (badDesc d)) false (dOwner ws) (dWp ws) (dHp ws) (dLock ws)

def State.unitSeat (s : State) (u : Nat) : Seat :=
  s.resSeat (asyPage u) (s.shadowBad.contains (A.ASY_CFG u)) true (s.asyOwner u) (s.on (F.ASY_CFG_WP u))
    (s.on (F.ASY_CFG_HP u)) (s.on (F.ASY_CFG_LOCK u))

/-- A gate's own register (R139, R353): it belongs to the gate's owner, and OPEN stands in for WP and HP. -/
def State.gateSeat (s : State) (k : Nat) : Seat :=
  s.resSeat 0x0C false false (s.fld (F.ROS_GSW_OWNER k)) (!(s.on (F.ROS_GSW_OPEN k))) (!(s.on (F.ROS_GSW_OPEN k))) false

/-- A register that belongs to no tenant, under the page's attributes: each requester's own selection, whose owner is the
requester where the page has no owner of its own (R139), and what the page shows to all. -/
def State.ownSeat (s : State) (rq : Requester) (p : Nat) : Seat :=
  let x := s.pageSeat p
  if s.pownBad.contains p then x
  else { x with
    free := true
    owner := match (pageDef p).map (fun d => d.owner), reqTenant rq with
      | some OwnerKind.perResource, some t => some t
      | _, _ => x.owner }

/-- A lock register: RA, so that only a mismatch in the LCK page's attributes bars it (R144, R158). -/
def State.lockSeat (s : State) : Seat := if s.pownBad.contains 0x09 then Seat.sealed else Seat.open

/-- The unit that a requester's ASY_PSEL of page `p` names. -/
def State.pselUnit (s : State) (p : Nat) (rq : Requester) : Nat := 4 * (p - 0x1A) + s.selOf (256 * p + 0xC0) rq % 4

/-- The block of that unit's words that it names. -/
def State.pselBlk (s : State) (p : Nat) (rq : Requester) : Nat := s.selOf (256 * p + 0xC0) rq / 256 % 16

/-- The tenant whose use the register of the QUE page concerns. -/
def queTenant (o : Nat) : Nat := if 0x80 ≤ o then (o - 0x80) / 4 % 8 else 0

/-- The seat of the register at `a` for a requester. -/
def State.seat (s : State) (rq : Requester) (a : Nat) : Seat :=
  let p := a / 256
  let o := a % 256
  if o < 0x40 then s.pageSeat p
  else if a = A.NVS_WSEL then s.pageSeat p
  else if isSel a ∨ a = A.ROS_GATE then s.ownSeat rq p
  else if p = 0x06 then
    if o < 0xD0 then s.chanSeat ((o - 0x40) / 12)
    else if o = 0xEC ∨ o = 0xF0 then s.chanSeat (s.fld F.STP_SEL_CH)
    else s.pageSeat p
  else if p = 0x08 then s.rsmSeat (if o < 0xC0 then (o - 0x40) / 16 else s.selOf A.RSM_SEL rq % 8)
  else if p = 0x09 ∧ o < 0x80 then s.lockSeat
  else if p = 0x0A ∨ p = 0x0B then s.roseSeat (32 * (p - 0x0A) + (o - 0x40) / 4)
  else if p = 0x0C ∧ 0x44 ≤ o ∧ o < 0x60 then s.gateSeat ((o - 0x44) / 4)
  else if p = 0x19 then s.descSeat (s.selOf A.DSC_IDX rq)
  else if 0x1A ≤ p ∧ p < 0x20 then
    if o < 0xC0 then s.unitSeat (4 * (p - 0x1A) + (o - 0x40) / 32)
    else if o < 0xE4 then s.unitSeat (s.pselUnit p rq)
    else s.ownSeat rq p
  else if p = 0x20 then
    (if 0xA0 ≤ o ∧ o < 0xC0 ∧ reqTenant rq = some 0 then s.tenSeat p 0 else s.tenSeat p (queTenant o))
  else if p = 0x21 then
    if o < 0xC0 then
      let x := s.tenSeat p ((o - 0x40) / 16)
      { x with lock := x.lock || s.on (F.BND_LCFG_LOCK ((o - 0x40) / 4)) }
    else if o = 0xC4 then s.tenSeat p (s.selOf A.BND_DSEL rq / 4096 % 8)
    else if 0xCC ≤ o ∧ o ≤ 0xD8 then s.tenSeat p (s.selOf A.BND_SEL rq % 8)
    else s.tenSeat p 0
  else if 0x30 ≤ p ∧ p < 0x38 ∧ 0x80 ≤ o ∧ s.pownBad.contains 0x09 then Seat.sealed
  else s.pageSeat p

/-! ## Causes of denial (R145) -/

def dcLIFECYCLE : Nat := 1
def dcREACH : Nat := 2
def dcOWNER : Nat := 3
def dcWP : Nat := 4
def dcHP : Nat := 5
def dcLOCK : Nat := 6
def dcPARTIAL : Nat := 7
def dcCHECK : Nat := 8
def dcHOLDER : Nat := 9

/-- The page or the requester is not available in the lifecycle state: the TST page outside BLANK and OPEN, JTAG in
FIELDED and RETIRED. -/
def State.lifeDenies (s : State) (rq : Requester) (p : Nat) : Bool :=
  (p == 0x27 && !s.blankOpen) || (decide (rq = .jtag) && !s.blankOpen)

/-- The requester reaches the page (R136); `via` for an access that a TN page makes on its behalf. -/
def reaches (rq : Requester) (via : Bool) (p : Nat) : Bool :=
  match rq with
  | .window n => via || p == 0x30 + n
  | _ => true

/-- The owner check of R145: a tenant's access to what another owns. -/
def ownerDenies (x : Seat) (rq : Requester) : Bool :=
  match reqTenant rq with
  | none => false
  | some t => !x.free && x.owner != some t

/-- A block register that only internal accesses reach since a mismatch (R144), and the cause of a denial there: OWNER for a
tenant, which the register no longer has, and `c` for the board (R145). -/
def shutCause (x : Seat) (rq : Requester) (a c : Nat) : Option Nat :=
  if x.bad && decide (0x40 ≤ a % 256) then some (if (reqTenant rq).isSome then dcOWNER else c) else none

/-- A register that every requester that reaches the page can read (R124, R137). -/
def alwaysRead (a : Nat) : Bool := a / 256 == 0 || [0x00, 0x04, 0x0C, 0x20, 0x28, 0x2C].contains (a % 256)

/-- The attributes are enforced: in FIELDED, and always after a mismatch (R142, R144). -/
def State.enforced (s : State) (x : Seat) : Bool := s.fielded || x.bad

/-- The registers of the Rose status page whose fields are permitted one by one when read (R353). -/
def perField (a : Nat) : Bool := a / 256 == 0x0C && decide (0x80 ≤ a % 256)


/-- The hub-wide registers of the Assay pipeline, which every requester that reaches the page can read (R335). -/
def pipeRegs (a : Nat) : Bool := a == A.ASY_PIPE || a == A.ASY_CRIT || a == A.ASY_LOAD

/-- The cause with which a read is denied, if any. A read of a reserved address is not checked (R8, R126, R145). -/
def State.readDenied (s : State) (rq : Requester) (via : Bool) (a : Nat) : Option Nat :=
  let p := a / 256
  if rq = .internal ∨ masksAt a = none then none
  else if s.lifeDenies rq p then some dcLIFECYCLE
  else if !(reaches rq via p) then some dcREACH
  else if alwaysRead a then none
  else
    let x := s.seat rq a
    let act := match masksAt a with | some ⟨_, _, _, .stream⟩ => true | some ⟨_, _, _, .act⟩ => true | _ => false
    match shutCause x rq a dcHP with
    | some c => some c
    | none =>
      if perField a || pipeRegs a then none
      else if ownerDenies x rq then some dcOWNER
      else if x.hp && s.enforced x && !(stewardFor rq x.owner) && decide (0x40 ≤ a % 256) && !act && !(woOnly a) then some dcHP
      else none

/-! ## The record of a denied access (R146, R147) -/

def reqTen (rq : Requester) : Nat := match reqTenant rq with | none => 0 | some t => 16 * t + 128

/-- PERR of a denied access. -/
def perrWord (rq : Requester) (a cause : Nat) (write : Bool) : Nat :=
  reqCode rq + reqTen rq + 256 * (a % 256) + 65536 * cause + (if write then 2 ^ 31 else 0)

/-- A denied access: PERR, PDEN and PIRQ bit 0 of the page, and the probe monitor. -/
def State.deny (s : State) (rq : Requester) (a cause : Nat) (write : Bool) : State :=
  let p := a / 256
  if rq = .internal then s
  else
    let s1 := ((s.setFld (F.PERR p) (perrWord rq a cause write)).addSat (F.PDEN_COUNT p) 1).raise p 0
    s1.probe (reqCode rq) p (a % 256) (match (s.seat rq a).owner with | none => 0 | some t => 2 ^ t)

end Sys2Proof.Machine
end

