-- ==== Sys2Proof/Machine/Read.lean ====
section
/-! DEFINITION. What a read of a register shows (R127, R130-R134): the header, the registers computed from the state
behind them, the halves that a read of their other half samples (R263), and the stream registers (R4). -/

namespace Sys2Proof.Machine


/-- A count shown in a field of `w` bits that saturates. -/
def shown (w n : Nat) : Nat := min n (2 ^ w - 1)

/-! ## The header (R130, R131, R134) -/

def pcapWord (d : PageDef) : Nat :=
  bits1 [(0, d.irq != 0), (4, d.page == 0x19 || d.rows.any (fun r => r.sh != 0)), (5, decide (d.owner = .assignable)),
    (6, decide (d.owner = .perResource)), (7, d.srst)] + 2 * d.loops + 256 * d.last

/-- A command executes, a key update is pending, or the Steward works (R475, DESIGN CHOICE of log entry 5). -/
def State.stwState (s : State) : Nat :=
  if s.env.isSome then 1
  else if (List.range 8).any (fun t => (s.ten t).signing) then 4
  else if !s.dipHold && (List.range 8).any (fun t => (s.ten t).update.isSome) then 5
  else if s.on F.LOG_STATUS_SCAN then 7
  else 0

def State.anyFence (s : State) (p : Nat) : Bool := (s.prt p).fences.any (fun f => f.2.valid)

/-- PSTAT.BUSY of a page. -/
def State.pageBusy (s : State) (p : Nat) : Bool :=
  if p = 0x02 then s.changing
  else if p = 0x08 then (List.range 8).any (fun c =>
    s.on (F.RSM_CH_CFG_EN c) && (!(s.queue (qRsm c)).isEmpty || (s.rsmStep c).isSome))
  else if p = 0x09 then s.locks.any (fun x => x.2.holder.isSome)
  else if p = 0x0D then (s.txOf 0).isSome
  else if p = 0x0E then (s.txOf 1).isSome
  else if 0x10 ≤ p ∧ p < 0x17 then (s.xfer (p - 0x10)).isSome
  else if p = 0x17 then s.converts 0 || s.converts 1
  else if p = 0x18 then s.descs.any (fun x => x.2.pend.isSome)
  else if p = 0x21 then s.hallmark.work.isSome
  else if p = 0x22 then s.env.isSome || (List.range 8).any (fun t => (s.ten t).update.isSome)
  else if p = 0x25 then s.stwState != 0
  else if p = 0x26 then s.stw.nvActive || s.keyWriting
  else if p = 0x27 then s.fld F.TST_MODE_MODE != 0 && !(s.on F.TST_RES_DONE)
  else false

/-- PSTAT.READY of a page. -/
def State.pageReady (s : State) (p : Nat) : Bool :=
  if p = 0x02 then s.on F.CLK_SYN_LOCK || s.gear == gGS
  else if p = 0x07 then s.locked
  else if 0x10 ≤ p ∧ p < 0x17 then s.pageOn p && s.on F.PWR_BANK_VSENSIO_OK && !(s.prt (p - 0x10)).blocked
  else s.pageOn p

/-- PSTAT of a page (R130, R62, R217, R218, R233, R335). -/
def State.pstatWord (s : State) (p : Nat) : Nat :=
  bits1 [(0, s.pageReady p), (1, s.pageBusy p), (2, s.pageFault p), (3, s.pageSat p)]
    + (if 0x10 ≤ p ∧ p < 0x17 then bits1 [(8, (s.prt (p - 0x10)).blocked), (9, s.anyFence (p - 0x10))]
       else if p = 0x17 then bits1 [(8, s.converts 0), (9, s.converts 1)]
       else if 0x1A ≤ p ∧ p < 0x20 then bits1 ((List.range 4).map (fun i => (8 + i, s.isActive (4 * (p - 0x1A) + i))))
       else 0)


/-- PIRQ_RAW (R134): the levels of a page; a source that is an event shows only in its own cycle. DESIGN CHOICE (log entry
146) where a home chapter only names a source: HARV_FAULT and BANK_LOST of the PWR page and ECC_UNCORR of the QUE page are
events, POOL_LOW of the QUE page is a level, the state that QUE_STAT.POOL_LOW shows. -/
def State.rawWord (s : State) (p : Nat) : Nat :=
  bits1 [(2, s.pageFault p), (3, s.pageSat p)]
    + (if p = 0x01 then bits1 [(9, s.fld F.SYS_DORM_DORMANT != 0)]
       else if p = 0x04 then bits1 [(8, s.on F.PLN_GEAR_STAT_FLOOR_UNMET)]
       else if p = 0x05 then bits1 [(10, s.on F.RCK_STAT_EXHAUSTED)]
       else if p = 0x06 then bits1 [(9, s.on F.STP_STAT_ICAL_READY)]
       else if 0x10 ≤ p ∧ p < 0x14 then bits1 [(10, (s.prt (p - 0x10)).blocked)]
       else if p = 0x20 then bits1 [(10, s.on F.QUE_STAT_POOL_LOW)]
       else if p = 0x21 then
         bits1 [(8, s.on F.BND_HSTAT_STOPPED), (9, (List.range 8).any s.rsvWait), (10, (List.range 8).any s.noKey)]
       else if p = 0x24 then bits1 [(8, s.on F.LOG_STATUS_DEAD)]
       else 0)

def State.headerView (s : State) (d : PageDef) (o : Nat) : Nat :=
  let p := d.page
  if o = 0x00 then d.pid
  else if o = 0x04 then pcapWord d
  else if o = 0x0C then s.pstatWord p
  else if o = 0x10 then s.rawWord p
  else (s.reg (256 * p + o)).toNat

/-! ## Loops (R148, R149) -/

def State.loopHomeNow (s : State) (g : Nat) : Int := if g = loopAVS then s.tmin s.gear else loopHome g

def State.loopShown (s : State) (g : Nat) : Int := s.loopOut g (s.loopHomeNow g)

/-- The loop's own preconditions. -/
def State.loopReady (s : State) (g : Nat) : Bool :=
  if g = loopAVS then s.cclk
  else if g = loopGEAR then s.running
  else if g = loopMPPT then s.powered && s.mpptOk && !s.pln.vocPause
  else if g = loopDISC then !(s.on F.CLK_SYN_HOLDOVER)
  else if g = loopICAL then s.on F.CLK_SYN_ON
  else if g = loopBW then s.locked && s.pageOn 0x07
  else if g = loopPLC then decide (0 < s.poolSize)
  else if g = loopSPL then
    s.descs.any (fun x => dEn x.2.words && dTrig x.2.words == 0 && decide (0 < dJit x.2.words))
  else if g / 256 = 0x17 then s.converts ((g - loopCAL 0) / 16)
  else if 0x10 ≤ g / 256 ∧ g / 256 < 0x14 then s.fld (F.TWC_CNT_XFER (g / 256 - 0x10)) != 0
  else
    let u := 4 * (g / 256 - 0x1A) + (g % 256 - 0x50) / 32
    s.on (F.ASY_CFG_EN u) && !(s.isActive u)

/-- _LSTATE of a loop: a 32-bit output shows its 24 most significant bits. -/
def State.lstateWord (s : State) (g : Nat) : Nat :=
  let l := s.loop g
  let wide := g == loopDISC || decide (0x1A ≤ g / 256 ∧ g / 256 < 0x20)
  let out := if wide then code 32 (s.loopShown g) / 256 else code 24 (s.loopShown g)
  bits1 [(0, s.loopEn g && l.satLo), (1, s.loopEn g && l.satHi), (2, s.loopEn g && s.loopFrz g),
    (3, s.loopLive g && s.loopReady g)] + 256 * out

/-- PLN_LSUM: bit i for loop i of R478, over its instances. -/
def State.lsumWord (s : State) : Nat :=
  bits1 (loopTable.zipIdx.map (fun x => (x.2, x.1.any (fun g => s.loopEn g && ((s.loop g).satLo || (s.loop g).satHi)))))
    + 65536 * bits1 (loopTable.zipIdx.map (fun x => (x.2, x.1.any (fun g => s.loopEn g && s.loopFrz g))))

/-! ## Block registers -/

def State.viewStp (s : State) (o : Nat) : Option Nat :=
  let c := (o - 0x44) / 12
  let sel := s.chan (s.fld F.STP_SEL_CH)
  if 0x44 ≤ o ∧ o < 0xD0 ∧ (o - 0x44) % 12 = 0 then some ((s.chan c).newest % 2 ^ 32)
  else if 0x48 ≤ o ∧ o < 0xD0 ∧ (o - 0x48) % 12 = 0 then some ((s.chan ((o - 0x48) / 12)).newest / 2 ^ 32)
  else if o = 0xEC then some (sel.count % 2 ^ 30)
  else if o = 0xF0 then some (shown 16 sel.missed + 65536 * shown 16 sel.jmiss)
  else none

def State.viewRck (s : State) (o : Nat) : Option Nat :=
  if o = 0x44 then
    some (s.fld F.RCK_STAT_DEFINED + 2 * (if s.rck.q = 0 then 0 else 1) + 4 * s.fld F.RCK_STAT_HOLDOVER
      + 8 * s.fld F.RCK_STAT_EXHAUSTED + 16 * shown 3 s.awaiting)
  else if o = 0x48 then some (s.ht % 2 ^ 32)
  else if o = 0x4C then some (s.ht / 2 ^ 32)
  else if o = 0x74 then some (code 32 s.rateF)
  else if o = 0x78 then some (code 32 (satInt 32 s.phaseHt))
  else none

def State.viewSxt (s : State) (o : Nat) : Option Nat :=
  if o = 0x68 then some (s.outAngle % 2 ^ 32)
  else if o = 0x6C then some (s.outAngle / 2 ^ 32 % 2 ^ 32)
  else if o = 0x70 then some (s.ht % 2 ^ 32)
  else if o = 0x74 then some (s.ht / 2 ^ 32)
  else none

def State.viewRsm (s : State) (c o : Nat) : Option Nat :=
  let x := s.rchan c
  let en := s.on (F.RSM_CH_CFG_EN c)
  if o = 0xC4 then
    some (bits1 [(0, en && x.next.isSome), (1, en && !(s.locked))]
      + 65536 * (code 32 (x.next.getD 0) % 2 ^ s.logN c))
  else if o = 0xC8 then some (shown 16 x.outCnt + 65536 * shown 16 x.miss)
  else none

def State.viewLck (s : State) (o : Nat) : Option Nat :=
  if o = 0x80 then
    some (bits1 ((List.range 16).map (fun k => (k, (s.lock k).holder.isSome)))
      + 65536 * bits1 ((List.range 16).map (fun k => (k, (s.lock k).holder.isNone && (s.lock k).broken))))
  else none

/-- FENT of the entry selected (R217, R218): two entries per tenant, which TENANT shows also where no entry is in force. -/
def State.fentWord (s : State) (p idx : Nat) : Nat :=
  let f := fenceOf (s.prt p).fences idx
  if !f.valid then 16 * (idx / 2)
  else bits1 [(0, true), (1, f.all)] + 16 * (idx / 2) + 256 * f.target + 65536 * shown 16 f.drops

def State.viewPsq (s : State) (o : Nat) : Option Nat :=
  let pend := s.descs.filterMap (fun x => x.2.pend)
  let k := shareKey (s.fld F.PSQ_USEL_PORT) (s.fld F.PSQ_USEL_TENANT)
  if o = 0x4C then
    some ((s.descs.filter (fun x => dEn x.2.words)).length + 65536 * pend.length)
  else if o = 0x50 then
    some (bits1 ((List.range 8).map (fun p => (p, pend.any (fun r => dPort r.words == p))))
      + 256 * bits1 ((List.range 8).map (fun p => (p, pend.any (fun r => dPort r.words == p && dUrgent r.words)))))
  else if o = 0x60 then
    some (shown 16 (s.chargeOf k * 1000000 / 2 ^ 32) + 65536 * shown 16 (s.chargeWas k * 1000000 / 2 ^ 32))
  else none

/-- The window registers of the descriptor that the requester has selected (R260). -/
def State.viewDsc (s : State) (d o : Nat) : Option Nat :=
  let x := s.desc d
  let en := dEn x.words
  let angle := dTrig x.words == 1
  let next := if dTrig x.words = 0 then x.next + htUs x.ofs else x.next % 2 ^ 32
  if 0x44 ≤ o ∧ o < 0x64 then some (dWord x.words ((o - 0x44) / 4)).toNat
  else if o = 0x64 then
    some (bits1 [(0, x.armed), (1, x.pend.isSome), (2, match x.pend with | some r => dUrgent r.words | none => false),
      (3, en && angle && !(s.locked))])
  else if o = 0x68 then some (x.seq % 2 ^ 32)
  else if o = 0x6C then some (next % 2 ^ 32)
  else if o = 0x70 then some (next / 2 ^ 32)
  else if o = 0x74 then some (shown 32 x.skips)
  else if o = 0x78 then some (x.lastCause + 16 * x.lastDetail)
  else if o = 0x7C then some (x.ofs % 2 ^ 15 + 65536 * shown 8 x.zrun)
  else none

/-- A parameter word of an Assay unit (R336). -/
def State.paramView (s : State) (u w : Nat) : Nat :=
  let x := s.unit u
  if w = 50 then code 32 (s.loopShown (loopBL u))
  else if w = 51 then code 32 x.spread
  else if 52 ≤ w ∧ w < 56 then code 32 (s.threshold u (w - 52))
  else if 56 ≤ w ∧ w < 69 then code 32 (x.feats.getD (w - 56) 0)
  else if 69 ≤ w then 0
  else (s.par u w).toNat

def State.viewAsy (s : State) (rq : Requester) (p o : Nat) : Option Nat :=
  if 0xC4 ≤ o ∧ o < 0xE4 then some (s.paramView (s.pselUnit p rq) (8 * s.pselBlk p rq + (o - 0xC4) / 4))
  else if o = 0xE4 then
    some ((s.reg A.ASY_PIPE).toNat % 65536 + 65536 * (Config.timing A.ASY_PIPE s.ht % 256))
  else if o = 0xE8 then some ((s.reg A.ASY_CRIT).toNat % 2 ^ 29 + 2 ^ 29 * s.fld F.TAM_TRNG_FAIL)
  else if o = 0xEC then some (Config.timing A.ASY_LOAD s.ht % 2 ^ 32)
  else none

/-- The closed bundles of a lane that can be delivered. -/
def State.ready (s : State) (k : Nat) : List Bundle := (s.closedOf k).filter (fun b => b.done)

/-- The bundle of a tenant under delivery, if a transaction is reading its pop register: lane. -/
def State.readingLane (s : State) (t : Nat) : Option Nat :=
  [0, 1].foldl (fun r p => match s.txOf p with
    | none => r
    | some x => match x.bundles.getLast? with
      | none => r
      | some y => if y.1 / 4 = t then some (y.1 % 4) else r) none

def State.popping (s : State) (t : Nat) : Bool :=
  [0, 1].any (fun p => match s.txOf p with | none => false | some x => x.popT == some t)

/-- QUE_PSTAT of a tenant (R192). -/
def State.pstatOf (s : State) (t : Nat) : Nat :=
  bits1 ((List.range 4).map (fun l => (l, !(s.ready (qOut t l)).isEmpty)))
    + 16 * (s.readingLane t).getD 0 + 64 * (if s.popping t then 1 else 0)
    + 128 * s.fld (F.QUE_PSTAT_FLUSHED t) + 256 * s.fld (F.QUE_PSTAT_EMPTY t) + 512 * s.fld (F.QUE_PSTAT_REWOUND t)
    + 65536 * shown 16 ((List.range 4).foldl (fun n l => n + (s.ready (qOut t l)).length) 0)

/-- The single-bit errors corrected in a memory since the FULL reset, a free value (log entry 132). -/
def State.eccCorr (s : State) (m : Nat) : Nat := if s.ht = 0 then 0 else Config.eccCorrected m s.nv.bootNum s.ht

def State.viewQue (s : State) (o : Nat) : Option Nat :=
  if o = 0x40 then some (shown 16 s.poolSize + 65536 * shown 16 s.poolFree)
  else if o = 0x48 then
    let w := (s.reg A.QUE_STAT).toNat
    some (w % 65536 + 65536 * shown 8 (s.eccCorr 0)
      + 2 ^ 24 * (w / 2 ^ 24))
  else if 0xE0 ≤ o then some (s.pstatOf ((o - 0xE0) / 4))
  else none

def State.viewBnd (s : State) (rq : Requester) (o : Nat) : Option Nat :=
  let t := s.selOf A.BND_SEL rq % 8
  let x := s.ten t
  let d := s.selOf A.BND_DSEL rq
  if o = 0xC4 then some (s.route (d / 256 % 2) (d % 256) (d / 4096 % 8))
  else if o = 0xCC then some (x.seqNext % 2 ^ 32)
  else if o = 0xD0 then some (x.seqNext / 2 ^ 32)
  else if o = 0xD4 then
    some (bits1 ((List.range 4).map (fun l => (l, !(s.lane (qOut t l)).items.isEmpty)))
      + 16 * bits1 ((List.range 4).map (fun l => (l, (s.lane (qOut t l)).closeReq && (s.lane (qOut t l)).credit)))
      + bits1 [(8, s.noKey t), (9, s.rsvWait t)] + 65536 * shown 16 (s.seqLeft t))
  else if o = 0xD8 then some (shown 32 x.bundles)
  else if o = 0xE0 then
    some (bits1 [(0, s.hallmark.work.isSome), (1, s.on F.BND_HSTAT_STOPPED)] + 256 * s.hallmark.queue.length)
  else none

/-- KEY_TSTAT of a tenant (R414). -/
def State.tstatOf (s : State) (t : Nat) : Nat :=
  let x := s.ten t
  bits1 [(0, s.tenExists t), (1, s.dormant t), (2, x.activeB == some true), (3, s.noKey t), (4, x.update.isSome),
    (5, x.removing), (8, (s.slot t false).valid), (9, (s.slot t true).valid)] + 65536 * s.activeGen t

def State.chartBytes (s : State) (t : Nat) : List Byte := match (s.tnv t).chart with | none => [] | some c => c.bytes

def State.viewKey (s : State) (rq : Requester) (o : Nat) : Option Nat :=
  let t := s.selOf A.KEY_SEL rq % 8
  let x := s.ten t
  let c := s.chartBytes t
  if o = 0x44 then some (s.tstatOf t)
  else if o = 0x48 then some ((s.slot t false).gen + 65536 * (s.slot t true).gen)
  else if o = 0x4C then some (shown 16 (s.slot t false).writes + 65536 * shown 16 (s.slot t true).writes)
  else if o = 0x50 then some (x.hw % 2 ^ 32)
  else if o = 0x54 then some (x.hw / 2 ^ 32)
  else if o = 0x58 then some ((s.tnv t).ceil % 2 ^ 32)
  else if o = 0x5C then some ((s.tnv t).ceil / 2 ^ 32)
  else if o = 0x60 then some (x.last % 2 ^ 24 + 2 ^ 24 * shown 8 x.cmds)
  else if o = 0x64 then
    some (c.length % 2 ^ 13 + (if x.upload.isSome then 2 ^ 13 else 0) + 65536 * fieldLE c 2 1 + 2 ^ 24 * fieldLE c 3 1)
  else if o = 0x68 then some (fieldLE c 12 4)
  else if o = 0x74 then some (bits1 [(0, !x.report.isEmpty && !x.signing), (1, x.signing)])
  else none

/-- The Logbook or Flyleaf entry that a requester's LOG_SEL names, with its NV page; none for an empty slot. -/
def State.logAt (s : State) (rq : Requester) : Option (Nat × LogSlot) :=
  let v := s.selOf A.LOG_SEL rq
  let back := v % 2048
  if v / 65536 % 2 = 1 then
    let i := s.nv.fly.length - 1 - back
    if back < s.nv.fly.length then s.nv.fly[i]?.map (fun e => (480 + i / 8, e)) else none
  else if 1536 ≤ back then none
  else
    let slot := (s.nv.logSeq % 1536 + 1536 - back) % 1536
    let e := mapGet (fun _ => (⟨[], true⟩ : LogSlot)) s.nv.log slot
    if e.bytes.isEmpty then none else some (288 + slot / 8, e)

def State.logSel (s : State) (rq : Requester) : Option LogSlot := (s.logAt rq).map (fun x => x.2)

def State.viewLog (s : State) (rq : Requester) (o : Nat) : Option Nat :=
  if o = 0x40 then
    some ((s.reg A.LOG_STATUS).toNat % 8 + 8 * (if s.life == 0xE then 1 else 0) + 256 * shown 5 s.log.pend.length
      + 65536 * shown 6 s.nv.fly.length)
  else if o = 0x50 then
    some (match s.logSel rq with
      | none => 0
      | some e => bits1 [(0, true), (1, s.macGood e), (2, !e.good)])
  else none

/-- The region of an NV write, in the order of R476. -/
def jobRegion : NvJob → Nat
  | .seqReserve _ _ => 3
  | .logEntry => 4
  | .chartData _ _ _ => 1
  | .chartCommit _ _ => 1
  | .config _ _ => 1
  | .patchData _ _ _ => 0
  | .patchCommit _ _ => 0
  | .erase _ _ => 2

def State.viewStw (s : State) (o : Nat) : Option Nat :=
  if o = 0x40 then some ((s.reg A.STW_STAT).toNat / 16 * 16 + s.stwState)
  else if o = 0x44 then
    some (bits1 [(0, s.env.isSome)] + 256 * shown 7 ((s.queue qCmd).foldl (fun n e => n + e.slots) 0)
      + 65536 * bits1 ((List.range 8).map (fun n => (n, (s.asmOf n).complete))))
  else if o = 0x48 then
    some (shown 8 (s.stw.nvq.length - (if s.stw.nvActive then 1 else 0)) + 256 * (if s.stw.nvActive || s.keyWriting then 1 else 0)
      + 4096 * (if s.stw.nvActive then (match s.stw.nvq.head? with | none => 0 | some j => jobRegion j)
                else if s.keyWriting then 2 else 0))
  else none

/-- The page of the key update whose commit word is being written. -/
def State.keyPage (s : State) : Nat :=
  s.tens.foldl (fun n x => match x.2.update with
    | none => n
    | some u => if u.written then 256 + 2 * x.1 + (if u.slotB then 1 else 0) else n) 0

/-- The NVS page: the operation in work, and the wear of the selected page (R476). -/
def State.viewNvs (s : State) (rq : Requester) (o : Nat) : Option Nat :=
  let n := mapGet (fun _ => 0) s.nv.erases (s.selOf A.NVS_WSEL rq % 512)
  if o = 0x40 then
    some (if s.stw.nvActive then 1 + 2 * (match s.stw.nvq.head? with | some (.erase _ _) => 2 | _ => 1) + 65536 * s.nvPage
      else if s.keyWriting then 3 + 65536 * s.keyPage else 0)
  else if o = 0x48 then some (shown 16 (s.eccCorr 1) + 65536 * s.fld F.NVS_ECC_UNCORR)
  else if o = 0x50 then some (shown 16 n + 65536 * (if 20000 ≤ n then 1 else 0))
  else none

/-- The registers of a TN page that show another page's (R434). -/
def State.viewTn (s : State) (n o : Nat) : Option Nat :=
  if o = 0x44 then some (s.pstatOf n)
  else if o = 0x5C then some (s.tstatOf n)
  else if o = 0x60 then some (s.fld F.SYS_SESSION_NUM)
  else none

/-- The bits of a Rose status word that a requester may read: per channel, by owner and seal (R353). -/
def State.roseMask (s : State) (rq : Requester) (c0 n : Nat) (stride : Nat) (v : Nat) : Nat :=
  (List.range n).foldl (fun m i =>
    let x := s.roseSeat (c0 + i)
    let deny := ownerDenies x rq || (x.hp && s.enforced x && !(stewardFor rq x.owner))
    if deny then m else m + v / 2 ^ (stride * i) % 2 ^ stride * 2 ^ (stride * i)) 0

def State.viewRose (s : State) (rq : Requester) (o : Nat) : Option Nat :=
  let v := (s.reg (0x0C00 + o)).toNat
  if o = 0x40 then some (bits1 ((List.range 16).map (fun g => (g, s.gateLevel g))))
  else if 0x80 ≤ o ∧ o < 0xC0 then some (s.roseMask rq (o - 0x80) 4 8 v)
  else if 0xC0 ≤ o then some (s.roseMask rq (if o / 4 % 2 = 0 then 0 else 32) 32 1 v)
  else none

/-- The value that a block register shows now, to a requester. -/
def State.blockView (s : State) (rq : Requester) (a : Nat) : Nat :=
  let p := a / 256
  let o := a % 256
  let r :=
    if p = 0x02 then (if o = 0x40 then
        some ((s.reg a).toNat / 4 * 4 + s.fld F.CLK_XO_MODE + 2 * (if s.clk.mode = s.fld F.CLK_XO_MODE then 0 else 1))
      else none)
    else if p = 0x04 then
      (if o = 0x5C then
        let g := s.selOf A.PLN_VSEL rq % 8
        some (if g = 6 then 0 else s.learned g + 256 * s.tmin g)
      else if o = 0x98 then some s.lsumWord else none)
    else if p = 0x05 then s.viewRck o
    else if p = 0x06 then s.viewStp o
    else if p = 0x07 then s.viewSxt o
    else if p = 0x08 then s.viewRsm (s.selOf A.RSM_SEL rq % 8) o
    else if p = 0x09 then s.viewLck o
    else if p = 0x0C then s.viewRose rq o
    else if 0x10 ≤ p ∧ p < 0x14 then
      (if o = 0x70 then some (s.fentWord (p - 0x10) (s.fld (F.TWC_FSEL_IDX (p - 0x10)))) else none)
    else if 0x14 ≤ p ∧ p < 0x17 then
      (if o = 0x64 then some (s.fentWord (p - 0x10) (s.fld (F.SPC_FSEL_IDX (p - 0x14)))) else none)
    else if p = 0x18 then s.viewPsq o
    else if p = 0x19 then s.viewDsc (s.selOf A.DSC_IDX rq % 256) o
    else if 0x1A ≤ p ∧ p < 0x20 then s.viewAsy rq p o
    else if p = 0x20 then s.viewQue o
    else if p = 0x21 then s.viewBnd rq o
    else if p = 0x22 then s.viewKey rq o
    else if p = 0x24 then s.viewLog rq o
    else if p = 0x25 then s.viewStw o
    else if p = 0x26 then s.viewNvs rq o
    else if 0x30 ≤ p ∧ p < 0x38 then s.viewTn (p - 0x30) o
    else none
  match r with
  | some v => v
  | none =>
    if isSel a then s.selOf a rq
    else match loopAt a with
      | some g => if a = g + 12 then s.lstateWord g else (s.reg a).toNat
      | none => (s.reg a).toNat

/-! ## Samples (R263) -/

/-- The registers that a read of `a` samples for its requester. -/
def sampledBy (a : Nat) : List Nat :=
  if a = A.RCK_HT_LO then [A.RCK_HT_HI]
  else if a = A.RCK_OFS_LO then [A.RCK_OFS_HI]
  else if a = A.RCK_SYNC_LO then [A.RCK_SYNC_HI, A.RCK_SYNC_SEQ]
  else if a = A.SXT_ANG then [A.SXT_REV, A.SXT_AHT_LO, A.SXT_AHT_HI]
  else if a = A.BND_SEQ_LO then [A.BND_SEQ_HI]
  else if a = A.KEY_HW_LO then [A.KEY_HW_HI]
  else if a = A.KEY_CEIL_LO then [A.KEY_CEIL_HI]
  else if a / 256 = 0x06 ∧ 0x44 ≤ a % 256 ∧ a % 256 < 0xD0 ∧ (a % 256 - 0x44) % 12 = 0 then [a + 4]
  else []

/-- The registers that show such a sample. -/
def isSampled (a : Nat) : Bool :=
  [A.RCK_HT_HI, A.RCK_OFS_HI, A.RCK_SYNC_HI, A.RCK_SYNC_SEQ, A.SXT_REV, A.SXT_AHT_LO, A.SXT_AHT_HI, A.BND_SEQ_HI,
   A.KEY_HW_HI, A.KEY_CEIL_HI].contains a
    || (a / 256 == 0x06 && decide (0x48 ≤ a % 256) && decide (a % 256 < 0xD0) && (a % 256 - 0x48) % 12 == 0)

/-- Takes the samples that a read of `a` takes. -/
def State.sample (s : State) (rq : Requester) (a : Nat) : State :=
  forEach (sampledBy a) (fun b t => t.setSamp b rq (s.blockView rq b + 1)) s

/-- What a read of an implemented register that is not a stream, a lock or a window shows. -/
def State.view (s : State) (rq : Requester) (a : Nat) : Word :=
  match pageDef (a / 256) with
  | none => 0
  | some d =>
    let o := a % 256
    if o < 0x40 then BitVec.ofNat 32 (s.headerView d o)
    else match rowAt d.rows o with
      | none => 0
      | some r =>
        if r.rw + r.w1c = 0 ∧ r.wo ≠ 0 ∧ a ≠ A.SYS_SESSION then 0
        else if isSampled a then (match s.sampOf a rq with | 0 => resetOf a | n + 1 => BitVec.ofNat 32 n)
        else BitVec.ofNat 32 (s.blockView rq a)

/-- The latch of the last word read (log entry 4). -/
def State.latch (s : State) (w : Word) : State := { s with rdata := w }

/-! ## Stream registers (R4, R124, R397, R412, R474) -/

/-- The bytes of a stream register as its requester reads it; none for a register that is not one of these. -/
def State.streamBytes (s : State) (rq : Requester) (a : Nat) : Option (List Byte) :=
  let whole := fun (n : Nat) (l : List Byte) => l.take n ++ List.replicate (n - l.length) (0 : Byte)
  if a = A.IDN_DPK then some (whole 64 s.nv.trim.devicePub)
  else if a = A.KEY_RSP then some (whole 48 (s.ten (s.selOf A.KEY_SEL rq % 8)).response)
  else if a = A.KEY_ATT then
    let x := s.ten (s.selOf A.KEY_SEL rq % 8)
    some (whole 208 (if x.signing then [] else x.report))
  else if a = A.LOG_DATA then some (whole 32 (match s.logSel rq with | none => [] | some e => e.bytes))
  else if 0x30 ≤ a / 256 ∧ a / 256 < 0x38 then
    let x := s.ten (a / 256 - 0x30)
    if a % 256 = 0x54 then some (whole 48 x.response)
    else if a % 256 = 0x58 then some (whole 208 (if x.signing then [] else x.report))
    else none
  else none

def State.streamPos (s : State) (rq : Requester) (a : Nat) : Nat := mapGet (fun _ => 0) s.streams (selKey a rq)


/-- One read of a stream register: the next four bytes, and the position moves on, back to byte 0 after the last. -/
def State.streamRead (s : State) (rq : Requester) (a : Nat) (l : List Byte) : Word × State :=
  let n := s.streamPos rq a
  let m := if l.length ≤ n + 4 then 0 else n + 4
  (BitVec.ofNat 32 (fieldLE l n 4), { s with streams := mapSet (fun _ => 0) s.streams (selKey a rq) m })

/-- A read of LOG_DATA at byte 0 is the read of the selected entry, which is checked (R464, R469); the other stream registers
are only read. -/
def State.logRead (s : State) (rq : Requester) (a : Nat) (l : List Byte) : Word × State :=
  let r := s.streamRead rq a l
  if a = A.LOG_DATA ∧ s.streamPos rq a = 0 then
    match s.logAt rq with
    | none => r
    | some (pg, e) => (r.1, r.2.logChecked pg e)
  else r

/-! ## Locks (R152) -/

/-- The identity of a requester at a grant: its code, the tenant of STEWARD, the session. -/
def State.lockId (s : State) (rq : Requester) : Nat × Nat × Nat :=
  (reqCode rq, (match rq with | .steward t => t | _ => 0), s.fld F.SYS_SESSION_NUM)

/-- A lock restricted under LCK_TEN that the requester cannot acquire. -/
def State.lockBars (s : State) (rq : Requester) (k : Nat) : Bool :=
  s.on (F.LCK_TEN_RESTRICT k) && (match rq with
    | .internal => false
    | .window n => n != s.fld (F.LCK_TEN_TENANT k)
    | .steward t => t != s.fld (F.LCK_TEN_TENANT k)
    | _ => true)

def lockWord (flags : Nat) (h : Nat × Nat × Nat) : Word := BitVec.ofNat 32 (flags + 16 * h.1 + 256 * h.2.1 + 65536 * h.2.2)

/-- An acquire attempt on lock `k` (R152). -/
def State.acquire (s : State) (rq : Requester) (k : Nat) : Word × State :=
  let me := s.lockId rq
  let l := s.lock k
  match l.holder with
  | none =>
    (lockWord (if l.broken then 5 else 1) me, (s.setLock k ⟨some me, false⟩).addSat F.LCK_CNT_ACQ 1)
  | some h => if h = me then (lockWord 3 me, s) else (lockWord 8 h, s)

/-- A release of lock `k` by its holder frees it (R154); none for any other identity. -/
def State.release (s : State) (rq : Requester) (k : Nat) : Option State :=
  if (s.lock k).holder = some (s.lockId rq) then some (s.setLock k ⟨none, false⟩) else none

/-- A lock register's number, on the LCK page or a TN page. -/
def lockNo (a : Nat) : Option Nat :=
  if A.LCK_L 0 ≤ a ∧ a < A.LCK_L 0 + 64 then some ((a - A.LCK_L 0) / 4)
  else if 0x30 ≤ a / 256 ∧ a / 256 < 0x38 ∧ 0x80 ≤ a % 256 ∧ a % 256 < 0xC0 then some ((a % 256 - 0x80) / 4)
  else none

/-! ## Reading -/

/-- A permitted or denied read of a register other than a pop register or a window (R127, R145, R146): the value, and
the state the read leaves. -/
def State.readReg (s : State) (rq : Requester) (via : Bool) (a : Nat) : Word × State :=
  match s.readDenied rq via a with
  | some c => (0, s.deny rq a c false)
  | none =>
    match lockNo a with
    | some k => if s.lockBars rq k then (0, s.deny rq a dcHOLDER false) else s.acquire rq k
    | none => match s.streamBytes rq a with
      | some l => s.logRead rq a l
      | none => (s.view rq a, s.sample rq a)

/-- A read made by a command of the table: the word goes to the read latch. -/
def State.readCmd (s : State) (rq : Requester) (a : Nat) : State :=
  s.when (s.reachable rq) fun s => let r := s.readReg rq false a; r.2.latch r.1

/-- HT_LO_SAMPLE (R263). -/
def execHtLoSample (rq : Requester) (s : State) : Host.Outcome State Fault Refusal := .next (s.readCmd rq A.RCK_HT_LO)

/-- SYNC_LO_SAMPLE (R273). -/
def execSyncLoSample (rq : Requester) (s : State) : Host.Outcome State Fault Refusal :=
  .next (s.readCmd rq A.RCK_SYNC_LO)

/-- STAMP_LO_SAMPLE (R285). -/
def execStampLoSample (rq : Requester) (ch : Nat) (s : State) : Host.Outcome State Fault Refusal :=
  .next (if ch < 12 then s.readCmd rq (A.STP_CH_LO ch) else s)

/-- OFS_LO_SAMPLE (R284). -/
def execOfsLoSample (rq : Requester) (s : State) : Host.Outcome State Fault Refusal :=
  .next (s.readCmd rq A.RCK_OFS_LO)

/-- SXT_ANG_SAMPLE (R307). -/
def execSxtAngSample (rq : Requester) (s : State) : Host.Outcome State Fault Refusal := .next (s.readCmd rq A.SXT_ANG)

/-- BND_SEQ_SAMPLE (R379). -/
def execBndSeqSample (rq : Requester) (s : State) : Host.Outcome State Fault Refusal :=
  .next (s.readCmd rq A.BND_SEQ_LO)

/-- KEY_COUNTER_SAMPLE (R414). -/
def execKeyCounterSample (rq : Requester) (ceil : Bool) (s : State) : Host.Outcome State Fault Refusal :=
  .next (s.readCmd rq (if ceil then A.KEY_CEIL_LO else A.KEY_HW_LO))

/-- KEY_RSP_READ (R397): through the KEY page, or through a TN page. -/
def execKeyRspRead (rq : Requester) (addr : Nat) (s : State) : Host.Outcome State Fault Refusal :=
  .next (if addr = A.KEY_RSP ∨ (0x30 ≤ addr / 256 ∧ addr / 256 < 0x38 ∧ addr % 256 = 0x54) then s.readCmd rq addr else s)

/-- KEY_ATT_READ (R412): through the KEY page, or through a TN page. -/
def execKeyAttRead (rq : Requester) (addr : Nat) (s : State) : Host.Outcome State Fault Refusal :=
  .next (if addr = A.KEY_ATT ∨ (0x30 ≤ addr / 256 ∧ addr / 256 < 0x38 ∧ addr % 256 = 0x58) then s.readCmd rq addr else s)

/-- DEVICE_KEY_READ (R124). -/
def execDeviceKeyRead (rq : Requester) (s : State) : Host.Outcome State Fault Refusal := .next (s.readCmd rq A.IDN_DPK)

/-- LOG_DATA_READ (R474). -/
def execLogDataRead (rq : Requester) (s : State) : Host.Outcome State Fault Refusal := .next (s.readCmd rq A.LOG_DATA)

/-- LOCK_ACQUIRE (R152): a read of LCK_Lk, on the LCK page, or on its own TN page for a tenant window. -/
def execLockAcquire (rq : Requester) (k : Nat) (s : State) : Host.Outcome State Fault Refusal :=
  .next (if k < 16 then
      s.readCmd rq (match rq with | .window n => 0x3080 + 256 * n + 4 * k | _ => A.LCK_L k)
    else s)

/-- LEASE_EXPIRY (R153): the lease of a held lock ends. -/
def execLeaseExpiry (k : Nat) (s : State) : Host.Outcome State Fault Refusal :=
  .next (s.when (s.powered && decide (k < 16) && (s.lock k).holder.isSome
      && !(s.sys.phase == .stow && s.sys.pstate == .stowCold)) fun s =>
    ((s.setLock k ⟨none, true⟩).addSat F.LCK_CNT_BREAKS 1).raise 0x09 8)

end Sys2Proof.Machine
end

