-- ==== Sys2Proof/Machine/Writes.lean ====
section
/-! DEFINITION. One register write: who may make it (R136-R145, R154, R158, R188, R215, R274, R351-R353, R458), what
value a field takes (R6-R9, R92, R93, R122, R148, R150), and where it is kept. -/

namespace Sys2Proof.Machine

/-- A write as it reaches a commit: address, value, whether fewer than four bytes were supplied (R145), and whether a
TN page makes it on the requester's behalf (R136). -/
structure Wr where
  addr : Nat
  val : Nat
  part : Bool
  via : Bool
  deriving DecidableEq, Repr

/-- What becomes of a write: the value that acts, if any, and the cause of a denial, if any. -/
structure Verdict where
  act : Option Nat
  deny : Option Nat
  deriving DecidableEq, Repr

def Verdict.ok (v : Nat) : Verdict := ⟨some v, none⟩
def Verdict.no (c : Nat) : Verdict := ⟨none, some c⟩

/-- A field of a word. -/
def wbits (w : Nat) (f : Fld) : Nat := w / 2 ^ f.lo % 2 ^ f.w
def won (w : Nat) (f : Fld) : Bool := wbits w f != 0

/-- A word with a field changed. -/
def wput (w : Nat) (f : Fld) (v : Nat) : Nat := (putBits (BitVec.ofNat 32 w) f.lo f.w v).toNat

/-! ## The bits that a register holds now -/

/-- The mask of a register's OWNER field where tenant 0 alone sets it (R18, R138). -/
def ownerMask (a : Nat) : Nat :=
  let p := a / 256
  let o := a % 256
  if o = 0x20 then 7
  else if p = 0x06 ∧ 0x40 ≤ o ∧ o < 0xD0 ∧ (o - 0x40) % 12 = 0 then 0x700
  else if p = 0x08 ∧ 0x40 ≤ o ∧ o < 0xC0 ∧ o % 16 = 0 then 0x7000
  else if (p = 0x0A ∨ p = 0x0B) ∧ 0x40 ≤ o then 0x70000
  else if p = 0x19 ∧ o = 0x44 then 0x7000
  else if 0x1A ≤ p ∧ p < 0x20 ∧ 0x40 ≤ o ∧ o < 0xC0 ∧ o % 32 = 0 then 0x70000
  else 0

/-- The parameter word of an Assay unit that ASY_PD`i` is for a requester: the unit and the word. -/
def State.pdAt (s : State) (rq : Requester) (a : Nat) : Nat × Nat :=
  (s.pselUnit (a / 256) rq, 8 * s.pselBlk (a / 256) rq + (a % 256 - 0xC4) / 4)

def isDsc (a : Nat) : Bool := a / 256 == 0x19 && decide (0x44 ≤ a % 256) && decide (a % 256 < 0x64)
def isPd (a : Nat) : Bool :=
  decide (0x1A ≤ a / 256) && decide (a / 256 < 0x20) && decide (0xC4 ≤ a % 256) && decide (a % 256 < 0xE4)
def isTn (a : Nat) : Bool := decide (0x30 ≤ a / 256) && decide (a / 256 < 0x38)

/-- The key of the route that a requester's BND_DSEL names. -/
def State.dselKey (s : State) (rq : Requester) : Nat :=
  let v := s.selOf A.BND_DSEL rq
  routeKey (v / 256 % 2) (v % 256) (v / 4096 % 8)

/-- The word that a register holds now, for the requester. -/
def State.cur (s : State) (rq : Requester) (a : Nat) : Nat :=
  if isDsc a then (dWord (s.desc (s.selOf A.DSC_IDX rq % 256)).words ((a % 256 - 0x44) / 4)).toNat
  else if isPd a then (s.par (s.pdAt rq a).1 (s.pdAt rq a).2).toNat
  else if a = A.BND_DROUTE then mapGet (fun _ => 0) s.routes (s.dselKey rq)
  else if isSel a then s.selOf a rq
  else (s.reg a).toNat

/-- The word that a write of `v` would leave in the RW fields. -/
def State.merged (s : State) (rq : Requester) (a v : Nat) : Nat :=
  ((BitVec.ofNat 32 (s.cur rq a) &&& ~~~ (BitVec.ofNat 32 (rwBits a))) ||| (BitVec.ofNat 32 v &&& BitVec.ofNat 32 (rwBits a))).toNat

/-- RW bits that a write changes. -/
def State.changed (s : State) (rq : Requester) (a v : Nat) : Nat := s.cur rq a ^^^ s.merged rq a v

/-- Tenant 0 changes the owner of a register and nothing else of it. -/
def State.ownerOnly (s : State) (rq : Requester) (a v : Nat) : Bool :=
  s.asTenant0 rq && ownerMask a != 0 && s.changed rq a v != 0 && (s.changed rq a v ||| ownerMask a) == ownerMask a

/-! ## Permission -/

/-- A tenant other than 0 changes the OWNER of a page (R138), of a capture channel (R285) or of a Resampler channel (R308):
the field is tenant 0's (cause OWNER of R145). The OWNER of a Rose channel, descriptor or unit is a matter of its own checks
(R237, R335, R342). -/
def State.takesOwner (s : State) (rq : Requester) (a v : Nat) : Bool :=
  (match reqTenant rq with | some t => t != 0 | none => false)
    && (a % 256 == 0x20 || a / 256 == 0x06 || a / 256 == 0x08) && s.changed rq a v &&& ownerMask a != 0

/-- The checks OWNER, WP and LOCK of R145 on a register of a seat. DESIGN CHOICE (log entry 145): tenant 0 passes OWNER and
WP where it changes only the OWNER field (R138), which R140 would leave to the resource's owner. -/
def State.sealChecks (s : State) (rq : Requester) (x : Seat) (a v : Nat) : Option Nat :=
  let t0 := s.ownerOnly rq a v && !x.bad
  match shutCause x rq a dcWP with
  | some c => some c
  | none =>
    if (ownerDenies x rq && !t0) || s.takesOwner rq a v then some dcOWNER
    else if rwBits a != 0 && x.wp && s.enforced x && !(stewardFor rq x.owner) && !t0 then some dcWP
    else if rwBits a != 0 && x.lock then some dcLOCK
    else none

def verdictOf (v : Nat) : Option Nat → Verdict
  | none => .ok v
  | some c => .no c

/-- The write is of tenant 0's own back end, or of the board in a state without sealing. -/
def State.bench0 (s : State) (rq : Requester) : Bool :=
  match rq with
  | .steward t => t == 0
  | .host => s.blankOpen
  | .internal => true
  | _ => false

/-- A register that only STEWARD for tenant `t` can write, or `host` its host side where `free` says. -/
def ownedBy (rq : Requester) (t : Nat) (hostFree winFree : Bool) : Bool :=
  match rq with
  | .steward u => u == t
  | .host => hostFree
  | .window u => u == t && winFree
  | .internal => true
  | .jtag => false

/-- The owner of the queue that QUE_FLUSH names, and whether the code names one (R167, R188). -/
def State.flushOwner (s : State) (q : Nat) : Nat :=
  if q < 0x20 then q / 4
  else if q < 0x28 then s.pageTenant (portPage (q - 0x20))
  else if q < 0x40 then s.asyOwner (q - 0x28)
  else if q < 0x48 then s.rsmOwner (q - 0x40)
  else if q < 0x68 then (q - 0x48) / 4
  else 0

/-- The bits of a per-channel word of the Rose that a requester may act on, and the cause of the lowest refused (R351,
R353). -/
def State.rosePermit (s : State) (rq : Requester) (fire : Bool) (c0 v : Nat) : Verdict :=
  let one := fun (i : Nat) =>
    let x := s.roseSeat (c0 + i)
    if x.bad then decide (rq = .internal)
    else if fire then
      match rq with
      | .steward t => x.owner == some t
      | .window t => x.owner == some t && !x.wp
      | .host => s.blankOpen || !x.wp
      | .internal => true
      | .jtag => false
    else !(ownerDenies x rq)
  let act := (List.range 32).foldl (fun m i => if v.testBit i && one i then m + 2 ^ i else m) 0
  match firstWith (fun i => v.testBit i && !(one i)) (List.range 32) with
  | none => .ok act
  | some i => ⟨some act, some (if fire && (s.roseSeat (c0 + i)).wp then dcWP else dcOWNER)⟩

/-- ROS_GSWk (R353), its causes in the order of R145: tenant 0 alone changes OWNER and OPEN; LEVEL is its owner's, and HOST's
while the gate is open. -/
def State.gswPermit (s : State) (rq : Requester) (k v : Nat) : Verdict :=
  let a := A.ROS_GSW k
  let ch := s.changed rq a v
  let attrs := ch / 256 != 0
  let only0 := s.asTenant0 rq && attrs && ch % 2 == 0
  let ownerFails := match reqTenant rq with
    | none => false
    | some t => (attrs && !(s.asTenant0 rq)) || (t != s.fld (F.ROS_GSW_OWNER k) && !only0)
  let byOwner := match rq with | .steward _ => true | .internal => true | _ => false
  if ownerFails then .no dcOWNER
  else if !only0 && !byOwner && !(s.on (F.ROS_GSW_OPEN k)) && !s.blankOpen then .no dcWP
  else if s.on (F.POWN_LOCK 0x0C) then .no dcLOCK
  else if attrs && !(s.asTenant0 rq) then .no dcCHECK
  else .ok v

/-- Who can write AFE_TS.NOW (R234): STEWARD for the owner; HOST and the owner's window while the page is not sealed. -/
def State.touchBy (s : State) (rq : Requester) (x : Seat) : Bool :=
  match rq with
  | .steward t => x.owner == some t
  | .window t => x.owner == some t && (!x.wp || s.blankOpen)
  | .host => !x.wp || s.blankOpen
  | .internal => true
  | .jtag => false

/-- POWN (R138): who may change OWNER, after the general checks. -/
def State.pownPermit (s : State) (rq : Requester) (a v : Nat) : Verdict :=
  let p := a / 256
  match s.sealChecks rq (s.pageSeat p) a v with
  | some c => .no c
  | none =>
    let new := s.merged rq a v % 8
    let ch := (s.changed rq a v) % 8 != 0
    if rwBits a % 8 = 0 then .ok v
    else if s.blankOpen && new != 0 then .no dcCHECK
    else if s.fielded && ch && rq != .steward 0 then .no dcCHECK
    else if s.life == 0xE && ch then .no dcCHECK
    else .ok v

/-- A lock register (R154): a release by any other identity is denied. -/
def State.lockPermit (s : State) (rq : Requester) (k v : Nat) : Verdict :=
  if v % 2 = 1 then (match s.release rq k with | some _ => .ok v | none => .no dcHOLDER) else .ok v

/-- The checks of R145 after REACH, each register by its own rule. -/
def State.permitAt (s : State) (rq : Requester) (a v : Nat) : Verdict :=
  let p := a / 256
  let o := a % 256
  let x := s.seat rq a
  let general := verdictOf v (s.sealChecks rq x a v)
  if (shutCause x rq a dcWP).isSome then general
  else if freeSel a then .ok v
  else if o = 0x20 then s.pownPermit rq a v
  else if o < 0x40 then general
  else if p = 0x09 ∧ o < 0x80 then s.lockPermit rq ((o - 0x40) / 4) v
  else if p = 0x09 then
    if !(s.bench0 rq) then .no dcOWNER
    else verdictOf v (s.sealChecks rq x a v)
  else if isTn a ∧ 0x80 ≤ o then
    (if ownerDenies x rq then .no dcOWNER else s.lockPermit rq ((o - 0x80) / 4) v)
  else if a = A.TAM_CLR then (if s.bench0 rq then .ok v else .no dcOWNER)
  else if p = 0x05 ∧ 0x90 ≤ o ∧ o < 0x9C then
    (if rq = .host ∨ s.bench0 rq then .ok v else .no dcOWNER)
  else if (0x10 ≤ p ∧ p < 0x14 ∧ o = 0x74) ∨ (0x14 ≤ p ∧ p < 0x17 ∧ o = 0x68) then
    (if ownedBy rq (v % 8) s.blankOpen s.blankOpen then .ok v else .no dcOWNER)
  else if a = A.QUE_FLUSH then
    if ownedBy rq (s.flushOwner (v % 128)) (s.blankOpen || s.life == 0xE) false then
      (if v % 128 > 0x68 ∨ (v.testBit 7 ∧ 0x20 ≤ v % 128) then .no dcCHECK else .ok v)
    else .no dcOWNER
  else if a = A.AFE_TS then
    if v / 2 ^ 24 % 4 = 0 ∨ x.bad ∨ s.touchBy rq x then general else .no (if x.wp then dcWP else dcOWNER)
  else if a = A.SYS_RST_CMD then
    if v / 65536 % 65536 != 0x5EED then ⟨none, none⟩
    else if s.fielded && (match rq with | .steward _ => false | _ => true) then .no dcOWNER
    else match s.sealChecks rq x a v with
      | some c => .no c
      | none =>
        if v % 4 = 0 ∨ (v % 4 = 2 ∧ !(s.tenExists (v / 16 % 8))) then .no dcCHECK
        else .ok v
  else if p = 0x0C ∧ 0x44 ≤ o ∧ o < 0x60 then s.gswPermit rq ((o - 0x44) / 4) v
  else if a = A.ROS_FCLR then
    let one := fun (i : Nat) => match rq with | .window t => s.fld (F.ROS_FLR_OWNER i) == t | .steward t => s.fld (F.ROS_FLR_OWNER i) == t | _ => true
    let act := (if v.testBit 0 && one 0 then 1 else 0) + (if v.testBit 1 && one 1 then 2 else 0)
    ⟨some act, if act = v % 4 then none else some dcOWNER⟩
  else if p = 0x0C ∧ (0x74 = o ∨ 0x78 = o) then s.rosePermit rq true (32 * ((o - 0x74) / 4)) v
  else if p = 0x0C ∧ 0xC0 ≤ o then s.rosePermit rq false (32 * ((o - 0xC0) / 4 % 2)) v
  else if (p = 0x06 ∨ p = 0x08) ∧ (s.changed rq a v &&& ownerMask a) != 0 ∧ !(s.asTenant0 rq) then
    match s.sealChecks rq x a v with
    | some c => .no c
    | none => .no dcCHECK
  else if (s.changed rq a v &&& reservedMask a) != 0 ∧ !(s.asTenant0 rq) then
    match s.sealChecks rq x a v with
    | some c => .no c
    | none => .no dcCHECK
  else general

/-- The verdict on a write (R145), in the order of its table. -/
def State.permit (s : State) (rq : Requester) (w : Wr) : Verdict :=
  if !(writable w.addr) then ⟨none, none⟩
  else if rq = .internal then .ok w.val
  else if w.part then .no dcPARTIAL
  else if s.lifeDenies rq (w.addr / 256) then .no dcLIFECYCLE
  else if !(reaches rq w.via (w.addr / 256)) then .no dcREACH
  else s.permitAt rq w.addr w.val

/-! ## Values that read as another (R92, R93, R122, R148, R150) -/

/-- A field limited to a range. -/
def wlim (f : Fld) (lo hi w : Nat) : Nat := wput w f (min hi (max lo (wbits w f)))

/-- A field whose code 0 reads as 1. -/
def wone (f : Fld) (w : Nat) : Nat := if wbits w f = 0 then wput w f 1 else w

/-- The width of a loop's bounds in bits. -/
def loopWidth (g : Nat) : Nat :=
  if g = loopAVS then 7
  else if g = loopGEAR then 3
  else if g = loopMPPT then 10
  else if g = loopICAL then 8
  else if g = loopBW then 16
  else if g = loopPLC then 16
  else if g = loopSPL then 15
  else if g / 256 = 0x17 then 24
  else if 0x10 ≤ g / 256 ∧ g / 256 < 0x14 then 11
  else 32

/-- A bound as it is stored: the nearest end of the hard range when it lies outside (R150). -/
def normBound (g v : Nat) : Nat :=
  let m := v % 2 ^ loopWidth g
  let r := loopRange g
  let i := clampInt r.1 r.2 (loopNum g (BitVec.ofNat 32 m))
  code (if loopSigned g then (if g / 256 = 0x17 then 24 else 32) else 32) i

/-- A word of a loop group (R148). -/
def normLoop (g a v : Nat) : Nat :=
  if a = g then
    let w := wone ⟨g, 8, 8⟩ v
    if 0x1A ≤ g / 256 ∧ g / 256 < 0x20 then wlim ⟨g, 8, 8⟩ 1 20 w else w
  else if a = g + 4 ∨ a = g + 8 then normBound g v
  else v

/-- SYS and PWR values (R92, R93, R122). -/
def normPower (a v : Nat) : Nat :=
  if a = A.SYS_STOW then wlim F.SYS_STOW_GUARD 50 4095 v
  else if a = A.SYS_HREL then wlim F.SYS_HREL_PULSE 1 100 v
  else if a = A.SYS_WDOG then wlim F.SYS_WDOG_PERIOD 10 60000 v
  else if a = A.PWR_THR then
    let w := wlim F.PWR_THR_KEYW 0 230 (wlim F.PWR_THR_VWARN 0 230 v)
    wlim F.PWR_THR_KEYW (wbits w F.PWR_THR_VWARN) 230 w
  else if a = A.PWR_HARV then wlim F.PWR_HARV_ILIM 1 12 (wlim F.PWR_HARV_VMAX 0 240 v)
  else if a = A.PWR_VHOST then
    wone F.PWR_VHOST_CYCLE_OFF (if wbits v F.PWR_VHOST_VSEL = 3 then wput v F.PWR_VHOST_VSEL 0 else v)
  else v

/-- TAM values: the least responses (R458), and the limits of the thermal thresholds. -/
def normTamper (v : Nat) : Nat :=
  (List.range 7).foldl (fun w i =>
    let f := F.TAM_RESP_LEVEL i
    let l := wbits w f
    let least := if i = 0 ∨ i = 2 then 2 else 1
    wput w f (min 4 (max least l))) v

/-- The value that is stored for a merged word (R7): reserved codes read as the spec says. -/
def normWord (a v : Nat) : Nat :=
  let p := a / 256
  let o := a % 256
  match loopAt a with
  | some g => normLoop g a v
  | none =>
    if p = 0x01 ∨ p = 0x03 then normPower a v
    else if a = A.PLN_AVS_CFG then wone F.PLN_AVS_CFG_PERIOD v
    else if a = A.PLN_GEAR_CFG then wone F.PLN_GEAR_CFG_WIN (wone F.PLN_GEAR_CFG_DOWN v)
    else if a = A.PLN_MPPT_CFG then wone F.PLN_MPPT_CFG_PERIOD v
    else if a = A.RCK_DISC_CFG then wlim F.RCK_DISC_CFG_KP 0 8 v
    else if a = A.RCK_STEPLIM then wlim F.RCK_STEPLIM_US 10 1000000 v
    else if a = A.RCK_SLEWMAX then wlim F.RCK_SLEWMAX_PPM 1 1000 v
    else if a = A.STP_ICAL_CFG then wlim F.STP_ICAL_CFG_NLOG 10 16 (wlim F.STP_ICAL_CFG_TAB 0 8 v)
    else if a = A.SXT_CFG then wone F.SXT_CFG_VMAX v
    else if a = A.SXT_LOCK then wone F.SXT_LOCK_ACQ (wone F.SXT_LOCK_LOSE (wone F.SXT_LOCK_MISS v))
    else if a = A.SXT_BW_CFG then wone F.SXT_BW_CFG_RATIO v
    else if a = A.STP_CH_CFG 9 then wput v (F.STP_CH_CFG_OWNER 9) 0
    else if p = 0x08 ∧ 0x40 ≤ o ∧ o < 0xC0 ∧ o % 16 = 0 then wone (F.RSM_CH_CFG_BLOCK 0) v
    else if a = A.LCK_LEASE then wone F.LCK_LEASE_MS v
    else if 0x10 ≤ p ∧ p < 0x14 ∧ o = 0x54 then wone (F.TWC_TLIM_STRETCH 0) (wone (F.TWC_TLIM_STUCK 0) v)
    else if a = A.PSQ_SPL_CFG then wone F.PSQ_SPL_CFG_DECAY v
    else if 0x1A ≤ p ∧ p < 0x20 ∧ 0x40 ≤ o ∧ o < 0xC0 ∧ o % 32 = 8 then wone (F.ASY_OUT_OBLK 0) v
    else if a = A.QUE_PLC_CFG then wone F.QUE_PLC_CFG_PERIOD v
    else if p = 0x20 ∧ 0x60 ≤ o ∧ o < 0x80 then wone (F.QUE_TQ_WEIGHT 0) v
    else if p = 0x21 ∧ 0x40 ≤ o ∧ o < 0xC0 then
      (if wbits v (F.BND_LCFG_SIZE 0) = 0 ∨ 256 < wbits v (F.BND_LCFG_SIZE 0) then wput v (F.BND_LCFG_SIZE 0) 256 else v)
    else if a = A.TAM_RESP then normTamper v
    else if a = A.TAM_TLIM then wlim F.TAM_TLIM_LO 9 229 (wlim F.TAM_TLIM_HI 9 229 v)
    else if a = A.TAM_TCFG then wone F.TAM_TCFG_PER v
    else if a = A.TAM_PROBE then wone F.TAM_PROBE_WIN (wone F.TAM_PROBE_THR v)
    else if a = A.TAM_HOLD then wone F.TAM_HOLD_T v
    else v

/-! ## Storage -/

/-- The stored bits of a descriptor word, by the descriptor's TRIG (R260). -/
def dscMask (trig i : Nat) : Nat :=
  if i = 0 then 0x01FFFF7F
  else if i = 1 then 0xFF007F7F
  else if i = 3 then (if trig = 2 then 0xF else if trig = 3 then 0x1FF else 0xFFFFFFFF)
  else if i = 4 then (if trig = 2 ∨ trig = 3 then 0 else 0xFFFFFFFF)
  else if i = 5 then 0xFFFF
  else 0xFFFFFFFF

/-- A descriptor's words with the bits that its trigger type does not define cleared. -/
def dscNorm (ws : List Word) : List Word :=
  let trig := dTrig ws
  (List.range 8).map (fun i => dWord ws i &&& BitVec.ofNat 32 (dscMask trig i))

/-- The stored bits of a parameter word of an Assay unit (R336). -/
def parMask (w : Nat) : Nat :=
  if w < 32 then (if w % 8 < 5 then 0xFFFFFFFF else if w % 8 = 5 then 1 else 0)
  else if w < 36 then 0xFFFFFFFF
  else if w = 36 then 0x1FFF
  else if w = 37 then 0xFFFF
  else if w = 38 then 0xF
  else if w < 48 then 0xFFFFFFFF
  else if w = 48 then 0x1F1F1F1F
  else if w = 49 then 0xF
  else 0

/-- W1C bits of a register that stand where `v` has a 1. -/
def State.clear1 (s : State) (a v : Nat) : State :=
  let m := match masksAt a with | some m => m.w1c | none => 0
  s.setReg a (s.reg a &&& ~~~ (BitVec.ofNat 32 v &&& BitVec.ofNat 32 m))

/-- Keeps the value of a permitted write. -/
def State.storeReg (s : State) (rq : Requester) (a v : Nat) : State :=
  let p := a / 256
  let o := a % 256
  if isSel a then s.setSel a rq ((BitVec.ofNat 32 v &&& BitVec.ofNat 32 (rwBits a)).toNat)
  else if o = 0x08 then
    (match pageDef p with
     | some d => if d.enWritable then s.setFld (F.PCTL_EN p) (v % 2) else s
     | none => s)
  else if isDsc a then
    s.modDesc (s.selOf A.DSC_IDX rq % 256) (fun d => { d with words := listSet d.words ((o - 0x44) / 4) (BitVec.ofNat 32 v) })
  else if isPd a then
    let t := s.pdAt rq a
    if 72 ≤ t.2 then s
    else s.modUnit t.1 (fun x => { x with
      params := mapSet (fun _ => 0) x.params t.2 (BitVec.ofNat 32 v &&& BitVec.ofNat 32 (parMask t.2)) })
  else if a = A.BND_DROUTE then { s with routes := mapSet (fun _ => 0) s.routes (s.dselKey rq) (v % 8) }
  else if isTn a ∧ o = 0x44 then s.clear1 (0x20E0 + 4 * (p - 0x30)) v
  else
    let s1 := if rwBits a = 0 then s else s.setReg a (BitVec.ofNat 32 (normWord a (s.merged rq a v)))
    s1.clear1 a v

/-- The writes of a commit together (R128): selections first, since the words of a window belong to what the selection
names after the commit (R236, R336). -/
def State.storeAll (s : State) (rq : Requester) (l : List (Nat × Nat)) : State :=
  let s1 := forEach l (fun w s => s.storeReg rq w.1 w.2) s
  if l.any (fun w => isDsc w.1) then s1.modDesc (s1.selOf A.DSC_IDX rq % 256) (fun d => { d with words := dscNorm d.words })
  else s1

end Sys2Proof.Machine
end

