-- ==== Sys2Proof/Machine/Checks.lean ====
section
/-! DEFINITION. The configuration checks of cause CHECK (R145): those of one register, made on the values that the
writes before it leave, and those over a whole commit, made after every write has been applied (R150, R200, R249, R274,
R287, R299, R313, R331, R336, R342, R237). -/

namespace Sys2Proof.Machine

/-! ## Checks of one register -/

/-- MAXBURST of a port below 1, above 256, or below the length of an enabled descriptor on it (R196). -/
def State.badBurst (s : State) (p v : Nat) : Bool :=
  v % 512 == 0 || decide (256 < v % 512)
    || s.liveDescs.any (fun d => let ws := (s.desc d).words; dEn ws && dPort ws == p && decide (v % 512 < dLen ws))

/-- The sum of the MINs of the tenants but `t`. -/
def State.otherMins (s : State) (t : Nat) : Nat :=
  (List.range 8).foldl (fun n i => if i = t then n else n + s.fld (F.QUE_TQ_MIN i)) 0

/-- QUE_TQ (R170), on the merged word. -/
def State.badQuota (s : State) (t w : Nat) : Bool :=
  let mn := wbits w (F.QUE_TQ_MIN 0)
  let mx := wbits w (F.QUE_TQ_MAX 0)
  let old := s.fld (F.QUE_TQ_MIN t)
  decide (mx < mn) || decide (3968 < mx) || decide (3968 < s.otherMins t + mn) || (s.tenExists t && mn == 0)
    || (decide (old < mn) && decide (s.poolFree < 16 * (mn - old)))

/-- BND_DROUTE (R363), for the stream and tenant that the requester has selected. -/
def State.badRoute (s : State) (rq : Requester) (v : Nat) : Bool :=
  let k := s.selOf A.BND_DSEL rq
  let t := k / 4096 % 8
  v % 2 == 1 &&
    (if k / 256 % 2 = 0 then !(dUsable (s.desc (k % 256)).words t)
     else decide (12 ≤ k % 256) || s.chanOwner (k % 256) != t)

/-- A target address in the reserved ranges of R421. -/
def addrReserved (a : Nat) : Bool := decide (a < 8) || decide (0x78 ≤ a)

def State.badAddr (w : Nat) : Bool :=
  let c := wbits w F.HTW_ADDR_CHART
  let b := wbits w F.HTW_ADDR_WBASE
  b % 8 != 0 || (decide (b ≤ c) && decide (c < b + 8)) || addrReserved c || addrReserved b

/-- A field of codes above `hi`. -/
def anyAbove (w n stride bits hi : Nat) : Bool := (List.range n).any (fun i => decide (hi < w / 2 ^ (stride * i) % 2 ^ bits))

/-- The value is refused by a check of its own register. -/
def State.badWrite (s : State) (rq : Requester) (a v : Nat) : Bool :=
  let p := a / 256
  let o := a % 256
  let w := s.merged rq a v
  if o = 0x1C then w.testBit 1 && (pageTap p).isNone
  else if a = A.SYS_STOW then won w F.SYS_STOW_COLD_EN && s.on F.RCK_STAT_EXHAUSTED
  else if a = A.CLK_GREQ then decide (5 < wbits w F.CLK_GREQ_GEAR)
  else if a = A.PLN_AVS_CFG then decide (wbits w F.PLN_AVS_CFG_MHI ≤ wbits w F.PLN_AVS_CFG_MLO)
  else if a = A.PLN_GEAR_CFG then
    decide (wbits w F.PLN_GEAR_CFG_UHI ≤ 2 * wbits w F.PLN_GEAR_CFG_ULO) || decide (5 < wbits w F.PLN_GEAR_CFG_DIPMAX)
  else if a = A.PLN_URG then decide (5 < wbits w F.PLN_URG_GEAR)
  else if a = A.PLN_TFLOOR then anyAbove w 8 4 3 5
  else if a = A.HTW_ADDR then State.badAddr w
  else if a = A.HSP_CFG then decide (5 < wbits w F.HSP_CFG_GEAR)
  else if 0x10 ≤ p ∧ p < 0x14 ∧ o = 0x5C then s.badBurst (p - 0x10) v
  else if 0x14 ≤ p ∧ p < 0x17 ∧ o = 0x50 then s.badBurst (p - 0x10) v
  else if a = A.AFE_BURST then s.badBurst 7 v
  else if 0x14 ≤ p ∧ p < 0x17 ∧ o = 0x44 then
    decide (wbits w (F.SPC_SCK_PERA 0) < 20) || decide (wbits w (F.SPC_SCK_PERB 0) < 20)
  else if p = 0x06 ∧ 0x40 ≤ o ∧ o < 0xD0 then wbits w (F.STP_CH_CFG_EDGE 0) == 3
  else if a = A.ROS_GSEL then anyAbove w 4 8 5 23
  else if p = 0x20 ∧ 0x60 ≤ o ∧ o < 0x80 then s.badQuota ((o - 0x60) / 4) w
  else if p = 0x21 ∧ 0x40 ≤ o ∧ o < 0xC0 then wbits w (F.BND_LCFG_MODE 0) == 3
  else if a = A.BND_DROUTE then s.badRoute rq v
  else if a = A.TAM_TLIM then
    decide (min 229 (max 9 (wbits w F.TAM_TLIM_HI)) ≤ min 229 (max 9 (wbits w F.TAM_TLIM_LO)))
  else if a = A.TST_MODE then v % 4 == 3
  else false

/-! ## Checks over a commit -/

/-- What a check over a whole commit is about. -/
inductive Group where
  | bounds (g : Nat)
  | bus (n : Nat)
  | rose (c : Nat)
  | unit (u : Nat)
  | rsm (c : Nat)
  | desc (d : Nat)
  | share (p : Nat)
  | afe
  | beacon
  | gravity
  | gyro
  | urgent
  deriving DecidableEq, Repr

/-- The groups that a write belongs to. -/
def State.groupsOf (s : State) (rq : Requester) (a : Nat) : List Group :=
  let p := a / 256
  let o := a % 256
  let lo := match loopAt a with | some g => if a = g + 4 ∨ a = g + 8 then [Group.bounds g] else [] | none => []
  let r :=
    if 0x10 ≤ p ∧ p < 0x14 ∧ 0x40 ≤ o ∧ (o ≤ 0x50 ∨ o = 0x58) then [Group.bus (p - 0x10)]
    else if (p = 0x0A ∨ p = 0x0B) ∧ 0x40 ≤ o then [Group.rose (32 * (p - 0x0A) + (o - 0x40) / 4)]
    else if 0x1A ≤ p ∧ p < 0x20 ∧ 0x40 ≤ o ∧ o < 0xC0 then [Group.unit (4 * (p - 0x1A) + (o - 0x40) / 32)]
    else if isPd a then [Group.unit (s.pdAt rq a).1]
    else if p = 0x08 ∧ 0x40 ≤ o ∧ o < 0xC0 then [Group.rsm ((o - 0x40) / 16)]
    else if isDsc a then [Group.desc (s.selOf A.DSC_IDX rq % 256)]
    else if p = 0x18 ∧ 0x90 ≤ o ∧ o < 0xD0 then [Group.share ((o - 0x90) / 8)]
    else if p = 0x17 ∧ (o = 0x40 ∨ o = 0x48 ∨ o = 0x4C) then [Group.afe]
    else if p = 0x05 ∧ 0x90 ≤ o ∧ o < 0x9C then [Group.beacon]
    else if a = A.SXT_GIN then [Group.gravity]
    else if a = A.SXT_YIN then [Group.gyro]
    else if a = A.PSQ_URG then [Group.urgent]
    else []
  lo ++ r

/-- The minimum times of R200 for a mode: TLOW, THIGH, TSUDAT, TSUSTA, THDSTA, TSUSTO, TBUF, GLITCH; the most THDDAT;
the rise time. -/
def modeTimes (m : Nat) : List Nat × Nat × Nat :=
  if m = 0 then ([4700, 4000, 250, 4700, 4000, 4000, 4700, 0], 3450, 1000)
  else if m = 1 then ([1300, 600, 100, 600, 600, 600, 1300, 50], 900, 300)
  else ([500, 260, 50, 260, 260, 260, 500, 50], 450, 120)

/-- R200 and R201 on the values in force. -/
def State.busGood (s : State) (n : Nat) : Bool :=
  let m := s.fld (F.TWC_CFG_MODE n)
  let t := modeTimes m
  let have8 := [s.fld (F.TWC_TCLK_TLOW n), s.fld (F.TWC_TCLK_THIGH n), s.fld (F.TWC_TDAT_TSUDAT n),
    s.fld (F.TWC_TSTA_TSUSTA n), s.fld (F.TWC_TSTA_THDSTA n), s.fld (F.TWC_TSTO_TSUSTO n), s.fld (F.TWC_TSTO_TBUF n),
    s.fld (F.TWC_CFG_GLITCH n)]
  let rp := s.fld (F.TWC_BUS_RP n)
  let cb := s.fld (F.TWC_BUS_CB n)
  let load := rp == 0 || cb == 0 ||
    (decide (8473 * rp * cb ≤ 20000 * t.2.2) && decide (3200 ≤ 100 * rp * (if m = 2 then 20 else 3)))
  m != 3 && (s.on (F.TWC_CFG_NONSTD n)
    || ((List.zip t.1 have8).all (fun x => decide (x.1 ≤ x.2)) && decide (s.fld (F.TWC_TDAT_THDDAT n) ≤ t.2.1) && load))

/-- The stream that a Resampler channel names is its owner's or granted to it (R299). -/
def State.rsmSource (s : State) (c : Nat) : Bool :=
  let o := s.rsmOwner c
  let i := s.fld (F.RSM_CH_IN_SRCIDX c)
  if s.fld (F.RSM_CH_IN_SRC c) = 0 then dUsable (s.desc i).words o
  else decide (i < 24) && s.unitUsable i o

/-- A Resampler channel (R299, R302, R308); `src` when its source is checked. -/
def State.rsmGood (s : State) (c : Nat) (src : Bool) : Bool :=
  decide (4 ≤ s.logN c) && decide (s.logN c ≤ 12) && decide (s.fld (F.RSM_CH_IN_SRC c) < 2)
    && decide (24 + 4 * s.rsmBlock c * s.rsmK c ≤ 224) && (!src || s.rsmSource c)

/-- The owner of a descriptor may use its port (R237). -/
def State.portUsable (s : State) (p t : Nat) : Bool :=
  t == 0 || s.pageOwner (portPage p) == some t || s.share p t != 0

def State.burstOf (s : State) (p : Nat) : Nat :=
  if p < 4 then s.fld (F.TWC_BURST_MAX p) else if p < 7 then s.fld (F.SPC_BURST_MAX (p - 4)) else s.fld F.AFE_BURST_MAX

/-- R237 on the words `ws` that a commit leaves, `old` before it. -/
def State.descGood (s : State) (rq : Requester) (old ws : List Word) : Bool :=
  let o := dOwner ws
  let p := dPort ws
  let owner := o == dOwner old || (s.asTenant0 rq && !(dEn old) && !(dEn ws))
  let len := dLen ws != 0 && decide (dLen ws ≤ s.burstOf p) && (dKind ws == 0 || decide (dLen ws ≤ 8))
  let afe := p != 7 || (dKind ws == 0 && dLen ws % 4 == 0)
  let urgent := !(dUrgent ws) || s.bit F.PSQ_URG_ALLOW o
  let trig :=
    if dTrig ws = 0 then
      decide (17 ≤ dPeriod ws) && decide (dPhase ws < dPeriod ws) && decide (dJit ws * 16777216 < dPeriod ws * 1000000)
    else if dTrig ws = 1 then (dWord ws 4).toNat == 0 || decide (0x10000 ≤ (dWord ws 4).toNat)
    else if dTrig ws = 2 then s.fld (F.PSQ_TOWN_OWNER (dLine ws)) == o
    else dOwner (s.desc (dSrc ws)).words == o
  let enc := dKind ws != 3 && dPtrw ws != 3 && decide (dHdr ws < 5)
  owner && s.portUsable p o && len && afe && urgent && trig && enc

/-- The source that a unit selects is permitted (R331, R335). -/
def State.unitSource (s : State) (u : Nat) : Bool :=
  let o := s.asyOwner u
  let i := s.fld (F.ASY_IN_SRCIDX u)
  match s.fld (F.ASY_IN_SRC u) with
  | 0 => dUsable (s.desc i).words o
  | 1 => decide (i < u) && s.unitUsable i o
  | 2 => decide (i < 8) && s.rsmOwner i == o
  | _ => decide (i < 12) && s.chanOwner i == o

/-- The encodings of a unit's input (R335). -/
def State.unitInput (s : State) (u : Nat) : Bool :=
  let i := s.fld (F.ASY_IN_SRCIDX u)
  let w := s.fld (F.ASY_IN_W u)
  w != 3 && (match s.fld (F.ASY_IN_SRC u) with
    | 0 => true
    | 1 => decide (i < u)
    | 2 => decide (i < 8) && w == 2 && decide (s.fld (F.ASY_IN_OFF u) ≤ 3)
    | _ => decide (i < 12))

/-- The parameter words of a unit (R318, R323, R336). -/
def State.paramsGood (s : State) (u : Nat) : Bool :=
  let rule := (s.par u 48).toNat
  let n := rule / 256 % 32
  let m := rule / 65536 % 32
  let nrel := rule / 2 ^ 24 % 32
  (List.range 4).all (fun i => decide ((s.par u (32 + i)).toNat < 2 ^ 31))
    && decide ((s.par u 38).toNat % 16 ≤ 0xB)
    && (List.range 4).all (fun c => s.cmpOp u c != 3 && decide (s.cmpFeat u c ≤ 0xC)
        && (!(s.cmpAdapt u c) || s.cmpFeat u c == s.baseFeat u))
    && decide (n ≤ m) && decide (nrel < n + 1) && decide (s.baseFeat u ≤ 0xC)

/-- A unit after a commit (R313, R335, R336); `src` when its source is checked. -/
def State.unitGood (s0 : State) (rq : Requester) (u : Nat) (src : Bool) (s : State) : Bool :=
  let on := s.on (F.ASY_CFG_EN u)
  let lw := s.fld (F.ASY_CFG_LW u)
  let owner := s.asyOwner u == s0.asyOwner u || (s0.asTenant0 rq && !on && !(s0.on (F.ASY_CFG_EN u)))
  owner && (!on || (decide (3 ≤ lw) && decide (lw ≤ 12)))
    && (!(s.on (F.ASY_CFG_URGENT u)) || s.bit F.PSQ_URG_ALLOW (s.asyOwner u))
    && (!(s.on (F.ASY_CFG_CRITICAL u)) || s.on (F.ASY_CFG_URGENT u))
    && s.unitInput u && decide (s.fld (F.ASY_OUT_OBLK u) ≤ 18) && (!src || s.unitSource u) && s.paramsGood u

/-- A Rose channel after a commit (R342). -/
def State.roseGood (s0 : State) (rq : Requester) (c : Nat) (s : State) : Bool :=
  let quiet := fun (t : State) => t.fld (F.ROS_CH_PEN c) == 0 && t.fld (F.ROS_CH_CEN c) == 0
  let owner := s.fld (F.ROS_CH_OWNER c) == s0.fld (F.ROS_CH_OWNER c) || (s0.asTenant0 rq && quiet s0 && quiet s)
  owner && s.channelGood c

/-- The AFE's encodings (R220, R221, R233). -/
def State.afeGood (s : State) : Bool :=
  s.fld F.AFE_CFG_EXC_MODE != 3 && [0, 1].all (fun c =>
    let o := s.fld (F.AFE_CH_ODR c)
    o != 0xF && (s.fld F.AFE_CFG_MCLK == 0 || decide (o < 0xD)))

/-- The Sextant's input names a read descriptor whose stream the page owner may take (R287). -/
def State.sxtInput (s : State) (d : Nat) : Bool :=
  let ws := (s.desc d).words
  dKind ws == 0 && dUsable ws (s.pageTenant 0x07)

/-- The reservations of a port (R249). -/
def State.shareSum (s : State) (p : Nat) : Nat := (List.range 8).foldl (fun n t => n + s.share p t) 0

/-- No unit is left with URGENT that its owner may not have (R313). -/
def State.urgentGood (s : State) : Bool :=
  allUnits.all (fun u => !(s.on (F.ASY_CFG_URGENT u)) || s.bit F.PSQ_URG_ALLOW (s.asyOwner u))

/-- The group passes its check: `s0` before the commit, `l` its writes, `s` after them. -/
def State.groupGood (s0 : State) (rq : Requester) (l : List (Nat × Nat)) (s : State) : Group → Bool
  | .bounds g => decide (s.loopLo g ≤ s.loopHi g)
  | .bus n => s.busGood n
  | .rose c => State.roseGood s0 rq c s
  | .unit u =>
    State.unitGood s0 rq u (l.any (fun w => w.1 == A.ASY_IN u)
      || (s.on (F.ASY_CFG_EN u) && (!(s0.on (F.ASY_CFG_EN u)) || s0.asyOwner u != s.asyOwner u))) s
  | .rsm c =>
    s.rsmGood c (l.any (fun w => w.1 == A.RSM_CH_IN c)
      || (s.on (F.RSM_CH_CFG_EN c) && (!(s0.on (F.RSM_CH_CFG_EN c)) || s0.rsmOwner c != s.rsmOwner c)))
  | .desc d => s.descGood rq (s0.desc d).words (s.desc d).words
  | .share p => decide (s.shareSum p ≤ 256)
  | .afe => s.afeGood
  | .beacon => [A.RCK_BCN_SEQ, A.RCK_BCN_MT_LO, A.RCK_BCN_MT_HI].all (fun a => l.any (fun w => w.1 == a))
  | .gravity => !(s.on F.SXT_GIN_EN) || s.sxtInput (s.fld F.SXT_GIN_DSC)
  | .gyro => !(s.on F.SXT_YIN_EN) || s.sxtInput (s.fld F.SXT_YIN_DSC)
  | .urgent => s.urgentGood

end Sys2Proof.Machine
end

