-- ==== Sys2Proof/Machine/Effects.lean ====
section
/-! DEFINITION. What the permitted writes of a commit do beyond the values they leave: the effect of a write-only field,
of an enable, and of a change of configuration, block by block. `s0` is the state before the commit, `l` its writes, `s`
the state with their values. -/

namespace Sys2Proof.Machine

def wrote (l : List (Nat × Nat)) (a : Nat) : Bool := l.any (fun w => w.1 == a)

/-- The values written to a register, in order. -/
def written (l : List (Nat × Nat)) (a : Nat) : List Nat := (l.filter (fun w => w.1 == a)).map (fun w => w.2)

/-- A field went from 0 to another value, or to 0. -/
def wentOn (s0 s : State) (f : Fld) : Bool := !(s0.on f) && s.on f
def wentOff (s0 s : State) (f : Fld) : Bool := s0.on f && !(s.on f)
def shifted (s0 s : State) (f : Fld) : Bool := s0.fld f != s.fld f

/-! ## Loops (R149, R150, R324, R480, R491) -/

/-- A loop whose group the commit wrote. -/
def State.loopAfter (s0 : State) (g : Nat) (s : State) : State :=
  let s1 := s.loopCommitted g (s.loopHomeNow g)
  if g = loopAVS then
    if wentOn s0 s ⟨g, 0, 1⟩ then s1.applyCode s1.gear
    else
      let o := (s1.loopShown g).toNat
      (if s1.loopEn g then s1.setLearned s1.gear o else s1).setFld F.PWR_CORE_VSET o
  else if g = loopMPPT then
    (if wentOn s0 s ⟨g, 0, 1⟩ then { s1 with pln := { s1.pln with vocWait := true } } else s1)
  else if g = loopSPL then
    forEach s1.liveDescs (fun d s => s.modDesc d (fun x =>
      if s.loopEn g then { x with ofs := s.placeIn x } else { x with ofs := 0, zrun := 0 })) s1
  else if 0x1A ≤ g / 256 ∧ g / 256 < 0x20 then
    let u := 4 * (g / 256 - 0x1A) + (g % 256 - 0x50) / 32
    (if wentOn s0 s ⟨g, 0, 1⟩ then s1.unseed u else if wentOff s0 s ⟨g, 0, 1⟩ then s1.learnShow u else s1)
  else s1

def State.loopsAfter (s0 : State) (l : List (Nat × Nat)) (s : State) : State :=
  forEach (allLoops.filter (fun g => wrote l g || wrote l (g + 4) || wrote l (g + 8))) (fun g s => State.loopAfter s0 g s) s

/-! ## SYS, CLK and PWR (R72-R75, R103-R106) -/

/-- A kick of the watchdog by a host-side requester (R104). -/
def State.kick (s : State) (rq : Requester) (v : Nat) : State :=
  if !(reqHostSide rq) then s
  else if v % 65536 != s.fld F.SYS_SESSION_NUM then s.addSat F.SYS_WDOG_STAT_BAD_KICK 1
  else if v.testBit 16 then s.setFld F.SYS_WDOG_STAT_SUSPENDED 1
  else s.modSys (fun y => { y with wdog := 0 })

/-- A kick counts before an expiry that a new PERIOD brings in the same commit (R104). -/
def State.sysAfter (s0 : State) (rq : Requester) (l : List (Nat × Nat)) (s : State) : State :=
  let s1 := if wentOn s0 s F.SYS_WDOG_EN then s.modSys (fun y => { y with wdog := 0 }) else s
  let s2 := forEach (written l A.SYS_WDOG_KICK) (fun v s => s.kick rq v) s1
  let s3 := if wrote l A.SYS_WDOG && s2.wdogRuns && decide (s2.wdogTicks ≤ s2.sys.wdog) then s2.wdogExpire else s2
  let s4 := forEach (written l A.SYS_HREL) (fun v s => if v.testBit 8 && reqHostSide rq then s.hostPulse else s) s3
  forEach (written l A.SYS_SESSION) (fun _ s => if reqHostSide rq then s.sessionInc else s) s4

/-- A write of PWR_VHOST (R72-R74): VSEL waits for the next switch-on; a lockout ends when tenant 0 writes EN 1. -/
def State.vhostAfter (s0 : State) (rq : Requester) (s : State) : State :=
  let s1 := if s.sys.vhostOn then s.setFld F.PWR_VHOST_VSEL_PEND (s.fld F.PWR_VHOST_VSEL) else s
  if s.on F.PWR_VHOST_EN then
    let s2 := if s.asTenant0 rq then s1.modSys (fun y => { y with lockout := false, trips := if y.lockout then [] else y.trips }) else s1
    if !(s0.on F.PWR_VHOST_EN) || s0.sys.lockout then s2.vhostUp else s2
  else if s0.on F.PWR_VHOST_EN then s1.vhostDisable
  else s1

def State.railAfter (s0 : State) (n : Nat) (s : State) : State :=
  let s1 :=
    if wentOn s0 s (F.PWR_VSENS_EN n) then s.railEnable n
    else if wentOff s0 s (F.PWR_VSENS_EN n) then
      (s.railCut n).modSys (fun y => { y with railShed := y.railShed - (y.railShed &&& 2 ^ n) })
    else s
  if shifted s0 s (F.PWR_VSENS_PORTS n) then s1.checkPorts (List.range 8) else s1

def State.pwrAfter (s0 : State) (rq : Requester) (l : List (Nat × Nat)) (s : State) : State :=
  let s1 := forEach (written l A.PWR_THR) (fun v s =>
    (if wbits v F.PWR_THR_KEYW < min 230 (wbits v F.PWR_THR_VWARN) then s.setFld F.PWR_THR_STAT_KEYW_CLAMP 1 else s).supplyShow) s
  let s2 := if wrote l A.PWR_VHOST then State.vhostAfter s0 rq s1 else s1
  let s3 := forEach ((List.range 3).filter (fun n => wrote l (A.PWR_VSENS n))) (fun n s => State.railAfter s0 n s) s2
  if wrote l A.PWR_HARV then s3.harvShow else s3

/-! ## Reckoner (R274, R277) -/

def State.rckAfter (rq : Requester) (l : List (Nat × Nat)) (s : State) : State :=
  let s1 := if wrote l A.RCK_CTRL then { s with shadowBad := s.shadowBad.filter (fun a => a != A.RCK_CTRL) } else s
  let s2 := if wrote l A.RCK_CTRL || wrote l A.RCK_DISC_CFG || wrote l A.RCK_SLEWMAX then s1.slewSet else s1
  match (written l A.RCK_BCN_SEQ).getLast?, (written l A.RCK_BCN_MT_LO).getLast?, (written l A.RCK_BCN_MT_HI).getLast? with
  | some q, some lo, some hi =>
    s2.beacon (decide (rq = .steward 0)) (q % 65536) (lo % 2 ^ 32 + 2 ^ 32 * (hi % 2 ^ 32))
  | _, _, _ => s2

/-! ## Sensor ports and the AFE (R215, R222, R227-R230, R247) -/

def State.portsAfter (s0 : State) (l : List (Nat × Nat)) (s : State) : State :=
  let off := (List.range 8).filter (fun p => wentOff s0 s (F.PCTL_EN (portPage p)))
  let s1 := s.checkPorts (if wentOff s0 s (F.PCTL_EN 0x18) then List.range 8 else off)
  forEach (List.range 7) (fun p s =>
    forEach (written l (if p < 4 then A.TWC_FCLR p else A.SPC_FCLR (p - 4))) (fun v s =>
      s.modPrt p (fun x => { x with
        fences := fenceClr x.fences (v % 8) (if p < 4 then v / 256 % 128 else v / 256 % 2) (v.testBit 3) })) s) s1

/-- The channels whose GAIN, REF or ODR the commit writes; in CHOP the ODR of AFE_CH0 is that of both (R222, R228). -/
def State.afeTouched (s0 : State) (l : List (Nat × Nat)) (s : State) : List Nat :=
  if wrote l (A.AFE_CH 0) && s.afe.mode == 2 && shifted s0 s (F.AFE_CH_ODR 0) then [0, 1]
  else [0, 1].filter (fun c => wrote l (A.AFE_CH c))

def State.afeAfter (s0 : State) (l : List (Nat × Nat)) (s : State) : State :=
  let s1 :=
    if wentOff s0 s F.AFE_FAULT_EXC_OC then
      let t := s.modAfe (fun a => { a with excBlocked := false })
      if t.afe.mode = 0 then t else t.excSwitchOn
    else s
  let s2 := forEach (State.afeTouched s0 l s1) (fun c s =>
    if s0.converts c then s.modAch c (fun x => { x with restartWait := true }) else s.filterRestart c) s1
  let s3 := s2.modAfe (fun a => { a with
    mclkWait := a.mclkWait || shifted s0 s F.AFE_CFG_MCLK, modeWait := a.modeWait || shifted s0 s F.AFE_CFG_EXC_MODE })
  let turned := [0, 1].filter (fun c => s0.afeOn c != s.afeOn c)
  let s4 := forEach turned (fun c s =>
    if wentOff s0 s (F.PCTL_EN 0x17) && s.afeEn c then s.modAch c (fun x => { x with final := true }) else s.filterRestart c) s3
  let still := (!(s0.converts 0) && !(s0.converts 1)) || (!(s4.converts 0) && !(s4.converts 1))
  let s5 := if (s4.afe.mclkWait || s4.afe.modeWait) && still then s4.afeBoundary else s4
  let s6 := if turned.isEmpty then s5 else (s5.chopReverse).afeFloor
  let s7 := forEach (written l A.AFE_TS) (fun v s =>
    forEach [0, 1] (fun c s => if v.testBit (24 + c) && (s.converts c || !s.afe.excOn) then s.touchStart c else s) s) s6
  if l.any (fun w => w.1 / 256 == 0x17) then s7.afeShow else s7

/-! ## Sextant and Resampler (R287, R293, R303) -/

/-- An input of the Sextant receives: enabled, its descriptor enabled, its stream usable by the page owner. -/
def State.sxtFed (s : State) (en dsc : Fld) : Bool := s.on en && dEn (s.desc (s.fld dsc)).words && s.sxtInput (s.fld dsc)

/-- An input that received no longer does (R287). -/
def State.sxtDropped (s0 : State) (en dsc : Fld) (s : State) : Bool :=
  s0.sxtFed en dsc && s.on en && s0.fld dsc == s.fld dsc && !(s.sxtFed en dsc)

/-- The input is required by the mode (R288): gravity unless FUSED still has IDX, the gyro in GYRO. -/
def State.sxtInputs (s0 : State) (s : State) : State :=
  let g := State.sxtDropped s0 F.SXT_GIN_EN F.SXT_GIN_DSC s
  let y := State.sxtDropped s0 F.SXT_YIN_EN F.SXT_YIN_DSC s
  if g || y then
    let s1 := (s.setFld F.SXT_EVT_INPUT_DROP 1).raise 0x07 11
    if (g && s.sxtMode == 1) || (y && s.sxtMode == 2) then s1.sxtLose 5 else s1
  else s

def State.sxtAfter (s0 : State) (l : List (Nat × Nat)) (s : State) : State :=
  let s1 :=
    if wentOn s0 s (F.PCTL_EN 0x07) then
      State.risen s0 [0x07] (s.modSxt (fun x => { x with gofs := BitVec.ofNat 32 (s.fld F.SXT_GOFS_A), good := 0, bad := 0, nIdx := 0, nGrav := 0 }))
    else if wentOff s0 s (F.PCTL_EN 0x07) then s.sxtLose 7
    else s
  let s2 := if s1.gyroAlone then s1 else s1.modSxt (fun x => { x with relZero := false })
  let s3 := s2.modSxt (fun x => { x with
    cmpPast := (List.range 16).map (fun k => if wrote l (A.SXT_CMP k) then s2.outAngle else x.cmpPast.getD k 0) })
  if l.any (fun w => w.1 / 256 == 0x07) then s3.sxtShow else s1

/-- What a Resampler channel's targets and entries are counted by: LOGN, K and START. -/
def State.rsmScale (s : State) (c : Nat) : Nat × Nat × Nat := (s.logN c, s.rsmK c, s.fld (F.RSM_CH_START_A c))

/-- Channels that go off or on, and an enabled one whose targets change: its open entry closes, and its next target is the
first one after the change (R300, R303; DESIGN CHOICE, log entry 153). -/
def State.rsmAfter (s0 : State) (s : State) : State :=
  let s1 := forEach ((List.range 8).filter (fun c =>
    wentOff s0 s (F.RSM_CH_CFG_EN c) || (s.on (F.RSM_CH_CFG_EN c) && s0.rsmScale c != s.rsmScale c))) (fun c s =>
      (s.rsmClose c).modRchan c (fun x => { x with next := none })) s
  forEach ((List.range 8).filter (fun c => wentOn s0 s (F.RSM_CH_CFG_EN c))) (fun c s => s.rsmRestart c) s1

/-! ## Assay units (R321, R324, R333) -/

/-- The units that the commit writes. -/
def State.unitsOf (rq : Requester) (l : List (Nat × Nat)) (s : State) : List Nat :=
  allUnits.filter (fun u => l.any (fun w =>
    (decide (A.ASY_CFG u ≤ w.1) && decide (w.1 < A.ASY_CFG u + 12)) || (isPd w.1 && (s.pdAt rq w.1).1 == u)))

/-- The words of blocks 0-4. -/
def chainWords (x : Asy) : Map Word := x.params.filter (fun w => decide (w.1 < 40))

def State.unitAfter (s0 : State) (rq : Requester) (l : List (Nat × Nat)) (u : Nat) (s : State) : State :=
  let again := shifted s0 s (F.ASY_CFG_EN u) || s0.reg (A.ASY_IN u) != s.reg (A.ASY_IN u) || shifted s0 s (F.ASY_CFG_DECM1 u)
    || shifted s0 s (F.ASY_CFG_LW u) || shifted s0 s (F.ASY_CFG_HANN u) || chainWords (s0.unit u) != chainWords (s.unit u)
  let s1 := if again then s.asyRestart u else s
  let s2 := if wentOn s0 s (F.ASY_CFG_EN u) || s0.baseFeat u != s.baseFeat u then s1.unseed u
    else if wentOff s0 s (F.ASY_CFG_EN u) then s1.learnShow u
    else s1
  if l.any (fun w => isPd w.1 && s.pdAt rq w.1 == (u, 48)) then
    (s2.modUnit u (fun x => { x with win := [], win2 := [] })).setFld (F.ASY_STAT_COUNT u) 0
  else s2

def State.asyAfter (s0 : State) (rq : Requester) (l : List (Nat × Nat)) (s : State) : State :=
  forEach (State.unitsOf rq l s) (fun u s => State.unitAfter s0 rq l u s) s

/-! ## Descriptors (R238, R242, R260) -/

def State.dscAfter (s0 : State) (rq : Requester) (l : List (Nat × Nat)) (s : State) : State :=
  if l.any (fun w => isDsc w.1) then
    let d := s.selOf A.DSC_IDX rq % 256
    let old := (s0.desc d).words
    let ws := (s.desc d).words
    let fresh := !(dEn old) && dEn ws
    let again := fresh || dTrig old != dTrig ws || (decide (dTrig ws < 2) && (dWord old 3 != dWord ws 3 || dWord old 4 != dWord ws 4))
    let s1 := s.modDesc d (fun x =>
      if fresh then { x with seq := 0, skips := 0, ofs := 0, zrun := 0, lockSeen := false }
      else { x with ofs := min x.ofs (placeRoom ws) })
    if dEn ws then (if again then s1.arm d fresh else s1)
    else
      let s2 := (s1.withdraw d gcSEQ (some 6)).modDesc d (fun x => { x with armed := false })
      { s2 with chainDue := s2.chainDue.filter (fun c => c != d) }
  else s

/-! ## Streams: a grant given back, or a selection let go (R251) -/

/-- The consumers of the stream of a source code. -/
def State.consumersOf (s : State) (src : Nat) : List (Nat × Bool) :=
  if src < 0x1000 then s.descConsumers src
  else if src < 0x2000 then s.unitConsumers (src - 0x1000)
  else if src < 0x3000 then s.rsmConsumers (src - 0x2000)
  else if src < 0x4000 then s.edgeConsumers (src - 0x3000)
  else []

/-- Ends the wait of the REVOKED records whose grant is back or whose consumer selects the stream no longer. -/
def State.regrant (s : State) : State :=
  forEach s.pendg (fun x s =>
    let q := x.1 / 16
    match prodOf (x.1 % 16) with
    | none => s
    | some p => forEach (x.2.filter (fun r => r.held && (match r.own with | some o => o.detail == 128 | none => false))) (fun r s =>
        if (s.consumersOf r.src).contains (q, false) then s else s.unrevoke q p r.src) s) s

/-! ## The Rose (R346-R351) -/

def State.roseAfter (s0 : State) (l : List (Nat × Nat)) (s : State) : State :=
  let s1 := forEach [0, 1] (fun n s =>
    forEach (written l (A.ROS_IFLG n)) (fun v s =>
      forEach (List.range 32) (fun i s => if v.testBit i then s.setFld (F.ROS_IGN_CNT (32 * n + i)) 0 else s) s) s) s
  let s2 := forEach [0, 1] (fun n s =>
    forEach (written l (A.ROS_FIRE n)) (fun v s =>
      forEach (List.range 32) (fun i s => if v.testBit i then s.fire (32 * n + i) else s) s) s) s1
  let s3 := forEach [0, 1] (fun f s => if wentOn s0 s (F.ROS_FLR_REL f) then s.flareReleased f else s) s2
  forEach (written l A.ROS_FCLR) (fun v s =>
    forEach [0, 1] (fun f s => if v.testBit f then s.flareWritten f else s) s) s3

/-! ## Queues and quotas (R170, R186, R192) -/

/-- A command whose payload was flushed is gone with it. -/
def State.flushCommand (s : State) : State :=
  let s1 := (s.setQueue qCmd []).setPend qCmd .host []
  match s1.env with
  | none => s1
  | some e =>
    let n := (e.header.getD 2 0).toNat / 16 % 8
    { s1.setFld (F.TN_CSTAT_STATE n) 0 with env := none }

def State.queFlush (s : State) (v : Nat) : State :=
  if v / 2 ^ 24 % 256 != 0xF1 then s
  else
    let q := v % 128
    if v.testBit 7 then forEach (List.range 4) (fun l s => s.flushLane (q / 4) l gcFLUSH) s
    else if q < 0x20 then s.flushLane (q / 4) (q % 4) gcFLUSH
    else if q = qCmd then s.flushCommand
    else s.flushQueue q gcFLUSH

def State.queAfter (s0 : State) (l : List (Nat × Nat)) (s : State) : State :=
  let s1 := forEach (written l A.QUE_FLUSH) (fun v s => s.queFlush v) s
  let s2 := forEach (List.range 8) (fun t s =>
    if s.fld (F.QUE_TQ_MIN t) < s0.fld (F.QUE_TQ_MIN t) then
      s.setFld (F.QUE_TUSE_LOANED t) (max (s.fld (F.QUE_TUSE_LOANED t)) (s.fld (F.QUE_TUSE_USED t) - 16 * s.fld (F.QUE_TQ_MIN t)))
    else s) s1
  if l.any (fun w => (decide (0x2060 ≤ w.1) && decide (w.1 < 0x2080)) || w.1 == A.QUE_PLC_CFG) then s2.poolMark else s2

/-- A lane L1-L3 whose SIZE the commit leaves at or below the payload of its open bundle: a close condition stands (R367). -/
def State.bndAfter (l : List (Nat × Nat)) (s : State) : State :=
  forEach ((List.range 32).filter (fun k => wrote l (A.BND_LCFG k) && decide (k % 4 ≠ 0) && !((s.lane k).closeReq)
    && decide (s.laneSize k ≤ (s.lane k).len))) (fun k s => s.askClose k) s

/-! ## Tamper (R456-R459) -/

/-- The audience of a TAMPER_CLEAR entry: that of the class's last TAMPER entry (R463). -/
def State.clearAud (s : State) (cls : Nat) : Nat := mapGet (fun _ => 0) s.tam.auds cls

/-- The level in force after a commit (R458): the engine's stop begins or ends. -/
def State.tamRespond (s : State) : State :=
  let stop := decide (2 ≤ s.levelInForce) || s.on F.TAM_LATCH_ZEROIZED
  let s1 := s.putOn F.TAM_LATCH_SEALSTOP stop
  if stop then s1 else s1.setFld F.BND_HSTAT_STOPPED 0

/-- TAM_CLR (R459). -/
def State.tamClear (s : State) (v : Nat) : State :=
  forEach (List.range 7) (fun i s =>
    if v.testBit i && s.bit F.TAM_LATCH_LATCHED i && !(s.bit F.TAM_LATCH_COND i) then
      (s.clrBit F.TAM_LATCH_LATCHED i).logEntry 6 (i + 1) (s.clearAud (i + 1)) (s.respOf (i + 1)) (s.fld (F.TAM_CNT_CNT i))
    else s) s

def State.tamAfter (l : List (Nat × Nat)) (s : State) : State :=
  let s1 := forEach (written l A.TAM_CLR) (fun v s => s.tamClear v) s
  if wrote l A.TAM_CLR || wrote l A.TAM_RESP then s1.tamRespond else s1

/-! ## Test page (R477) -/

/-- A test begins: its result is not done. -/
def State.tstAfter (l : List (Nat × Nat)) (s : State) : State :=
  if wrote l A.TST_MODE && s.on F.TST_MODE_MODE then s.setReg A.TST_RES 0 else s

/-! ## TN pages and locks (R154, R437, R439) -/

/-- An assembly is discarded with an error code. -/
def State.asmDrop (s : State) (n err : Nat) : State :=
  (((s.setAsm n asm0).setFld (F.TN_CSTAT_STATE n) 0).setFld (F.TN_CSTAT_COUNT n) 0).setFld (F.TN_CSTAT_ERR n) err

/-- Bytes of one commit to TNn_CMD (R437). -/
def State.asmFeed (s : State) (n : Nat) (bytes : List Byte) : State :=
  let x := s.asmOf n
  if bytes.isEmpty then s
  else if x.complete then s.setFld (F.TN_CSTAT_ERR n) 4
  else
    let s1 := if x.bytes.isEmpty then s.setFld (F.TN_CSTAT_ERR n) 0 else s
    let all := x.bytes ++ bytes
    let need := 32 + fieldLE all 4 2
    if 16 ≤ all.length && all.headD 0 != 0xC5 then s1.asmDrop n 1
    else if 16 ≤ all.length && (all.getD 2 0).toNat / 16 != n then s1.asmDrop n 2
    else if 16 ≤ all.length && decide (4096 < need) then s1.asmDrop n 3
    else if 16 ≤ all.length && decide (need ≤ all.length) then
      let s2 := ((s1.setAsm n ⟨all.take need, true, s1.stw.order⟩).setFld (F.TN_CSTAT_STATE n) 2).setFld (F.TN_CSTAT_COUNT n) need
      { s2 with stw := { s2.stw with order := s2.stw.order + 1 } }
    else ((s1.setAsm n { x with bytes := all }).setFld (F.TN_CSTAT_STATE n) 1).setFld (F.TN_CSTAT_COUNT n) all.length

def State.tnAfter (rq : Requester) (l : List (Nat × Nat)) (s : State) : State :=
  let s1 := forEach (List.range 8) (fun n s =>
    let s2 := s.asmFeed n ((written l (A.TN_CMD n)).flatMap (fun v => bytesLE 4 v))
    if (written l (A.TN_CCTL n)).any (fun v => v % 2 == 1) then s2.asmDrop n (s2.fld (F.TN_CSTAT_ERR n)) else s2) s
  forEach l (fun w s => match lockNo w.1 with
    | none => s
    | some k => if w.2 % 2 = 1 then (s.release rq k).getD s else s) s1

/-! ## The end of a commit -/

/-- Rising page interrupt lines under a new PIRQ_EN (R134). -/
def State.linesAfter (s0 : State) (l : List (Nat × Nat)) (s : State) : State :=
  forEach (l.filter (fun w => w.1 % 256 == 0x14)) (fun w s =>
    if !(s0.pageLine (w.1 / 256)) && s.pageLine (w.1 / 256) then s.routeLine (w.1 / 256) else s) s

/-- The governor answers a change of what it works from (R62, R85, R485-R487). -/
def State.gearAfter (l : List (Nat × Nat)) (s : State) : State :=
  let hit := l.any (fun w =>
    let p := w.1 / 256
    p == 0x02 || p == 0x04 || w.1 == A.HTW_CFG || w.1 == A.SYS_STOW || (decide (0x1A ≤ p) && decide (p < 0x20)))
  if hit && s.awake then s.regear else s

/-- BLOCK resets by PCTL.SRST (R133). -/
def State.srstAfter (l : List (Nat × Nat)) (s : State) : State :=
  forEach (l.filter (fun w => w.1 % 256 == 0x08 && w.2.testBit 1)) (fun w s =>
    match pageDef (w.1 / 256) with
    | some d => if d.srst then s.blockReset (w.1 / 256) else s
    | none => s) s

/-- The reset requests of a commit (R94, R123, R133): only the widest scope is performed (R97). -/
def State.resetsAfter (rq : Requester) (l : List (Nat × Nat)) (s : State) : State :=
  let vs := written l A.SYS_RST_CMD
  let tens := vs.filter (fun v => v % 4 == 2)
  if vs.any (fun v => v % 4 == 3) then s.cmdReset
  else if vs.any (fun v => v % 4 == 1) then s.dpReset (reqCode rq)
  else if tens.isEmpty then State.srstAfter l s
  else forEach tens (fun v s => s.tenReset (v / 16 % 8) (reqCode rq)) s

/-- Everything that the permitted writes of a commit do beyond their values. -/
def State.effects (s0 : State) (rq : Requester) (l : List (Nat × Nat)) (s : State) : State :=
  let s1 := State.pwrAfter s0 rq l (State.loopsAfter s0 l s)
  let s2 := State.portsAfter s0 l (State.rckAfter rq l s1)
  let s3 := State.sxtAfter s0 l (State.afeAfter s0 l s2)
  let s4 := State.asyAfter s0 rq l (State.rsmAfter s0 s3)
  let s5 := State.roseAfter s0 l (State.dscAfter s0 rq l s4)
  let s6 := State.tstAfter l (State.tamAfter l (State.bndAfter l (State.queAfter s0 l s5)))
  let s7 := State.linesAfter s0 l (State.tnAfter rq l s6)
  let s8 := State.sxtInputs s0 s7.roseDetach.regrant
  State.resetsAfter rq l (State.sysAfter s0 rq l (State.gearAfter l s8))

end Sys2Proof.Machine
end

