-- ==== Sys2Proof/Machine/Commit.lean ====
section
/-! DEFINITION. The commit of a set of register writes (R128, R145, R146): each is checked alone, the denied ones are
left out, and the others take effect together; and the commands of the table that are register writes. -/

namespace Sys2Proof.Machine

/-- What a commit did: the state after it, the registers written, the denials in order (address, cause). -/
structure Done where
  state : State
  regs : Nat
  denied : List (Nat × Nat)
  deriving DecidableEq, Repr

/-- A write to TNn_XDAT as the write it makes at the register that TNn_XADR names after the commit (R435). -/
def State.expand (s : State) (rq : Requester) (l : List Wr) (w : Wr) : Wr :=
  if isTn w.addr && w.addr % 256 == 0x68 && (reaches rq w.via (w.addr / 256) || rq == .internal) then
    let p := w.addr / 256
    let named := l.filter (fun x => x.addr == 256 * p + 0x64 && (s.permit rq x).act.isSome)
    let a := match named.getLast? with | some x => x.val % 65536 | none => s.fld (F.TN_XADR_ADR (p - 0x30))
    ⟨a / 4 * 4, w.val, w.part, true⟩
  else w

/-- Selections that the commit writes govern its window registers (R236, R336). -/
def State.selFirst (s : State) (rq : Requester) (l : List Wr) : State :=
  forEach l (fun w s => if isSel w.addr then (match (s.permit rq w).act with | some v => s.storeReg rq w.addr v | none => s) else s) s

/-- The verdicts: what acts, and the denials in the order of the writes. -/
def State.judge (s : State) (rq : Requester) (l : List Wr) : List (Nat × Nat) × List (Nat × Nat) :=
  l.foldl (fun r w =>
    let v := s.permit rq w
    (match v.act with | some x => r.1 ++ [(w.addr, x)] | none => r.1,
     match v.deny with | some c => r.2 ++ [(w.addr, c)] | none => r.2)) ([], [])

/-- The checks of single registers, each on the values that the writes before it leave. -/
def State.checkEach (s : State) (rq : Requester) : List (Nat × Nat) → State → List (Nat × Nat) × List (Nat × Nat)
  | [], _ => ([], [])
  | w :: t, now =>
    if now.badWrite rq w.1 w.2 then
      let r := State.checkEach s rq t now
      (r.1, w :: r.2)
    else
      let r := State.checkEach s rq t (now.storeReg rq w.1 w.2)
      (w :: r.1, r.2)

/-- The checks over the commit: a group that fails takes its writes out, until every group that is left passes. -/
def State.checkGroups (s : State) (rq : Requester) : Nat → List (Nat × Nat) → List (Nat × Nat) → List (Nat × Nat) × List (Nat × Nat)
  | 0, acc, bad => (acc, bad)
  | n + 1, acc, bad =>
    let after := s.storeAll rq acc
    let fails := fun (w : Nat × Nat) => (s.groupsOf rq w.1).any (fun g => !(State.groupGood s rq acc after g))
    let out := acc.filter fails
    if out.isEmpty then (acc, bad) else State.checkGroups s rq n (acc.filter (fun w => !(fails w))) (bad ++ out)

/-- The registers whose change can take a tap of a Rose channel away (R343). -/
def cutsRoutes (a : Nat) : Bool :=
  let p := a / 256
  let o := a % 256
  o == 0x20 || (p == 0x06 && decide (0x40 ≤ o)) || (decide (0x1A ≤ p) && decide (p < 0x20) && decide (0x40 ≤ o))
    || (p == 0x18 && decide (0x44 ≤ o) && decide (o < 0x4C)) || (p == 0x0C && decide (0x44 ≤ o) && decide (o < 0x74))

/-- A write that would cut a locked channel (R343). -/
def State.cuts (s : State) (rq : Requester) (w : Nat × Nat) : Bool := cutsRoutes w.1 && s.cutsLocked (s.storeReg rq w.1 w.2)

/-- Puts denials in the order of descending addresses, so that the lowest is recorded last (R200). -/
def insertDown (w : Nat × Nat) : List (Nat × Nat) → List (Nat × Nat)
  | [] => [w]
  | x :: t => if x.1 ≤ w.1 then w :: x :: t else x :: insertDown w t

def sortDown (l : List (Nat × Nat)) : List (Nat × Nat) := l.foldr insertDown []

/-- Records denials; a HOLD response that one of them raises ends the hub's run, and the commit with it (R147, R460). -/
def denyAll (rq : Requester) : List (Nat × Nat) → State → State
  | [], s => s
  | w :: t, s =>
    let s1 := s.deny rq w.1 w.2 true
    if s1.sys.phase = s.sys.phase then denyAll rq t s1 else s1

/-- The page interrupt bits that the denials of a commit set stand against its W1C writes of 1 (R5, R146): bit 0 of each page
with a denial, and what rose on the TAM page. DEDUCED (log entry 144): the denial and the write count as one cycle. -/
def State.keepRaised (s1 s2 : State) (rq : Requester) (denied : List (Nat × Nat)) (s : State) : State :=
  if rq = .internal ∨ denied.isEmpty then s
  else
    let s3 := forEach denied (fun w s => s.setBit (F.PIRQ (w.1 / 256)) 0) s
    let a := 256 * 0x23 + 0x18
    s3.setReg a (s3.reg a ||| (s2.reg a &&& ~~~ (s1.reg a)))

/-- What acts and what is denied of the writes of a commit, on the state `s` with its selections made. -/
def State.decideWrites (s : State) (rq : Requester) (l : List Wr) : List (Nat × Nat) × List (Nat × Nat) :=
  let j := s.judge rq l
  if rq = .internal then j
  else
    let c := s.checkEach rq j.1 s
    let g := s.checkGroups rq c.1.length c.1 []
    let cut := g.1.filter (s.cuts rq)
    (g.1.filter (fun w => !(s.cuts rq w)),
     j.2 ++ sortDown ((c.2 ++ g.2).map (fun w => (w.1, dcCHECK))) ++ cut.map (fun w => (w.1, dcLOCK)))

/-- A commit (R128). -/
def State.commit (s : State) (rq : Requester) (writes : List Wr) : Done :=
  let l := writes.map (s.expand rq writes)
  let s1 := s.selFirst rq l
  let d := s1.decideWrites rq l
  let s2 := denyAll rq d.2 s1
  if s2.sys.phase = s1.sys.phase then
    ⟨State.effects s2 rq d.1 (State.keepRaised s1 s2 rq d.2 (s2.storeAll rq d.1)), d.1.length, d.2⟩
  else ⟨s2, 0, d.2⟩

/-- A commit of whole registers by a command of the table: any requester whose accesses reach the registers may make it. -/
def State.write (s : State) (rq : Requester) (l : List (Nat × Nat)) : State :=
  s.when (s.reachable rq) fun s => (s.commit rq (l.map (fun w => ⟨w.1, w.2, false, false⟩))).state

/-- A TN window of the requester: the register it uses for one that has a copy there. -/
def tnOr (rq : Requester) (o a : Nat) : Nat := match rq with | .window n => 0x3000 + 256 * n + o | _ => a

/-- A write that a tenant window makes through TNn_XADR and TNn_XDAT; any other requester writes the register (R435). -/
def State.writeVia (s : State) (rq : Requester) (l : List (Nat × Nat)) : State :=
  s.when (s.reachable rq) fun s =>
    let via := match rq with | .window _ => true | _ => false
    (s.commit rq (l.map (fun w => ⟨w.1, w.2, false, via⟩))).state

/-! ## Commands that are register writes -/

/-- REGISTER_WRITE (R128): a commit of the writes named. -/
def execRegisterWrite (rq : Requester) (ws : List (Nat × Word)) (s : State) : Host.Outcome State Fault Refusal :=
  .next (s.write rq (ws.map (fun w => (w.1 / 4 * 4, w.2.toNat))))

/-- The RW value of a register with one field changed: the write that a driver makes of it. -/
def State.withField (s : State) (f : Fld) (v : Nat) : Nat × Nat := (f.addr, wput (s.reg f.addr).toNat f v)

/-- VHOST_OFF (R73): PWR_VHOST.EN is written 0. -/
def execVhostOff (rq : Requester) (s : State) : Host.Outcome State Fault Refusal :=
  .next (s.writeVia rq [s.withField F.PWR_VHOST_EN 0])

/-- VHOST_ON (R73): PWR_VHOST.EN is written 1. -/
def execVhostOn (rq : Requester) (s : State) : Host.Outcome State Fault Refusal :=
  .next (s.writeVia rq [s.withField F.PWR_VHOST_EN 1])

/-- VSENS_SWITCH_ON (R75): PWR_VSENSn.EN is written 1. -/
def execVsensSwitchOn (rq : Requester) (n : Nat) (s : State) : Host.Outcome State Fault Refusal :=
  .next (s.when (decide (n < 3)) fun s => s.writeVia rq [s.withField (F.PWR_VSENS_EN n) 1])

/-- RST_CMD_DATAPATH (R94, R123): SYS_RST_CMD with SCOPE DATAPATH. -/
def execRstCmdDatapath (rq : Requester) (confirm : Nat) (s : State) : Host.Outcome State Fault Refusal :=
  .next (s.writeVia rq [(A.SYS_RST_CMD, 1 + 65536 * (confirm % 65536))])

/-- RST_CMD_TENANT (R94, R123): SYS_RST_CMD with SCOPE TENANT. -/
def execRstCmdTenant (rq : Requester) (t confirm : Nat) (s : State) : Host.Outcome State Fault Refusal :=
  .next (s.writeVia rq [(A.SYS_RST_CMD, 2 + 16 * (t % 8) + 65536 * (confirm % 65536))])

/-- RST_CMD_FULL (R94, R123): SYS_RST_CMD with SCOPE FULL. -/
def execRstCmdFull (rq : Requester) (confirm : Nat) (s : State) : Host.Outcome State Fault Refusal :=
  .next (s.writeVia rq [(A.SYS_RST_CMD, 3 + 65536 * (confirm % 65536))])

/-- PCTL_SRST (R133): PCTL.SRST of a page is written 1. -/
def execPctlSrst (rq : Requester) (page : Nat) (s : State) : Host.Outcome State Fault Refusal :=
  .next (s.writeVia rq [(256 * page + 0x08, s.fld (F.PCTL_EN page) + 2)])

/-- PCTL_EN_WRITE (R132). -/
def execPctlEnWrite (rq : Requester) (page : Nat) (en : Bool) (s : State) : Host.Outcome State Fault Refusal :=
  .next (s.writeVia rq [(256 * page + 0x08, if en then 1 else 0)])

/-- WDOG_KICK (R104). -/
def execWdogKick (rq : Requester) (ses : Nat) (s : State) : Host.Outcome State Fault Refusal :=
  .next (s.writeVia rq [(A.SYS_WDOG_KICK, ses % 65536)])

/-- WDOG_SLEEP (R104): a kick with SLEEP. -/
def execWdogSleep (rq : Requester) (ses : Nat) (s : State) : Host.Outcome State Fault Refusal :=
  .next (s.writeVia rq [(A.SYS_WDOG_KICK, ses % 65536 + 65536)])

/-- PULSE_NOW (R105): SYS_HREL.PULSE_NOW is written 1. -/
def execPulseNow (rq : Requester) (s : State) : Host.Outcome State Fault Refusal :=
  .next (s.writeVia rq [s.withField F.SYS_HREL_PULSE_NOW 1])

/-- SESSION_BUMP (R106). -/
def execSessionBump (rq : Requester) (s : State) : Host.Outcome State Fault Refusal :=
  .next (s.writeVia rq [(A.SYS_SESSION, 2 ^ 31)])

/-- LOCK_RELEASE (R154): a write of 1 to LCK_Lk.RELEASE, on its own TN page for a tenant window. -/
def execLockRelease (rq : Requester) (k : Nat) (s : State) : Host.Outcome State Fault Refusal :=
  .next (s.when (decide (k < 16)) fun s => s.write rq [(tnOr rq (0x80 + 4 * k) (A.LCK_L k), 1)])

/-- QUE_FLUSH (R186). -/
def execQueFlush (rq : Requester) (target confirm : Nat) (s : State) : Host.Outcome State Fault Refusal :=
  .next (s.writeVia rq [(A.QUE_FLUSH, target % 128 + 2 ^ 24 * (confirm % 256))])

/-- QUE_FLUSH_ALL_LANES (R186). -/
def execQueFlushAllLanes (rq : Requester) (target confirm : Nat) (s : State) : Host.Outcome State Fault Refusal :=
  .next (s.writeVia rq [(A.QUE_FLUSH, target % 128 + 128 + 2 ^ 24 * (confirm % 256))])

/-- FENCE_CLEAR (R215): a write to FCLR of port `p`, 0-3 TWC, 4-6 SPC. -/
def execFenceClear (rq : Requester) (p : Nat) (w : Word) (s : State) : Host.Outcome State Fault Refusal :=
  .next (s.when (decide (p < 7)) fun s => s.writeVia rq [(if p < 4 then A.TWC_FCLR p else A.SPC_FCLR (p - 4), w.toNat)])

/-- TOUCHSTONE_NOW (R230): a write to AFE_TS. -/
def execTouchstoneNow (rq : Requester) (w : Word) (s : State) : Host.Outcome State Fault Refusal :=
  .next (s.writeVia rq [(A.AFE_TS, w.toNat)])

/-- DESCRIPTOR_COMMIT (R236, R237): the requester's DSC_IDX and the words that `mask` names, in one commit. -/
def execDescriptorCommit (rq : Requester) (idx mask : Nat) (words : List Word) (s : State) : Host.Outcome State Fault Refusal :=
  .next (s.writeVia rq ((A.DSC_IDX, idx % 256) ::
    ((List.range 8).filter (fun i => mask.testBit i)).map (fun i => (A.DSC_W i, (words.getD i 0).toNat))))

/-- BEACON_SUBMIT (R274). -/
def execBeaconSubmit (rq : Requester) (seq lo hi : Word) (s : State) : Host.Outcome State Fault Refusal :=
  .next (s.writeVia rq [(A.RCK_BCN_SEQ, seq.toNat), (A.RCK_BCN_MT_LO, lo.toNat), (A.RCK_BCN_MT_HI, hi.toNat)])

/-- ROSE_FIRE (R351). -/
def execRoseFire (rq : Requester) (hi : Bool) (w : Word) (s : State) : Host.Outcome State Fault Refusal :=
  .next (s.writeVia rq [(A.ROS_FIRE (if hi then 1 else 0), w.toNat)])

/-- FLARE_CLEAR (R349): a write to ROS_FCLR. -/
def execFlareClear (rq : Requester) (w : Word) (s : State) : Host.Outcome State Fault Refusal :=
  .next (s.writeVia rq [(A.ROS_FCLR, w.toNat)])

/-- FLARE_RELEASE (R348): ROS_FLRn.REL is written 1. -/
def execFlareRelease (rq : Requester) (f : Nat) (s : State) : Host.Outcome State Fault Refusal :=
  .next (s.when (decide (f < 2)) fun s => s.writeVia rq [s.withField (F.ROS_FLR_REL f) 1])

/-- IFLG_CLEAR (R346): a W1C write to ROS_IFLG. -/
def execIflgClear (rq : Requester) (hi : Bool) (w : Word) (s : State) : Host.Outcome State Fault Refusal :=
  .next (s.writeVia rq [(A.ROS_IFLG (if hi then 1 else 0), w.toNat)])

/-- TAMPER_CLEAR (R459): a write to TAM_CLR. -/
def execTamperClear (rq : Requester) (w : Word) (s : State) : Host.Outcome State Fault Refusal :=
  .next (s.writeVia rq [(A.TAM_CLR, w.toNat)])

/-- TST_NV_MARGIN_READ (R477): TST_MODE is written 1. -/
def execTstNvMarginRead (rq : Requester) (s : State) : Host.Outcome State Fault Refusal :=
  .next (s.writeVia rq [(A.TST_MODE, 1)])

/-- TST_MEMORY_SELF_TEST (R477): TST_MODE is written 2. -/
def execTstMemorySelfTest (rq : Requester) (s : State) : Host.Outcome State Fault Refusal :=
  .next (s.writeVia rq [(A.TST_MODE, 2)])

/-- CMD_ASSEMBLY_WRITE (R437): whole words of command bytes to TNn_CMD, in one commit. -/
def execCmdAssemblyWrite (rq : Requester) (n : Nat) (bytes : List Byte) (s : State) : Host.Outcome State Fault Refusal :=
  .next (s.when (decide (n < 8) && s.reachable rq) fun s =>
    let words := (List.range ((bytes.length + 3) / 4)).map (fun i => sliceB bytes (4 * i) 4)
    (s.commit rq (words.map (fun b => ⟨A.TN_CMD n, numLE b, decide (b.length < 4), false⟩))).state)

/-- CMD_ASSEMBLY_CLEAR (R439): TNn_CCTL.CLEAR is written 1. -/
def execCmdAssemblyClear (rq : Requester) (n : Nat) (s : State) : Host.Outcome State Fault Refusal :=
  .next (s.when (decide (n < 8)) fun s => s.write rq [(A.TN_CCTL n, 1)])

end Sys2Proof.Machine
end

