-- ==== Sys2Proof/Machine/Tamper.lean ====
section
/-! DEFINITION. The tamper monitor's events (R447-R454), the writing and scanning of the Logbook (R464-R471), and the end
of a test of the TST page (R477). -/

namespace Sys2Proof.Machine

def State.modTam (s : State) (f : Tam → Tam) : State := { s with tam := f s.tam }

/-! ## Shadow copies (R447) -/

/-- The shadowed bits of the register at `a`. -/
def shadowMask (a : Nat) : Nat :=
  if a % 256 = 0x20 ∧ (pageDef (a / 256)).isSome then 0x137
  else if a = A.DSC_W 0 then 0xFC00
  else match regRow a with | none => 0 | some r => r.sh

/-- The mismatch of a descriptor's security attributes (R237, 10 Falling together): `d` names it. -/
def State.dscShadow (s : State) (d : Nat) : State :=
  let o := dOwner (s.desc d).words
  ({ s with shadowBad := if s.shadowBad.contains (badDesc d) then s.shadowBad else badDesc d :: s.shadowBad }).shadow (A.DSC_W 0) (2 ^ o)

def State.markBad (s : State) (a : Nat) : State :=
  if s.shadowBad.contains a then s else { s with shadowBad := a :: s.shadowBad }

/-- A mismatch in a shadowed word of unit `u` (R328); `attr` in OWNER, WP, HP or LOCK. -/
def State.unitShadow (s : State) (u a : Nat) (attr : Bool) : State :=
  let s1 := if attr then s.markBad (A.ASY_CFG u) else s
  let s2 := if s1.on (F.ASY_CFG_CRITICAL u) then s1.asyForce u else s1
  s2.shadow a (2 ^ s.asyOwner u)

/-- The owner of what a shadowed register concerns, as an audience. -/
def State.shadowAud (s : State) (a : Nat) : Nat :=
  let p := a / 256
  let o := a % 256
  if p = 0x06 ∧ 0x40 ≤ o then 2 ^ s.chanOwner ((o - 0x40) / 12)
  else if p = 0x08 ∧ 0x40 ≤ o then 2 ^ s.rsmOwner ((o - 0x40) / 16)
  else if (p = 0x0A ∨ p = 0x0B) ∧ 0x40 ≤ o then 2 ^ s.fld (F.ROS_CH_OWNER (32 * (p - 0x0A) + (o - 0x40) / 4))
  else 2 ^ s.pageTenant p

/-- SHADOW_MISMATCH (R447, R144, R328, R354): the pair of a shadowed field disagrees. `idx` is the bit of the register,
the descriptor for DSC_W0, and 128 · slot + word for the words of an Assay page's units at its ASY_PD0. The value in
force is kept. -/
def execShadowMismatch (addr idx : Nat) (s : State) : Host.Outcome State Fault Refusal :=
  .next (s.when s.cclk fun s =>
    let p := addr / 256
    let o := addr % 256
    if addr = A.DSC_W 0 then (if idx < 256 then s.dscShadow idx else s)
    else if 0x1A ≤ p ∧ p < 0x20 ∧ o = 0xC4 then
      (if idx < 512 ∧ 40 ≤ idx % 128 ∧ idx % 128 < 50 then s.unitShadow (4 * (p - 0x1A) + idx / 128) addr false else s)
    else if !((shadowMask addr).testBit idx) then s
    else if o = 0x20 then
      let t := s.pageTenant p
      ({ s with pownBad := if s.pownBad.contains p then s.pownBad else p :: s.pownBad }).shadow addr (2 ^ t)
    else if 0x1A ≤ p ∧ p < 0x20 then s.unitShadow (4 * (p - 0x1A) + (o - 0x40) / 32) addr (decide (16 ≤ idx))
    else
      let aud := s.shadowAud addr
      let s1 := if p = 0x06 ∨ p = 0x08 ∨ p = 0x0A ∨ p = 0x0B ∨ addr = A.PLN_URG ∨ addr = A.RCK_CTRL then s.markBad addr else s
      let s2 := s1.shadow addr aud
      if addr = A.PLN_URG ∧ s2.awake then s2.regear else s2)

/-! ## Temperature (R450-R452): tenths of a degree; limits are coded as degrees + 64 -/

def tenths (c : Nat) : Int := 10 * ((c : Int) - 64)

/-- A warning bit with 2 degrees of hysteresis (R452). -/
def State.warn (s : State) (f : Fld) (sub : Nat) (out back : Bool) (tj : Int) : State :=
  if out && !(s.on f) then ((s.setFld f 1).logEntry 8 sub 0 0 (code 16 tj)).raise 0x23 9
  else if back && s.on f then s.setFld f 0
  else s

/-- TEMP_SAMPLE (R450, R452). -/
def execTempSample (tj : Int) (s : State) : Host.Outcome State Fault Refusal :=
  .next (s.when s.cclk fun s =>
    let s1 := ((s.modSys (fun y => { y with temp := tj })).setFld F.TAM_TEMP_TJ (code 16 tj)).modTam (fun t =>
      { t with t0 := t.t1, t1 := tj, nSamples := min 2 (t.nSamples + 1) })
    let wl := tenths (s1.fld F.TAM_TWARN_WLO)
    let wh := tenths (s1.fld F.TAM_TWARN_WHI)
    let s2 := s1.warn F.TAM_TEMP_WLO 1 (decide (tj < wl)) (decide (wl + 20 ≤ tj)) tj
    let s3 := s2.warn F.TAM_TEMP_WHI 2 (decide (wh < tj)) (decide (tj ≤ wh - 20)) tj
    let lo := tenths (s3.fld F.TAM_TLIM_LO)
    let hi := tenths (s3.fld F.TAM_TLIM_HI)
    let trip := decide (s3.tam.nSamples = 2) && ((decide (s3.tam.t0 < lo) && decide (tj < lo)) || (decide (hi < s3.tam.t0) && decide (hi < tj)))
    if s3.bit F.TAM_LATCH_COND (tcTHERMAL - 1) then
      (if lo + 50 ≤ tj ∧ tj ≤ hi - 50 then s3.condEnd tcTHERMAL else s3)
    else if trip then s3.modTam (fun t => { t with thermal1 := true })
    else s3)

/-- THERMAL_SECOND_DECISION (R449, R450): `d` cycles after the first. -/
def execThermalSecondDecision (agree : Bool) (s : State) : Host.Outcome State Fault Refusal :=
  .next (s.when (s.cclk && s.tam.thermal1) fun s =>
    let s1 := occur tcTHERMAL 15 0 0 0 (s.modTam (fun t => { t with thermal1 := false }))
    if agree ∨ s1.sys.phase ≠ s.sys.phase then s1 else occur tcDOUBLE 15 0 0 0 s1)

/-- THERMAL_COMPARATOR (R451): the always-on comparator acts in Stow and In reset. -/
def execThermalComparator (beyond : Bool) (s : State) : Host.Outcome State Fault Refusal :=
  .next (s.when (decide (s.sys.phase = .stow) || decide (s.sys.phase = .inReset)) fun s =>
    let s1 := s.modTam (fun t => { t with cross := beyond })
    if s.sys.phase = .stow then (if beyond then s1.wakeCause 16 else s1) else s1.leaveReset)

/-! ## Supply detectors, probes and the TAP (R453, R454) -/

/-- SUPPLY_GLITCH (R453): VCORE below 0.50 V, or VSTORE above 5.9 V. -/
def execSupplyGlitch (storeOver : Bool) (s : State) : Host.Outcome State Fault Refusal :=
  .next (
    if s.sys.phase = .unpowered then s
    else
      let s1 := s.modTam (fun t => if storeOver then { t with vstoreHigh := true } else { t with vcoreLow := true })
      if s.sys.phase = .inReset then s1
      else occur tcSUPPLY 15 0 0 0 (s1.setFld (if storeOver then F.TAM_SUP_VSTORE_OV else F.TAM_SUP_VCORE_GL) 1))

/-- SUPPLY_CONDITION_END (R453): no detector is active any more. -/
def execSupplyConditionEnd (s : State) : Host.Outcome State Fault Refusal :=
  .next ((s.modTam (fun t => { t with vstoreHigh := false, vcoreLow := false })).condEnd tcSUPPLY).leaveReset

/-- PROBE_WINDOW_END (R454). -/
def execProbeWindowEnd (s : State) : Host.Outcome State Fault Refusal :=
  .next (s.when s.cclk fun s =>
    ((s.setFld F.TAM_PCNT_CUR 0).modTam (fun t => { t with probeRaised := false })).condEnd tcPROBE)

/-- TAP_INSTRUCTION (R454): in FIELDED an instruction other than BYPASS counts as a denial. The TAP answers only while the
hub is Running and its bank is good (R10, R27). -/
def execTapInstruction (bypass : Bool) (s : State) : Host.Outcome State Fault Refusal :=
  .next (s.when (s.portServes && s.fielded && !bypass) fun s => s.probe 10 0x27 0 0)

/-! ## TRNG (R448) -/

/-- A health test fails: 1 RCT, 2 APT, 3 the start-up test. -/
def State.trngFail (s : State) (test : Nat) : State :=
  let s1 := ((s.setFld F.TAM_TRNG_FAIL 1).setFld F.ASY_CRIT_TRNG_FIX 1).addSat F.TAM_TRNG_FAILS 1
  let s2 := if test = 1 then s1.setFld F.TAM_TRNG_RCT 1 else if test = 2 then s1.setFld F.TAM_TRNG_APT 1 else s1
  (s2.logEntry 7 test 0 0 0).raise 0x23 10

/-- TRNG_HEALTH_FAIL (R448). -/
def execTrngHealthFail (test : Nat) (s : State) : Host.Outcome State Fault Refusal :=
  .next (s.when (s.cclk && decide (1 ≤ test) && decide (test ≤ 3)) fun s => s.trngFail test)

/-- TRNG_RETEST (R448): the start-up test of every second while FAIL is 1. -/
def execTrngRetest (pass : Bool) (s : State) : Host.Outcome State Fault Refusal :=
  .next (s.when (s.cclk && s.on F.TAM_TRNG_FAIL) fun s =>
    if pass then
      (((s.setFld F.TAM_TRNG_FAIL 0).setFld F.TAM_TRNG_RCT 0).setFld F.TAM_TRNG_APT 0).setFld F.ASY_CRIT_TRNG_FIX 0
    else s.trngFail 3)

/-! ## The Logbook (R465-R471) -/


/-- A Flyleaf entry as the Logbook takes it over: the next sequence, FLY set (R471). -/
def State.flyCopy (s : State) (e : LogSlot) : State :=
  let seq := (s.nv.logSeq + 1) % 2 ^ 32
  let b := e.bytes.take 4 ++ bytesLE 4 seq ++ sliceB e.bytes 8 16
  let s1 := s.logStore seq (b ++ (Config.cmac s.nv.trim.logKey b).take 8) true
  ({ s1 with nv := { s1.nv with logSeq := seq } }.setFld F.LOG_SEQ_SEQ seq).addSat F.LOG_CNT_WRITTEN 1

/-- DEAD ends (R471): the Flyleaf's entries go into the Logbook in order, and the Flyleaf is erased. -/
def State.logRevive (s : State) : State :=
  let s1 := forEach s.nv.fly (fun e s => s.flyCopy e) s
  let s2 := forEach [480, 481, 482, 483] (fun p s => s.nvErase p) { s1 with nv := { s1.nv with fly := [] } }
  let s3 := ((s2.setFld F.LOG_STATUS_DEAD 0).setFld F.LOG_STATUS_FLYDEAD 0).setFld F.LOG_STATUS_FLY_USED 0
  { s3 with log := { s3.log with clean := false } }

/-- The write of entry `e`, verified or not (R465, R469-R471). -/
def State.logPut (s : State) (e : LogPend) (ok : Bool) : State :=
  let seq := (s.nv.logSeq + 1) % 2 ^ 32
  if s.on F.LOG_STATUS_DEAD then
    if s.log.clean then
      (if ok then (s.logWrite e).logRevive
       else { (s.nvFail (288 + seq % 1536 / 8) 1).flyWrite e true with log := { s.log with clean := false, loss := false } })
    else s.flyWrite e ok
  else if ok then s.logWrite e
  else (s.nvFail (288 + seq % 1536 / 8) 1).logDead 1 seq (some e)

/-- LOG_ENTRY_WRITE (R465): the oldest waiting entry, when its NV write runs; the scan goes first (R466). -/
def execLogEntryWrite (ok : Bool) (s : State) : Host.Outcome State Fault Refusal :=
  .next (s.when (s.cclk && s.stw.nvActive && decide (s.stw.nvq.head? = some .logEntry) && !(s.on F.LOG_STATUS_SCAN)) fun s =>
    match s.log.pend with
    | [] => s.nvEnd
    | e :: rest =>
      let s1 := { s with log := { s.log with pend := rest } }
      let s2 := s1.nvEnd.logPut e ok
      s2)

/-- A scan that met uncorrectable entries: each is counted, and the first is a failure of the Logbook (R469). -/
def State.logLost (s : State) (lost : List (Nat × LogSlot)) : State :=
  match lost with
  | [] => s
  | e :: _ =>
    let s1 := forEach lost (fun x t => t.nvUncorr (288 + x.1 / 8)) s
    if s1.on F.LOG_STATUS_DEAD then s1 else s1.logDead 2 (fieldLE e.2.bytes 4 4) none

/-- The entries whose MAC does not verify: counted already, they are failures of NV storage (R469) and occurrences of
NVINTEG (R455). -/
def State.logBad (s : State) (bad : List (Nat × LogSlot)) : State :=
  let s1 := if bad.isEmpty then s else (forEach bad (fun x t => t.nvFail (288 + x.1 / 8) 3) s).raise 0x24 10
  forEach bad (fun _ t => if t.sys.phase = s.sys.phase then occur tcNVINTEG 15 0x24 0 0 t else t) s1

/-- LOGBOOK_SCAN (R466): the head is the highest sequence whose MAC verifies; each bad MAC is counted and raises
NVINTEG (R455); an uncorrectable entry is a failure of the Logbook (R469). -/
def execLogbookScan (s : State) : Host.Outcome State Fault Refusal :=
  .next (s.when (s.cclk && s.on F.LOG_STATUS_SCAN) fun s =>
    let readable := s.nv.log.filter (fun x => x.2.good)
    let lost := s.nv.log.filter (fun x => !x.2.good)
    let bad := readable.filter (fun x => !(s.macGood x.2))
    let head := ((readable.map (fun x => x.2)).filter (fun e => s.macGood e) ++ s.nv.fly).foldl (fun m e => max m (fieldLE e.bytes 4 4)) 0
    let s1 := ((s.setFld F.LOG_STATUS_SCAN 0).setFld F.LOG_SEQ_SEQ head).addSat F.LOG_CNT_MACBAD bad.length
    let s2 := { s1 with nv := { s1.nv with logSeq := head }, log := { s1.log with clean := lost.isEmpty } }
    let s3 := s2.logBad bad
    if s3.sys.phase ≠ s.sys.phase then s3 else s3.logLost lost)

/-! ## The test page (R477) -/

/-- TST_DONE (R477): the test of TST_MODE ends. -/
def execTstDone (pass : Bool) (failAddr : Nat) (s : State) : Host.Outcome State Fault Refusal :=
  .next (s.when (s.cclk && s.blankOpen && s.on F.TST_MODE_MODE && !(s.on F.TST_RES_DONE)) fun s =>
    (((s.setFld F.TST_RES_DONE 1).putOn F.TST_RES_PASS pass).setFld F.TST_RES_FAIL_ADDR (if pass then 0 else failAddr)))

end Sys2Proof.Machine
end

