-- ==== Sys2Proof/Machine/Charts.lean ====
section
/-! DEFINITION. Records and charts (R400-R408, R111, R362): parsing, application as STEWARD, the checks of a chart, the
CHART record; stored values of NV fields (R6, R409); and the return of what a tenant owns to reset values (R383, R411). -/

namespace Sys2Proof.Machine

/-! ## Records (R400) -/

/-- A record of a WRITE command or a chart body. -/
inductive Rec where
  | reg (addr val : Nat)
  | desc (idx mask : Nat) (words : List Word)
  deriving DecidableEq, Repr

/-- The words of bytes, four bytes each. -/
def wordsLE (n : Nat) (l : List Byte) : List Word := (List.range n).map (fun i => BitVec.ofNat 32 (fieldLE l (4 * i) 4))

/-- Records one after another; none where one is malformed or of another kind. Format 1 ignores the word mask. `n` bounds
their number. -/
def parseRecs (fmt : Nat) : Nat → List Byte → Option (List Rec)
  | _, [] => some []
  | 0, _ => none
  | n + 1, l =>
    let b := fun i => (l.getD i 0).toNat
    if b 0 = 1 ∧ 8 ≤ l.length ∧ b 2 % 4 = 0 ∧ b 3 = 0 then
      (parseRecs fmt n (l.drop 8)).map (fun t => .reg (256 * b 1 + b 2) (fieldLE l 4 4) :: t)
    else if b 0 = 2 ∧ 36 ≤ l.length ∧ b 3 = 0 then
      (parseRecs fmt n (l.drop 36)).map (fun t => .desc (b 1) (if fmt = 1 then 255 else b 2) (wordsLE 8 (l.drop 4)) :: t)
    else none

def recsOf (fmt : Nat) (l : List Byte) : Option (List Rec) := parseRecs fmt l.length l

/-! ## Applying records (R401) -/

/-- No FULL reset came between. -/
def State.sameRun (s0 s : State) : Bool :=
  decide (s.sys.phase = s0.sys.phase) && s.fld F.SYS_BOOT_STAGE == s0.fld F.SYS_BOOT_STAGE

/-- What the application of records did: the refused records, and the first of them by address and cause. -/
structure Applied where
  state : State
  refused : Nat
  addr : Nat
  cause : Nat
  deriving DecidableEq, Repr

/-- One more set of refused records. -/
def Applied.more (a : Applied) (s : State) (n : Nat) (first : Option (Nat × Nat)) : Applied :=
  if a.refused = 0 then ⟨s, n, (first.getD (0, 0)).1, (first.getD (0, 0)).2⟩ else { a with state := s, refused := a.refused + n }

/-- A descriptor record: one commit of the words that the mask names (R236, R237), beside STEWARD's own selection. -/
def State.applyDesc (s : State) (rq : Requester) (d mask : Nat) (ws : List Word) : Done :=
  let old := s.selOf A.DSC_IDX rq
  let l := ((List.range 8).filter (fun i => mask.testBit i)).map (fun i =>
    (⟨A.DSC_W i, (ws.getD i 0).toNat, false, false⟩ : Wr))
  let r := (s.setSel A.DSC_IDX rq d).commit rq l
  { r with state := r.state.setSel A.DSC_IDX rq old }

/-- The record addresses a resource that is locked: a TENANT reset leaves it (R411). -/
def State.recLocked (s : State) (rq : Requester) : Rec → Bool
  | .reg a _ => (s.seat rq a).lock && rwBits a != 0
  | .desc d _ _ => (s.descSeat d).lock

/-- The register records of a list. -/
def regRecs (l : List Rec) : List (Nat × Nat) := l.filterMap (fun r => match r with | .reg a v => some (a, v) | .desc _ _ _ => none)

/-- Applies records: descriptors one by one, then all registers in one commit. -/
def State.applyRecs (s : State) (rq : Requester) (l : List Rec) : Applied :=
  let a := l.foldl (fun (a : Applied) r => match r with
    | .reg _ _ => a
    | .desc d m ws =>
      if s.sameRun a.state then
        let x := a.state.applyDesc rq d m ws
        if x.denied.isEmpty then { a with state := x.state } else a.more x.state 1 x.denied.head?
      else a) ⟨s, 0, 0, 0⟩
  let regs := regRecs l
  if regs.isEmpty || !(s.sameRun a.state) then a
  else
    let x := a.state.commit rq (regs.map (fun w => ⟨w.1, w.2, false, false⟩))
    if x.denied.isEmpty then { a with state := x.state }
    else
      let first := match firstWith (fun w => x.denied.any (fun d => d.1 == w.1)) regs with
        | none => x.denied.head?
        | some w => firstWith (fun d => d.1 == w.1) x.denied
      a.more x.state x.denied.length first

/-! ## Charts (R402, R406, R407, R111) -/

def chartHead (l : List Byte) : List Byte := l.take 48
def chartBody (l : List Byte) : List Byte := l.drop 48

/-- The header is one of tenant `t`. -/
def headGood (t : Nat) (h : List Byte) : Bool :=
  decide (48 ≤ h.length) && h.take 2 == [0x7A, 0x43] && fieldLE h 4 1 == 16 * t && fieldLE h 5 1 == 0

/-- Length and hash of the body (R406). -/
def bodyGood (l : List Byte) : Bool :=
  (chartBody l).length == fieldLE l 8 4 && Config.sha256 (chartBody l) == sliceB l 16 32

/-- The records of a chart, as many as its header says. -/
def chartRecs (l : List Byte) : Option (List Rec) :=
  (recsOf (fieldLE l 2 1) (chartBody l)).bind (fun r => if r.length = fieldLE l 6 2 then some r else none)

/-- The running IDN_FMT.CHART and IDN_API (R110). -/
def State.chartFmt (s : State) : Nat := s.fld F.IDN_FMT_FMT % 256
def State.apiLevel (s : State) : Nat := s.fld F.IDN_API_LEVEL

/-- The hub can apply the chart's format and API level (R111). -/
def State.versionGood (s : State) (l : List Byte) : Bool :=
  decide (fieldLE l 2 1 ≤ s.chartFmt) && decide (fieldLE l 3 1 ≤ s.apiLevel)

/-- No record names a reserved page, or one whose owner is fixed to another tenant (R407). -/
def ownerGood (t : Nat) (l : List Rec) : Bool :=
  l.all (fun r => match r with
    | .desc _ _ _ => true
    | .reg a _ => match pageDef (a / 256) with
      | none => false
      | some d => match d.owner with | .fixed n => n == t | _ => true)

/-- The CHART payload (R362). -/
def State.encChart (s : State) (kind : Nat) (l : List Byte) (refused addr cause : Nat) : List Byte :=
  bytesLE 1 kind ++ bytesLE 1 (fieldLE l 2 1) ++ bytesLE 1 (fieldLE l 3 1) ++ bytesLE 1 s.chartFmt ++ bytesLE 1 s.apiLevel
    ++ bytesLE 1 cause ++ bytesLE 2 refused ++ bytesLE 2 addr ++ List.replicate 6 0 ++ bytesLE 8 s.ht
    ++ padTo 32 (sliceB l 16 32)

/-- A CHART record of the Steward to the tenant's L1 (R364, R407). -/
def State.chartRecord (s : State) (t kind : Nat) (l : List Byte) (refused addr cause : Nat) : State :=
  s.record t 1 0x09 0x25 s.ht (s.encChart kind l refused addr cause)

/-- A tenant goes DORMANT (R111, R122). -/
def State.goDormant (s : State) (t : Nat) : State :=
  if s.dormant t then s else (s.setBit F.SYS_DORM_DORMANT t).raise 0x01 9

/-- A failed boot check (R102): the first code stays in SYS_BOOT.ERR, and the Logbook holds an entry for each. -/
def State.bootErr (s : State) (code aud data : Nat) : State :=
  (if s.fld F.SYS_BOOT_ERR = 0 then s.setFld F.SYS_BOOT_ERR code else s).logEntry 4 code aud 0 data

/-- A chart that fails its hash or its owner checks: INVALID, and DORMANT; at boot it is a failed check (R102). -/
def State.chartInvalid (s : State) (t : Nat) (l : List Byte) (boot : Bool) : State :=
  ((if boot then s.bootErr 6 (2 ^ t) t else s).goDormant t).chartRecord t 3 l 0 0 0

/-- Applies a tenant's committed chart: at boot (R407), or by a TENANT reset, which leaves what is locked (R411). A tenant
that is DORMANT has none applied. -/
def State.applyChart (s : State) (t : Nat) (boot : Bool) : State :=
  let l := s.chartBytes t
  if l.isEmpty then s
  else if s.dormant t then (if boot then s.chartRecord t 2 l 0 0 0 else s)
  else if !(headGood t l && bodyGood l) then s.chartInvalid t l boot
  else if !(s.versionGood l) then (s.goDormant t).chartRecord t 2 l 0 0 0
  else match chartRecs l with
    | none => s.chartInvalid t l boot
    | some r =>
      if !(ownerGood t r) then s.chartInvalid t l boot
      else
        let rq : Requester := .steward t
        let a := s.applyRecs rq (if boot then r else r.filter (fun x => !(s.recLocked rq x)))
        if s.sameRun a.state then a.state.chartRecord t (if a.refused = 0 then 1 else 4) l a.refused a.addr a.cause
        else a.state

/-! ## Stored values (R6, R409) -/

/-- The addresses of a row of a page. -/
def rowAddrs (p : Nat) (r : RegRow) : List Nat := (List.range r.cnt).map (fun i => 256 * p + r.off + r.stride * i)

/-- The registers with a field whose Reset entry is NV. -/
def nvRegs : List Nat := pageDirectory.flatMap (fun d => (d.rows.filter (fun r => r.nv != 0)).flatMap (fun r => rowAddrs d.page r))

def nvMask (a : Nat) : Nat := match regRow a with | none => 0 | some r => r.nv

/-- A word with the bits of a mask taken from another. -/
def mixWord (a : Nat) (base from' : Word) : Word :=
  (base &&& ~~~ (BitVec.ofNat 32 (nvMask a))) ||| (from' &&& BitVec.ofNat 32 (nvMask a))

/-- The node configuration as CONFIG_STORE takes it. -/
def State.configNow (s : State) : Map Word :=
  forEach nvRegs (fun a m => mapSet resetOf m a (mixWord a (resetOf a) (s.reg a))) []

/-- The reset value of a register, its NV fields as stored. -/
def State.nvReset (s : State) (a : Nat) : Word :=
  match s.nv.config with
  | none => resetOf a
  | some m => if s.configReads then mixWord a (resetOf a) (mapGet resetOf m a) else resetOf a

/-! ## What a tenant owns, back to reset values (R383, R411) -/

/-- Registers of the pages that the tenant owns and that are not locked. -/
def State.pageWrites (s : State) (t dst : Nat) : List (Nat × Nat) :=
  (pageDirectory.filter (fun d => decide (d.owner = .assignable) && (s.pageSeat d.page).owner == some t && !(s.pageSeat d.page).lock)).flatMap
    (fun d =>
      let regs := (d.rows.filter (fun r => r.rw != 0 && decide (r.kind = .plain))).flatMap (fun r => rowAddrs d.page r)
      ([256 * d.page + 0x08, 256 * d.page + 0x14, 256 * d.page + 0x1C] ++ regs).map (fun a => (a, (s.nvReset a).toNat))
        ++ [(256 * d.page + 0x20, dst)])

/-- The seat is the tenant's and not locked. -/
def freeSeat (x : Seat) (t : Nat) : Bool := x.owner == some t && !x.lock && !x.bad

def State.unitsBack (s : State) (t : Nat) : List Nat := allUnits.filter (fun u => freeSeat (s.unitSeat u) t)

/-- Registers of the resources that the tenant owns and that are not locked. -/
def State.resWrites (s : State) (t dst : Nat) : List (Nat × Nat) :=
  let rst := fun a => (s.nvReset a).toNat
  let stp := ((List.range 12).filter (fun c => freeSeat (s.chanSeat c) t)).map (fun c =>
    (A.STP_CH_CFG c, wput (rst (A.STP_CH_CFG c)) (F.STP_CH_CFG_OWNER c) dst))
  let rsm := ((List.range 8).filter (fun c => freeSeat (s.rsmSeat c) t)).flatMap (fun c =>
    [(A.RSM_CH_CFG c, wput (rst (A.RSM_CH_CFG c)) (F.RSM_CH_CFG_OWNER c) dst), (A.RSM_CH_IN c, rst (A.RSM_CH_IN c))])
  let ros := ((List.range 64).filter (fun c => freeSeat (s.roseSeat c) t)).map (fun c =>
    (A.ROS_CH c, wput (rst (A.ROS_CH c)) (F.ROS_CH_OWNER c) dst))
  let asy := (s.unitsBack t).flatMap (fun u =>
    [(A.ASY_CFG u, wput (rst (A.ASY_CFG u)) (F.ASY_CFG_OWNER u) dst), (A.ASY_IN u, rst (A.ASY_IN u)),
     (A.ASY_OUT u, rst (A.ASY_OUT u)), (loopBL u, rst (loopBL u)), (loopBL u + 4, rst (loopBL u + 4)),
     (loopBL u + 8, rst (loopBL u + 8))])
  let bnd := ((List.range 4).filter (fun l => !(s.on (F.BND_LCFG_LOCK (qOut t l))) && !(s.pageSeat 0x21).lock)).map (fun l =>
    (A.BND_LCFG (qOut t l), rst (A.BND_LCFG (qOut t l))))
  let que := if (s.pageSeat 0x20).lock then [] else [(A.QUE_TCFG t, rst (A.QUE_TCFG t))]
  let gsw := if (s.pageSeat 0x0C).lock then [] else
    ((List.range 7).filter (fun k => s.fld (F.ROS_GSW_OWNER k) == t)).map (fun k => (A.ROS_GSW k, 256 * dst))
  stp ++ rsm ++ ros ++ asy ++ bnd ++ que ++ gsw

/-- Registers of tenant 0 that name the tenant as an owner of flares and trigger lines (R383). -/
def State.namedWrites (s : State) (t : Nat) : List (Nat × Nat) :=
  ((List.range 2).filter (fun f => s.fld (F.ROS_FLR_OWNER f) == t)).map (fun f =>
      (A.ROS_FLR f, wput (s.reg (A.ROS_FLR f)).toNat (F.ROS_FLR_OWNER f) 0))
    ++ (List.range 2).map (fun j => (A.PSQ_TOWN + 4 * j, (List.range 8).foldl (fun w i =>
      if s.fld (F.PSQ_TOWN_OWNER (8 * j + i)) = t then wput w (F.PSQ_TOWN_OWNER i) 0 else w) (s.reg (A.PSQ_TOWN + 4 * j)).toNat))

/-- An unlocked descriptor of the tenant at its reset value, its owner `dst`. -/
def State.descBack (s : State) (d dst : Nat) : State :=
  (s.applyDesc .internal d 255 [BitVec.ofNat 32 (4096 * dst), 0, 0, 0, 0, 0, 0, 0]).state

/-- What the tenant owns and is not locked returns to its reset values, with the owner `dst`: the tenant itself after a
TENANT reset (R411), tenant 0 when it is removed (R383). A change that would cut a locked route is left out (R343). -/
def State.returnOwned (s : State) (t dst : Nat) : State :=
  let ws := s.pageWrites t dst ++ s.resWrites t dst ++ (if dst = t then [] else s.namedWrites t)
  let keep := ws.filter (fun w => !(s.cutsLocked (s.storeReg .internal w.1 w.2)))
  let units := s.unitsBack t
  let descs := s.liveDescs.filter (fun d => freeSeat (s.descSeat d) t)
  let s1 := (s.commit .internal (keep.map (fun w => ⟨w.1, w.2, false, false⟩))).state
  let s2 := forEach descs (fun d s => s.descBack d dst) s1
  let s3 := forEach units (fun u s => (s.modUnit u (fun x => { x with params := [] })).asyRestart u) s2
  { s3 with routes := s3.routes.filter (fun x => x.1 % 8 != t) }

/-- A resource of the tenant stands locked. -/
def State.lockedLeft (s : State) (t : Nat) : Bool :=
  let held := fun (x : Seat) => x.owner == some t && x.lock && !x.bad
  pageDirectory.any (fun d => decide (d.owner = .assignable) && held (s.pageSeat d.page))
    || (List.range 12).any (fun c => held (s.chanSeat c)) || (List.range 8).any (fun c => held (s.rsmSeat c))
    || (List.range 64).any (fun c => held (s.roseSeat c)) || allUnits.any (fun u => held (s.unitSeat u))
    || s.liveDescs.any (fun d => held (s.descSeat d)) || (List.range 4).any (fun l => s.on (F.BND_LCFG_LOCK (qOut t l)))

end Sys2Proof.Machine
end

