-- ==== Sys2Proof/Machine/Steward.lean ====
section
/-! DEFINITION. The Steward's commands (R380-R412): the checks in their order, execution, responses, key updates, and the
NV writes of commands. A row acts when the command in the envelope is its own. -/

namespace Sys2Proof.Machine

/-! ## The command in the envelope (R392) -/

structure Cmd where
  tenant : Nat
  opcode : Nat
  len : Nat
  gen : Nat
  counter : Nat
  header : List Byte
  payload : List Byte
  tag : List Byte
  deriving DecidableEq, Repr

def cmdOf (e : Envelope) : Cmd :=
  ⟨fieldLE e.header 2 1 / 16, fieldLE e.header 3 1, fieldLE e.header 4 2, fieldLE e.header 6 2, fieldLE e.header 8 8,
   e.header, e.payload, e.tag⟩

/-- Byte `i` of a payload. -/
def Cmd.byte (c : Cmd) (i : Nat) : Nat := fieldLE c.payload i 1

/-- The opcodes of R399: who may issue it (0 any tenant, 1 tenant 0, 2 tenant 0 or the tenant named), whether only in
FIELDED, and the payload length (none: not fixed). -/
def opRule (op : Nat) : Option (Nat × Bool × Option Nat) :=
  match op with
  | 0x01 => some (0, false, none)
  | 0x02 => some (0, false, some 48)
  | 0x03 => some (0, false, none)
  | 0x04 => some (0, false, some 0)
  | 0x05 => some (1, false, some 0)
  | 0x10 => some (0, false, some 64)
  | 0x11 => some (0, false, some 40)
  | 0x18 => some (0, false, some 32)
  | 0x20 => some (1, true, some 72)
  | 0x21 => some (1, true, some 72)
  | 0x22 => some (1, true, some 4)
  | 0x28 => some (2, false, some 4)
  | 0x29 => some (1, false, some 0)
  | 0x2A => some (1, false, some 0)
  | 0x2B => some (1, false, some 0)
  | 0x30 => some (1, false, some 4)
  | 0x38 => some (1, false, none)
  | _ => none

/-- A register that holds a field R18 reserves to tenant 0: flare reset levels, tamper responses, quotas, port shares, the
urgent gear floor. -/
def reservedReg (a : Nat) : Bool :=
  a == A.ROS_FLR 0 || a == A.ROS_FLR 1 || a == A.TAM_RESP || (decide (A.QUE_TQ 0 ≤ a) && decide (a < A.QUE_TQ 8))
    || (decide (A.PSQ_RES ≤ a) && decide (a < A.PSQ_RES + 64)) || a == A.PLN_URG

/-- A WRITE command with a record for a field that R18 reserves. -/
def asksReserved (c : Cmd) : Bool :=
  match recsOf 2 c.payload with
  | none => false
  | some l => (regRecs l).any (fun w => reservedReg w.1)

/-- Check 11: the tenant or the lifecycle state is not permitted for the opcode. -/
def State.cmdDenied (s : State) (c : Cmd) : Bool :=
  match opRule c.opcode with
  | none => false
  | some (who, fielded, _) =>
    (who == 1 && c.tenant != 0) || (fielded && !s.fielded) || (who == 2 && c.tenant != 0 && c.byte 0 != c.tenant)
      || (c.opcode == 0x01 && c.tenant != 0 && asksReserved c)

/-- Check 12: a key update or chart commit of the tenant is pending; the node configuration is being stored (R409). -/
def State.cmdBusy (s : State) (c : Cmd) : Bool :=
  let named := if c.opcode = 0x20 ∨ c.opcode = 0x21 ∨ c.opcode = 0x22 then c.byte 0 % 8 else c.tenant
  (s.ten c.tenant).update.isSome || (s.ten c.tenant).chartPend || (s.ten named).update.isSome || (s.ten named).chartPend
    || (c.opcode == 0x05 && s.stw.nvq.any (fun j => match j with | .config _ _ => true | _ => false))

/-- The enrolment public key of a payload passes its validation (R381, R384). -/
def State.keyGood (s : State) (q : List Byte) : Bool := (Config.ecdh s.nv.trim.deviceKey q).isSome

/-- Check 13: the payload is malformed for the opcode. -/
def State.badParam (s : State) (c : Cmd) : Bool :=
  let p := c.payload
  let fixed := match opRule c.opcode with | some (_, _, some n) => p.length != n | _ => false
  fixed ||
    (match c.opcode with
     | 0x01 => (recsOf 2 p).isNone
     | 0x02 => !(headGood c.tenant p)
     | 0x03 => decide (p.length < 4)
     | 0x10 => !(s.keyGood p)
     | 0x20 => decide (7 < c.byte 0) || fieldLE p 6 2 != 0 || !(s.keyGood (p.drop 8))
     | 0x21 => decide (7 < c.byte 0) || fieldLE p 1 5 != 0 || fieldLE p 6 2 != 0 || !(s.keyGood (p.drop 8))
     | 0x22 => fieldLE p 1 3 != 0 || c.byte 0 == 0 || decide (7 < c.byte 0)
     | 0x28 => fieldLE p 1 3 != 0 || decide (7 < c.byte 0)
     | 0x30 => fieldLE p 1 3 != 0
     | 0x38 => decide (p.length < 8) || c.byte 0 == 0 || decide (3 < c.byte 0) || fieldLE p 1 3 != 0
     | _ => false)

/-! ## The checks (R393-R396) -/

/-- What the checks decide: refused with a status, and whether check 7 was passed; a re-issue; or execution, with whether
the high-water is raised. -/
inductive Check where
  | refuse (st : Nat) (past7 : Bool)
  | reissue
  | run (raise : Bool)
  deriving DecidableEq, Repr

/-- The tag verifies under the active command key (R392). -/
def State.tagGood (s : State) (c : Cmd) : Bool :=
  match s.activeSlot c.tenant with
  | none => false
  | some k => c.gen == k.gen && c.tag == Config.cmac (s.commandKey c.tenant k.gen k.key) (c.header ++ c.payload)

/-- The generation whose key verified the command; 0 when none did. -/
def State.verified (s : State) (c : Cmd) : Nat :=
  if s.on F.TAM_LATCH_ZEROIZED then 0 else if s.tagGood c then c.gen else 0

/-- Checks 9 to 13. -/
def State.checkLate (s : State) (c : Cmd) (raise : Bool) : Check :=
  if raise && decide ((s.tnv c.tenant).ceil < c.counter) && s.dipHold then .refuse stRETRY true
  else if (opRule c.opcode).isNone then .refuse stOPCODE true
  else if s.cmdDenied c then .refuse stDENIED true
  else if s.cmdBusy c then .refuse stBUSY true
  else if s.badParam c then .refuse stPARAM true
  else .run raise

/-- The checks of R393 in their order. In BLANK and OPEN checks 5 to 8 stop nothing (R394); while the volatile keys are
zeroized every command is refused with NOKEY (R459). -/
def State.check (s : State) (c : Cmd) : Check :=
  let x := s.ten c.tenant
  if fieldLE c.header 0 1 ≠ 0xC5 ∨ s.fld F.IDN_FMT_FMT / 65536 % 256 < fieldLE c.header 1 1 ∨ fieldLE c.header 2 1 % 16 ≠ 0 then
    .refuse stFORMAT false
  else if c.len ≠ c.payload.length ∨ 4064 < c.len then .refuse stLENGTH false
  else if s.life = 0xE then .refuse stLIFECYCLE false
  else if !(s.tenExists c.tenant) then .refuse stTENANT false
  else if s.on F.TAM_LATCH_ZEROIZED then .refuse stNOKEY false
  else if s.blankOpen then s.checkLate c (s.tagGood c && decide (x.hw < c.counter))
  else if (s.activeSlot c.tenant).isNone then .refuse stNOKEY false
  else if c.gen ≠ s.activeGen c.tenant then .refuse stKEYGEN false
  else if !(s.tagGood c) then .refuse stTAG false
  else if c.counter ≤ x.hw then
    (if c.counter = x.hw ∧ c.tag = x.lastTag ∧ !(x.execRsp.isEmpty) then .reissue else .refuse stREPLAY true)
  else s.checkLate c true

/-! ## Deciding and executing -/

/-- The Steward executes a command that has had no response yet, or signs: it takes no other (R393). -/
def State.stewardBusy (s : State) : Bool :=
  s.stw.life1.isSome || s.stw.nvq.any (fun j => match jobTicket j with | none => false | some k => !k.answered)
    || s.tens.any (fun x => x.2.signing || (match x.2.update with | none => false | some u => !u.ticket.answered))

/-- The command is decided: envelope and queue are free, and the tenant's page shows it (R438, R444). -/
def State.decided (s : State) (c : Cmd) : State :=
  let s1 := { s.setQueue qCmd [] with env := none }
  let s2 := (s1.setFld F.STW_STAT_TENANT c.tenant).setFld F.STW_STAT_OPCODE c.opcode
  if 8 ≤ c.tenant then s2
  else ((s2.setFld (F.TN_CSTAT_STATE c.tenant) 4).modTen c.tenant (fun x => { x with cmds := min 255 (x.cmds + 1) })).raise
    (0x30 + c.tenant) 8

/-- A refused command (R393, R397): stored when check 7 was passed, else shown in KEY_TLAST alone. A refusal at check 7 or
8 is a denial for the probe monitor (R454). -/
def State.refused (s : State) (c : Cmd) (st : Nat) (past7 : Bool) : State :=
  let gen := s.verified c
  let k : Ticket := ⟨c.tenant, c.tenant, c.opcode, c.counter, gen, false⟩
  let r := s.tagged c.tenant gen (s.rspBody k (.of st))
  let s1 := if 8 ≤ c.tenant then s else s.modTen c.tenant (fun x => { x with
    last := lastWord st c.opcode gen, response := if past7 then r else x.response })
  let s2 := s1.countAnswer st false
  if st = stTAG ∨ st = stREPLAY then s2.probe 9 0x22 0 0 else s2

/-- A re-issue (R396): the response of the command that was executed, with REISSUED set. -/
def State.reissued (s : State) (c : Cmd) : State :=
  let x := s.ten c.tenant
  let b := x.execRsp.take 32
  let body := b.take 5 ++ bytesLE 1 (fieldLE b 5 1 / 2 * 2 + 1) ++ b.drop 6
  let st := fieldLE b 4 1
  (s.modTen c.tenant (fun x => { x with
    response := s.tagged c.tenant c.gen body, last := lastWord st c.opcode c.gen })).countAnswer 0 false

/-- The ceiling and the high-water follow the counter, and the command reaches execution (R395). -/
def State.countUp (s : State) (c : Cmd) (raise : Bool) : State :=
  let s1 := if raise && decide ((s.tnv c.tenant).ceil < c.counter) then
      s.modTnv c.tenant (fun n => { n with ceil := min (2 ^ 64 - 1) (c.counter + 1024) })
    else s
  s1.modTen c.tenant (fun x => { x with hw := if raise then c.counter else x.hw, lastTag := c.tag, execRsp := [] })

/-- Runs the command in the envelope when it is one of the row's (`mine`): decided, and executed by `body`. -/
def State.command (s : State) (mine : Cmd → Bool) (body : Cmd → Ticket → State → State) : State :=
  s.when (s.cclk && !s.stewardBusy) fun s =>
    match s.env with
    | none => s
    | some e =>
      let c := cmdOf e
      if !(mine c) then s
      else
        let s1 := s.decided c
        match s.check c with
        | .refuse st past7 => s1.refused c st past7
        | .reissue => s1.reissued c
        | .run raise => body c ⟨c.tenant, c.tenant, c.opcode, c.counter, s.verified c, false⟩ (s1.countUp c raise)

def opIs (op : Nat) (c : Cmd) : Bool := c.opcode == op

/-! ## NV writes of a command -/

/-- Requests an NV write of a command; one that a dip defers is answered PENDING (R79, R393). -/
def State.cmdWrite (s : State) (k : Ticket) (j : Ticket → NvJob) : State :=
  if s.dipHold then (s.pendAnswer k).1.nvRequest (j (s.pendAnswer k).2) else s.nvRequest (j k)

/-! ## WRITE (R401, R410) -/

def State.runWrite (s : State) (c : Cmd) (k : Ticket) : State :=
  if s.dormant c.tenant then s.answer k (.of stSTATE)
  else match recsOf 2 c.payload with
    | none => s.answer k (.of stPARAM)
    | some l =>
      let a := s.applyRecs (.steward c.tenant) l
      if s.sameRun a.state then
        a.state.answer k ⟨if a.refused = 0 then stDONE else stPARTIAL, a.refused, a.addr, a.cause⟩
      else a.state

/-- WRITE (R401). A command whose opcode is no row's is decided here as well (check 10). -/
def execWrite (s : State) : Host.Outcome State Fault Refusal :=
  .next (s.command (fun c => c.opcode == 0x01 || (opRule c.opcode).isNone) (fun c k s => s.runWrite c k))

/-! ## Charts (R404-R406) -/

/-- Bytes put into a staging area at an offset; what lies between is not written. -/
def stageAt (l : List (Option Byte)) (off : Nat) (b : List (Option Byte)) : List (Option Byte) :=
  let m := l ++ List.replicate (off + b.length - l.length) none
  m.take off ++ b ++ m.drop (off + b.length)

/-- The largest chart of a tenant, header included (R403). -/
def chartMax (t : Nat) : Nat := if t = 0 then 4096 else 1536

/-- CHART_BEGIN (R404). -/
def execChartBegin (s : State) : Host.Outcome State Fault Refusal :=
  .next (s.command (opIs 0x02) (fun c k s =>
    let n := fieldLE c.payload 8 4
    if chartMax c.tenant < 48 + n then s.answer k (.of stSPACE)
    else (s.modTen c.tenant (fun x => { x with upload := some c.payload, staged := List.replicate n none })).answer k (.of stDONE)))

/-- CHART_DATA (R404). -/
def execChartData (s : State) : Host.Outcome State Fault Refusal :=
  .next (s.command (opIs 0x03) (fun c k s =>
    let off := fieldLE c.payload 0 4
    let b := c.payload.drop 4
    let x := s.ten c.tenant
    if x.upload.isNone || decide (x.staged.length < off + b.length) then s.answer k (.of stSTATE)
    else (s.modTen c.tenant (fun x => { x with staged := stageAt x.staged off (b.map some) })).cmdWrite k
      (fun k => .chartData k off b.length)))

/-- The staged body, when every byte of it was written. -/
def stagedBytes (l : List (Option Byte)) : Option (List Byte) :=
  if l.all (fun b => b.isSome) then some (l.filterMap (fun b => b)) else none

/-- CHART_COMMIT (R406): PENDING until the commit word is verified. -/
def execChartCommit (s : State) : Host.Outcome State Fault Refusal :=
  .next (s.command (opIs 0x04) (fun c k s =>
    let x := s.ten c.tenant
    match x.upload with
    | none => s.answer k (.of stSTATE)
    | some h =>
      if !(s.versionGood h) then s.answer k (.of stVERSION)
      else match stagedBytes x.staged with
        | none => s.answer k (.of stPARAM)
        | some b =>
          let l := h ++ b
          if !(bodyGood l) || (chartRecs l).isNone then s.answer k (.of stPARAM)
          else
            let s1 := (s.pendAnswer k).1.modTen c.tenant (fun x => { x with chartPend := true })
            s1.nvRequest (.chartCommit (s.pendAnswer k).2 l)))

/-- CHART_COMMIT_DONE (R406, R112): the commit word verifies, and the chart is applied through a TENANT reset. -/
def execChartCommitDone (t : Nat) (ok : Bool) (s : State) : Host.Outcome State Fault Refusal :=
  .next (s.when (s.cclk && s.stw.nvActive) fun s =>
    match s.stw.nvq with
    | .chartCommit k l :: _ =>
      if k.tenant ≠ t then s
      else
        let s1 := s.nvEnd.modTen t (fun x => { x with chartPend := false })
        if ok then
          let s2 := s1.modTnv t (fun n => { n with chart := some ⟨l, (match n.chart with | none => 0 | some c => c.store) + 1⟩ })
          let s3 := (s2.modTen t (fun x => { x with upload := none })).clrBit F.SYS_DORM_DORMANT t
          (s3.answer k (.of stDONE)).tenReset t 9
        else (s1.nvFail (s1.chartPage t 0) 1).answer k (.of stRETRY)
    | _ => s)

/-- CONFIG_STORE (R409). -/
def execConfigStore (s : State) : Host.Outcome State Fault Refusal :=
  .next (s.command (opIs 0x05) (fun _ k s => s.cmdWrite k (fun k => .config k s.configNow)))

/-! ## Key updates (R388-R391) -/

/-- A key update begins (R388), behind the NV writes requested before it (R79), or is refused with WORN (R389). -/
def State.keyStart (s : State) (k : Ticket) (t gen : Nat) (key hash : List Byte) (b : Bool) : State :=
  if 65535 < gen ∨ 20000 ≤ (s.slot t b).writes then s.answer k (.of stWORN)
  else
    let r := if s.keyWait t b then s.pendAnswer k else (s, k)
    let n := r.1.stw.keySeq
    let s1 := { r.1 with stw := { r.1.stw with keySeq := n + 1 } }
    (s1.modTen t (fun x => { x with
      update := some ⟨gen, key, hash, b, false, r.2, s.stw.nvq.length, n, s.dipHold⟩ })).deferShow

/-- The slot that is not active; A without an active key. -/
def State.otherSlot (s : State) (t : Nat) : Bool := match (s.ten t).activeB with | none => false | some b => !b

/-- The tenant key of a public key that passed its validation. -/
def State.keyFrom (s : State) (t gen : Nat) (q : List Byte) : List Byte := (s.tenantKey t gen q).getD []

/-- KEY_ESTABLISH (R390). -/
def execKeyEstablish (s : State) : Host.Outcome State Fault Refusal :=
  .next (s.command (opIs 0x10) (fun c k s =>
    let g := s.activeGen c.tenant + 1
    s.keyStart k c.tenant g (s.keyFrom c.tenant g c.payload) (Config.sha256 c.payload) (s.otherSlot c.tenant)))

/-- KEY_ROTATE (R391). A tenant without an active key has no wrap key, and the unwrap fails. -/
def execKeyRotate (s : State) : Host.Outcome State Fault Refusal :=
  .next (s.command (opIs 0x11) (fun c k s =>
    match s.activeSlot c.tenant with
    | none => s.answer k (.of stUNWRAP)
    | some a => match Config.kwUnwrap (s.wrapKey c.tenant a.gen a.key) c.payload with
      | none => s.answer k (.of stUNWRAP)
      | some tk => s.keyStart k c.tenant (a.gen + 1) tk [] (s.otherSlot c.tenant)))

/-! ## Lifecycle (R116-R119) -/

/-- The state that follows a lifecycle state. -/
def nextLife (l : Nat) : Nat := if l = 3 then 5 else if l = 5 then 9 else if l = 9 then 0xE else 0

/-- The state and key check of a decision, on the state code `l`: OPEN is entered by the establishment of a key alone. -/
def State.lifeGood (s : State) (l target : Nat) (byKey : Bool) : Bool :=
  l != 0xE && target == nextLife l && (target == 5) == byKey && (target != 9 || (s.activeSlot 0).isSome)

/-- The energy conditions of R118. -/
def State.lifeEnergy (s : State) : Bool := !(s.on F.SYS_DIP_ACTIVE) && s.on F.PWR_THR_STAT_ABOVE_KEYW

/-- The first decision (R117, R118). -/
def State.lifeFirst (s : State) (k : Ticket) (target : Nat) (byKey : Bool) : State :=
  if !(s.lifeGood s.life target byKey) then s.answer k (.of stSTATE)
  else if !s.lifeEnergy then s.answer k (.of stRETRY)
  else { s with stw := { s.stw with life1 := some (target, k) } }

/-- What is zeroized at the entry into RETIRED (R119): keys, charts of tenants 1-7, device keys; those tenants exist no more. -/
def retiredNv (n : Nv) : Nv :=
  let clear := fun (k : KeySlot) => { slot0 with writes := k.writes }
  let tens := forEach (List.range 8) (fun t m => mapMod (fun _ => tenNv0) m t (fun x => { x with
    slotA := clear x.slotA, slotB := clear x.slotB, chart := if t = 0 then x.chart else none, exist := false })) n.tens
  { n with tens := tens, trim := { n.trim with deviceKey := [], devicePub := [], logKey := [] } }

/-- The transition (R117): its Logbook entry, the commit word, and a FULL reset with cause LIFECYCLE. -/
def State.lifeMove (s : State) (target : Nat) : State :=
  let e : LogPend := ⟨5, target, s.fld F.SYS_DORM_EXIST ||| 1, 0, s.ht, s.fld F.RCK_EPOCH_ID, s.life⟩
  let s1 := if s.on F.LOG_STATUS_DEAD then s.flyWrite e true else s.logWrite e
  let n := { s1.nv with life := target, lifeInv := 15 - target }
  fullReset .lifecycle 0 { s1 with nv := if target = 0xE then retiredNv n else n }

/-- LIFECYCLE (R117): the first decision. -/
def execLifecycle (s : State) : Host.Outcome State Fault Refusal :=
  .next (s.command (opIs 0x30) (fun c k s => s.lifeFirst k (c.byte 0) false))

/-- LIFECYCLE_SECOND_DECISION (R117): on the inverted copies, and with the energy sampled afresh. `agree` is false where
the second decision differs from the first though the state shows no reason. -/
def execLifecycleSecondDecision (agree : Bool) (s : State) : Host.Outcome State Fault Refusal :=
  .next (s.when s.cclk fun s =>
    match s.stw.life1 with
    | none => s
    | some (target, k) =>
      let s1 := { s with stw := { s.stw with life1 := none } }
      if !agree || !(s1.lifeGood (15 - s.nv.lifeInv) target (target == 5)) then
        occur tcDOUBLE 15 0x01 0x84 0 (s1.answer k (.of stSTATE))
      else if !s1.lifeEnergy then s1.answer k (.of stRETRY)
      else s1.lifeMove target)

/-! ## Steps 3 and 4 of a key update (R388) -/

/-- KEY_UPDATE_WRITE (R388 step 3): erase, program, verify, once nothing holds it back and no key update requested before
it is ready (R79). -/
def execKeyUpdateWrite (t : Nat) (ok : Bool) (s : State) : Host.Outcome State Fault Refusal :=
  .next (s.when (decide (t < 8) && s.cclk && !s.stw.nvActive && !s.keyWriting) fun s =>
    match (s.ten t).update with
    | none => s
    | some u =>
      if s.keyWait t u.slotB || !(s.keyFirst u.asked) then s
      else
        let page := 256 + 2 * t + (if u.slotB then 1 else 0)
        let s0 := (s.modTen t (fun x => { x with update := some { u with deferred := false } })).deferShow
        let s1 := (s0.nvErase page).modSlot t u.slotB (fun x => ⟨u.gen, u.key, false, x.writes + 1⟩)
        if ok then s1.modTen t (fun x => { x with update := some { u with written := true, deferred := false } })
        else
          let s2 := (s1.modSlot t u.slotB (fun x => { x with gen := 0, key := [] })).modTen t (fun x => { x with update := none })
          ((s2.nvFail page 1).answer u.ticket (.of stRETRY)).nvStart)

/-- What becomes of a tenant whose first key stands: it exists (R381), its sequence begins at the committed high-water. -/
def State.tenBorn (s : State) (t : Nat) : State :=
  let s1 := (s.setBit F.SYS_DORM_EXIST t).modTnv t (fun n => { n with exist := true })
  (s1.modTen t (fun x => { x with seqNext := (s1.tnv t).seqHw })).reserveSeq t

/-- KEY_UPDATE_COMMIT (R388 steps 4 and 5): the commit word verifies and the generation becomes active. A first key in
BLANK goes on to the lifecycle decision of R390. -/
def execKeyUpdateCommit (t : Nat) (ok : Bool) (s : State) : Host.Outcome State Fault Refusal :=
  .next (s.when (decide (t < 8) && s.cclk) fun s =>
    match (s.ten t).update with
    | none => s
    | some u =>
      if !u.written then s
      else
        let s0 := s.modTen t (fun x => { x with update := none })
        if ok then
          let s1 := s0.modSlot t u.slotB (fun x => { x with valid := true })
          let s2 := s1.modTnv t (fun n => { n with hash := if u.hash.isEmpty then n.hash else u.hash })
          let s3 := (s2.modTen t (fun x => { x with activeB := some u.slotB })).raise 0x22 9
          let s4 := if u.ticket.opcode = 0x20 then s3.tenBorn t else s3
          if s4.life = 3 ∧ u.ticket.opcode = 0x10 then (s4.lifeFirst u.ticket 5 true).nvStart
          else (s4.answer u.ticket (.of stDONE)).nvStart
        else
          let page := 256 + 2 * t + (if u.slotB then 1 else 0)
          let s1 := s0.modSlot t u.slotB (fun x => { x with gen := 0, key := [] })
          ((s1.nvFail page 1).answer u.ticket (.of stRETRY)).nvStart)

/-! ## Tenants (R380-R383) -/

/-- QUE_TQ as TENANT_CREATE asks for it. -/
def quotaWord (c : Cmd) : Nat := fieldLE c.payload 2 2 % 4096 + 65536 * (fieldLE c.payload 4 2 % 4096) + 2 ^ 28 * (c.byte 1 % 16)

/-- TENANT_CREATE (R381). -/
def execTenantCreate (s : State) : Host.Outcome State Fault Refusal :=
  .next (s.command (opIs 0x20) (fun c k s =>
    let n := c.byte 0
    let k := { k with concern := n }
    if s.tenExists n then s.answer k (.of stSTATE)
    else if s.badQuota n (quotaWord c) || fieldLE c.payload 2 2 == 0 || decide (4096 ≤ fieldLE c.payload 2 2)
        || decide (4096 ≤ fieldLE c.payload 4 2) then s.answer k (.of stPARAM)
    else if 20000 ≤ (s.slot n false).writes then s.answer k (.of stWORN)
    else
      let s1 := (s.setReg (A.QUE_TQ n) (BitVec.ofNat 32 (normWord (A.QUE_TQ n) (quotaWord c)))).poolMark
      s1.keyStart k n 1 (s.keyFrom n 1 (c.payload.drop 8)) (Config.sha256 (c.payload.drop 8)) false))

/-- TENANT_ENROL (R382): one above the highest valid generation, in the other slot. -/
def execTenantEnrol (s : State) : Host.Outcome State Fault Refusal :=
  .next (s.command (opIs 0x21) (fun c k s =>
    let n := c.byte 0
    let k := { k with concern := n }
    if !(s.tenExists n) then s.answer k (.of stSTATE)
    else
      let best := s.bestSlot n
      let g := (match best with | none => 0 | some b => (s.slot n b).gen) + 1
      let q := c.payload.drop 8
      s.keyStart k n g (s.keyFrom n g q) (Config.sha256 q) (match best with | none => false | some b => !b)))

/-- The open bundles and intake queues of a tenant are discarded, with what waits to enter them (R383). -/
def State.dropTenant (s : State) (t : Nat) : State :=
  let s1 := forEach (List.range 4) (fun l s =>
    let q := qIntake t l
    let k := qOut t l
    let s1 := (forEach allProducers (fun p s => s.setPend q p []) (s.setQueue q [])).setPend k .bundler []
    (s1.freeGran t (laneGran (s1.lane k))).modLane k (fun x => { lane0 with credit := x.credit })) s
  s1.setEvict t none

/-- TENANT_REMOVE (R383). -/
def execTenantRemove (s : State) : Host.Outcome State Fault Refusal :=
  .next (s.command (opIs 0x22) (fun c k s =>
    let n := c.byte 0
    if !(s.tenExists n) then s.answer k (.of stSTATE)
    else
      let s1 := ((s.clrBit F.SYS_DORM_EXIST n).clrBit F.SYS_DORM_DORMANT n).modTnv n (fun x => { x with exist := false })
      let s2 := (s1.dropTenant n).returnOwned n 0
      let s3 := (s2.setFld (F.QUE_TQ_MIN n) 0).setFld (F.QUE_TQ_MAX n) 0
      let s4 := (s3.setFld (F.QUE_TUSE_LOANED n) (s3.fld (F.QUE_TUSE_USED n))).poolMark
      let s5 := s4.modTen n (fun x => { x with removing := s4.lockedLeft n, activeB := none, upload := none, update := none })
      s5.deferShow.cmdWrite k (fun k => .erase k n)))

/-! ## Resets by command (R94, R105) -/

/-- TENANT_RESET (R94, R411). -/
def execTenantReset (s : State) : Host.Outcome State Fault Refusal :=
  .next (s.command (opIs 0x28) (fun c k s =>
    if !(s.tenExists (c.byte 0)) then s.answer k (.of stSTATE)
    else (s.tenReset (c.byte 0) 9).answer k (.of stDONE)))

/-- DATAPATH_RESET (R94). -/
def execDatapathReset (s : State) : Host.Outcome State Fault Refusal :=
  .next (s.command (opIs 0x29) (fun _ k s => (s.dpReset 9).answer k (.of stDONE)))

/-- FULL_RESET_CMD (R94): no response (R398). -/
def execFullResetCmd (s : State) : Host.Outcome State Fault Refusal :=
  .next (s.command (opIs 0x2A) (fun _ _ s => s.cmdReset))

/-- HOST_RESET (R105). -/
def execHostReset (s : State) : Host.Outcome State Fault Refusal :=
  .next (s.command (opIs 0x2B) (fun _ k s => s.hostPulse.answer k (.of stDONE)))

/-! ## Attestation (R412) -/

/-- Bytes 0-143 of the report. -/
def State.attBody (s : State) (c : Cmd) : List Byte :=
  let t := c.tenant
  let hash := fun (l : List Byte) => l.take 32 ++ List.replicate (32 - l.length) 0
  [0x7A, 0x41, 1] ++ bytesLE 1 t ++ c.payload.take 32 ++ s.devId
    ++ bytesLE 1 s.nv.trim.letter ++ bytesLE 1 (s.fld F.IDN_REV_REV) ++ bytesLE 2 (s.fld F.IDN_ROM_ROM)
    ++ bytesLE 2 (s.fld F.IDN_FW_LEVEL) ++ bytesLE 1 s.apiLevel ++ bytesLE 1 s.chartFmt ++ bytesLE 1 s.life
    ++ bytesLE 1 (flag (s.tenExists t) 1 + flag (s.dormant t) 2 + flag (s.ten t).removing 4 + flag (s.on F.LOG_STATUS_DEAD) 8)
    ++ bytesLE 2 (s.activeGen t) ++ bytesLE 8 (s.ten t).hw ++ hash (sliceB (s.chartBytes t) 16 32) ++ hash (s.tnv t).hash
    ++ bytesLE 4 (s.fld F.RCK_EPOCH_ID) ++ bytesLE 8 s.ht ++ bytesLE 4 (s.fld F.TAM_LATCH_LATCHED)

/-- ATTEST (R412): the report is built and its signing begins. -/
def execAttest (s : State) : Host.Outcome State Fault Refusal :=
  .next (s.command (opIs 0x18) (fun c k s =>
    (s.modTen c.tenant (fun x => { x with report := s.attBody c, signing := true })).answer k (.of stDONE)))

/-- ATTEST_SIGN_DONE (R412, R414): the signature completes. -/
def execAttestSignDone (t : Nat) (s : State) : Host.Outcome State Fault Refusal :=
  .next (s.when (decide (t < 8) && s.cclk && (s.ten t).signing) fun s =>
    (s.modTen t (fun x => { x with
      report := x.report ++ Config.ecdsaSign s.nv.trim.deviceKey x.report, signing := false })).raise 0x22 10)

/-! ## Patch (R107-R109) -/

/-- The reason for which a patch image is rejected, in the coding of SYS_BOOT.PATCH_WHY; none when it is accepted (R108).
DESIGN CHOICE (log entry 136): a body length that R107 and R121 do not allow, or that the image does not have, is reason
0b01. -/
def State.patchWhy (s : State) (l : List Byte) : Option Nat :=
  let body := sliceB l 128 (fieldLE l 16 4)
  let key := sliceB l 64 64
  let rev := s.fld F.IDN_REV_REV
  let rom := s.fld F.IDN_ROM_ROM
  if l.take 2 != [0x7A, 0x50] || fieldLE l 2 1 != 1 then some 0
  else if Config.sha256 key != Config.romKeyHash
      || !(Config.ecdsaVerify key (Config.sha256 (l.take 128)) (l.drop (128 + body.length)))
      || fieldLE l 16 4 % 4 != 0 || fieldLE l 16 4 == 0 || decide (16192 < fieldLE l 16 4) || l.length != 192 + fieldLE l 16 4
      || Config.sha256 body != sliceB l 20 32 then some 1
  else if !((fieldLE l 4 4).testBit (8 * (rev / 16 - 1) + rev % 16)) then some 2
  else if rom < fieldLE l 8 2 ∨ fieldLE l 10 2 < rom then some 3
  else none

/-- PATCH_LOAD with the row's kind; an unknown kind is decided with BEGIN (check 13). -/
def patchIs (kind : Nat) (c : Cmd) : Bool :=
  c.opcode == 0x38 && (if kind = 1 then c.byte 0 != 2 && c.byte 0 != 3 else c.byte 0 == kind)

/-- PATCH_LOAD_BEGIN (R109). -/
def execPatchLoadBegin (s : State) : Host.Outcome State Fault Refusal :=
  .next (s.command (patchIs 1) (fun _ k s =>
    { s with stw := { s.stw with patchOpen := true, patchBuf := [] } }.answer k (.of stDONE)))

/-- PATCH_LOAD_DATA (R109): into a staging half of 16 KiB. -/
def execPatchLoadData (s : State) : Host.Outcome State Fault Refusal :=
  .next (s.command (patchIs 2) (fun c k s =>
    let off := fieldLE c.payload 4 4
    let b := c.payload.drop 8
    if !s.stw.patchOpen then s.answer k (.of stSTATE)
    else if 16384 < off + b.length then s.answer k (.of stPARAM)
    else { s with stw := { s.stw with patchBuf := stageAt s.stw.patchBuf off (b.map some) } }.cmdWrite k
      (fun k => .patchData k off b.length)))

/-- PATCH_LOAD_COMMIT (R109): checked under R108, then committed for the next FULL reset. -/
def execPatchLoadCommit (s : State) : Host.Outcome State Fault Refusal :=
  .next (s.command (patchIs 3) (fun _ k s =>
    if !s.stw.patchOpen then s.answer k (.of stSTATE)
    else match stagedBytes s.stw.patchBuf with
      | none => s.answer k (.of stPARAM)
      | some l =>
        if (s.patchWhy l).isSome then s.answer k (.of stPARAM)
        else { s with stw := { s.stw with patchOpen := false } }.cmdWrite k (fun k => .patchCommit k l)))

/-! ## NV_WRITE_COMPLETE (R79) -/

/-- A failed verification leaves staged bytes unwritten. -/
def unstage (l : List (Option Byte)) (off len : Nat) : List (Option Byte) := stageAt l off (List.replicate len none)

/-- What an NV write of a command commits, verified or not. -/
def State.jobDone (s : State) (j : NvJob) (ok : Bool) : State :=
  match j with
  | .chartData k off len =>
    if ok then s else (s.modTen k.tenant (fun x => { x with staged := unstage x.staged off len })).nvFail (s.jobPage j) 1
  | .config _ m => if ok then { s with nv := { s.nv with config := some m, configGood := true } } else s.nvFail (s.jobPage j) 1
  | .patchData _ off len =>
    if ok then s else { s with stw := { s.stw with patchBuf := unstage s.stw.patchBuf off len } }.nvFail (s.jobPage j) 1
  | .patchCommit _ l => if ok then s.patchStand l else s.nvFail (s.jobPage j) 1
  | .erase _ n =>
    let s1 := (s.nvErase (256 + 2 * n)).nvErase (257 + 2 * n)
    let clear := fun (k : KeySlot) => { slot0 with writes := k.writes }
    if ok then s1.modTnv n (fun x => { x with slotA := clear x.slotA, slotB := clear x.slotB, chart := none, hash := [] })
    else s1.nvFail (s.jobPage j) 1
  | .seqReserve _ _ => s
  | .logEntry => s
  | .chartCommit _ _ => s

/-- NV_WRITE_COMPLETE (R79, R398): the write in work ends, its command gets its response, and the next write starts. The
rows SEQ_RESERVATION_COMMIT, LOG_ENTRY_WRITE and CHART_COMMIT_DONE end the others. -/
def execNvWriteComplete (ok : Bool) (s : State) : Host.Outcome State Fault Refusal :=
  .next (s.when (s.cclk && s.stw.nvActive) fun s =>
    match s.stw.nvq with
    | [] => s
    | j :: _ =>
      match j with
      | .seqReserve _ _ => s
      | .logEntry => s
      | .chartCommit _ _ => s
      | _ =>
        let s1 := s.nvEnd.jobDone j ok
        match jobTicket j with
        | none => s1
        | some k => s1.answer k (.of (if ok then stDONE else stRETRY)))

end Sys2Proof.Machine
end

