-- ==== Sys2Proof/Machine/Boot.lean ====
section
/-! DEFINITION. Boot (R99-R102, R120, R387, R395, R376), the release of the host, and the restart after a DATAPATH or
TENANT reset (R97, R98, R411). -/

namespace Sys2Proof.Machine

/-- Boot goes on from the stage `n` it has reached, unless a FULL reset has ended it: a tamper response, or a reset that a
chart commands. -/
def State.bootOn (s : State) (n : Nat) (f : State → State) : State :=
  s.when (decide (s.sys.phase = .booting) && s.fld F.SYS_BOOT_STAGE == n) f

def State.stage (s : State) (n : Nat) : State := s.setFld F.SYS_BOOT_STAGE n

def causeBit : Cause → Nat
  | .por => 0
  | .bor => 1
  | .nrst => 2
  | .hold => 3
  | .cmd => 4
  | .lifecycle => 5

/-- A failed check of the ROM or of the trim (R102): boot halts. -/
def State.bootHalt (s : State) (err : Nat) : State := (s.setFld F.SYS_BOOT_ERR err).stage 15

/-! ## Steps 1 to 4 -/

/-- Reset ends: its cause and the retention domain (R96, R122), the cold start (R68), and the oscillator in crystal mode
with the synthesizer locked and CCLK at G0 (R99). -/
def State.bootStart (s : State) (mv : Nat) : State :=
  let kept := s.sys.retained
  let s1 := if kept then s.setFld F.SYS_BOOT_RETAINED 1 else { s with closed := [] }
  let s2 := s1.setReg A.SYS_RST_CAUSE (s1.reg A.SYS_RST_CAUSE ||| BitVec.ofNat 32 (2 ^ causeBit s1.sys.cause))
  let s3 := if s2.sys.coldBoot then s2.setFld F.PWR_HSTAT_COLDSTART 1 else s2
  let s4 := s3.modSys (fun y => { y with retained := true, coldBoot := false, vstore := mv })
  (((s4.setFld F.CLK_SYN_ON 1).setFld F.CLK_SYN_LOCK 1).setFld F.CLK_MON_AMP_OK 1).applyCode 0

/-- The registers that show factory trim (log entry 7). -/
def State.loadTrim (s : State) : State :=
  let t := s.nv.trim
  ((s.setFld F.IDN_PART_LETTER t.letter).setFld F.IDN_DEVID_LO_ID t.devLo).setFld F.IDN_DEVID_HI_ID t.devHi

/-! ## Step 5: the NV configuration -/

/-- The stored fields; where none are stored, those whose default is factory trim take it. A flare keeps its stored reset
level until its release after step 9 (R11). -/
def State.loadConfig (s : State) : State :=
  let s1 := forEach nvRegs (fun a s => s.setReg a (s.nvReset a)) s
  let s2 := if s.nv.config.isSome && s.configReads then s1
    else (s1.setFld F.CLK_XO_CLOAD s.nv.trim.cload).setReg A.TAM_TWARN (BitVec.ofNat 32 s.nv.trim.twarn)
  forEach [0, 1] (fun f s => s.setFld (F.ROS_FLR_REL f) 0) s2

/-- The lifecycle word and its inverse agree on a state of R116. -/
def lifeWordGood (n : Nv) : Bool := n.lifeInv == 15 - n.life && [3, 5, 9, 0xE].contains n.life

/-- SYS_LIFE and the tenants that exist (R116, R120, R380). -/
def State.loadLife (s : State) : State :=
  let life := if lifeWordGood s.nv then s.nv.life else 9
  let there := (List.range 8).foldl (fun m t => if (s.tnv t).exist then m ||| 2 ^ t else m) 1
  (s.setFld F.SYS_LIFE_STATE life).setFld F.SYS_DORM_EXIST (if life = 9 then there else 1)

/-- In RETIRED what tenants 1-7 owned belongs to tenant 0, and their quotas are 0 (R120). -/
def State.loadRetired (s : State) : State :=
  let s1 := forEach (List.range 12) (fun c s => s.setFld (F.STP_CH_CFG_OWNER c) 0) s
  let s2 := forEach [0, 1] (fun f s => s.setFld (F.ROS_FLR_OWNER f) 0) s1
  let s3 := forEach (List.range 16) (fun i s => s.setFld (F.PSQ_TOWN_OWNER i) 0) s2
  forEach [1, 2, 3, 4, 5, 6, 7] (fun t s => (s.setFld (F.QUE_TQ_MIN t) 0).setFld (F.QUE_TQ_MAX t) 0) s3

/-- A Flyleaf that holds a LOG_DEAD entry keeps the Logbook DEAD (R471); an entry there that does not verify keeps
FLYDEAD. -/
def State.loadLog (s : State) : State :=
  let dead := s.nv.fly.any (fun e => fieldLE e.bytes 0 1 == 9)
  let s1 := (s.putOn F.LOG_STATUS_DEAD dead).putOn F.LOG_STATUS_FLYDEAD (s.nv.fly.any (fun e => !e.good))
  (s1.setFld F.LOG_STATUS_FLY_USED s.nv.fly.length).setFld F.LOG_SEQ_SEQ s.nv.logSeq

/-- Step 5 (R99, R102, R116). -/
def State.bootConfig (s : State) : State :=
  let s1 := ((s.stage 2).loadConfig.loadLife).loadLog
  let s2 := if s1.life = 0xE then s1.loadRetired else s1
  let s3 := if s2.configReads then s2 else occur tcNVINTEG 15 0x26 0 0 ((s2.bootErr 3 0 0).nvFail 244 2)
  s3.bootOn 2 fun s => if lifeWordGood s.nv then s else occur tcNVINTEG 15 0x01 0x84 0 s

/-! ## Steps 6 to 10 -/

/-- The supervisor's outputs at the start of step 6 (R65, R101): ABOVE_VWARN rises above VWARN + 60 mV and falls below VWARN;
`peak` is the highest VSTORE since it was last below VWARN, or since the reset. -/
def State.supplyFlags (s : State) (mv peak : Nat) : State :=
  let up := decide (s.vwarn ≤ mv) && (s.on F.PWR_THR_STAT_ABOVE_VWARN || decide (s.vwarn + 60 < max mv peak))
  (s.putOn F.PWR_THR_STAT_ABOVE_VWARN up).supply mv

/-- The tenants whose ring words step 6 writes. -/
def State.ringTens (s : State) : List Nat := (List.range 8).filter (fun t => s.tenExists t)

/-- The number of ring words of step 6 (R516): the boot number, and two words of each tenant. -/
def State.ringCount (s : State) : Nat := 1 + 2 * s.ringTens.length

/-- The `k`-th word program of step 6 (R516): the boot number (R124), then the bundle-sequence reservations (R376), then the
command-counter reservations (R395), in tenant order. -/
def State.ringWord (s : State) (k : Nat) : State :=
  let ts := s.ringTens
  if k = 0 then { s with nv := { s.nv with bootNum := min (2 ^ 20 - 1) (s.nv.bootNum + 1), ringGood := true } }
  else if k ≤ ts.length then s.modTnv (ts.getD (k - 1) 0) (fun n => { n with seqHw := n.seqHw + 65536 })
  else s.modTnv (ts.getD (k - 1 - ts.length) 0) (fun n => { n with ceil := min (2 ^ 64 - 1) (n.ceil + 1024) })

/-- What step 6 finds committed: the next bundle sequence and the counter high-water of each tenant (R376, R395); an
unreadable ring is ERR 4 (R102). -/
def State.ringRead (s : State) : State :=
  let s1 := if s.nv.ringGood then s else (s.bootErr 4 0 0).nvFail 272 2
  forEach (List.range 8) (fun t s => s.modTen t (fun x => { x with hw := (s.tnv t).ceil, seqNext := (s.tnv t).seqHw })) s1

/-- The boot number and the epoch ID as the registers show them (R124, R278). -/
def State.showBoot (s : State) : State :=
  let n := s.nv.bootNum
  ((s.setFld F.IDN_BOOTNUM_NUM n).putOn F.IDN_BOOTNUM_EXHAUSTED (n == 2 ^ 20 - 1)).setFld F.RCK_EPOCH_ID (n * 4096)

/-- The class of a HOLD is latched again, without an entry (R460). -/
def State.relatch (s : State) : State :=
  match s.log.hold with
  | none => s
  | some (cls, last, aud) =>
    let s1 := (s.setBit F.TAM_LATCH_LATCHED (cls - 1)).addSat (F.TAM_CNT_CNT (cls - 1)) 1
    let s2 := s1.setReg A.TAM_LAST (BitVec.ofNat 32 last)
    let tam := { s2.tam with auds := mapSet (fun _ => 0) s2.tam.auds cls aud }
    let s3 := s.risen [0x23, 0x24, 0x25, 0x26] { s2 with log := { s2.log with hold := none }, tam := tam }
    let s4 := s3.raise 0x23 8
    if 2 ≤ s4.levelInForce then s4.setFld F.TAM_LATCH_SEALSTOP 1 else s4

/-- An entry that HOLD kept is written after step 6 (R460). -/
def State.keptEntry (s : State) : State :=
  match s.log.kept with
  | none => s
  | some e => ({ s with log := { s.log with kept := none, pend := s.log.pend ++ [e] } }).nvRequest .logEntry

/-- Step 6 (R99, R516): `words` of its ring words stand. With fewer than all of them a reset has cut the boot: it stays in
step 6 until that reset, which is a command of its own (log entry 142). -/
def State.bootRings (s : State) (words : Nat) : State :=
  let good := s.nv.ringGood
  let s1 := (s.stage 3).ringRead
  let s2 := forEach (List.range (min words s1.ringCount)) (fun k s => s.ringWord k) s1
  if words < s1.ringCount then s2
  else
    let s3 := s2.showBoot
    (if good then s3 else occur tcNVINTEG 15 0x26 0 0 s3).bootOn 3 fun s => ((s.relatch).keptEntry).nvStart

/-- Step 7: the patch (R108, R110). -/
def State.bootPatch (s : State) : State :=
  let s0 := s.stage 4
  match s0.nv.patch with
  | none => s0
  | some l => match s0.patchWhy l with
    | none =>
      let s1 := (s0.setFld F.IDN_FW_LEVEL (fieldLE l 12 2)).setFld F.IDN_FW_RUNS 1
      ((s1.setFld F.IDN_API_LEVEL (fieldLE l 14 1)).setFld F.IDN_FMT_FMT
        (s1.fld F.IDN_FMT_FMT / 256 * 256 + fieldLE l 15 1)).setFld F.SYS_BOOT_PATCH 1
    | some w =>
      let s1 := (s0.setFld F.SYS_BOOT_PATCH_REJ 1).setFld F.SYS_BOOT_PATCH_WHY w
      (s1.logEntry 3 w 0 0 (fieldLE l 12 2)).raise 0x01 10

/-- The granules of retained bundles are in use; in RETIRED those of tenants 1-7 count as loans (R96, R120, R173). The reset
rewound what a host-port transaction had delivered of them (R185). -/
def State.bootRetained (s : State) : State :=
  let s1 := (forEach (List.range 32) (fun k s => forEach (s.closedOf k) (fun b s => s.takeGran (k / 4) b.granules 0) s) s).poolMark
  forEach ((List.range 8).filter (fun t => s1.sys.rewound.testBit t)) (fun t s => s.setFld (F.QUE_PSTAT_REWOUND t) 1) s1

/-- A tenant without an active key after step 8 is the rise of the level NOKEY (R134). -/
def State.keysShown (s : State) : State := if (List.range 8).any s.noKey then s.raise 0x21 10 else s

/-- Step 8: keys and retained queues (R387, R102). -/
def State.bootKeys (s : State) : State :=
  (forEach (List.range 8) (fun t s =>
    if !(s.tenExists t) then s
    else match s.bestSlot t with
      | some b => s.modTen t (fun x => { x with activeB := some b })
      | none => if s.life = 5 ∨ s.life = 9 then (s.bootErr 5 (2 ^ t) t).goDormant t else s) (s.stage 5)).bootRetained.keysShown

/-- Step 9: charts, at the highest gear, tenant 0 first (R407); then stored flare releases take effect (R11, R348). -/
def State.bootCharts (s : State) : State :=
  let s1 := ((s.stage 6).addSat F.CLK_GSW_COUNT 2).raise 0x02 10
  let s2 := forEach (List.range 8) (fun t s => s.bootOn 6 fun s => if s.tenExists t then s.applyChart t true else s) s1
  s2.bootOn 6 fun s => forEach [0, 1] (fun f s =>
    if wbits (s.nvReset (A.ROS_FLR f)).toNat (F.ROS_FLR_REL f) = 1 then (s.setFld (F.ROS_FLR_REL f) 1).flareReleased f else s) s

/-- Step 10: VHOST goes on, and a stored oscillator mode is applied (R99, R100); `oscLock` tells that lock came back within
0.1 ms. -/
def State.bootHost (s : State) (oscLock : Bool) : State :=
  let s1 := s.stage 7
  let s2 := if s1.on F.PWR_VHOST_EN then s1.vhostUp else s1
  let m := s2.fld F.CLK_XO_MODE
  if s2.clk.mode = m then s2
  else
    let s3 := { s2 with clk := { s2.clk with mode := m } }
    if oscLock then s3 else ((s3.unlock.setFld F.CLK_EVT_LOCK_LOST 1).raise 0x02 9).holdover

/-- Steps 7 to 10. -/
def State.bootRest (s : State) (oscLock : Bool) : State :=
  (((s.bootOn 3 State.bootPatch).bootOn 4 State.bootKeys).bootOn 5 State.bootCharts).bootOn 6 fun s => s.bootHost oscLock

/-- Steps 6 to 10, once the supply can finish them; otherwise boot waits at STAGE 0xE (R101). -/
def State.bootSupply (s : State) (supply : BootSupply) (oscLock : Bool) : State :=
  let s1 := s.supplyFlags supply.mv supply.peak
  if s1.on F.PWR_THR_STAT_ABOVE_VWARN && s1.on F.PWR_THR_STAT_ABOVE_KEYW then
    (s1.bootRings supply.words).when (decide (s1.ringCount ≤ supply.words)) fun s => s.bootRest oscLock
  else s1.stage 14

/-- The oscillator fails to start at boot (R57): the synthesizer is off, so no holdover begins, and boot does not go on
(log entry 143). -/
def State.oscFailed (s : State) : State := (s.setFld F.CLK_EVT_AMP_LOST 1).raise 0x02 8

/-- BOOT (R99): `supply` is the supply at step 6, `start` how the oscillator's start and the ROM check went, `oscLock` as in
step 10. -/
def execBoot (supply : BootSupply) (start : BootStart) (oscLock : Bool) (s : State) : Host.Outcome State Fault Refusal :=
  .next (s.when (decide (s.sys.phase = .booting) && s.fld F.SYS_BOOT_STAGE == 1) fun s =>
    if start = .oscFailed then s.oscFailed
    else
      let s1 := s.bootStart supply.mv
      if start = .romFailed then s1.bootHalt 1
      else if !s1.nv.trim.good then s1.bootHalt 2
      else (s1.loadTrim.bootConfig).bootOn 2 fun s => s.harvShow.bootSupply supply oscLock)

/-- BOOT_ENERGY_RESUME (R101): the wait at STAGE 0xE ends when both flags are 1. -/
def execBootEnergyResume (supply : BootSupply) (oscLock : Bool) (s : State) : Host.Outcome State Fault Refusal :=
  .next (s.when (decide (s.sys.phase = .booting) && s.fld F.SYS_BOOT_STAGE == 14) fun s => s.bootSupply supply oscLock)

/-- HOST_RELEASE (R99): HRST_N goes high where VHOST is on (R73), the hub is in WATCH, SYS_BOOT.TIME holds the boot's
length, the Logbook scan begins (R466), and the enabled rails go on. -/
def execHostRelease (time : Nat) (s : State) : Host.Outcome State Fault Refusal :=
  .next (s.when (decide (s.sys.phase = .booting) && s.fld F.SYS_BOOT_STAGE == 7) fun s =>
    let s1 := (s.stage 8).setFld F.SYS_BOOT_TIME (min time 65535)
    let s2 := (s1.putOn F.SYS_HREL_RELEASED s1.sys.vhostOn).modSys (fun y => { y with
      phase := .running, pstate := .watch, vhostSettle := false })
    let s3 := (s2.setFld F.SYS_PSTATE_STATE 1).setFld F.LOG_STATUS_SCAN 1
    let s4 := forEach (List.range 3) (fun n s => if s.on (F.PWR_VSENS_EN n) then s.railEnable n else s) s3
    s4.regear)

/-! ## RESET_RESTART (R97, R98, R411) -/

/-- The targets of an enabled TIME or ANGLE descriptor that fell between the reset and the restart. -/
def State.missedTargets (s : State) (x : Desc) : Nat :=
  if dTrig x.words = 0 then (nextTime x.words s.ht - x.next) / (dPeriod x.words * 256)
  else if dTrig x.words = 1 then
    if x.lockSeen then ceilDiv (s.anglePast x.next).toNat (dStep x.words) else 0
  else 0

/-- Counts the missed targets of a descriptor in its stream sequence and its RESET record. -/
def State.countMissed (s : State) (d : Nat) : State :=
  let n := s.missedTargets (s.desc d)
  if n = 0 then s else (s.modDesc d (fun x => { x with seq := (x.seq + n) % 2 ^ 32 })).psqReset d n

/-- The tenants whose TENANT reset is in progress. -/
def State.resetTens (s : State) : List Nat := (List.range 8).filter (fun t => s.rst.busy.testBit t)

/-- RESET_RESTART (R97, R98): what the reset stopped starts again; a TENANT reset first returns what the tenant owns to
reset values and applies its committed chart (R411). -/
def execResetRestart (s : State) : Host.Outcome State Fault Refusal :=
  .next (s.when (s.awake && (s.rst.dp.isSome || s.rst.busy != 0)) fun s =>
    let dp := s.rst.dp.isSome
    let tens := s.resetTens
    let hit := fun (s : State) (d : Nat) => dEn (s.desc d).words && (dp || tens.contains (dOwner (s.desc d).words))
    let s1 := forEach (s.liveDescs.filter (hit s)) (fun d s => s.countMissed d) s
    let s2 := forEach tens (fun t u => u.when (s.sameRun u) fun u =>
      let v := u.returnOwned t t
      v.when (s.sameRun v) fun v => v.applyChart t false) s1
    s2.when (s.sameRun s2) fun s =>
      let s3 := { s with rst := { s.rst with dp := none, busy := 0 } }
      (forEach (s3.liveDescs.filter (hit s3)) (fun d s => s.arm d true) s3).regear)

end Sys2Proof.Machine
end

