-- ==== Sys2Proof/Machine/HostPorts.lean ====
section
/-! DEFINITION. The host ports (R415-R438, R180-R187): the two-wire target as port 0 and the SPI target as port 1. The
bytes that a port sends in a transaction stand in `State.port`. -/

namespace Sys2Proof.Machine

/-! ## Addresses -/

/-- The register that an access to `a` reaches, and whether it goes there through TNn_XDAT (R435). -/
def State.target (s : State) (rq : Requester) (a : Nat) : Bool × Nat :=
  if isTn a && a % 256 == 0x68 && reaches rq false (a / 256) then (true, s.fld (F.TN_XADR_ADR (a / 256 - 0x30)) / 4 * 4)
  else (false, a)

/-- An ST register, at whose end the pointer returns to its byte 0 (R422); TNn_XDAT is as its target. -/
def State.isStream (s : State) (rq : Requester) (a : Nat) : Bool :=
  match masksAt (s.target rq a).2 with
  | some ⟨_, _, _, .stream⟩ => true
  | _ => false

/-- The tenant whose bundles a pop register delivers. -/
def popTenant (a : Nat) : Option Nat :=
  if A.QUE_POP 0 ≤ a ∧ a < A.QUE_POP 8 then some ((a - A.QUE_POP 0) / 4)
  else if isTn a ∧ a % 256 = 0x40 then some (a / 256 - 0x30)
  else none

/-- A transaction on the chart address or the SPI target carries HOST and moves over all pages (R422). -/
def chartTx (x : Tx) : Bool := decide (x.req = .host)

/-- The pointer `k` bytes after `a`, within one register, for reads or for writes (R422, R423, R429). -/
def State.movePtr (s : State) (x : Tx) (write : Bool) (a k : Nat) : Nat :=
  if s.isStream x.req (a / 4 * 4) then a / 4 * 4 + (a % 4 + k) % 4
  else if chartTx x && !write then (a + k) % 65536
  else a / 256 * 256 + (a % 256 + k) % 256

/-- The place of a two-wire pointer: that of the chart address, or of a window. -/
def ptrKey : Requester → Nat
  | .window n => n
  | _ => 8

/-- The pointer at rest: 0x0000 after a FULL reset; a window's is into its own page (R422, R423). -/
def ptrHome (k : Nat) : Nat := if k < 8 then 0x3000 + 256 * k else 0

def State.ptrOf (s : State) (rq : Requester) : Nat := mapGet ptrHome s.ptrs (ptrKey rq)

def State.modTx (s : State) (p : Nat) (f : Tx → Tx) : State := s.setTx p ((s.txOf p).map f)

/-- Puts the pointer of an open transaction; a two-wire pointer persists (R422). -/
def State.putPtr (s : State) (p : Nat) (x : Tx) (a : Nat) : State :=
  let s1 := s.modTx p (fun x => { x with ptr := a })
  if p = 0 then
    let s2 := s1.setFld F.HTW_STAT_PTR a
    { s2 with ptrs := mapSet ptrHome s2.ptrs (ptrKey x.req) a }
  else s1

/-! ## Popping (R180-R187) -/

/-- Another transaction is reading the tenant's pop register (R183). -/
def State.otherPops (s : State) (p t : Nat) : Bool :=
  match s.txOf (1 - p) with
  | none => false
  | some y => y.popT == some t || y.bundles.any (fun b => b.1 / 4 == t)

/-- The bundle under delivery to a transaction for a tenant: its lane, itself, and the bytes delivered of it. -/
def State.underDelivery (s : State) (x : Tx) (t : Nat) : Option (Nat × Bundle × Nat) :=
  match (x.bundles.filter (fun b => b.1 / 4 == t)).getLast? with
  | none => none
  | some (k, seq, n) => match s.bundleAt k seq with
    | none => none
    | some b => if ceilDiv n 4 * 4 < (bundleBytes b).length then some (k, b, n) else none

/-- The head closed bundle of the highest lane that holds one not yet delivered in the transaction (R181). -/
def State.selectBundle (s : State) (x : Tx) (t : Nat) : Option (Nat × Bundle × Nat) :=
  (firstWith (fun (y : Nat × List Bundle) => !y.2.isEmpty) ((List.range 4).map (fun l =>
    let k := qOut t l
    (k, (s.closedOf k).filter (fun b => b.done && !(x.bundles.any (fun y => y.1 == k && y.2.1 == b.seq))))))).bind
      (fun y => y.2.head?.map (fun b => (y.1, b, 0)))

/-- What the next pop read of a transaction delivers from; none where it finds nothing to select. -/
def State.popNext (s : State) (p : Nat) (x : Tx) (t : Nat) : Option (Nat × Bundle × Nat) :=
  if s.otherPops p t then none
  else match s.underDelivery x t with
    | some y => some y
    | none => s.selectBundle x t

/-- The stall limit has passed in the transaction: every byte that follows is 0x00 (R182). -/
def muted (x : Tx) : Bool := x.result == 7

/-- A transaction's pop of the tenant has to wait (R182, R430). -/
def State.popWaits (s : State) (p : Nat) (x : Tx) (t : Nat) : Bool :=
  !x.zero && (s.popNext p x t).isNone && s.on (F.QUE_TCFG_STALL t) && !(p == 1 && x.read)

/-- The delivered bytes of a bundle in a transaction: the bundle joins its list, or its place moves on. -/
def deliver (l : List (Nat × Nat × Nat)) (k seq n : Nat) : List (Nat × Nat × Nat) :=
  if l.any (fun y => y.1 == k && y.2.1 == seq) then l.map (fun y => if y.1 == k && y.2.1 == seq then (k, seq, n) else y)
  else l ++ [(k, seq, n)]

/-- A pop read in a transaction, of which the bytes up to `e` are transferred; none where it stalls. -/
def State.popWord (s : State) (p t e : Nat) : Option (Word × State) :=
  match s.txOf p with
  | none => some (0, s)
  | some x =>
    if muted x then some (0, s)
    else if x.zero then some (0, s.modTx p (fun x => { x with result := max x.result 8 }))
    else match s.popNext p x t with
      | some (k, b, n) =>
        let m := ceilDiv n 4 * 4
        some (BitVec.ofNat 32 (fieldLE (bundleBytes b) m 4),
          s.modTx p (fun x => { x with bundles := deliver x.bundles k b.seq (m + e), popT := some t }))
      | none =>
        if s.popWaits p x t then none
        else some (0, (s.setFld (F.QUE_PSTAT_EMPTY t) 1).modTx p (fun x => { x with popT := if s.otherPops p t then x.popT else some t }))

/-- A bundle has been read: its lane holds it no longer, and its granules are free (R171, R184). -/
def State.retireOne (s : State) (k : Nat) (b : Bundle) : State :=
  (s.setClosed k ((s.closedOf k).filter (fun c => c.seq != b.seq))).freeGran (k / 4) b.granules

/-- The place of the pops that no host-port transaction makes. -/
def alone : Nat := 2

/-- The pop of a requester that has no transaction open (R4, R180): each read takes the next word, and the bundle is retired
with its last one. It never stalls, and gives way to a host-port transaction that reads the tenant (DESIGN CHOICE, log
entry 118). -/
def State.popAlone (s : State) (rq : Requester) (t : Nat) : Word × State :=
  let x := (s.txOf alone).getD ⟨rq, 0, true, 0, [], 0, none, [], 0, 0, none, 0, false, false, 0, []⟩
  match (if s.otherPops 0 t || s.otherPops 1 t then none
    else match s.underDelivery x t with
      | some y => some y
      | none => s.selectBundle { x with bundles := [] } t) with
  | none => (0, s.setFld (F.QUE_PSTAT_EMPTY t) 1)
  | some (k, b, n) =>
    let rest := x.bundles.filter (fun y => y.1 / 4 != t)
    (BitVec.ofNat 32 (fieldLE (bundleBytes b) n 4),
      if (bundleBytes b).length ≤ n + 4 then (s.retireOne k b).setTx alone (some { x with bundles := rest })
      else s.setTx alone (some { x with bundles := rest ++ [(k, b.seq, n + 4)] }))

/-! ## Reading -/

/-- A read that is denied, or a lock that is restricted against the requester. -/
def State.deniesRead (s : State) (rq : Requester) (via : Bool) (a : Nat) : Bool :=
  (s.readDenied rq via a).isSome || (match lockNo a with | none => false | some k => s.lockBars rq k)

/-- Reads the register at `a` in the transaction of port `p`, of which the bytes up to `e` are transferred; none where a
pop stalls (R417). -/
def State.freshRead (s : State) (p : Nat) (x : Tx) (a e : Nat) : Option (Word × State) :=
  let t := s.target x.req a
  if s.deniesRead x.req t.1 t.2 then
    let r := s.readReg x.req t.1 t.2
    some (r.1, r.2.modTx p (fun x => { x with denied := x.denied + 1 }))
  else match popTenant t.2 with
    | some n => s.popWord p n e
    | none => some (s.readReg x.req t.1 t.2)

/-- The sample from which the bytes of a register from byte `o` come: the one taken with the first of its bytes that the
transaction read (R127, R418). Its lowest byte is sampled afresh, and so is a pop register whose bundle was flushed (R187). -/
def State.sampled (s : State) (x : Tx) (a o : Nat) : Option Word :=
  if o = 0 ∨ (x.zero ∧ (popTenant (s.target x.req a).2).isSome) then none
  else (firstWith (fun (y : Nat × Word) => y.1 == a) x.samples).map (fun y => y.2)

/-- `k` bytes more of the word `w` that a pop read has delivered up to its byte `o` are transferred. -/
def State.popMore (s : State) (p : Nat) (x : Tx) (a o k : Nat) (w : Word) : State :=
  s.modTx p (fun y => { y with bundles := y.bundles.map (fun b =>
    if popTenant (s.target x.req a).2 == some (b.1 / 4) && b.2.2 % 4 == o
        && (match s.bundleAt b.1 b.2.1 with
            | none => false
            | some c => fieldLE (bundleBytes c) (b.2.2 / 4 * 4) 4 == w.toNat) then (b.1, b.2.1, b.2.2 + k)
    else b) })

/-- The word from which a transaction gets `k` bytes of the register at `a` from byte `o` (R127, R418). -/
def State.portRead (s : State) (p : Nat) (x : Tx) (a o k : Nat) : Option (Word × State) :=
  match s.sampled x a o with
  | some w => some (w, s.popMore p x a o k w)
  | none => match s.freshRead p x a (o + k) with
    | none => none
    | some (w, s1) => some (w, s1.modTx p (fun y => { y with samples := (a, w) :: y.samples.filter (fun z => z.1 != a) }))

/-- The bytes of a word from its byte `o`. -/
def wordBytes (w : Word) (o k : Nat) : List Byte := sliceB (bytesLE 4 w.toNat) o k

/-- Sends `left` bytes read from the pointer on; a pop stall interrupts (R182). After a stall that reached its limit every
byte is 0x00. `f` bounds the registers. -/
def State.sendBytes (p : Nat) : Nat → Nat → State → State
  | 0, _, s => s
  | f + 1, left, s =>
    if left = 0 then s
    else match s.txOf p with
      | none => s
      | some x =>
        if muted x then s.sent p (List.replicate left 0)
        else
          let a := x.ptr
          let k := min left (4 - a % 4)
          match s.portRead p x (a / 4 * 4) (a % 4) k with
          | none =>
            let t := (popTenant (s.target x.req (a / 4 * 4)).2).getD 0
            let s1 := s.modTx p (fun x => { x with
              stall := some t, left := left, popT := if s.otherPops p t then x.popT else some t })
            if p = 0 then s1.setFld F.HTW_STAT_STATE 4 else s1
          | some (w, s1) =>
            let s2 := (s1.sent p (wordBytes w (a % 4) k)).putPtr p x (s.movePtr x false a k)
            State.sendBytes p f (left - k) (if s.sameRun s1 then s2 else s1)

/-! ## Staging and the proper end (R416, R419) -/

/-- Stages a byte at the pointer; beyond 256 the byte is dropped. -/
def State.stageByte (s : State) (p : Nat) (b : Byte) : State :=
  match s.txOf p with
  | none => s
  | some x =>
    let s1 := s.modTx p (fun x =>
      if x.count < 256 then { x with staged := x.staged ++ [(x.ptr, b)], count := x.count + 1 }
      else { x with result := max x.result 4 })
    s1.putPtr p x (s.movePtr x true x.ptr 1)

/-- The staged bytes of a plain register: per byte place the last one written. -/
def lastByte (l : List (Nat × Byte)) (a : Nat) : Option Byte := (firstWith (fun x => x.1 == a) l.reverse).map (fun x => x.2)

/-- The write of a plain register at `a`. -/
def plainWrite (l : List (Nat × Byte)) (a : Nat) : Wr :=
  let b := (List.range 4).map (fun i => lastByte l (a + i))
  ⟨a, numLE (b.map (fun x => x.getD 0)), b.any (fun x => x.isNone), false⟩

/-- The writes of an ST register: its bytes four at a time. -/
def streamWrites (a : Nat) : Nat → List Byte → List Wr
  | 0, _ => []
  | f + 1, l => if l.isEmpty then [] else ⟨a, numLE (l.take 4), decide (l.length < 4), false⟩ :: streamWrites a f (l.drop 4)

/-- The registers of staged bytes, in the order in which each was first written. -/
def stagedRegs (l : List (Nat × Byte)) : List Nat :=
  l.foldl (fun r x => if r.contains (x.1 / 4 * 4) then r else r ++ [x.1 / 4 * 4]) []

/-- The staged bytes as the writes of one commit (R416). -/
def State.stagedWrites (s : State) (x : Tx) : List Wr :=
  (stagedRegs x.staged).flatMap (fun a =>
    if s.isStream x.req a then
      let b := (x.staged.filter (fun y => y.1 / 4 * 4 == a)).map (fun y => y.2)
      streamWrites a b.length b
    else [plainWrite x.staged a])

/-- Retires the bundles that a transaction has read in full (R184). -/
def State.retire (s : State) (x : Tx) : State :=
  forEach x.bundles (fun y s => match s.bundleAt y.1 y.2.1 with
    | none => s
    | some b =>
      if (bundleBytes b).length ≤ y.2.2 then s.retireOne y.1 b else s) s

/-- The proper end of a transaction: its bundles retire, its writes commit, and its result is recorded (R184, R416,
R419). -/
def State.properEnd (s : State) (p : Nat) : State :=
  match s.txOf p with
  | none => s
  | some x =>
    let s1 := (s.retire x).dropTx p x
    let d := s1.commit x.req (s1.stagedWrites x)
    let denied := x.denied + d.denied.length
    let part := d.denied.any (fun y => y.2 == dcPARTIAL)
    let r := max x.result (if part then 2 else if denied = 0 then 0 else 1)
    if s.sameRun d.state then
      let s2 := d.state.showEnd p x r d.regs denied
      if part then s2.raise (txPage p) 9 else s2
    else d.state

/-! ## The two-wire target -/


/-- A transaction begins. -/
def State.openTx (s : State) (p : Nat) (rq : Requester) (addr7 ptr : Nat) : State :=
  let s1 := s.setTx p (some ⟨rq, addr7, false, ptr, [], 0, none, [], 0, 0, none, 0, false, false, 0, []⟩)
  { s1 with port := mapSet (fun _ => []) s1.port p [] }

/-- The written bytes of a phase: the pointer, then what is staged (R422, R423). -/
def State.htwBytes (s : State) (rq : Requester) (data : List Byte) : State :=
  match s.txOf 0 with
  | none => s
  | some x =>
    match rq, data with
    | .window n, o :: rest => forEach rest (fun b s => s.stageByte 0 b) (s.putPtr 0 x (0x3000 + 256 * n + o.toNat))
    | .host, pg :: o :: rest => forEach rest (fun b s => s.stageByte 0 b) (s.putPtr 0 x (256 * pg.toNat + o.toNat))
    | _, _ => s

/-- HTW_START (R415, R420-R423): a START or repeated START with its address, the bytes that the host then writes, or the
number of bytes that it reads. An address not of the hub's is not acknowledged. -/
def execHtwStart (addr : Nat) (read : Bool) (data : List Byte) (n : Nat) (s : State) : Host.Outcome State Fault Refusal :=
  .next (s.when (s.portServes && (match s.txOf 0 with | none => true | some x => x.stall.isNone)) fun s =>
    let same := match s.txOf 0 with | none => false | some x => x.addr7 == addr
    let s1 := if same then s else s.abortTx 0 3
    match s1.addrOf addr with
    | none => s1.addSat F.HTW_CNT_NACK 1
    | some rq =>
      let s2 := if same then s1 else s1.openTx 0 rq addr (s1.ptrOf rq)
      let s3 := ((s2.modTx 0 (fun x => { x with read := read, ptr := s2.ptrOf rq })).setFld F.HTW_STAT_REQ (reqCode rq)).setFld
        F.HTW_STAT_PTR (s2.ptrOf rq)
      if read then State.sendBytes 0 n n (s3.setFld F.HTW_STAT_STATE 3)
      else (s3.setFld F.HTW_STAT_STATE 2).htwBytes rq data)

/-- HTW_STOP (R415, R416): a STOP after a whole byte. -/
def execHtwStop (s : State) : Host.Outcome State Fault Refusal :=
  .next (s.when (s.cclk && (match s.txOf 0 with | none => false | some x => x.stall.isNone)) fun s => s.properEnd 0)

/-- HTW_IDLE_ABORT (R415): 25 ms without an edge, which the hub's own stretching does not count, or a STOP inside a
byte. -/
def execHtwIdleAbort (s : State) : Host.Outcome State Fault Refusal :=
  .next (s.when (s.cclk && (match s.txOf 0 with | none => false | some x => x.stall.isNone)) fun s => s.abortTx 0 3)

/-! ## The SPI target -/

/-- SPI_CS_FALL (R55, R431, R433): the gear in force is held as the floor, and an upshift to the gear of HSP_CFG is requested
(`State.wantGear`); in Stow the transaction is not served. -/
def execSpiCsFall (s : State) : Host.Outcome State Fault Refusal :=
  .next (
    if s.sys.phase = .stow then
      s.when (s.on F.PWR_BANK_VIOH_OK) fun s =>
        let s1 := ((s.setFld F.HSP_LAST_RESULT 9).setFld F.HSP_LAST_REGS 0).setFld F.HSP_LAST_DENIED 0
        let s2 := (s1.addSat F.HSP_CNT_TRANS 1).modSys (fun y => { y with csLow := true })
        if s2.bit F.SYS_WAKE_EN_WAKE 10 then s2.wakeCause 10 else s2
    else s.when (s.portServes && (s.txOf 1).isNone && !(s.hspFloor)) fun s =>
      (((s.openTx 1 .host 0 0).setFld F.HSP_STAT_ACTIVE 1).modSys (fun y => { y with csLow := true })).setFloor 8
        (some (if s.cycleGear = gGS then 0 else s.cycleGear)))

/-- The header of a transaction (R428): the previous result and four bytes of 0x00 go out; OPC and ADDR are shown. -/
def State.spiHeader (s : State) (opc addr : Nat) : State :=
  let s1 := s.sent 1 (bytesLE 1 (s.fld F.HSP_LAST_RESULT) ++ [0, 0, 0, 0])
  ((s1.setFld F.HSP_STAT_OPC opc).setFld F.HSP_STAT_ADDR addr).modTx 1 (fun x => { x with
    ptr := addr % 65536, started := true, opc := opc })

/-- An SPI transaction awaits its header. -/
def State.spiReady (s : State) : Bool :=
  s.cclk && (match s.txOf 1 with | none => false | some x => !x.started)

/-- SPI_WRITE (R429): the header, then the data bytes; those beyond LEN are ignored. -/
def execSpiWrite (addr len : Nat) (data : List Byte) (s : State) : Host.Outcome State Fault Refusal :=
  .next (s.when s.spiReady fun s =>
    let s1 := (s.spiHeader 2 addr).sent 1 (List.replicate data.length 0)
    if 256 < len then s1.modTx 1 (fun x => { x with result := max x.result 4 })
    else forEach (data.take len) (fun b s => s.stageByte 1 b) s1)

/-- The data of a READ (R430): the start token, then the bytes. -/
def State.spiData (s : State) (len : Nat) : State :=
  State.sendBytes 1 len len ((s.sent 1 [0xA5]).modTx 1 (fun x => { x with read := true, stall := none, left := 0 }))

/-- SPI_READ (R429, R430). -/
def execSpiRead (addr len : Nat) (s : State) : Host.Outcome State Fault Refusal :=
  .next (s.when s.spiReady fun s =>
    let s1 := s.spiHeader 3 addr
    if len = 0 then s1.modTx 1 (fun x => { x with result := max x.result 5 })
    else match s1.txOf 1 with
      | none => s1
      | some x =>
        let t := s1.target x.req (x.ptr / 4 * 4)
        match popTenant t.2 with
        | none => (s1.sent 1 [0]).spiData len
        | some n =>
          if !(s1.deniesRead x.req t.1 t.2) && s1.popWaits 1 x n then
            s1.modTx 1 (fun x => { x with stall := some n, left := len, popT := if s1.otherPops 1 n then x.popT else some n })
          else s1.spiData len)


/-- SPI_CS_RISE (R415, R416): a proper end after a whole number of bytes, or an abort. -/
def execSpiCsRise (whole : Bool) (s : State) : Host.Outcome State Fault Refusal :=
  .next (
    let s1 := s.modSys (fun y => { y with csLow := false })
    s1.when s1.cclk fun s =>
      let s2 := s.spiFree
      if whole then s2.properEnd 1 else s2.abortTx 1 3)

/-- SPI_OVERRUN (R432). -/
def execSpiOverrun (s : State) : Host.Outcome State Fault Refusal :=
  .next (s.when (s.cclk && (s.txOf 1).isSome) fun s =>
    (((s.abortTx 1 6).addSat F.HSP_CNT_OVERRUN 1).raise 0x0E 10))

/-! ## Pops as commands of their own -/

/-- POP_READ (R180-R183): one word is read from the tenant's pop register in the open transaction of port `p`: QUE_POPn, or
TNn_POP through a window. -/
def execPopRead (p t : Nat) (s : State) : Host.Outcome State Fault Refusal :=
  .next (s.when (s.cclk && decide (p < 2) && decide (t < 8)) fun s =>
    match s.txOf p with
    | none => s
    | some x =>
      if x.stall.isSome then s
      else State.sendBytes p 4 4 (s.putPtr p x (match x.req with | .window _ => A.TN_POP t | _ => A.QUE_POP t)))

/-- A stalled read goes on. -/
def State.popResume (s : State) (p : Nat) (x : Tx) : State :=
  if p = 1 then s.spiData x.left
  else State.sendBytes 0 x.left x.left
    ((s.modTx 0 (fun x => { x with stall := none, left := 0 })).setFld F.HTW_STAT_STATE 3)

/-- POP_STALL_RESUME (R182): a bundle is selectable, and the stalled read delivers it. -/
def execPopStallResume (p : Nat) (s : State) : Host.Outcome State Fault Refusal :=
  .next (s.when (s.cclk && decide (p < 2)) fun s =>
    match s.txOf p with
    | none => s
    | some x => match x.stall with
      | none => s
      | some t => if s.popWaits p x t then s else s.popResume p x)

/-- POP_STALL_TIMEOUT (R182, R430): the stall has reached its limit; a bundle that is selectable by then is delivered
(R189). -/
def execPopStallTimeout (p : Nat) (s : State) : Host.Outcome State Fault Refusal :=
  .next (s.when (s.cclk && decide (p < 2)) fun s =>
    match s.txOf p with
    | none => s
    | some x => match x.stall with
      | none => s
      | some t =>
        if !(s.popWaits p x t) then s.popResume p x else
        let s1 := (s.setFld (F.QUE_PSTAT_EMPTY t) 1).modTx p (fun x => { x with
          stall := none, left := 0, result := max x.result 7 })
        if p = 1 then s1.sent 1 ([0x5A] ++ bytesLE 1 x.opc ++ bytesLE 2 x.ptr ++ [0, 0])
        else (s1.sent 0 (List.replicate x.left 0)).setFld F.HTW_STAT_STATE 3)

/-! ## TNn_XDAT (R435) -/

/-- The port whose open transaction a requester's access belongs to. -/
def State.txPort (s : State) (rq : Requester) : Option Nat :=
  firstWith (fun p => match s.txOf p with | none => false | some x => decide (x.req = rq) && x.stall.isNone) [0, 1]

/-- XDAT_ACCESS (R435): a read of TNn_XDAT, or a write of `w` to it as a commit of its own. A read of a pop register
belongs to the requester's open transaction. -/
def execXdatAccess (rq : Requester) (n : Nat) (w : Option Word) (s : State) : Host.Outcome State Fault Refusal :=
  .next (s.when (s.reachable rq && decide (n < 8)) fun s =>
    match w with
    | some v => (s.commit rq [⟨A.TN_XDAT n, v.toNat, false, false⟩]).state
    | none =>
      let t := s.target rq (A.TN_XDAT n)
      match popTenant t.2 with
      | none => let r := s.readReg rq t.1 t.2; r.2.latch r.1
      | some k =>
        if s.deniesRead rq t.1 t.2 then let r := s.readReg rq t.1 t.2; r.2.latch r.1
        else match s.txPort rq with
          | none => let r := s.popAlone rq k; r.2.latch r.1
          | some p => match s.popWord p k 4 with
            | some (v, s1) => s1.latch v
            | none => s.modTx p (fun x =>
                let y := if s.otherPops p k then x.popT else some k
                { x with stall := some k, left := 4, ptr := A.TN_XDAT n, popT := y }))

/-! ## COMMAND_ENQUEUE (R438) -/

/-- The complete assembly that is taken next: the oldest. -/
def State.nextAssembly (s : State) : Option Nat :=
  (List.range 8).foldl (fun m n =>
    if !((s.asmOf n).complete) then m
    else match m with
      | none => some n
      | some k => if (s.asmOf n).order < (s.asmOf k).order then some n else m) none

/-- COMMAND_ENQUEUE (R438): header and tag go to the envelope, the payload to the command queue. -/
def execCommandEnqueue (s : State) : Host.Outcome State Fault Refusal :=
  .next (s.when (s.cclk && (s.queue qCmd).isEmpty && s.env.isNone) fun s =>
    match s.nextAssembly with
    | none => s
    | some n =>
      let b := (s.asmOf n).bytes
      let len := fieldLE b 4 2
      let body := sliceB b 16 len
      let e : Envelope := ⟨b.take 16, body, b.drop (16 + len)⟩
      let s1 := ({ s with env := some e }.setAsm n asm0).setFld (F.TN_CSTAT_STATE n) 3
      if len = 0 then s1 else s1.setQueue qCmd [⟨.host, ceilDiv len 32, .command body⟩])

end Sys2Proof.Machine
end

