-- ==== Sys2Proof/Machine/Dispatch.lean ====
section
/-! DEFINITION. The meaning of each command: one arm per row of spec/opcode_table.json. -/

namespace Sys2Proof.Machine

/-- The effect of a command on everything but the queue. -/
def exec (i : Instr) (s : State) : Host.Outcome State Fault Refusal :=
  match i with
  | .vstartRise => Sys2Proof.Machine.execVstartRise s
  | .bor => Sys2Proof.Machine.execBor s
  | .nrstLow => Sys2Proof.Machine.execNrstLow s
  | .nrstRelease => Sys2Proof.Machine.execNrstRelease s
  | .boot supply start oscLock => Sys2Proof.Machine.execBoot supply start oscLock s
  | .bootEnergyResume supply oscLock => Sys2Proof.Machine.execBootEnergyResume supply oscLock s
  | .hostRelease time => Sys2Proof.Machine.execHostRelease time s
  | .logbookScan => Sys2Proof.Machine.execLogbookScan s
  | .synthLock => Sys2Proof.Machine.execSynthLock s
  | .vcoreRampDone => Sys2Proof.Machine.execVcoreRampDone s
  | .gearSwitchDone => Sys2Proof.Machine.execGearSwitchDone s
  | .ampLost startFailed => Sys2Proof.Machine.execAmpLost startFailed s
  | .lockLost => Sys2Proof.Machine.execLockLost s
  | .lockRegained => Sys2Proof.Machine.execLockRegained s
  | .dipBegin mv => Sys2Proof.Machine.execDipBegin mv s
  | .dipContinue mv => Sys2Proof.Machine.execDipContinue mv s
  | .dipEnd mv => Sys2Proof.Machine.execDipEnd mv s
  | .dipSettled => Sys2Proof.Machine.execDipSettled s
  | .vchgRise => Sys2Proof.Machine.execVchgRise s
  | .harvOvp => Sys2Proof.Machine.execHarvOvp s
  | .harvUvlo => Sys2Proof.Machine.execHarvUvlo s
  | .harvCeiling => Sys2Proof.Machine.execHarvCeiling s
  | .pwrMeasUpdate vstore vharv iharv => Sys2Proof.Machine.execPwrMeasUpdate vstore vharv iharv s
  | .vhostOff rq => Sys2Proof.Machine.execVhostOff rq s
  | .vhostOn rq => Sys2Proof.Machine.execVhostOn rq s
  | .vhostSettleEnd => Sys2Proof.Machine.execVhostSettleEnd s
  | .vhostTrip => Sys2Proof.Machine.execVhostTrip s
  | .vhostCycleOffEnd => Sys2Proof.Machine.execVhostCycleOffEnd s
  | .vsensSwitchOn rq n => Sys2Proof.Machine.execVsensSwitchOn rq n s
  | .vsensRampDone n => Sys2Proof.Machine.execVsensRampDone n s
  | .vsensSettleDone n => Sys2Proof.Machine.execVsensSettleDone n s
  | .vsensTrip n => Sys2Proof.Machine.execVsensTrip n s
  | .bankLost sens => Sys2Proof.Machine.execBankLost sens s
  | .bankRestored sens pins => Sys2Proof.Machine.execBankRestored sens pins s
  | .stowEntry => Sys2Proof.Machine.execStowEntry s
  | .stowTimeWake => Sys2Proof.Machine.execStowTimeWake s
  | .wakeEdge pin falling => Sys2Proof.Machine.execWakeEdge pin falling s
  | .stowWake => Sys2Proof.Machine.execStowWake s
  | .lookoutMatch addr read => Sys2Proof.Machine.execLookoutMatch addr read s
  | .datapathReset => Sys2Proof.Machine.execDatapathReset s
  | .tenantReset => Sys2Proof.Machine.execTenantReset s
  | .fullResetCmd => Sys2Proof.Machine.execFullResetCmd s
  | .hostReset => Sys2Proof.Machine.execHostReset s
  | .rstCmdDatapath rq confirm => Sys2Proof.Machine.execRstCmdDatapath rq confirm s
  | .rstCmdTenant rq t confirm => Sys2Proof.Machine.execRstCmdTenant rq t confirm s
  | .rstCmdFull rq confirm => Sys2Proof.Machine.execRstCmdFull rq confirm s
  | .resetRestart => Sys2Proof.Machine.execResetRestart s
  | .pctlSrst rq page => Sys2Proof.Machine.execPctlSrst rq page s
  | .pctlEnWrite rq page en => Sys2Proof.Machine.execPctlEnWrite rq page en s
  | .wdogExpire => Sys2Proof.Machine.execWdogExpire s
  | .wdogKick rq ses => Sys2Proof.Machine.execWdogKick rq ses s
  | .wdogSleep rq ses => Sys2Proof.Machine.execWdogSleep rq ses s
  | .pulseNow rq => Sys2Proof.Machine.execPulseNow rq s
  | .hostPulseEnd => Sys2Proof.Machine.execHostPulseEnd s
  | .sessionBump rq => Sys2Proof.Machine.execSessionBump rq s
  | .lifecycle => Sys2Proof.Machine.execLifecycle s
  | .lifecycleSecondDecision agree => Sys2Proof.Machine.execLifecycleSecondDecision agree s
  | .patchLoadBegin => Sys2Proof.Machine.execPatchLoadBegin s
  | .patchLoadData => Sys2Proof.Machine.execPatchLoadData s
  | .patchLoadCommit => Sys2Proof.Machine.execPatchLoadCommit s
  | .registerWrite rq ws => Sys2Proof.Machine.execRegisterWrite rq ws s
  | .shadowMismatch addr idx => Sys2Proof.Machine.execShadowMismatch addr idx s
  | .lockAcquire rq k => Sys2Proof.Machine.execLockAcquire rq k s
  | .lockRelease rq k => Sys2Proof.Machine.execLockRelease rq k s
  | .leaseExpiry k => Sys2Proof.Machine.execLeaseExpiry k s
  | .gapRecordEnqueue q prod => Sys2Proof.Machine.execGapRecordEnqueue q prod s
  | .queFlush rq target confirm => Sys2Proof.Machine.execQueFlush rq target confirm s
  | .queFlushAllLanes rq target confirm => Sys2Proof.Machine.execQueFlushAllLanes rq target confirm s
  | .placementUpdate => Sys2Proof.Machine.execPlacementUpdate s
  | .popRead p t => Sys2Proof.Machine.execPopRead p t s
  | .popStallResume p => Sys2Proof.Machine.execPopStallResume p s
  | .popStallTimeout p => Sys2Proof.Machine.execPopStallTimeout p s
  | .eccUncorrectable q => Sys2Proof.Machine.execEccUncorrectable q s
  | .dispatch => Sys2Proof.Machine.execDispatch s
  | .transferStart p => Sys2Proof.Machine.execTransferStart p s
  | .transferEnd p data fail done rise mmin => Sys2Proof.Machine.execTransferEnd p data fail done rise mmin s
  | .arbLost lost => Sys2Proof.Machine.execArbLost lost s
  | .stretchTimeout p data => Sys2Proof.Machine.execStretchTimeout p data s
  | .busStuck p data => Sys2Proof.Machine.execBusStuck p data s
  | .busFree p => Sys2Proof.Machine.execBusFree p s
  | .busRecovery p => Sys2Proof.Machine.execBusRecovery p s
  | .fenceClear rq p w => Sys2Proof.Machine.execFenceClear rq p w s
  | .afeConversion ch raw ovr => Sys2Proof.Machine.execAfeConversion ch raw ovr s
  | .afeDrain => Sys2Proof.Machine.execAfeDrain s
  | .excSettleEnd => Sys2Proof.Machine.execExcSettleEnd s
  | .excOvercurrent => Sys2Proof.Machine.execExcOvercurrent s
  | .excOpen => Sys2Proof.Machine.execExcOpen s
  | .touchstoneNow rq w => Sys2Proof.Machine.execTouchstoneNow rq w s
  | .touchstoneStart ch => Sys2Proof.Machine.execTouchstoneStart ch s
  | .afeCalStart ch => Sys2Proof.Machine.execAfeCalStart ch s
  | .timeTrigger d => Sys2Proof.Machine.execTimeTrigger d s
  | .angleTrigger d => Sys2Proof.Machine.execAngleTrigger d s
  | .chainTrigger d => Sys2Proof.Machine.execChainTrigger d s
  | .jitDeadline d => Sys2Proof.Machine.execJitDeadline d s
  | .noLockTargetSkip d => Sys2Proof.Machine.execNoLockTargetSkip d s
  | .angleWithdraw => Sys2Proof.Machine.execAngleWithdraw s
  | .shareWindowEnd => Sys2Proof.Machine.execShareWindowEnd s
  | .descriptorCommit rq idx mask words => Sys2Proof.Machine.execDescriptorCommit rq idx mask words s
  | .edgeStamp ch falling missed ticks code => Sys2Proof.Machine.execEdgeStamp ch falling missed ticks code s
  | .icalHit line code => Sys2Proof.Machine.execIcalHit line code s
  | .stampService p => Sys2Proof.Machine.execStampService p s
  | .beaconSubmit rq seq lo hi => Sys2Proof.Machine.execBeaconSubmit rq seq lo hi s
  | .beaconWindowEnd seq => Sys2Proof.Machine.execBeaconWindowEnd seq s
  | .epochRecordEnqueue t => Sys2Proof.Machine.execEpochRecordEnqueue t s
  | .htLoSample rq => Sys2Proof.Machine.execHtLoSample rq s
  | .syncLoSample rq => Sys2Proof.Machine.execSyncLoSample rq s
  | .stampLoSample rq ch => Sys2Proof.Machine.execStampLoSample rq ch s
  | .ofsLoSample rq => Sys2Proof.Machine.execOfsLoSample rq s
  | .sxtAngSample rq => Sys2Proof.Machine.execSxtAngSample rq s
  | .bndSeqSample rq => Sys2Proof.Machine.execBndSeqSample rq s
  | .keyCounterSample rq ceil => Sys2Proof.Machine.execKeyCounterSample rq ceil s
  | .idxMeasurement => Sys2Proof.Machine.execIdxMeasurement s
  | .sxtLockLost cause => Sys2Proof.Machine.execSxtLockLost cause s
  | .angleComparatorFire k => Sys2Proof.Machine.execAngleComparatorFire k s
  | .bandwidthUpdate => Sys2Proof.Machine.execBandwidthUpdate s
  | .resamplerOutput ch => Sys2Proof.Machine.execResamplerOutput ch s
  | .assayPass => Sys2Proof.Machine.execAssayPass s
  | .assayGapInput u => Sys2Proof.Machine.execAssayGapInput u s
  | .criticalSecondDecision u agree => Sys2Proof.Machine.execCriticalSecondDecision u agree s
  | .trngHealthFail test => Sys2Proof.Machine.execTrngHealthFail test s
  | .trngRetest pass => Sys2Proof.Machine.execTrngRetest pass s
  | .roseEvent => Sys2Proof.Machine.execRoseEvent s
  | .roseFire rq hi w => Sys2Proof.Machine.execRoseFire rq hi w s
  | .flareClear rq w => Sys2Proof.Machine.execFlareClear rq w s
  | .flarePulseEnd f => Sys2Proof.Machine.execFlarePulseEnd f s
  | .flareRelease rq f => Sys2Proof.Machine.execFlareRelease rq f s
  | .iflgClear rq hi w => Sys2Proof.Machine.execIflgClear rq hi w s
  | .bundlerIntake => Sys2Proof.Machine.execBundlerIntake s
  | .bundleClose => Sys2Proof.Machine.execBundleClose s
  | .bundleAgeExpiry t l => Sys2Proof.Machine.execBundleAgeExpiry t l s
  | .sealStart => Sys2Proof.Machine.execSealStart s
  | .sealDone => Sys2Proof.Machine.execSealDone s
  | .seqReservationCommit t => Sys2Proof.Machine.execSeqReservationCommit t s
  | .healthRecord => Sys2Proof.Machine.execHealthRecord s
  | .write => Sys2Proof.Machine.execWrite s
  | .chartBegin => Sys2Proof.Machine.execChartBegin s
  | .chartData => Sys2Proof.Machine.execChartData s
  | .chartCommit => Sys2Proof.Machine.execChartCommit s
  | .chartCommitDone t ok => Sys2Proof.Machine.execChartCommitDone t ok s
  | .configStore => Sys2Proof.Machine.execConfigStore s
  | .keyEstablish => Sys2Proof.Machine.execKeyEstablish s
  | .keyRotate => Sys2Proof.Machine.execKeyRotate s
  | .keyUpdateWrite t ok => Sys2Proof.Machine.execKeyUpdateWrite t ok s
  | .keyUpdateCommit t ok => Sys2Proof.Machine.execKeyUpdateCommit t ok s
  | .attest => Sys2Proof.Machine.execAttest s
  | .attestSignDone t => Sys2Proof.Machine.execAttestSignDone t s
  | .tenantCreate => Sys2Proof.Machine.execTenantCreate s
  | .tenantEnrol => Sys2Proof.Machine.execTenantEnrol s
  | .tenantRemove => Sys2Proof.Machine.execTenantRemove s
  | .nvWriteComplete ok => Sys2Proof.Machine.execNvWriteComplete ok s
  | .keyRspRead rq addr => Sys2Proof.Machine.execKeyRspRead rq addr s
  | .keyAttRead rq addr => Sys2Proof.Machine.execKeyAttRead rq addr s
  | .deviceKeyRead rq => Sys2Proof.Machine.execDeviceKeyRead rq s
  | .logDataRead rq => Sys2Proof.Machine.execLogDataRead rq s
  | .htwStart addr read data n => Sys2Proof.Machine.execHtwStart addr read data n s
  | .htwStop => Sys2Proof.Machine.execHtwStop s
  | .htwIdleAbort => Sys2Proof.Machine.execHtwIdleAbort s
  | .spiCsFall => Sys2Proof.Machine.execSpiCsFall s
  | .spiWrite addr len data => Sys2Proof.Machine.execSpiWrite addr len data s
  | .spiRead addr len => Sys2Proof.Machine.execSpiRead addr len s
  | .spiCsRise whole => Sys2Proof.Machine.execSpiCsRise whole s
  | .spiOverrun => Sys2Proof.Machine.execSpiOverrun s
  | .cmdAssemblyWrite rq n bytes => Sys2Proof.Machine.execCmdAssemblyWrite rq n bytes s
  | .cmdAssemblyClear rq n => Sys2Proof.Machine.execCmdAssemblyClear rq n s
  | .commandEnqueue => Sys2Proof.Machine.execCommandEnqueue s
  | .xdatAccess rq n w => Sys2Proof.Machine.execXdatAccess rq n w s
  | .tempSample tj => Sys2Proof.Machine.execTempSample tj s
  | .thermalSecondDecision agree => Sys2Proof.Machine.execThermalSecondDecision agree s
  | .thermalComparator beyond => Sys2Proof.Machine.execThermalComparator beyond s
  | .supplyGlitch storeOver => Sys2Proof.Machine.execSupplyGlitch storeOver s
  | .probeWindowEnd => Sys2Proof.Machine.execProbeWindowEnd s
  | .tapInstruction bypass => Sys2Proof.Machine.execTapInstruction bypass s
  | .tamperClear rq w => Sys2Proof.Machine.execTamperClear rq w s
  | .holdEnd => Sys2Proof.Machine.execHoldEnd s
  | .logEntryWrite ok => Sys2Proof.Machine.execLogEntryWrite ok s
  | .tstNvMarginRead rq => Sys2Proof.Machine.execTstNvMarginRead rq s
  | .tstMemorySelfTest rq => Sys2Proof.Machine.execTstMemorySelfTest rq s
  | .tstDone pass failAddr => Sys2Proof.Machine.execTstDone pass failAddr s
  | .avsUpdate mmin => Sys2Proof.Machine.execAvsUpdate mmin s
  | .avsCanary => Sys2Proof.Machine.execAvsCanary s
  | .gearWindowEnd assay sealing bundler steward cycles => Sys2Proof.Machine.execGearWindowEnd assay sealing bundler steward cycles s
  | .mpptPowerSample vstore iharv => Sys2Proof.Machine.execMpptPowerSample vstore iharv s
  | .mpptUpdate => Sys2Proof.Machine.execMpptUpdate s
  | .vocResampleStart => Sys2Proof.Machine.execVocResampleStart s
  | .vocPauseEnd vharv => Sys2Proof.Machine.execVocPauseEnd vharv s
  | .supplyConditionEnd => Sys2Proof.Machine.execSupplyConditionEnd s
  | .retentionLoss => Sys2Proof.Machine.execRetentionLoss s
  | .harvResume stop => Sys2Proof.Machine.execHarvResume stop s

end Sys2Proof.Machine
end

