-- ==== Sys2Proof/Machine/Bus.lean ====
section
/-! DEFINITION. What a sensor port sends on its bus for the transfer in progress (R198, R202, R209, R210): views of the
state, which no command reads. -/

namespace Sys2Proof.Machine

/-! ## Two-wire (R198) -/

/-- An element of a two-wire transfer in bus order: the conditions, an address byte with its R/W bit, a byte sent, a byte
received with the port's ACK or, for the last, NACK. -/
inductive BusItem where
  | start
  | restart
  | stop
  | address (target : Nat) (read : Bool)
  | send (b : Byte)
  | receive (ack : Bool)
  deriving DecidableEq, Repr

/-- The pointer bytes of a two-wire descriptor in bus order: width PTRW, the most significant byte first under PTR_BE. -/
def pointerBytes (ws : List Word) : List Byte :=
  let l := bytesLE (dPtrw ws) (dWord ws 2).toNat
  if getBits (dWord ws 1) 11 1 = 1 then l.reverse else l

/-- The write data of a descriptor: the bytes of W6 and W7, byte 0 first. -/
def writeBytes (ws : List Word) : List Byte :=
  (bytesLE 4 (dWord ws 6).toNat ++ bytesLE 4 (dWord ws 7).toNat).take (dLen ws)

/-- `n` bytes received, all acknowledged but the last. -/
def receiveBytes (n : Nat) : List BusItem := (List.range n).map (fun i => .receive (decide (i + 1 < n)))

/-- The shape of a two-wire transfer (R198); `off` is RSTART_OFF. -/
def twcShape (off : Bool) (ws : List Word) : List BusItem :=
  let a := dAddr ws
  let ptr := (pointerBytes ws).map BusItem.send
  if dKind ws = 0 then
    if dPtrw ws = 0 then [.start, .address a true] ++ receiveBytes (dLen ws) ++ [.stop]
    else [.start, .address a false] ++ ptr ++ (if off then [.stop, .start] else [.restart]) ++ [.address a true]
      ++ receiveBytes (dLen ws) ++ [.stop]
  else [.start, .address a false] ++ ptr ++ (writeBytes ws).map BusItem.send ++ [.stop]

/-! ## SPI (R209, R210) -/

/-- An SPI transfer: the chip select, the idle level and the phase of its clock, the bit order, the ticks of a clock phase,
whether PDI is sampled a cycle late, CSS, CSH and CSG in ns, the bytes on PDO in order, and how many of the last of them
are captured from PDI. -/
structure SpiShape where
  select : Nat
  cpol : Bool
  cpha : Bool
  lsbFirst : Bool
  late : Bool
  phase : Nat
  css : Nat
  csh : Nat
  csg : Nat
  sent : List Byte
  captured : Nat
  deriving DecidableEq, Repr

/-- The profile of chip select `sel` in SPCn_CFG: mode, bit order, late sampling (R218). -/
def spcProfile (cfg : Word) (sel : Nat) : Nat := getBits cfg (4 * sel) 4

/-- The shape of an SPI transfer under the registers CFG, SCK, CSA and CSB (R209). -/
def spcShape (cfg : List Word) (ws : List Word) : SpiShape :=
  let sel := dSel ws
  let prof := spcProfile (cfg.getD 0 0) sel
  let cs := cfg.getD (2 + sel) 0
  let header := (bytesLE 4 (dWord ws 2).toNat).take (dHdr ws)
  ⟨sel, prof / 2 % 2 = 1, prof % 2 = 1, prof / 4 % 2 = 1, prof / 8 = 1,
    ceilDiv (getBits (cfg.getD 1 0) (16 * sel) 16 * 24) 125, getBits cs 0 8, getBits cs 8 8, getBits cs 16 16,
    header ++ (if dKind ws = 0 then List.replicate (dLen ws) 0 else writeBytes ws),
    if dKind ws = 0 then dLen ws else 0⟩

/-! ## The transfer in progress -/

/-- What a port sends on its bus for its transfer. -/
inductive BusFrame where
  | twoWire (l : List BusItem)
  | spi (x : SpiShape)
  deriving DecidableEq, Repr

/-- The frame of the transfer that a port drives, under the configuration latched at its start (R193); a transfer that
waits for a free bus is repeated from START (R206). -/
def State.busFrame (s : State) (p : Nat) : Option BusFrame :=
  match s.xfer p with
  | none => none
  | some x =>
    if p < 4 then some (.twoWire (twcShape (getBits (x.cfg.getD 0 0) 3 1 == 1) x.req.words))
    else some (.spi (spcShape x.cfg x.req.words))

/-- The SCL low and high phases of the transfer in progress in ticks: TLOW + E and THIGH + E (R199, R202, R208). -/
def State.sclPhases (s : State) (p : Nat) : Option (Nat × Nat) :=
  match s.xfer p with
  | none => none
  | some x =>
    let e := (x.cfg.getD 7 0).toNat
    let tclk := x.cfg.getD 4 0
    some (nsTicks (getBits tclk 0 16 + e), nsTicks (getBits tclk 16 16 + e))

end Sys2Proof.Machine
end

