-- ==== Sys2Proof/Machine/Pins.lean ====
section
/-! DEFINITION. What the hub's balls show of its state (R10-R12, R27-R29, R72, R75, R210, R227, R347): views of the state,
which no command reads. -/

namespace Sys2Proof.Machine

/-- How an output ball stands: not driven (high-impedance, or an open-drain output released), driven low, driven high, at
its weak pull-down, or driven by its controller through a transfer, at a level that follows the bytes shifted. -/
inductive Ball where
  | floating
  | low
  | high
  | weakLow
  | driven
  deriving DecidableEq, Repr

/-- What the hub does with an input ball (R10): nothing, an edge latched as a wake cause where it is enabled, or read by its
block; `held` is an input of a lost bank, whose synchroniser holds the level last sampled (R27). -/
inductive Sense where
  | ignored
  | held
  | wake
  | read
  deriving DecidableEq, Repr

/-- A ball of the always-on group with its high drive from VIOH: released where its level is high and VIOH is lost (R28). -/
def State.ball (s : State) (up : Bool) : Ball :=
  if !up then .low else if s.on F.PWR_BANK_VIOH_OK then .high else .floating

/-- HRST_N (R10, R28, R73, R105). -/
def State.ballHRST (s : State) : Ball :=
  match s.sys.phase with
  | .unpowered => .floating
  | .inReset => .low
  | .booting => .low
  | .stow => s.ball (s.on F.SYS_HREL_RELEASED)
  | .running => s.ball (s.on F.SYS_HREL_RELEASED)

/-- HWAKE (R10, R28). -/
def State.ballHWAKE (s : State) : Ball :=
  match s.sys.phase with
  | .unpowered => .floating
  | .inReset => .low
  | .booting => .low
  | .stow => s.ball s.hwake
  | .running => s.ball s.hwake

/-- FLR0 and FLR1 (R10, R11, R28, R347). -/
def State.ballFLR (s : State) (f : Nat) : Ball :=
  match s.sys.phase with
  | .unpowered => .floating
  | .inReset => .weakLow
  | .booting => if s.fld F.SYS_BOOT_STAGE = 1 ∨ s.fld F.SYS_BOOT_STAGE = 15 then .weakLow else s.ball (s.flareLevel f)
  | .stow => s.ball (s.flareLevel f)
  | .running => s.ball (s.flareLevel f)

/-- VHOST as a code of its voltage; none while it is off (R72, R73). -/
def State.railVHOST (s : State) : Option Nat := if s.sys.vhostOn then some s.sys.vhostV else none

/-- VSENSn as a code of its voltage; none while it is off, as in reset and at boot (R10, R75). -/
def State.railVSENS (s : State) (n : Nat) : Option Nat :=
  if s.on (F.PWR_VSENS_STATE n) then some (if s.sys.railV.testBit n then 1 else 0) else none

/-! ## The host ports and JTAG (R10, R29) -/

/-- HSCL and HSDA: high-impedance, the Lookout's answer to its own addresses, or the host two-wire target. -/
inductive HostWire where
  | floating
  | lookout
  | target
  deriving DecidableEq, Repr

def State.ballsHostTwoWire (s : State) : HostWire :=
  if !(s.on F.PWR_BANK_VIOH_OK) then .floating
  else if s.sys.phase = .stow then .lookout
  else if s.awake then .target
  else .floating

/-- HCS_N; HSCK and HSDI are read only while the hub runs. -/
def State.senseHCS (s : State) : Sense :=
  if s.sys.phase = .stow then (if s.on F.PWR_BANK_VIOH_OK then .wake else .held)
  else if s.awake then (if s.on F.PWR_BANK_VIOH_OK then .read else .held)
  else .ignored

def State.senseHSPI (s : State) : Sense := if s.portServes then .read else .ignored

/-- HSDO is driven only while HCS_N is low. -/
def State.ballHSDO (s : State) : Ball := if s.portServes && s.sys.csLow then .driven else .floating

/-- TCK, TMS and TDI. -/
def State.senseJTAG (s : State) : Sense := if s.portServes then .read else .ignored

/-- TDO, during a shift or otherwise. -/
def State.ballTDO (s : State) (shifting : Bool) : Ball := if s.portServes && shifting then .driven else .floating

/-- NRST is sensed whenever the hub is powered, with VIOH or without it (R10, R25). -/
def State.senseNRST (s : State) : Sense := if s.sys.phase = .unpowered then .ignored else .read

/-- EV0-EV7 (0-7), IDX (8) and SYNC (9) (R10, R27). -/
def State.senseEvent (s : State) (pin : Nat) : Sense :=
  let good := if pin < 9 then s.on F.PWR_BANK_VSENSIO_OK else s.on F.PWR_BANK_VIOH_OK
  match s.sys.phase with
  | .unpowered => .ignored
  | .inReset => .ignored
  | .booting => .ignored
  | .stow => if !good then .held else if s.bit F.SYS_WAKE_EN_WAKE pin then .wake else .ignored
  | .running => if good then .read else .held

/-! ## The sensor ports (R10, R12, R27, R29, R210) -/

/-- The balls of a sensor port carry its levels: the hub runs, or is in Stow with the port's rail kept on, and the bank is
good. -/
def State.portBalls (s : State) (p : Nat) : Bool :=
  s.on F.PWR_BANK_VSENSIO_OK && (s.awake || (decide (s.sys.phase = .stow) && !(s.railOff p)))

/-- SCLn and SDAn: released, but for a transfer or a recovery in progress (R204). -/
def State.ballTWC (s : State) (p : Nat) : Ball :=
  if s.portBalls p && (s.driving p || s.fld (F.TWC_STAT_STATE p) == 3) then .driven else .floating

/-- PCKn: at its idle level between transfers, by the mode of profile A (log entry 154). -/
def State.ballPCK (s : State) (p : Nat) : Ball :=
  if !(s.portBalls p) then .floating
  else if s.driving p then .driven
  else if getBits (s.reg (A.SPC_CFG (p - 4))) 1 1 = 1 then .high
  else .low

/-- PDOn: low while the port is disabled; its level between the transfers of an enabled port is its controller's (R210). -/
def State.ballPDO (s : State) (p : Nat) : Ball :=
  if !(s.portBalls p) then .floating
  else if s.driving p || s.pageOn (portPage p) then .driven
  else .low

/-- PCSAn (0) and PCSBn (1): high, but for the one that the transfer in progress selects (R209). -/
def State.ballPCS (s : State) (p sel : Nat) : Ball :=
  if !(s.portBalls p) then .floating
  else match s.xfer p with
    | none => .high
    | some x => if dSel x.req.words = sel then .low else .high

/-! ## The AFE and the crystal (R10, R227) -/

/-- EXCP, or EXCN (`neg`): high-impedance with the excitation off; EXCP at 2.5 V and EXCN at AGND, reversed in the negative
phases of CHOP. -/
def State.ballEXC (s : State) (neg : Bool) : Ball :=
  if !(s.awake && s.afe.excOn) then .floating
  else if neg == (decide (s.afe.mode = 2) && s.afe.negPhase) then .high
  else .low

/-- AINnP and AINnN are measured; otherwise they are high-impedance. -/
def State.ainRead (s : State) (c : Nat) : Bool := s.awake && s.converts c

/-- The crystal oscillator: off, starting, or running. -/
inductive Osc where
  | off
  | starting
  | running
  deriving DecidableEq, Repr

/-- XI and XO: with the amplitude not good the oscillator is starting, at boot or after it was lost (R57, R60). -/
def State.oscillator (s : State) : Osc :=
  match s.sys.phase with
  | .unpowered => .off
  | .inReset => .off
  | .booting => if s.on F.CLK_MON_AMP_OK then .running else .starting
  | .stow => if s.sys.pstate = .stowCold then .off else if s.on F.CLK_MON_AMP_OK then .running else .starting
  | .running => if s.on F.CLK_MON_AMP_OK then .running else .starting

end Sys2Proof.Machine
end

