-- ==== Sys2Proof/Machine/Step.lean ====
section
/-! DEFINITION. One step: the command at the front of the queue, or one CCLK cycle when none waits. -/

namespace Sys2Proof.Machine

/-- One cycle without a command (log entry 3): Hub Time, the Sextant's prediction and the watchdog's count move on while
CCLK runs, and a wake cause that WATCH or RUN saw in the cycle is over (R87); without a clock nothing happens. -/
def State.idle (s : State) : State :=
  s.when s.cclk fun s =>
    let t := s.advance
    let u := (t.predict (t.ht - s.ht)).wdogTick (gearTicks s.cycleGear)
    u.when s.awake fun u => u.modSys (fun y => { y with wakes := 0 })

/-- A step of the hub. -/
def step (s : State) : Host.Outcome State Fault Refusal :=
  match s.pending with
  | [] => .next s.idle
  | c :: rest => exec c { s with pending := rest }

/-- The state with the command that a word of the table spells at the front of its queue; unchanged where the word spells
none. -/
def State.withFetchWord (s : State) (nbits w : Nat) : State :=
  match decodeTableWord nbits w with
  | none => s
  | some c => { s with pending := c :: s.pending }

end Sys2Proof.Machine
end

