-- ==== Sys2Proof/WellFormed.lean ====
section
/-! DEFINITION. Well-formed commands: the operands that name a part of the hub name one that it has, and a number fits the
field that carries it. Voltages, temperatures and data that arrive from outside are not limited. -/

namespace Sys2Proof

/-- A requester of R136: eight windows, and STEWARD for eight tenants. -/
def rqGood : Requester → Bool
  | .window n => decide (n < 8)
  | .steward t => decide (t < 8)
  | .host => true
  | .jtag => true
  | .internal => true

/-- The operands of a command are in their ranges. -/
def Instr.wf : Instr → Bool
  | .vstartRise => true
  | .bor => true
  | .nrstLow => true
  | .nrstRelease => true
  | .boot _ _ _ => true
  | .bootEnergyResume _ _ => true
  | .hostRelease time => decide (time < 65536)
  | .logbookScan => true
  | .synthLock => true
  | .vcoreRampDone => true
  | .gearSwitchDone => true
  | .ampLost _ => true
  | .lockLost => true
  | .lockRegained => true
  | .dipBegin _ => true
  | .dipContinue _ => true
  | .dipEnd _ => true
  | .dipSettled => true
  | .vchgRise => true
  | .harvOvp => true
  | .harvUvlo => true
  | .harvCeiling => true
  | .pwrMeasUpdate _ _ _ => true
  | .vhostOff rq => rqGood rq
  | .vhostOn rq => rqGood rq
  | .vhostSettleEnd => true
  | .vhostTrip => true
  | .vhostCycleOffEnd => true
  | .vsensSwitchOn rq n => rqGood rq && decide (n < 3)
  | .vsensRampDone n => decide (n < 3)
  | .vsensSettleDone n => decide (n < 3)
  | .vsensTrip n => decide (n < 3)
  | .bankLost _ => true
  | .bankRestored _ pins => decide (pins < 1024)
  | .stowEntry => true
  | .stowTimeWake => true
  | .wakeEdge pin _ => decide (pin < 11)
  | .stowWake => true
  | .lookoutMatch addr _ => decide (addr < 128)
  | .datapathReset => true
  | .tenantReset => true
  | .fullResetCmd => true
  | .hostReset => true
  | .rstCmdDatapath rq confirm => rqGood rq && decide (confirm < 65536)
  | .rstCmdTenant rq t confirm => rqGood rq && decide (t < 8) && decide (confirm < 65536)
  | .rstCmdFull rq confirm => rqGood rq && decide (confirm < 65536)
  | .resetRestart => true
  | .pctlSrst rq page => rqGood rq && decide (page < 256)
  | .pctlEnWrite rq page _ => rqGood rq && decide (page < 256)
  | .wdogExpire => true
  | .wdogKick rq ses => rqGood rq && decide (ses < 65536)
  | .wdogSleep rq ses => rqGood rq && decide (ses < 65536)
  | .pulseNow rq => rqGood rq
  | .hostPulseEnd => true
  | .sessionBump rq => rqGood rq
  | .lifecycle => true
  | .lifecycleSecondDecision _ => true
  | .patchLoadBegin => true
  | .patchLoadData => true
  | .patchLoadCommit => true
  | .registerWrite rq ws => rqGood rq && ws.all (fun w => decide (w.1 < 65536))
  | .shadowMismatch addr idx => decide (addr < 65536) && decide (idx < 512)
  | .lockAcquire rq k => rqGood rq && decide (k < 16)
  | .lockRelease rq k => rqGood rq && decide (k < 16)
  | .leaseExpiry k => decide (k < 16)
  | .gapRecordEnqueue q prod => decide (q < 128) && decide (prod < 8)
  | .queFlush rq target confirm => rqGood rq && decide (target < 128) && decide (confirm < 256)
  | .queFlushAllLanes rq target confirm => rqGood rq && decide (target < 128) && decide (confirm < 256)
  | .placementUpdate => true
  | .popRead p t => decide (p < 2) && decide (t < 8)
  | .popStallResume p => decide (p < 2)
  | .popStallTimeout p => decide (p < 2)
  | .eccUncorrectable q => decide (q < 128)
  | .dispatch => true
  | .transferStart p => decide (p < 7)
  | .transferEnd p _ fail _ _ _ => decide (p < 7) && decide (fail < 16)
  | .arbLost x => decide (x.port < 4)
  | .stretchTimeout p _ => decide (p < 4)
  | .busStuck p _ => decide (p < 4)
  | .busFree p => decide (p < 4)
  | .busRecovery p => decide (p < 4)
  | .fenceClear rq p _ => rqGood rq && decide (p < 7)
  | .afeConversion ch _ _ => decide (ch < 2)
  | .afeDrain => true
  | .excSettleEnd => true
  | .excOvercurrent => true
  | .excOpen => true
  | .touchstoneNow rq _ => rqGood rq
  | .touchstoneStart ch => decide (ch < 2)
  | .afeCalStart ch => decide (ch < 2)
  | .timeTrigger d => decide (d < 256)
  | .angleTrigger d => decide (d < 256)
  | .chainTrigger d => decide (d < 256)
  | .jitDeadline d => decide (d < 256)
  | .noLockTargetSkip d => decide (d < 256)
  | .angleWithdraw => true
  | .shareWindowEnd => true
  | .descriptorCommit rq idx mask words => rqGood rq && decide (idx < 256) && decide (mask < 256) && decide (words.length = 8)
  | .edgeStamp ch _ _ _ code => decide (ch < 10) && decide (code < 40)
  | .icalHit line code => decide (line < 10) && decide (code < 40)
  | .stampService p => decide (p < 8)
  | .beaconSubmit rq _ _ _ => rqGood rq
  | .beaconWindowEnd seq => decide (seq < 65536)
  | .epochRecordEnqueue t => decide (t < 8)
  | .htLoSample rq => rqGood rq
  | .syncLoSample rq => rqGood rq
  | .stampLoSample rq ch => rqGood rq && decide (ch < 10)
  | .ofsLoSample rq => rqGood rq
  | .sxtAngSample rq => rqGood rq
  | .bndSeqSample rq => rqGood rq
  | .keyCounterSample rq _ => rqGood rq
  | .idxMeasurement => true
  | .sxtLockLost cause => decide (cause < 8)
  | .angleComparatorFire k => decide (k < 16)
  | .bandwidthUpdate => true
  | .resamplerOutput ch => decide (ch < 8)
  | .assayPass => true
  | .assayGapInput u => decide (u < 24)
  | .criticalSecondDecision u _ => decide (u < 24)
  | .trngHealthFail test => decide (1 ≤ test ∧ test ≤ 3)
  | .trngRetest _ => true
  | .roseEvent => true
  | .roseFire rq _ _ => rqGood rq
  | .flareClear rq _ => rqGood rq
  | .flarePulseEnd f => decide (f < 2)
  | .flareRelease rq f => rqGood rq && decide (f < 2)
  | .iflgClear rq _ _ => rqGood rq
  | .bundlerIntake => true
  | .bundleClose => true
  | .bundleAgeExpiry t l => decide (t < 8) && decide (l < 4)
  | .sealStart => true
  | .sealDone => true
  | .seqReservationCommit t => decide (t < 8)
  | .healthRecord => true
  | .write => true
  | .chartBegin => true
  | .chartData => true
  | .chartCommit => true
  | .chartCommitDone t _ => decide (t < 8)
  | .configStore => true
  | .keyEstablish => true
  | .keyRotate => true
  | .keyUpdateWrite t _ => decide (t < 8)
  | .keyUpdateCommit t _ => decide (t < 8)
  | .attest => true
  | .attestSignDone t => decide (t < 8)
  | .tenantCreate => true
  | .tenantEnrol => true
  | .tenantRemove => true
  | .nvWriteComplete _ => true
  | .keyRspRead rq addr => rqGood rq && decide (addr < 65536)
  | .keyAttRead rq addr => rqGood rq && decide (addr < 65536)
  | .deviceKeyRead rq => rqGood rq
  | .logDataRead rq => rqGood rq
  | .htwStart addr _ _ _ => decide (addr < 128)
  | .htwStop => true
  | .htwIdleAbort => true
  | .spiCsFall => true
  | .spiWrite addr len _ => decide (addr < 65536) && decide (len < 65536)
  | .spiRead addr len => decide (addr < 65536) && decide (len < 65536)
  | .spiCsRise _ => true
  | .spiOverrun => true
  | .cmdAssemblyWrite rq n bytes => rqGood rq && decide (n < 8) && decide (bytes.length ≤ 256)
  | .cmdAssemblyClear rq n => rqGood rq && decide (n < 8)
  | .commandEnqueue => true
  | .xdatAccess rq n _ => rqGood rq && decide (n < 8)
  | .tempSample _ => true
  | .thermalSecondDecision _ => true
  | .thermalComparator _ => true
  | .supplyGlitch _ => true
  | .probeWindowEnd => true
  | .tapInstruction _ => true
  | .tamperClear rq _ => rqGood rq
  | .holdEnd => true
  | .logEntryWrite _ => true
  | .tstNvMarginRead rq => rqGood rq
  | .tstMemorySelfTest rq => rqGood rq
  | .tstDone _ failAddr => decide (failAddr < 2 ^ 32)
  | .avsUpdate _ => true
  | .avsCanary => true
  | .gearWindowEnd _ _ _ _ cycles => decide (0 < cycles)
  | .mpptPowerSample _ _ => true
  | .mpptUpdate => true
  | .vocResampleStart => true
  | .vocPauseEnd _ => true
  | .supplyConditionEnd => true
  | .retentionLoss => true
  | .harvResume _ => true

end Sys2Proof
end

