-- ==== Sys2Proof/Safety.lean ====
section
/-! DEFINITION. What a safe run is, in the terms of the statements: every step answers a next state; the register file and
the other keyed maps stay in canonical form, so that equal states are equal data. -/

namespace Sys2Proof.Machine

/-- The outcome is a next state. -/
def answers (o : Host.Outcome State Fault Refusal) : Bool :=
  match o with
  | .next _ => true
  | .fault _ => false
  | .refused _ => false

/-- The first `n` steps from `s` all answer a next state. -/
def safeRun : Nat → State → Bool
  | 0, _ => true
  | n + 1, s =>
    match step s with
    | .next t => safeRun n t
    | .fault _ => false
    | .refused _ => false

/-- The register file is in canonical form. -/
def State.regsWf (s : State) : Bool := mapWf resetOf s.regs

/-- Every keyed map that is a field of the state is in canonical form: a read of a key just written gives the value
written. -/
def State.mapsWf (s : State) : Bool :=
  s.regsWf && mapWf (fun _ => lock0) s.locks && mapWf (fun _ => 0) s.sel && mapWf (fun _ => 0) s.samp && mapWf (fun _
    => 0) s.streams && mapWf (fun _ => []) s.queues && mapWf (fun _ => []) s.pendg && mapWf loop0 s.loops && mapWf
    (fun _ => desc0) s.descs && mapWf (fun _ => 0) s.charge && mapWf (fun _ => 0) s.chargeLast && mapWf (fun _ =>
    port0) s.ports && mapWf (fun _ => afeCh0) s.afeCh && mapWf (fun _ => stpCh0) s.stp && mapWf (fun _ => line0)
    s.lines && mapWf (fun _ => rsm0) s.rsm && mapWf (fun _ => asy0) s.asy && mapWf (fun _ => lane0) s.lanes && mapWf
    (fun _ => []) s.closed && mapWf (fun _ => none) s.evicts && mapWf (fun _ => 0) s.routes && mapWf (fun _ => ten0)
    s.tens && mapWf (fun _ => none) s.tx && mapWf ptrHome s.ptrs && mapWf (fun _ => asm0) s.asm && mapWf (fun _ => [])
    s.port

/-- The commands that wait are well-formed. -/
def State.pendingWf (s : State) : Bool := s.pending.all Instr.wf

/-- The command answers a next state, and `Q` holds of it. -/
def completes (c : Instr) (s : State) (Q : State → Prop) : Prop := ∃ t, exec c s = .next t ∧ Q t

/-! ## What a command needs before it acts -/

/-- The Steward takes the command `c` of opcode `op` from the envelope: CCLK runs, and no command is in its way. -/
def State.takes (s : State) (op : Nat) (c : Cmd) : Prop :=
  s.cclk = true ∧ s.stewardBusy = false ∧ s.env.map cmdOf = some c ∧ c.opcode = op

/-- The state in which the body of a command that passed its checks begins. -/
def State.begun (s : State) (c : Cmd) (r : Bool) : State := (s.decided c).countUp c r

/-- The ticket of a command that the Steward takes. -/
def State.ticketOf (s : State) (c : Cmd) : Ticket := ⟨c.tenant, c.tenant, c.opcode, c.counter, s.verified c, false⟩

/-- The status of a tenant's last response (KEY_TLAST). -/
def State.lastStatus (s : State) (t : Nat) : Nat := (s.ten t).last % 256

/-- A commit by `rq`, whom the hub can reach, of the one write `v` to `a`, through its window where `rq` is one, acts with the
value `x`, and nothing is denied. -/
def State.lets (s : State) (rq : Requester) (a v x : Nat) : Prop :=
  s.reachable rq = true ∧
    s.decideWrites rq [⟨a, v, false, match rq with | .window _ => true | _ => false⟩] = ([(a, x)], [])

/-- A command that reads the register at `a` shows its value: the hub can be reached by its sender, the read is not denied,
and the register is none of the lock and stream registers. -/
def State.shows (s : State) (rq : Requester) (a : Nat) : Prop :=
  s.reachable rq = true ∧ s.readDenied rq false a = none ∧ lockNo a = none ∧ s.streamBytes rq a = none

/-! ## What a command can reach -/

/-- Whether a command can write NV, and whether it can change the phase or the power state: by its own effect, or by the
tamper response or the chart that it can bring about. -/
def Instr.reach (c : Instr) : Bool × Bool :=
  match c with
  | .seqReservationCommit .. | .chartCommitDone .. | .keyUpdateWrite .. | .keyUpdateCommit .. | .nvWriteComplete ..
    | .dipBegin .. | .dipContinue .. =>
    (true, false)
  | .vstartRise | .nrstLow | .nrstRelease | .hostRelease .. | .gearSwitchDone | .stowEntry
    | .thermalComparator .. | .holdEnd | .supplyConditionEnd => (false, true)
  | .boot .. | .bootEnergyResume .. | .logbookScan | .ampLost .. | .lockLost | .vhostOff .. | .vhostOn ..
    | .vsensSwitchOn .. | .datapathReset | .tenantReset | .fullResetCmd | .hostReset | .rstCmdDatapath ..
    | .rstCmdTenant .. | .rstCmdFull .. | .resetRestart | .pctlSrst .. | .pctlEnWrite .. | .wdogKick ..
    | .wdogSleep .. | .pulseNow .. | .sessionBump .. | .lifecycle | .lifecycleSecondDecision .. | .patchLoadBegin
    | .patchLoadData | .patchLoadCommit | .registerWrite .. | .shadowMismatch .. | .lockAcquire .. | .lockRelease ..
    | .queFlush .. | .queFlushAllLanes .. | .popRead .. | .popStallResume .. | .popStallTimeout .. | .bor | .stowWake
    | .fenceClear .. | .touchstoneNow ..
    | .descriptorCommit .. | .beaconSubmit .. | .htLoSample .. | .syncLoSample .. | .stampLoSample ..
    | .ofsLoSample .. | .sxtAngSample .. | .bndSeqSample .. | .keyCounterSample .. | .criticalSecondDecision ..
    | .roseFire .. | .flareClear .. | .flareRelease .. | .iflgClear .. | .write | .chartBegin | .chartData
    | .chartCommit | .configStore | .keyEstablish | .keyRotate | .attest | .tenantCreate | .tenantEnrol
    | .tenantRemove | .keyRspRead .. | .keyAttRead .. | .deviceKeyRead .. | .logDataRead .. | .htwStart ..
    | .htwStop | .spiRead .. | .spiCsRise .. | .cmdAssemblyWrite .. | .cmdAssemblyClear .. | .xdatAccess ..
    | .thermalSecondDecision .. | .supplyGlitch .. | .tapInstruction .. | .tamperClear .. | .logEntryWrite ..
    | .tstNvMarginRead .. | .tstMemorySelfTest .. => (true, true)
  | .synthLock | .vcoreRampDone | .lockRegained | .dipEnd .. | .dipSettled
    | .vchgRise | .harvOvp | .harvUvlo | .harvCeiling | .pwrMeasUpdate .. | .vhostSettleEnd | .vhostTrip
    | .vhostCycleOffEnd | .vsensRampDone .. | .vsensSettleDone .. | .vsensTrip .. | .bankLost .. | .bankRestored ..
    | .stowTimeWake | .wakeEdge .. | .lookoutMatch .. | .wdogExpire | .hostPulseEnd | .leaseExpiry ..
    | .gapRecordEnqueue .. | .placementUpdate | .eccUncorrectable .. | .dispatch
    | .transferStart .. | .transferEnd .. | .arbLost .. | .stretchTimeout .. | .busStuck .. | .busFree ..
    | .busRecovery .. | .afeConversion .. | .afeDrain | .excSettleEnd | .excOvercurrent | .excOpen
    | .touchstoneStart .. | .afeCalStart .. | .timeTrigger .. | .angleTrigger .. | .chainTrigger ..
    | .jitDeadline .. | .noLockTargetSkip .. | .angleWithdraw | .shareWindowEnd | .edgeStamp .. | .icalHit ..
    | .stampService .. | .beaconWindowEnd .. | .epochRecordEnqueue .. | .idxMeasurement | .sxtLockLost ..
    | .angleComparatorFire .. | .bandwidthUpdate | .resamplerOutput .. | .assayPass | .assayGapInput ..
    | .trngHealthFail .. | .trngRetest .. | .roseEvent | .flarePulseEnd .. | .bundlerIntake | .bundleClose
    | .bundleAgeExpiry .. | .sealStart | .sealDone | .healthRecord | .attestSignDone .. | .htwIdleAbort | .spiCsFall
    | .spiWrite .. | .spiOverrun | .commandEnqueue | .tempSample .. | .probeWindowEnd | .tstDone .. | .avsUpdate ..
    | .avsCanary | .gearWindowEnd .. | .mpptPowerSample .. | .mpptUpdate | .vocResampleStart | .vocPauseEnd ..
    | .retentionLoss | .harvResume _ => (false, false)

/-! ## Frames -/

/-- The parts of the state, for statements of what a command leaves as it is. `reg a` is the register at byte address `a`,
`regs` the whole register file; `mode` is the phase and the power state, which `sys` holds too; `reset` stands for a FULL reset. -/
inductive Part where
  | reg (a : Nat)
  | regs
  | reset
  | mode
  | sys
  | nv
  | pending
  | rst
  | clk
  | pln
  | locks
  | shadowBad
  | pownBad
  | sel
  | samp
  | streams
  | queues
  | pendg
  | capped
  | loops
  | descs
  | chainDue
  | charge
  | chargeLast
  | ports
  | afe
  | afeCh
  | stp
  | lines
  | icalRun
  | rck
  | sxt
  | rsm
  | asy
  | asyLast
  | rose
  | lanes
  | closed
  | evicts
  | hallmark
  | routes
  | tens
  | stw
  | tx
  | ptrs
  | asm
  | env
  | port
  | tam
  | log
  | rdata
  deriving DecidableEq, Repr

/-- Changing `q` may change `p`. -/
def Part.covers (q p : Part) : Bool :=
  match q, p with
  | .regs, .reg _ => true
  | .reg _, .regs => true
  | .mode, .sys => true
  | .reset, .pending => false
  | .reset, .nv => false
  | .reset, _ => true
  | _, _ => decide (q = p)

/-- The part is the same in two states. -/
def Part.same (p : Part) (s t : State) : Prop :=
  match p with
  | .reg a => t.reg a = s.reg a
  | .regs => t.regs = s.regs
  | .reset => True
  | .mode => t.sys.phase = s.sys.phase ∧ t.sys.pstate = s.sys.pstate
  | .sys => t.sys = s.sys
  | .nv => t.nv = s.nv
  | .pending => t.pending = s.pending
  | .rst => t.rst = s.rst
  | .clk => t.clk = s.clk
  | .pln => t.pln = s.pln
  | .locks => t.locks = s.locks
  | .shadowBad => t.shadowBad = s.shadowBad
  | .pownBad => t.pownBad = s.pownBad
  | .sel => t.sel = s.sel
  | .samp => t.samp = s.samp
  | .streams => t.streams = s.streams
  | .queues => t.queues = s.queues
  | .pendg => t.pendg = s.pendg
  | .capped => t.capped = s.capped
  | .loops => t.loops = s.loops
  | .descs => t.descs = s.descs
  | .chainDue => t.chainDue = s.chainDue
  | .charge => t.charge = s.charge
  | .chargeLast => t.chargeLast = s.chargeLast
  | .ports => t.ports = s.ports
  | .afe => t.afe = s.afe
  | .afeCh => t.afeCh = s.afeCh
  | .stp => t.stp = s.stp
  | .lines => t.lines = s.lines
  | .icalRun => t.icalRun = s.icalRun
  | .rck => t.rck = s.rck
  | .sxt => t.sxt = s.sxt
  | .rsm => t.rsm = s.rsm
  | .asy => t.asy = s.asy
  | .asyLast => t.asyLast = s.asyLast
  | .rose => t.rose = s.rose
  | .lanes => t.lanes = s.lanes
  | .closed => t.closed = s.closed
  | .evicts => t.evicts = s.evicts
  | .hallmark => t.hallmark = s.hallmark
  | .routes => t.routes = s.routes
  | .tens => t.tens = s.tens
  | .stw => t.stw = s.stw
  | .tx => t.tx = s.tx
  | .ptrs => t.ptrs = s.ptrs
  | .asm => t.asm = s.asm
  | .env => t.env = s.env
  | .port => t.port = s.port
  | .tam => t.tam = s.tam
  | .log => t.log = s.log
  | .rdata => t.rdata = s.rdata

/-- Every part that no part of `l` covers is the same in `s` and `t`. -/
def changesOnly (l : List Part) (s t : State) : Prop := ∀ p, l.any (fun q => q.covers p) = false → p.same s t

/-- What raising a page interrupt may change beside PIRQ (R134): the host wake with the watchdog, the Rose, the record of
the page's owner. -/
def irqParts : List Part := [.reg 0x154, .reg 0x178, .reg 0x2048, .sys, .rose, .queues, .pendg, .tens]

/-- Only the parts of `l`, and what raising a page interrupt may change, differ. -/
def changesBesideIrq (l : List Part) (s t : State) : Prop := changesOnly (irqParts ++ l) s t

/-- The power states of a phase (R84): a part that is not in Stow or running is OFF. -/
def legalMode : Phase → PState → Bool
  | .stow, .stowCold => true
  | .stow, .stowWarm => true
  | .running, .watch => true
  | .running, .run => true
  | .unpowered, .off => true
  | .inReset, .off => true
  | .booting, .off => true
  | _, _ => false

/-- The power state is one of the phase's. -/
def State.modeWf (s : State) : Bool := legalMode s.sys.phase s.sys.pstate

end Sys2Proof.Machine
end

