-- ==== Sys2Proof/Certificates/Slice0/Obligations.lean ====
section
/-! DEFINITION. The statements for the provers: what the commands do, what they leave as it is, and what every step keeps. -/

open Sys2Proof Sys2Proof.Machine

/-- A step runs the command at the front of the queue on the state with the queue's rest. (00_scope.md) -/
def Obligations.StepRunsTheFrontCommand : Prop :=
  ∀ (s : State) (c : Instr) (rest : List Instr), s.pending = c :: rest → step s = exec c { s with pending := rest }

/-- With no command waiting a step is one CCLK cycle, and nothing happens without CCLK (the model's choice, log entry
3). (11_reckoner_and_stamps.md, 03_one_clock_and_its_gears.md) -/
def Obligations.EmptyQueueRunsOneCycle : Prop :=
  ∀ s : State, s.pending = [] → ∃ t, step s = .next t ∧ t.pending = [] ∧ (s.cclk = false → t = s) ∧
    (s.cclk = true → t.rck.acc = (s.rck.acc + (((gearTicks s.cycleGear * tickUnits : Nat) * (2 ^ 40 + s.rateF + s.rck.q)) / 2 ^ 40).toNat) % 2 ^ 128) ∧
    changesOnly [.rck, .sxt, .sys] s t ∧ t.sys.phase = s.sys.phase ∧ t.sys.pstate = s.sys.pstate

/-- Every command, on every state, answers a next state and leaves the queue of waiting commands as it is.
(00_scope.md) -/
def Obligations.EveryCommandAnswersAndKeepsTheQueue : Prop :=
  ∀ (c : Instr) (s : State), ∃ t, exec c s = .next t ∧ t.pending = s.pending

/-- From every state, a run of any length never stops. (00_scope.md) -/
def Obligations.EveryRunIsSafe : Prop :=
  ∀ (n : Nat) (s : State), safeRun n s = true

/-- Every step keeps every keyed part of the state in canonical form. (06_register_pages.md, 07_queues_and_credits.md)
-/
def Obligations.StepKeepsMapsCanonical : Prop :=
  ∀ s t : State, s.mapsWf = true → step s = .next t → t.mapsWf = true

/-- Every step keeps the power state one of the hub's phase. (R84, 05_reset_boot_and_versions.md) -/
def Obligations.StepKeepsLegalPowerState : Prop :=
  ∀ s t : State, s.modeWf = true → step s = .next t → t.modeWf = true

/-- The state after reset meets the invariants: canonical maps, a legal power state, no command waiting.
(05_reset_boot_and_versions.md) -/
def Obligations.ResetIsWellFormed : Prop :=
  State.reset.mapsWf = true ∧ State.reset.modeWf = true ∧ State.reset.pending = [] ∧ State.reset.sys.phase = .unpowered ∧
    State.reset.cclk = false

/-- A FULL reset returns every register and block to its reset value, Hub Time to 0, and leaves NV as it was. (R95,
R96, R479, 05_reset_boot_and_versions.md) -/
def Obligations.FullResetLeaves : Prop :=
  ∀ (c : Cause) (h : Nat) (s : State), let t := fullReset c h s
    (∀ a, t.reg a = resetOf a) ∧ t.ht = 0 ∧ (∀ q, t.queue q = []) ∧ (∀ q p, t.pendOf q p = []) ∧ (∀ k, t.lane k = lane0) ∧
    (∀ d, t.desc d = desc0) ∧ (∀ p, t.txOf p = none) ∧ (∀ n, t.ten n = ten0) ∧ t.env = none ∧ t.rose = [] ∧ t.nv = s.nv ∧
    t.pending = s.pending ∧ t.sys.cause = c ∧ t.modeWf = true ∧ (c = .bor → t.sys.phase = .unpowered) ∧
    (c = .nrst ∨ c = .hold → t.sys.phase = .inReset) ∧
    (s.mapsWf = true → s.keptDomain = true → ∀ k, t.closedOf k = (s.closedOf k).filter (fun b => b.done)) ∧
    (s.keptDomain = false → ∀ k, t.closedOf k = [])

/-- A field reads back what was written to it; other registers, and the other fields of its register, are unchanged.
(06_register_pages.md) -/
def Obligations.RegistersReadBack : Prop :=
  (∀ (s : State) (a b : Nat) (w : Word), s.mapsWf = true → (s.setReg a w).reg a = w ∧ (b ≠ a → (s.setReg a w).reg b = s.reg b)) ∧
  (∀ (s : State) (f g : Fld) (v : Nat), s.mapsWf = true → f.lo + f.w ≤ 32 → g.lo + g.w ≤ 32 →
    (s.setFld f v).fld f = v % 2 ^ f.w ∧
    (g.addr ≠ f.addr ∨ f.lo + f.w ≤ g.lo ∨ g.lo + g.w ≤ f.lo → (s.setFld f v).fld g = s.fld g))

/-- Power-up, brown-out, NRST low and the loss of retention complete: the phase, the cause, the registers and NV after
each. (R10, R65, R84, R94, R95, R96, R99) -/
def Obligations.ResetSourcesAct : Prop :=
  (∀ s : State, s.sys.phase = .unpowered → completes .vstartRise s fun t =>
    t.sys.phase = (if s.sys.nrstLow then .inReset else .booting) ∧ t.sys.aboveVstart = true ∧ t.sys.coldBoot = !s.sys.nrstLow ∧
    t.sys.cause = (if s.sys.nrstLow then .nrst else if s.sys.retained then s.sys.cause else .por) ∧ changesOnly [.mode] s t) ∧
  (∀ s : State, s.sys.phase ≠ .unpowered → completes .bor s fun t =>
    t.sys.phase = .unpowered ∧ t.sys.cause = .bor ∧ t.ht = 0 ∧ (∀ a, t.reg a = resetOf a) ∧
    (s.keyWriting = false → s.stw.nvActive = false → t.nv = s.nv)) ∧
  (∀ s : State, s.sys.phase ≠ .unpowered → s.sys.phase ≠ .inReset → completes .nrstLow s fun t =>
    t.sys.phase = .inReset ∧ t.sys.nrstLow = true ∧ t.sys.cause = .nrst ∧ t.nv = s.nv ∧ ∀ a, t.reg a = resetOf a) ∧
  (∀ s : State, s.sys.phase = .unpowered → completes .retentionLoss s fun t =>
    t.sys.retained = false ∧ t.closed = [] ∧ t.log.kept = none ∧ changesOnly [.sys, .closed, .log] s t)

/-- In reset, boot begins when NRST, the holding time and the condition of a HOLD have all ended, and not before.
(R99, R445, R451, R453, R460) -/
def Obligations.ResetEndsWhenItsSourcesEnd : Prop :=
  (∀ s : State, s.sys.phase = .inReset → s.sys.holdTime = false → s.sys.holding = 0 → completes .nrstRelease s fun t =>
    t.sys.phase = .booting ∧ t.sys.nrstLow = false ∧ changesOnly [.mode] s t) ∧
  (∀ s : State, s.sys.phase = .inReset → s.sys.holdTime = true → completes .nrstRelease s fun t => t.sys.phase = .inReset) ∧
  (∀ s : State, s.sys.phase = .inReset → s.sys.holdTime = true → completes .holdEnd s fun t => t.sys.holdTime = false ∧
    t.sys.phase = (if s.sys.nrstLow || (s.sys.holding == 2 && s.tam.cross) ||
      (s.sys.holding == 5 && (s.tam.vcoreLow || s.tam.vstoreHigh)) then .inReset else .booting)) ∧
  (∀ s : State, s.sys.phase = .inReset → s.sys.holdTime = false → s.sys.nrstLow = false → s.sys.holding = 2 →
    completes (.thermalComparator false) s fun t => t.sys.phase = .booting ∧ t.tam.cross = false) ∧
  (∀ s : State, s.sys.phase = .inReset → completes (.thermalComparator true) s fun t =>
    t.tam.cross = true ∧ (s.sys.holding = 2 → t.sys.phase = .inReset)) ∧
  (∀ s : State, s.sys.phase = .stow → completes (.thermalComparator true) s fun t => t.sys.wakes = s.sys.wakes ||| 2 ^ 16) ∧
  (∀ s : State, s.sys.phase = .inReset → s.sys.holdTime = false → s.sys.nrstLow = false → s.sys.holding = 5 →
    completes .supplyConditionEnd s fun t => t.sys.phase = .booting) ∧
  (∀ s : State, s.mapsWf = true → completes .supplyConditionEnd s fun t =>
    t.tam.vcoreLow = false ∧ t.tam.vstoreHigh = false ∧ t.bit F.TAM_LATCH_COND 4 = false)

/-- BOOT halts on a failed ROM or trim check, waits for energy at STAGE 0xE, and otherwise, as BOOT_ENERGY_RESUME does once
there is energy, completes: STAGE 7, with the boot number counted and shown. (R57, R65, R84, R99, R101, R102, R124, R466,
R516) -/
def Obligations.BootStopsOrGoesOn : Prop :=
  (∀ (s : State) (mv pk n : Nat) (lk : Bool), s.mapsWf = true → s.sys.phase = .booting → s.fld F.SYS_BOOT_STAGE = 1 →
    completes (.boot ⟨mv, pk, n⟩ .romFailed lk) s fun t =>
      t.fld F.SYS_BOOT_STAGE = 15 ∧ t.fld F.SYS_BOOT_ERR = 1 ∧ t.halted = true) ∧
  (∀ (s : State) (mv pk n : Nat) (lk : Bool), s.mapsWf = true → s.sys.phase = .booting → s.fld F.SYS_BOOT_STAGE = 1 →
    s.nv.trim.good = false → completes (.boot ⟨mv, pk, n⟩ .good lk) s fun t =>
      t.fld F.SYS_BOOT_STAGE = 15 ∧ t.fld F.SYS_BOOT_ERR = 2 ∧ t.halted = true) ∧
  (∀ (s : State) (mv pk n : Nat) (lk : Bool), s.mapsWf = true → s.sys.phase = .booting → s.fld F.SYS_BOOT_STAGE = 1 →
    completes (.boot ⟨mv, pk, n⟩ .oscFailed lk) s fun t =>
      t.fld F.SYS_BOOT_STAGE = 1 ∧ t.fld F.CLK_EVT_AMP_LOST = 1 ∧ t.bit (F.PIRQ 0x02) 8 = true) ∧
  (∀ (s : State) (mv pk n : Nat) (lk : Bool), s.mapsWf = true → s.sys.phase = .booting → s.fld F.SYS_BOOT_STAGE = 1 →
    s.nv.trim.good = true → s.configReads = true → lifeWordGood s.nv = true → mv < 2200 →
    completes (.boot ⟨mv, pk, n⟩ .good lk) s fun t =>
      t.fld F.SYS_BOOT_STAGE = 14 ∧ t.fld F.PWR_THR_STAT_ABOVE_VWARN = 0) ∧
  (∀ (s : State) (mv pk n : Nat) (lk : Bool), s.mapsWf = true → s.sys.phase = .booting → s.fld F.SYS_BOOT_STAGE = 14 →
    mv < 2200 → completes (.bootEnergyResume ⟨mv, pk, n⟩ lk) s fun t =>
      t.fld F.SYS_BOOT_STAGE = 14 ∧ t.fld F.PWR_THR_STAT_ABOVE_VWARN = 0) ∧
  (∀ (s : State) (mv pk n : Nat), s.mapsWf = true → s.sys.phase = .booting → s.fld F.SYS_BOOT_STAGE = 1 →
    s.nv.trim.good = true → s.configReads = true → lifeWordGood s.nv = true → s.nv.ringGood = true →
    (∀ t, t < 8 → (s.tnv t).chart = none) → 17 ≤ n →
    ((s.bootStart mv).loadTrim.bootConfig).vwarn + 60 < mv → ((s.bootStart mv).loadTrim.bootConfig).keyw ≤ mv →
    completes (.boot ⟨mv, pk, n⟩ .good true) s fun t => t.sys.phase = .booting ∧ t.fld F.SYS_BOOT_STAGE = 7 ∧
      t.nv.bootNum = min (2 ^ 20 - 1) (s.nv.bootNum + 1) ∧ t.fld F.IDN_BOOTNUM_NUM = t.nv.bootNum) ∧
  (∀ (s : State) (mv pk n : Nat), s.mapsWf = true → s.sys.phase = .booting → s.fld F.SYS_BOOT_STAGE = 14 →
    s.nv.ringGood = true → (∀ t, t < 8 → (s.tnv t).chart = none) → 17 ≤ n → s.vwarn + 60 < mv → s.keyw ≤ mv →
    completes (.bootEnergyResume ⟨mv, pk, n⟩ true) s fun t => t.sys.phase = .booting ∧ t.fld F.SYS_BOOT_STAGE = 7 ∧
      t.nv.bootNum = min (2 ^ 20 - 1) (s.nv.bootNum + 1) ∧ t.fld F.IDN_BOOTNUM_NUM = t.nv.bootNum) ∧
  (∀ lk : Bool, completes (.boot ⟨3600, 3600, 3⟩ .good lk)
      { State.reset with sys := { State.reset.sys with phase := .booting } } fun t =>
    t.sys.phase = .booting ∧ t.fld F.SYS_BOOT_STAGE = 7 ∧ t.fld F.SYS_LIFE_STATE = 3 ∧ t.fld F.IDN_BOOTNUM_NUM = 1) ∧
  (∀ (s : State) (n : Nat), s.mapsWf = true → s.sys.phase = .booting → s.fld F.SYS_BOOT_STAGE = 7 →
    completes (.hostRelease n) s fun t => t.sys.phase = .running ∧ t.sys.pstate = .watch ∧ t.fld F.SYS_BOOT_STAGE = 8 ∧
      t.fld F.LOG_STATUS_SCAN = 1 ∧ t.fld F.SYS_HREL_RELEASED = (if s.sys.vhostOn then 1 else 0))

/-- STOW_ENTRY enters STOW-COLD or STOW-WARM, each wake cause is recorded, and STOW_WAKE returns to WATCH with the
causes shown. (R84, R86, R87, R88, R89, R90, R426) -/
def Obligations.StowEntryAndWake : Prop :=
  (∀ s : State, s.mapsWf = true → s.running = true → s.gear = 0 → s.changing = false → s.mayStow = true →
    completes .stowEntry s fun t => t.sys.phase = .stow ∧ t.sys.pstate = (if s.mayCold then .stowCold else .stowWarm) ∧
      t.fld F.SYS_PSTATE_LAST_STOW = (if s.mayCold then 2 else 1) ∧ t.cclk = !s.mayCold ∧
      t.fld F.SYS_PSTATE_STOW_CNT = min (s.fld F.SYS_PSTATE_STOW_CNT + 1) 65535) ∧
  (∀ s : State, s.sys.phase = .stow → s.sys.pstate = .stowWarm → (s.timeAhead && s.ageAhead) = false →
    completes .stowTimeWake s fun t => t.sys.wakes = s.sys.wakes ||| 2 ^ 13 ∧ changesOnly [.sys] s t) ∧
  (∀ s : State, (s.timeAhead && s.ageAhead) = true → exec .stowTimeWake s = .next s) ∧
  (∀ (s : State) (k : Nat) (f : Bool), s.sys.phase = .stow ∨ s.sys.phase = .running → k ≤ 9 →
    s.on (if k < 9 then F.PWR_BANK_VSENSIO_OK else F.PWR_BANK_VIOH_OK) = true → s.bit F.SYS_WAKE_POL_FALL k = f → s.bit F.SYS_WAKE_EN_WAKE k = true → completes (.wakeEdge k f) s fun t =>
      t.sys.wakes = s.sys.wakes ||| 2 ^ k ∧ changesOnly [.sys] s t) ∧
  (∀ s : State, s.sys.phase = .stow ∨ s.sys.phase = .running → s.on F.PWR_BANK_VIOH_OK = true → s.bit F.SYS_WAKE_EN_WAKE 10 = true →
    completes (.wakeEdge 10 true) s fun t => t.sys.wakes = s.sys.wakes ||| 2 ^ 10 ∧ changesOnly [.sys] s t) ∧
  (∀ (s : State) (a : Nat) (r : Bool), s.mapsWf = true → s.sys.phase = .stow → s.on F.PWR_BANK_VIOH_OK = true →
    (s.addrOf a).isSome = true → completes (.lookoutMatch a r) s fun t => t.sys.wakes = s.sys.wakes ||| 2 ^ 12 ∧
      t.fld F.HTW_LOOK_LAST_ADDR = a % 128 ∧ t.fld F.HTW_LOOK_WAKES = min (s.fld F.HTW_LOOK_WAKES + 1) 65535 ∧
      t.fld F.HTW_STAT_STATE = 4) ∧
  (∀ s : State, s.mapsWf = true → s.sys.phase = .stow → s.sys.wakes ≠ 0 → completes .stowWake s fun t =>
    t.sys.phase = .running ∧ t.sys.pstate = .watch ∧ t.fld F.SYS_PSTATE_STATE = 1 ∧ t.sys.wakes = 0 ∧
    t.reg A.SYS_WAKE_CAUSE = s.reg A.SYS_WAKE_CAUSE ||| BitVec.ofNat 32 s.sys.wakes)

/-- VHOST settles, trips, cycles off and on; a VSENS rail ramps, settles and trips, with the events each raises. (R73,
R74, R75, R77) -/
def Obligations.RailsAndVhost : Prop :=
  (∀ s : State, s.mapsWf = true → s.powered = true → s.sys.phase ≠ .booting → s.sys.vhostOn = true → s.sys.vhostSettle = true →
    completes .vhostSettleEnd s fun t => t.fld F.SYS_HREL_RELEASED = 1 ∧ t.sys.vhostSettle = false ∧
      changesOnly [.reg A.SYS_HREL, .sys] s t) ∧
  (∀ s : State, s.mapsWf = true → s.powered = true → s.sys.vhostOn = true → completes .vhostTrip s fun t =>
    t.fld F.PWR_RAILEVT_VHOST_TRIP = 1 ∧ t.bit (F.PIRQ 0x03) 10 = true ∧
    (2 ≤ (s.sys.trips.filter fun h => decide (s.ht ≤ h + 10 * 2 ^ 32)).length →
      t.fld F.PWR_RAILEVT_VHOST_LOCKOUT = 1 ∧ t.fld F.PWR_VHOST_EN = 0)) ∧
  (∀ s : State, s.powered = true → s.sys.vhostCycle = true → s.on F.PWR_VHOST_EN = true → s.sys.vhostOn = false →
    s.sys.lockout = false → completes .vhostCycleOffEnd s fun t => t.sys.vhostOn = true ∧ t.sys.vhostSettle = true ∧
      t.sys.vhostCycle = false ∧ changesOnly [.reg A.PWR_VHOST, .sys] s t) ∧
  (∀ (s : State) (n : Nat), s.mapsWf = true → n < 3 → s.powered = true → s.fld (F.PWR_VSENS_STATE n) = 1 →
    completes (.vsensRampDone n) s fun t => t.fld (F.PWR_VSENS_STATE n) = 2 ∧ changesOnly [.reg (A.PWR_VSENS n)] s t) ∧
  (∀ (s : State) (n : Nat), s.mapsWf = true → n < 3 → s.cclk = true → s.fld (F.PWR_VSENS_STATE n) = 2 →
    completes (.vsensSettleDone n) s fun t => t.fld (F.PWR_VSENS_STATE n) = 3 ∧ changesOnly [.reg (A.PWR_VSENS n)] s t) ∧
  (∀ (s : State) (n : Nat), s.mapsWf = true → n < 3 → s.powered = true → s.fld (F.PWR_VSENS_STATE n) ≠ 0 →
    completes (.vsensTrip n) s fun t => t.fld (F.PWR_VSENS_EN n) = 0 ∧ t.bit F.PWR_RAILEVT_VSENS_TRIP n = true ∧
      t.bit (F.PIRQ 0x03) 10 = true)

/-- A supply dip begins, continues, ends and settles: ACTIVE, SETTLING, ABOVE_VWARN and the interrupts. (R78, R79,
R80, R82, R90) -/
def Obligations.SupplyDipRunsItsCourse : Prop :=
  (∀ (s : State) (mv : Nat), s.mapsWf = true → s.powered = true → s.on F.PWR_THR_STAT_ABOVE_VWARN = true → s.dipHold = false →
    s.sys.phase ≠ .stow → completes (.dipBegin mv) s fun t => t.fld F.SYS_DIP_ACTIVE = 1 ∧ t.fld F.SYS_DIP_SETTLING = 0 ∧
      t.fld F.PWR_THR_STAT_ABOVE_VWARN = 0 ∧ t.bit (F.PIRQ 0x03) 8 = true) ∧
  (∀ (s : State) (mv : Nat), s.mapsWf = true → s.on F.PWR_THR_STAT_ABOVE_VWARN = true → s.dipHold = false →
    s.sys.phase = .stow → completes (.dipBegin mv) s fun t => t.sys.wakes = s.sys.wakes ||| 2 ^ 14 ∧
      t.fld F.PWR_THR_STAT_ABOVE_VWARN = 0 ∧ t.sys.vstore = mv) ∧
  (∀ (s : State) (mv : Nat), s.mapsWf = true → s.cclk = true → s.on F.SYS_DIP_SETTLING = true → s.on F.SYS_DIP_ACTIVE = false →
    completes (.dipContinue mv) s fun t => t.fld F.SYS_DIP_ACTIVE = 1 ∧ t.fld F.SYS_DIP_SETTLING = 0 ∧
      t.fld F.PWR_THR_STAT_ABOVE_VWARN = 0) ∧
  (∀ (s : State) (mv : Nat), s.mapsWf = true → s.cclk = true → s.on F.SYS_DIP_ACTIVE = true →
    completes (.dipEnd mv) s fun t => t.fld F.SYS_DIP_ACTIVE = 0 ∧ t.fld F.PWR_THR_STAT_ABOVE_VWARN = 1 ∧
      t.bit (F.PIRQ 0x03) 9 = true) ∧
  (∀ s : State, s.mapsWf = true → s.cclk = true → s.on F.SYS_DIP_SETTLING = true →
    (∀ n ∈ s.railsBack, s.fld (F.PWR_VSENS_STATE n) = 3) → completes .dipSettled s fun t =>
      t.fld F.SYS_DIP_SETTLING = 0 ∧ t.sys.railShed = 0 ∧ t.sys.dipStart = none)

/-- The harvester's stops and their return, VCHG, PWR_MEAS and its comparators, and the bank-good flags. (R27, R65,
R69, R70, R91) -/
def Obligations.HarvesterMeterAndBanks : Prop :=
  (∀ s : State, s.mapsWf = true → s.powered = true → s.on F.PWR_HSTAT_OVP = false → completes .harvOvp s fun t =>
    t.fld F.PWR_HSTAT_OVP = 1 ∧ t.fld F.PWR_RAILEVT_HARV_OVP = 1 ∧ t.bit (F.PIRQ 0x03) 11 = true) ∧
  (∀ s : State, s.mapsWf = true → s.powered = true → s.on F.PWR_HSTAT_UVLO = false → completes .harvUvlo s fun t =>
    t.fld F.PWR_HSTAT_UVLO = 1 ∧ t.bit (F.PIRQ 0x03) 11 = true) ∧
  (∀ s : State, s.mapsWf = true → s.powered = true → s.on F.PWR_HSTAT_CEILING = false → completes .harvCeiling s fun t =>
    t.fld F.PWR_HSTAT_CEILING = 1 ∧ (s.loopEn loopMPPT = true → (t.loop loopMPPT).satHi = true)) ∧
  (∀ (s : State) (stop : HarvStop), s.mapsWf = true → s.powered = true → completes (.harvResume stop) s fun t =>
    t.fld F.PWR_HSTAT_OVP = (if stop = .ovp then 0 else s.fld F.PWR_HSTAT_OVP) ∧
    t.fld F.PWR_HSTAT_UVLO = (if stop = .uvlo then 0 else s.fld F.PWR_HSTAT_UVLO) ∧
    t.fld F.PWR_HSTAT_CEILING = (if stop = .ceiling then 0 else s.fld F.PWR_HSTAT_CEILING) ∧
    changesOnly [.reg A.PWR_HSTAT, .pln] s t) ∧
  (∀ s : State, s.mapsWf = true → s.powered = true → completes .vchgRise s fun t =>
    t.fld F.PWR_THR_STAT_ABOVE_VCHG = 1 ∧
    (s.sys.phase ≠ .booting → s.bit F.SYS_WAKE_EN_WAKE 11 = true → t.sys.wakes = s.sys.wakes ||| 2 ^ 11) ∧
    changesOnly [.reg A.PWR_THR_STAT, .reg A.SYS_DIP, .sys, .stw] s t) ∧
  (∀ (s : State) (v h i : Nat), s.mapsWf = true → s.awake = true → completes (.pwrMeasUpdate v h i) s fun t =>
    t.sys.vstore = v ∧ t.fld F.PWR_MEAS_VHARV = min (quot h 20).toNat 1023 ∧ t.fld F.PWR_MEAS_IHARV = min i 511 ∧
    t.fld F.PWR_MEAS_VSTORE = min (v / 10) 1023 ∧
    t.fld F.PWR_THR_STAT_ABOVE_KEYW = (if 2200 + 10 * s.fld F.PWR_THR_KEYW ≤ v then 1 else 0) ∧
    t.fld F.PWR_THR_STAT_ABOVE_VCHG = (if 2200 + 10 * s.fld F.PWR_THR_VCHG ≤ v then 1 else 0)) ∧
  (∀ s : State, s.mapsWf = true → s.powered = true → s.on F.PWR_BANK_VSENSIO_OK = true → completes (.bankLost true) s fun t =>
    t.fld F.PWR_BANK_VSENSIO_OK = 0 ∧ t.bit (F.PIRQ 0x03) 12 = true) ∧
  (∀ s : State, s.mapsWf = true → s.powered = true → s.on F.PWR_BANK_VIOH_OK = true → completes (.bankLost false) s fun t =>
    t.fld F.PWR_BANK_VIOH_OK = 0 ∧ t.bit (F.PIRQ 0x03) 12 = true) ∧
  (∀ (s : State) (k : Nat), s.mapsWf = true → s.powered = true → s.on F.PWR_BANK_VSENSIO_OK = false →
    completes (.bankRestored true k) s fun t => t.fld F.PWR_BANK_VSENSIO_OK = 1 ∧ changesOnly [.reg A.PWR_BANK, .sys] s t) ∧
  (∀ (s : State) (k : Nat), s.mapsWf = true → s.powered = true → s.on F.PWR_BANK_VIOH_OK = false →
    completes (.bankRestored false k) s fun t => t.fld F.PWR_BANK_VIOH_OK = 1 ∧ changesOnly [.reg A.PWR_BANK, .sys] s t)

/-- A gear change goes through the voltage ramp and the changeover; the reference is lost and regained. (R44, R45,
R46, R57, R58, R59, R60) -/
def Obligations.GearsAndReference : Prop :=
  (∀ (s : State) (h : Nat), s.mapsWf = true → s.cclk = true → s.on F.CLK_GEAR_VRAMP = true → s.clk.ramp = some h →
    completes .vcoreRampDone s fun t => t.fld F.CLK_GEAR_VRAMP = 0 ∧ t.fld F.CLK_GEAR_SWITCHING = 1 ∧
      t.fld F.CLK_GEAR_TGT = h % 8 ∧ t.clk.ramp = none) ∧
  (∀ s : State, s.mapsWf = true → s.cclk = true → s.on F.CLK_GEAR_SWITCHING = true → s.fld F.CLK_GEAR_TGT = 7 →
    completes .gearSwitchDone s fun t => t.fld F.CLK_GEAR_CUR = 7 ∧ t.fld F.CLK_GEAR_SWITCHING = 0 ∧
      t.fld F.CLK_SYN_ON = 0 ∧ t.fld F.CLK_PERIOD_TICKS = 640 ∧ t.bit (F.PIRQ 0x02) 10 = true) ∧
  (∀ s : State, s.mapsWf = true → s.cclk = true → s.on F.CLK_GEAR_SWITCHING = true → s.fld F.CLK_GEAR_TGT ≠ 7 →
    completes .gearSwitchDone s fun t => t.fld F.CLK_GEAR_CUR = s.fld F.CLK_GEAR_TGT ∧
      t.fld F.CLK_PERIOD_TICKS = gearTicks t.cycleGear ∧ t.bit (F.PIRQ 0x02) 10 = true) ∧
  (∀ s : State, s.mapsWf = true → s.cclk = true → s.sys.phase = .stow → s.sys.wakes ≠ 0 → s.gear = 7 → s.changing = false →
    completes .synthLock s fun t => t.fld F.CLK_SYN_ON = 1 ∧ t.fld F.CLK_SYN_LOCK = 1 ∧ t.fld F.CLK_GEAR_TGT = 0 ∧
      t.fld F.CLK_GEAR_SWITCHING = 1 ∧ changesOnly [.reg A.CLK_GEAR, .reg A.CLK_SYN, .reg A.CLK_PERIOD] s t) ∧
  (∀ s : State, s.cclk = true → s.on F.CLK_SYN_ON = true →
    exec .lockLost s = .next ((s.unlock.setFld F.CLK_EVT_LOCK_LOST 1).raise 0x02 9).holdover) ∧
  (∀ s : State, s.mapsWf = true → s.cclk = true → s.on F.CLK_SYN_ON = true → s.respOf tcCLOCK < 4 →
    completes .lockLost s fun t => t.on F.CLK_SYN_LOCK = false ∧ t.on F.CLK_SYN_HOLDOVER = true ∧
      t.fld F.CLK_EVT_LOCK_LOST = 1 ∧ t.bit (F.PIRQ 0x02) 9 = true) ∧
  (∀ s : State, s.mapsWf = true → s.cclk = true → s.on F.CLK_MON_AMP_OK = true → s.sys.phase ≠ .stow → s.respOf tcCLOCK < 4 →
    completes (.ampLost false) s fun t => t.on F.CLK_MON_AMP_OK = false ∧ t.on F.CLK_SYN_LOCK = false ∧
      t.on F.CLK_SYN_HOLDOVER = true ∧ t.fld F.CLK_EVT_AMP_LOST = 1 ∧ t.bit (F.PIRQ 0x02) 8 = true) ∧
  (∀ s : State, s.cclk = true → s.on F.CLK_MON_AMP_OK = true → s.sys.phase ≠ .stow → exec (.ampLost false) s =
    .next (((s.setFld F.CLK_MON_AMP_OK 0).setFld F.CLK_EVT_AMP_LOST 1).raise 0x02 8).unlock.holdover) ∧
  (∀ (s : State) (b : Bool), s.sys.phase = .stow →
    (if b then s.sys.pstate = .stowCold ∧ s.sys.wakes ≠ 0 else s.cclk = true ∧ s.on F.CLK_MON_AMP_OK = true) →
    exec (.ampLost b) s = .next (let u := ((s.setFld F.CLK_MON_AMP_OK 0).setFld F.CLK_EVT_AMP_LOST 1).raise 0x02 8
      let v := u.holdFrom u.freeRun.holdFlags.wakeUp
      v.when v.awake State.regear)) ∧
  (∀ s : State, s.mapsWf = true → s.cclk = true → s.on F.CLK_SYN_ON = true → s.on F.CLK_SYN_HOLDOVER = true →
    completes .lockRegained s fun t => t.fld F.CLK_SYN_HOLDOVER = 0 ∧ t.fld F.CLK_SYN_LOCK = 1 ∧
      t.fld F.CLK_SYN_FREERUN = 0 ∧ t.fld F.RCK_STAT_HOLDOVER = 0)

/-- Every command of the Steward is decided by the checks first: refused, re-issued, or begun; a command of another
row waits. (R393, R396, R397, R398, R399) -/
def Obligations.StewardDecidesBeforeItRuns : Prop :=
  ∀ x ∈ ([(0x01, .write), (0x02, .chartBegin), (0x03, .chartData), (0x04, .chartCommit), (0x05, .configStore),
      (0x10, .keyEstablish), (0x11, .keyRotate), (0x18, .attest), (0x20, .tenantCreate), (0x21, .tenantEnrol),
      (0x22, .tenantRemove), (0x28, .tenantReset), (0x29, .datapathReset), (0x2A, .fullResetCmd), (0x2B, .hostReset),
      (0x30, .lifecycle)] : List (Nat × Instr)), ∀ (s : State) (c : Cmd),
    (s.takes x.1 c → (∀ (st : Nat) (p7 : Bool), s.check c = .refuse st p7 →
        exec x.2 s = .next ((s.decided c).refused c st p7)) ∧
      (s.check c = .reissue → exec x.2 s = .next ((s.decided c).reissued c))) ∧
    (∀ op, op ≠ x.1 → (opRule op).isSome = true → s.takes op c → exec x.2 s = .next s)

/-- CHART_BEGIN, CHART_DATA, CHART_COMMIT and CONFIG_STORE that pass the checks: the upload, the NV write they ask
for, the status. (R393, R398, R403, R404, R406, R409) -/
def Obligations.ChartAndConfigCommandsRun : Prop :=
  (∀ (s : State) (c : Cmd) (r : Bool), s.mapsWf = true → s.takes 0x02 c → s.check c = .run r →
    48 + fieldLE c.payload 8 4 ≤ chartMax c.tenant → completes .chartBegin s fun t =>
      (t.ten c.tenant).upload = some c.payload ∧ (t.ten c.tenant).staged = List.replicate (fieldLE c.payload 8 4) none ∧
      t.lastStatus c.tenant = 0x00) ∧
  (∀ (s : State) (c : Cmd) (r : Bool), s.mapsWf = true → s.takes 0x03 c → s.check c = .run r → s.dipHold = false →
    ((s.begun c r).ten c.tenant).upload.isSome = true →
    fieldLE c.payload 0 4 + (c.payload.drop 4).length ≤ ((s.begun c r).ten c.tenant).staged.length →
    completes .chartData s fun t =>
      (t.ten c.tenant).staged = stageAt ((s.begun c r).ten c.tenant).staged (fieldLE c.payload 0 4)
        ((c.payload.drop 4).map some) ∧
      t.stw.nvq = s.stw.nvq ++ [.chartData (s.ticketOf c) (fieldLE c.payload 0 4) (c.payload.drop 4).length]) ∧
  (∀ (s : State) (c : Cmd) (r : Bool), s.mapsWf = true → s.takes 0x04 c → s.check c = .run r →
    ((s.begun c r).ten c.tenant).upload = none → completes .chartCommit s fun t => (t.ten c.tenant).chartPend =
      ((s.begun c r).ten c.tenant).chartPend ∧ t.nv = (s.begun c r).nv) ∧
  (∀ (s : State) (c : Cmd) (r : Bool) (h b : List Byte), s.mapsWf = true → s.takes 0x04 c → s.check c = .run r →
    ((s.begun c r).ten c.tenant).upload = some h → stagedBytes ((s.begun c r).ten c.tenant).staged = some b →
    (s.begun c r).versionGood h = true → bodyGood (h ++ b) = true → (chartRecs (h ++ b)).isSome = true →
    completes .chartCommit s fun t => (t.ten c.tenant).chartPend = true ∧ t.lastStatus c.tenant = 0x02 ∧
      ∃ k, t.stw.nvq.getLast? = some (.chartCommit k (h ++ b))) ∧
  (∀ (s : State) (c : Cmd) (r : Bool), s.takes 0x05 c → s.check c = .run r → s.dipHold = false →
    completes .configStore s fun t =>
      t.stw.nvq = s.stw.nvq ++ [.config (s.ticketOf c) (s.begun c r).configNow])

/-- KEY_ESTABLISH, KEY_ROTATE, TENANT_CREATE, TENANT_ENROL and TENANT_REMOVE that pass the checks begin their key
update or removal. (R381, R382, R383, R388, R389, R390, R391) -/
def Obligations.KeyAndTenantCommandsRun : Prop :=
  (∀ (s : State) (c : Cmd) (r : Bool), s.mapsWf = true → s.takes 0x10 c → s.check c = .run r →
    (s.begun c r).activeGen c.tenant + 1 ≤ 65535 →
    ((s.begun c r).slot c.tenant ((s.begun c r).otherSlot c.tenant)).writes < 20000 → completes .keyEstablish s fun t =>
      (t.ten c.tenant).update.map (fun x => (x.gen, x.hash, x.slotB, x.written)) =
        some ((s.begun c r).activeGen c.tenant + 1, Config.sha256 c.payload, (s.begun c r).otherSlot c.tenant, false)) ∧
  (∀ (s : State) (c : Cmd) (r : Bool) (a : KeySlot) (tk : List Byte), s.mapsWf = true → s.takes 0x11 c →
    s.check c = .run r → (s.begun c r).activeSlot c.tenant = some a →
    Config.kwUnwrap ((s.begun c r).wrapKey c.tenant a.gen a.key) c.payload = some tk → a.gen + 1 ≤ 65535 →
    ((s.begun c r).slot c.tenant ((s.begun c r).otherSlot c.tenant)).writes < 20000 → completes .keyRotate s fun t =>
      (t.ten c.tenant).update.map (fun x => (x.gen, x.key, x.slotB, x.written)) =
        some (a.gen + 1, tk, (s.begun c r).otherSlot c.tenant, false)) ∧
  (∀ (s : State) (c : Cmd) (r : Bool), s.mapsWf = true → s.takes 0x20 c → s.check c = .run r →
    (s.begun c r).tenExists (c.byte 0) = false → (s.begun c r).badQuota (c.byte 0) (quotaWord c) = false →
    fieldLE c.payload 2 2 ≠ 0 → fieldLE c.payload 2 2 < 4096 → fieldLE c.payload 4 2 < 4096 →
    ((s.begun c r).slot (c.byte 0) false).writes < 20000 → completes .tenantCreate s fun t =>
      (t.ten (c.byte 0)).update.map (fun x => (x.gen, x.slotB, x.written)) = some (1, false, false)) ∧
  (∀ (s : State) (c : Cmd) (r b : Bool) (g : Nat), s.mapsWf = true → s.takes 0x21 c → s.check c = .run r →
    (s.begun c r).tenExists (c.byte 0) = true →
    g = (match (s.begun c r).bestSlot (c.byte 0) with | none => 0 | some b => ((s.begun c r).slot (c.byte 0) b).gen) + 1 →
    b = (match (s.begun c r).bestSlot (c.byte 0) with | none => false | some b => !b) → g ≤ 65535 →
    ((s.begun c r).slot (c.byte 0) b).writes < 20000 → completes .tenantEnrol s fun t =>
      (t.ten (c.byte 0)).update.map (fun x => (x.gen, x.slotB, x.written)) = some (g, b, false)) ∧
  (∀ (s : State) (c : Cmd) (r : Bool), s.mapsWf = true → s.takes 0x22 c → s.check c = .run r →
    (s.begun c r).tenExists (c.byte 0) = true → completes .tenantRemove s fun t =>
      (t.ten (c.byte 0)).activeB = none ∧ (t.ten (c.byte 0)).upload = none ∧ (t.ten (c.byte 0)).update = none ∧
      ∃ k, t.stw.nvq.getLast? = some (.erase k (c.byte 0)))

/-- The reset commands, HOST_RESET and LIFECYCLE that pass the checks: the reset requested, the pulse, the decision,
the transition. (R94, R95, R97, R105, R106, R117, R118, R398) -/
def Obligations.ResetAndLifecycleCommandsRun : Prop :=
  (∀ (s : State) (c : Cmd) (r : Bool), s.mapsWf = true → s.takes 0x28 c → s.check c = .run r →
    (s.begun c r).tenExists (c.byte 0) = true → completes .tenantReset s fun t =>
      t.resetting (c.byte 0) = true ∧ t.lastStatus c.tenant = 0x00) ∧
  (∀ (s : State) (c : Cmd) (r : Bool), s.mapsWf = true → s.takes 0x29 c → s.check c = .run r →
    completes .datapathReset s fun t => t.rst.dp.isSome = true ∧ t.running = false ∧ t.lastStatus c.tenant = 0x00) ∧
  (∀ (s : State) (c : Cmd) (r : Bool), s.takes 0x2A c → s.check c = .run r → s.sys.phase ≠ .booting →
    completes .fullResetCmd s fun t => t.sys.cause = .cmd ∧ t.sys.phase = (if s.sys.nrstLow then .inReset else .booting) ∧
      t.env = none ∧ t.nv = (s.begun c r).nv ∧ ∀ a, t.reg a = resetOf a) ∧
  (∀ (s : State) (c : Cmd) (r : Bool), s.mapsWf = true → s.takes 0x2B c → s.check c = .run r →
    s.fld F.SYS_HREL_RELEASED = 1 → completes .hostReset s fun t => t.fld F.SYS_HREL_RELEASED = 0 ∧
      t.fld F.SYS_SESSION_NUM = (s.fld F.SYS_SESSION_NUM + 1) % 65536 ∧ t.lastStatus c.tenant = 0x00) ∧
  (∀ (s : State) (c : Cmd) (r : Bool), s.takes 0x30 c → s.check c = .run r →
    (s.begun c r).lifeGood s.life (c.byte 0) false = true → s.lifeEnergy = true → completes .lifecycle s fun t =>
      t.stw.life1 = some (c.byte 0, s.ticketOf c) ∧ t.nv = (s.begun c r).nv) ∧
  (∀ (s : State) (n : Nat) (k : Ticket), s.cclk = true → s.stw.life1 = some (n, k) →
    s.lifeGood (15 - s.nv.lifeInv) n (n == 5) = true → s.lifeEnergy = true →
    completes (.lifecycleSecondDecision true) s fun t => t.nv.life = n ∧ t.nv.lifeInv = 15 - n ∧ t.sys.cause = .lifecycle ∧
      t.sys.phase = (if s.sys.nrstLow then .inReset else .booting) ∧ ∀ a, t.reg a = resetOf a)

/-- ATTEST, the PATCH_LOAD commands and WRITE that pass the checks: the report, the staging half, the records applied,
the status. (R108, R109, R393, R401, R410, R412, R414) -/
def Obligations.AttestPatchAndWriteRun : Prop :=
  (∀ (s : State) (c : Cmd) (r : Bool), s.mapsWf = true → s.takes 0x18 c → s.check c = .run r →
    completes .attest s fun t => (t.ten c.tenant).report = (s.begun c r).attBody c ∧ (t.ten c.tenant).signing = true ∧
      t.lastStatus c.tenant = 0x00) ∧
  (∀ (s : State) (n : Nat), s.mapsWf = true → n < 8 → s.cclk = true → (s.ten n).signing = true →
    completes (.attestSignDone n) s fun t => (t.ten n).signing = false ∧
      (t.ten n).report = (s.ten n).report ++ Config.ecdsaSign s.nv.trim.deviceKey (s.ten n).report ∧
      t.bit (F.PIRQ 0x22) 10 = true) ∧
  (∀ (s : State) (c : Cmd) (r : Bool), s.mapsWf = true → s.takes 0x38 c → c.byte 0 = 1 → s.check c = .run r →
    completes .patchLoadBegin s fun t => t.stw.patchOpen = true ∧ t.stw.patchBuf = [] ∧ t.lastStatus c.tenant = 0x00) ∧
  (∀ (s : State) (c : Cmd) (r : Bool), s.takes 0x38 c → c.byte 0 = 2 → s.check c = .run r → s.dipHold = false →
    s.stw.patchOpen = true → fieldLE c.payload 4 4 + (c.payload.drop 8).length ≤ 16384 →
    completes .patchLoadData s fun t =>
      t.stw.patchBuf = stageAt s.stw.patchBuf (fieldLE c.payload 4 4) ((c.payload.drop 8).map some) ∧
      t.stw.nvq = s.stw.nvq ++ [.patchData (s.ticketOf c) (fieldLE c.payload 4 4) (c.payload.drop 8).length]) ∧
  (∀ (s : State) (c : Cmd) (r : Bool) (l : List Byte), s.takes 0x38 c → c.byte 0 = 3 → s.check c = .run r →
    s.stw.patchOpen = true → stagedBytes s.stw.patchBuf = some l → (s.begun c r).patchWhy l = none →
    completes .patchLoadCommit s fun t =>
      t.stw.patchOpen = false ∧ ∃ k, t.stw.nvq.getLast? = some (.patchCommit k l)) ∧
  (∀ (s : State) (c : Cmd) (r : Bool) (l : List Byte) (w : Nat), s.mapsWf = true → s.takes 0x38 c → c.byte 0 = 3 →
    s.check c = .run r → s.stw.patchOpen = true → stagedBytes s.stw.patchBuf = some l → (s.begun c r).patchWhy l = some w →
    completes .patchLoadCommit s fun t => t.stw = s.stw ∧ t.lastStatus c.tenant = 0x1A) ∧
  (∀ (s : State) (c : Cmd) (r : Bool) (l : List Rec), s.mapsWf = true → s.takes 0x01 c → s.check c = .run r →
    (s.begun c r).dormant c.tenant = false → recsOf 2 c.payload = some l →
    (s.begun c r).sameRun ((s.begun c r).applyRecs (.steward c.tenant) l).state = true → completes .write s fun t =>
      let a := (s.begun c r).applyRecs (.steward c.tenant) l
      t.stw = a.state.stw ∧ t.sel = a.state.sel ∧ t.descs = a.state.descs ∧
      t.lastStatus c.tenant = (if a.refused = 0 then 0x00 else 0x01)) ∧
  (∀ (s : State) (c : Cmd) (r : Bool), s.takes 0x01 c → s.check c = .run r → (s.begun c r).dormant c.tenant = true →
    exec .write s = .next ((s.begun c r).answer (s.ticketOf c) (.of stSTATE)))

/-- The steps of a key update, the end of an NV write, a chart's commit, a sequence reservation, and a Logbook entry.
(R376, R388, R398, R406, R409, R465, R79) -/
def Obligations.KeyUpdateStepsAndNvWrites : Prop :=
  (∀ (s : State) (n : Nat) (u : KeyUpdate), s.mapsWf = true → n < 8 → s.cclk = true → s.stw.nvActive = false →
    s.keyWriting = false → (s.ten n).update = some u → s.keyWait n u.slotB = false → s.keyFirst u.asked = true →
    completes (.keyUpdateWrite n true) s fun t =>
      (t.ten n).update = some { u with written := true, deferred := false } ∧
      t.slot n u.slotB = ⟨u.gen, u.key, false, (s.slot n u.slotB).writes + 1⟩) ∧
  (∀ (s : State) (n : Nat) (u : KeyUpdate), s.mapsWf = true → n < 8 → s.cclk = true → (s.ten n).update = some u →
    u.written = true → u.ticket.opcode ≠ 0x20 → s.life ≠ 3 → completes (.keyUpdateCommit n true) s fun t =>
      (t.slot n u.slotB).valid = true ∧ (t.ten n).activeB = some u.slotB ∧ (t.ten n).update = none ∧
      t.bit (F.PIRQ 0x22) 9 = true ∧ t.lastStatus u.ticket.tenant = 0x00) ∧
  (∀ (s : State) (k : Ticket) (m : Map Word) (q : List NvJob), s.mapsWf = true → s.cclk = true → s.stw.nvActive = true →
    s.stw.nvq = .config k m :: q → completes (.nvWriteComplete true) s fun t =>
      t.nv.config = some m ∧ t.nv.configGood = true ∧ t.stw.nvq = q ∧ t.lastStatus k.tenant = 0x00) ∧
  (∀ (s : State) (k : Ticket) (l : List Byte) (q : List NvJob), s.mapsWf = true → s.cclk = true → s.stw.nvActive = true →
    s.stw.nvq = .chartCommit k l :: q → completes (.chartCommitDone k.tenant true) s fun t =>
      (t.tnv k.tenant).chart.map (fun x => x.bytes) = some l ∧ t.resetting k.tenant = true) ∧
  (∀ (s : State) (n hw : Nat) (q : List NvJob), s.cclk = true → s.stw.nvActive = true → s.stw.nvq = .seqReserve n hw :: q →
    0 < hw → completes (.seqReservationCommit n) s fun t => (t.tnv n).seqHw = hw ∧ t.stw.nvq = q ∧
      changesOnly [.reg A.SYS_DIP, .nv, .stw, .tens, .hallmark] s t) ∧
  (∀ (s : State) (e : LogPend) (l : List LogPend) (q : List NvJob), s.mapsWf = true → s.cclk = true → s.stw.nvActive = true →
    s.stw.nvq = .logEntry :: q → s.on F.LOG_STATUS_SCAN = false → s.log.pend = e :: l → s.on F.LOG_STATUS_DEAD = false →
    completes (.logEntryWrite true) s fun t => t.log.pend = l ∧ t.stw.nvq = q ∧ t.nv.logSeq = (s.nv.logSeq + 1) % 2 ^ 32 ∧
      t.fld F.LOG_SEQ_SEQ = (s.nv.logSeq + 1) % 2 ^ 32)

/-- A read of RCK_HT_LO samples all of HT; RCK_HT_HI then shows the high half of that requester's latest sample, or 0.
(R263) -/
def Obligations.HubTimeReadsAsOneSample : Prop :=
  (∀ (s : State) (rq : Requester), s.mapsWf = true → s.shows rq A.RCK_HT_LO → completes (.htLoSample rq) s fun t =>
    t.rdata = BitVec.ofNat 32 (s.ht % 2 ^ 32) ∧ t.view rq A.RCK_HT_HI = BitVec.ofNat 32 (s.ht / 2 ^ 32) ∧
    (∀ q, reqKey q ≠ reqKey rq → t.view q A.RCK_HT_HI = s.view q A.RCK_HT_HI) ∧ changesOnly [.rdata, .samp] s t) ∧
  (∀ (s t : State) (rq : Requester), s.sampOf A.RCK_HT_HI rq = t.sampOf A.RCK_HT_HI rq →
    s.view rq A.RCK_HT_HI = t.view rq A.RCK_HT_HI) ∧
  (∀ (s : State) (rq : Requester), s.sampOf A.RCK_HT_HI rq = 0 → s.view rq A.RCK_HT_HI = 0#32)

/-- The other sampling reads show the register and take the samples of their further words, changing nothing else.
(R263, R273, R284, R285, R307, R379, R414) -/
def Obligations.SampledReadsShowAndSample : Prop :=
  let sampled := fun (rq : Requester) (a : Nat) (s t : State) => t.rdata = s.view rq a ∧
    (∀ b ∈ sampledBy a, t.sampOf b rq = s.blockView rq b + 1) ∧ changesOnly [.rdata, .samp] s t
  ∀ (s : State) (rq : Requester), s.mapsWf = true →
    (s.shows rq A.RCK_SYNC_LO → completes (.syncLoSample rq) s (sampled rq A.RCK_SYNC_LO s)) ∧
    (∀ ch, ch < 12 → s.shows rq (A.STP_CH_LO ch) → completes (.stampLoSample rq ch) s (sampled rq (A.STP_CH_LO ch) s)) ∧
    (s.shows rq A.RCK_OFS_LO → completes (.ofsLoSample rq) s (sampled rq A.RCK_OFS_LO s)) ∧
    (s.shows rq A.SXT_ANG → completes (.sxtAngSample rq) s (sampled rq A.SXT_ANG s)) ∧
    (s.shows rq A.BND_SEQ_LO → completes (.bndSeqSample rq) s (sampled rq A.BND_SEQ_LO s)) ∧
    (s.shows rq A.KEY_HW_LO → completes (.keyCounterSample rq false) s (sampled rq A.KEY_HW_LO s)) ∧
    (s.shows rq A.KEY_CEIL_LO → completes (.keyCounterSample rq true) s (sampled rq A.KEY_CEIL_LO s))

/-- A read of a stream register gives its next four bytes and moves that requester's position on, back to byte 0 after
the last; of LOG_DATA, where the entry's first word is not the one that finds it forged or unreadable. (R4, R124, R397,
R412, R464, R474) -/
def Obligations.StreamReadsMoveOn : Prop :=
  let ready := fun (rq : Requester) (a : Nat) (s : State) (l : List Byte) =>
    s.reachable rq = true ∧ s.readDenied rq false a = none ∧ s.streamBytes rq a = some l
  let moves := fun (rq : Requester) (a : Nat) (l : List Byte) (s t : State) =>
    t.rdata = BitVec.ofNat 32 (fieldLE l (s.streamPos rq a) 4) ∧
    t.streamPos rq a = (if l.length ≤ s.streamPos rq a + 4 then 0 else s.streamPos rq a + 4) ∧
    changesOnly [.rdata, .streams] s t
  ∀ (s : State) (rq : Requester) (l : List Byte), s.mapsWf = true →
    (∀ a, a = A.KEY_RSP ∨ (∃ n, n < 8 ∧ a = 0x3054 + 256 * n) → ready rq a s l → completes (.keyRspRead rq a) s (moves rq a l s)) ∧
    (∀ a, a = A.KEY_ATT ∨ (∃ n, n < 8 ∧ a = 0x3058 + 256 * n) → ready rq a s l → completes (.keyAttRead rq a) s (moves rq a l s)) ∧
    (ready rq A.IDN_DPK s l → completes (.deviceKeyRead rq) s (moves rq A.IDN_DPK l s)) ∧
    (ready rq A.LOG_DATA s l → (s.streamPos rq A.LOG_DATA = 0 → ∀ x, s.logAt rq = some x → x.2.good = true ∧ s.macGood x.2 = true) →
      completes (.logDataRead rq) s (moves rq A.LOG_DATA l s))

/-- A read of a lock acquires it when free, renews it for its holder, and shows the holder to any other. (R152, R153)
-/
def Obligations.LockIsAcquired : Prop :=
  (∀ (s : State) (rq : Requester) (k a : Nat), s.mapsWf = true → k < 16 →
    a = (match rq with | .window n => 0x3080 + 256 * n + 4 * k | _ => A.LCK_L k) →
    lockNo a = some k → s.reachable rq = true → s.readDenied rq false a = none → s.lockBars rq k = false →
    completes (.lockAcquire rq k) s fun t =>
      ((s.lock k).holder = none → t.lock k = ⟨some (s.lockId rq), false⟩ ∧
        t.fld F.LCK_CNT_ACQ = min (s.fld F.LCK_CNT_ACQ + 1) 65535 ∧
        t.rdata = lockWord (if (s.lock k).broken then 5 else 1) (s.lockId rq)) ∧
      ((s.lock k).holder = some (s.lockId rq) → t.lock k = s.lock k ∧ t.rdata = lockWord 3 (s.lockId rq)) ∧
      (∀ h, (s.lock k).holder = some h → h ≠ s.lockId rq → t.lock k = s.lock k ∧ t.rdata = lockWord 8 h) ∧
      changesOnly [.rdata, .locks, .reg A.LCK_CNT] s t) ∧
  (∀ (s : State) (k : Nat), s.mapsWf = true → k < 16 → s.powered = true → (s.lock k).holder.isSome = true →
    s.sys.pstate ≠ .stowCold → completes (.leaseExpiry k) s fun t => t.lock k = ⟨none, true⟩ ∧
      t.fld F.LCK_CNT_BREAKS = min (s.fld F.LCK_CNT_BREAKS + 1) 65535 ∧ t.bit (F.PIRQ 0x09) 8 = true ∧
      ∀ j, j ≠ k → t.lock j = s.lock j)

/-- The holder's release frees the lock without BROKEN; a release by any other identity is ignored and denied with
HOLDER. (R154) -/
def Obligations.LockIsReleasedByItsHolder : Prop :=
  (∀ (s : State) (rq : Requester) (k : Nat), k < 16 → s.pownBad.contains 0x09 = false → s.permitAt rq (A.LCK_L k) 1 =
    (if (s.lock k).holder = some (s.lockId rq) then ⟨some 1, none⟩ else ⟨none, some 9⟩)) ∧
  (∀ (s : State) (rq : Requester) (k : Nat), s.mapsWf = true → (s.lock k).holder = some (s.lockId rq) →
    ∃ t, s.release rq k = some t ∧ t.lock k = ⟨none, false⟩ ∧ changesOnly [.locks] s t ∧ ∀ j, j ≠ k → t.lock j = s.lock j) ∧
  (∀ (s : State) (rq : Requester) (k : Nat), (s.lock k).holder ≠ some (s.lockId rq) → s.release rq k = none) ∧
  (∀ (u : State) (rq : Requester) (k a : Nat), k < 16 → u.mapsWf = true →
    a = (match rq with | .window n => 0x3080 + 256 * n + 4 * k | _ => A.LCK_L k) → lockNo a = some k →
    (u.lock k).holder = some (u.lockId rq) → (State.tnAfter rq [(a, 1)] u).lock k = ⟨none, false⟩) ∧
  (∀ (s : State) (rq : Requester) (k a : Nat), s.reachable rq = true → k < 16 →
    a = (match rq with | .window n => 0x3080 + 256 * n + 4 * k | _ => A.LCK_L k) →
    s.decideWrites rq [⟨a, 1, false, false⟩] = ([(a, 1)], []) →
    exec (.lockRelease rq k) s = .next (State.effects s rq [(a, 1)] (s.storeAll rq [(a, 1)])))

/-- A reserved page reads 0, takes no write, and nothing is recorded of an access to it. (R8) -/
def Obligations.ReservedPagesReadZero : Prop :=
  ∀ (s : State) (rq : Requester) (via part : Bool) (a v : Nat),
    a / 256 = 0x0F ∨ (0x28 ≤ a / 256 ∧ a / 256 ≤ 0x2F) ∨ (0x38 ≤ a / 256 ∧ a / 256 ≤ 0xFF) →
    s.readReg rq via a = (0#32, s) ∧ s.permit rq ⟨a, v, part, via⟩ = ⟨none, none⟩

/-- A field in nanoseconds becomes the least number of ticks of 125/48 ns that is not shorter. (R49) -/
def Obligations.NanosecondsRoundUpToTicks : Prop :=
  ∀ n : Nat, n * 48 ≤ nsTicks n * 125 ∧ ∀ k, n * 48 ≤ k * 125 → nsTicks n ≤ k

/-- A kick with the session number restarts the watchdog's count, SLEEP suspends it until HWAKE rises, and any other
kick only counts. (R104) -/
def Obligations.WatchdogKicks : Prop :=
  (∀ (s : State) (rq : Requester) (v : Nat), reqHostSide rq = true → v % 65536 = s.fld F.SYS_SESSION_NUM →
    v.testBit 16 = false → (s.kick rq v).sys.wdog = 0 ∧ changesOnly [.sys] s (s.kick rq v)) ∧
  (∀ (s : State) (rq : Requester) (v : Nat), s.mapsWf = true → reqHostSide rq = true → v % 65536 = s.fld F.SYS_SESSION_NUM →
    v.testBit 16 = true → (s.kick rq v).fld F.SYS_WDOG_STAT_SUSPENDED = 1 ∧ (s.kick rq v).wdogRuns = false) ∧
  (∀ (s : State) (rq : Requester) (v : Nat), s.mapsWf = true → reqHostSide rq = true → v % 65536 ≠ s.fld F.SYS_SESSION_NUM →
    (s.kick rq v).fld F.SYS_WDOG_STAT_BAD_KICK = min (s.fld F.SYS_WDOG_STAT_BAD_KICK + 1) 255 ∧
    changesOnly [.reg A.SYS_WDOG_STAT] s (s.kick rq v)) ∧
  (∀ (s : State) (f : Fld), s.mapsWf = true → f.addr = A.SYS_HWAKE → s.hwake = false →
    s.on F.SYS_WDOG_STAT_SUSPENDED = true → (s.wakeHost f).fld F.SYS_WDOG_STAT_SUSPENDED = 0 ∧ (s.wakeHost f).sys.wdog = 0)

/-- The commands that write one register commit it: the value that the checks let act is stored, and its effects
follow. (R73, R75, R94, R104, R105, R106, R123, R128, R132, R133, R186, R351) -/
def Obligations.CommitsThatAreCommands : Prop :=
  let does := fun (o : Host.Outcome State Fault Refusal) (rq : Requester) (s : State) (a v : Nat) => ∀ x, s.lets rq a v x →
    o = .next (State.effects s rq [(a, x)] (s.storeAll rq [(a, x)]))
  ∀ (s : State) (rq : Requester),
    does (exec (.vhostOff rq) s) rq s A.PWR_VHOST (s.withField F.PWR_VHOST_EN 0).2 ∧
    does (exec (.vhostOn rq) s) rq s A.PWR_VHOST (s.withField F.PWR_VHOST_EN 1).2 ∧
    (∀ n, n < 3 → does (exec (.vsensSwitchOn rq n) s) rq s (A.PWR_VSENS n) (s.withField (F.PWR_VSENS_EN n) 1).2) ∧
    (∀ c, does (exec (.rstCmdDatapath rq c) s) rq s A.SYS_RST_CMD (1 + 65536 * (c % 65536))) ∧
    (∀ t c, does (exec (.rstCmdTenant rq t c) s) rq s A.SYS_RST_CMD (2 + 16 * (t % 8) + 65536 * (c % 65536))) ∧
    (∀ c, does (exec (.rstCmdFull rq c) s) rq s A.SYS_RST_CMD (3 + 65536 * (c % 65536))) ∧
    (∀ p, does (exec (.pctlSrst rq p) s) rq s (256 * p + 8) (s.fld (F.PCTL_EN p) + 2)) ∧
    (∀ p b, does (exec (.pctlEnWrite rq p b) s) rq s (256 * p + 8) (if b then 1 else 0)) ∧
    (∀ n, does (exec (.wdogKick rq n) s) rq s A.SYS_WDOG_KICK (n % 65536)) ∧
    (∀ n, does (exec (.wdogSleep rq n) s) rq s A.SYS_WDOG_KICK (n % 65536 + 65536)) ∧
    does (exec (.pulseNow rq) s) rq s A.SYS_HREL (s.withField F.SYS_HREL_PULSE_NOW 1).2 ∧
    does (exec (.sessionBump rq) s) rq s A.SYS_SESSION (2 ^ 31) ∧
    (∀ q c, does (exec (.queFlush rq q c) s) rq s A.QUE_FLUSH (q % 128 + 2 ^ 24 * (c % 256))) ∧
    (∀ q c, does (exec (.queFlushAllLanes rq q c) s) rq s A.QUE_FLUSH (q % 128 + 128 + 2 ^ 24 * (c % 256))) ∧
    (∀ (b : Bool) (w : Word), does (exec (.roseFire rq b w) s) rq s (A.ROS_FIRE (if b then 1 else 0)) w.toNat) ∧
    (∀ (b : Bool) (w : Word), does (exec (.iflgClear rq b w) s) rq s (A.ROS_IFLG (if b then 1 else 0)) w.toNat)

/-- The further commands that write registers commit them: fences, the AFE, flares, tamper, tests, descriptors,
beacons, command bytes. Where nothing is denied, the command's own effect is that of its writes on the state that their
selections leave. (R128, R215, R230, R236, R274, R348, R349, R437, R439, R459, R477) -/
def Obligations.MoreCommitsThatAreCommands : Prop :=
  let does := fun (o : Host.Outcome State Fault Refusal) (rq : Requester) (s : State) (a v : Nat) => ∀ x, s.lets rq a v x →
    o = .next (State.effects s rq [(a, x)] (s.storeAll rq [(a, x)]))
  let via := fun (rq : Requester) => match rq with | .window _ => true | _ => false
  let doesAll := fun (o : Host.Outcome State Fault Refusal) (rq : Requester) (s : State) (ws : List Wr) =>
    ∀ (l : List Wr) (u : State) (d : List (Nat × Nat)),
    l = ws.map (s.expand rq ws) → u = s.selFirst rq l → s.reachable rq = true → u.decideWrites rq l = (d, []) →
    o = .next (State.effects u rq d (u.storeAll rq d))
  ∀ (s : State) (rq : Requester),
    (∀ (p : Nat) (w : Word), p < 7 → does (exec (.fenceClear rq p w) s) rq s (if p < 4 then A.TWC_FCLR p else A.SPC_FCLR (p - 4)) w.toNat) ∧
    (∀ w : Word, does (exec (.touchstoneNow rq w) s) rq s A.AFE_TS w.toNat) ∧
    (∀ w : Word, does (exec (.flareClear rq w) s) rq s A.ROS_FCLR w.toNat) ∧
    (∀ f, f < 2 → does (exec (.flareRelease rq f) s) rq s (A.ROS_FLR f) (s.withField (F.ROS_FLR_REL f) 1).2) ∧
    (∀ w : Word, does (exec (.tamperClear rq w) s) rq s A.TAM_CLR w.toNat) ∧
    does (exec (.tstNvMarginRead rq) s) rq s A.TST_MODE 1 ∧ does (exec (.tstMemorySelfTest rq) s) rq s A.TST_MODE 2 ∧
    (∀ ws : List (Nat × Word), doesAll (exec (.registerWrite rq ws) s) rq s
      (ws.map (fun w => ⟨w.1 / 4 * 4, w.2.toNat, false, false⟩))) ∧
    (∀ (d m : Nat) (ws : List Word), doesAll (exec (.descriptorCommit rq d m ws) s) rq s
      (⟨A.DSC_IDX, d % 256, false, via rq⟩ :: ((List.range 8).filter (fun i => m.testBit i)).map
        (fun i => ⟨A.DSC_W i, (ws.getD i 0).toNat, false, via rq⟩))) ∧
    (∀ q lo hi : Word, doesAll (exec (.beaconSubmit rq q lo hi) s) rq s
      [⟨A.RCK_BCN_SEQ, q.toNat, false, via rq⟩, ⟨A.RCK_BCN_MT_LO, lo.toNat, false, via rq⟩,
       ⟨A.RCK_BCN_MT_HI, hi.toNat, false, via rq⟩]) ∧
    (∀ (n : Nat) (bs : List Byte), n < 8 → doesAll (exec (.cmdAssemblyWrite rq n bs) s) rq s
      ((List.range ((bs.length + 3) / 4)).map (fun i =>
        ⟨A.TN_CMD n, numLE (sliceB bs (4 * i) 4), decide ((sliceB bs (4 * i) 4).length < 4), false⟩))) ∧
    (∀ n, n < 8 → doesAll (exec (.cmdAssemblyClear rq n) s) rq s [⟨A.TN_CCTL n, 1, false, false⟩]) ∧
    (s.reachable rq = true →
      (∀ ws : List (Nat × Word), exec (.registerWrite rq ws) s =
        .next (s.commit rq (ws.map (fun w => ⟨w.1 / 4 * 4, w.2.toNat, false, false⟩))).state) ∧
      (∀ (d m : Nat) (ws : List Word), exec (.descriptorCommit rq d m ws) s = .next (s.commit rq
        (⟨A.DSC_IDX, d % 256, false, via rq⟩ :: ((List.range 8).filter (fun i => m.testBit i)).map
          (fun i => ⟨A.DSC_W i, (ws.getD i 0).toNat, false, via rq⟩))).state) ∧
      (∀ q lo hi : Word, exec (.beaconSubmit rq q lo hi) s = .next (s.commit rq
        [⟨A.RCK_BCN_SEQ, q.toNat, false, via rq⟩, ⟨A.RCK_BCN_MT_LO, lo.toNat, false, via rq⟩,
         ⟨A.RCK_BCN_MT_HI, hi.toNat, false, via rq⟩]).state) ∧
      (∀ (n : Nat) (bs : List Byte), n < 8 → exec (.cmdAssemblyWrite rq n bs) s = .next (s.commit rq
        ((List.range ((bs.length + 3) / 4)).map (fun i =>
          ⟨A.TN_CMD n, numLE (sliceB bs (4 * i) 4), decide ((sliceB bs (4 * i) 4).length < 4), false⟩))).state) ∧
      (∀ n, n < 8 → exec (.cmdAssemblyClear rq n) s = .next (s.commit rq [⟨A.TN_CCTL n, 1, false, false⟩]).state))

/-- A commit: denied writes are left out and the others take effect together; with no denial it is the effects on the
stored values. (R128, R145, R146) -/
def Obligations.CommitActsAndDenies : Prop :=
  (∀ (s : State) (rq : Requester) (l : List Wr) (d : List (Nat × Nat)),
    (∀ w ∈ l, isSel w.addr = false ∧ (isTn w.addr && w.addr % 256 == 0x68) = false) → s.decideWrites rq l = (d, []) →
    s.commit rq l = ⟨State.effects s rq d (s.storeAll rq d), d.length, []⟩) ∧
  (∀ (s : State) (rq : Requester) (w : Wr) (c : Nat), isSel w.addr = false → (isTn w.addr && w.addr % 256 == 0x68) = false →
    s.decideWrites rq [w] = ([], [(w.addr, c)]) → (s.deny rq w.addr c true).sys.phase = s.sys.phase →
    s.commit rq [w] = ⟨State.effects (s.deny rq w.addr c true) rq []
      (State.keepRaised s (s.deny rq w.addr c true) rq [(w.addr, c)] (s.deny rq w.addr c true)), 0, [(w.addr, c)]⟩) ∧
  (∀ (s : State) (rq : Requester) (a v b : Nat), (isTn a && a % 256 == 0x44) = false → b ≠ a → a % 256 ≠ 0x08 →
    (s.storeReg rq a v).reg b = s.reg b)

/-- A permitted write to SYS_RST_CMD with CONFIRM 0x5EED leaves the reset of its scope in progress; with another
CONFIRM it is ignored. (R94, R97, R123) -/
def Obligations.ResetCommandsByRegister : Prop :=
  (∀ (s : State) (rq : Requester), s.mapsWf = true → s.lets rq A.SYS_RST_CMD 0x5EED0001 0x5EED0001 →
    completes (.rstCmdDatapath rq 0x5EED) s fun t => t.rst.dp.isSome = true ∧ t.running = false) ∧
  (∀ (s : State) (rq : Requester) (n : Nat), n < 8 → s.lets rq A.SYS_RST_CMD (0x5EED0002 + 16 * n) (0x5EED0002 + 16 * n) →
    completes (.rstCmdTenant rq n 0x5EED) s fun t => t.resetting n = true) ∧
  (∀ (s : State) (rq : Requester) (v : Nat), s.pownBad.contains 0x01 = false → v / 65536 % 65536 ≠ 0x5EED →
    s.permitAt rq A.SYS_RST_CMD v = ⟨none, none⟩)

/-- A TIME, ANGLE or CHAIN trigger moves the descriptor's stream sequence and target on; with its port ready to refuse
nothing, it pends. (R239, R240, R242, R243, R244, R247) -/
def Obligations.TriggersMoveTheStream : Prop :=
  (∀ (s : State) (d : Nat), s.mapsWf = true → s.running = true → (s.desc d).armed = true → dEn (s.desc d).words = true →
    dTrig (s.desc d).words = 0 → (s.desc d).next + htUs (s.desc d).ofs ≤ s.ht → completes (.timeTrigger d) s fun t =>
      (t.desc d).next = (s.desc d).next + dPeriod (s.desc d).words * 256 ∧ (t.desc d).seq = ((s.desc d).seq + 1) % 2 ^ 32 ∧
      (s.resetting (dOwner (s.desc d).words) = false → s.portRefuses (dPort (s.desc d).words) = none → (s.desc d).pend = none →
        (t.desc d).pend.map (fun r => (r.idx, r.seq, r.trig)) = some (d, ((s.desc d).seq + 1) % 2 ^ 32, s.ht))) ∧
  (∀ (s : State) (d : Nat), s.mapsWf = true → s.running = true → s.chainDue.contains d = true → dEn (s.desc d).words = true →
    dTrig (s.desc d).words = 3 → completes (.chainTrigger d) s fun t =>
      t.chainDue = s.chainDue.erase d ∧ (t.desc d).seq = ((s.desc d).seq + 1) % 2 ^ 32) ∧
  (∀ (s : State) (d : Nat) (g : Int), s.mapsWf = true → s.running = true → (s.desc d).armed = true →
    dEn (s.desc d).words = true → dTrig (s.desc d).words = 1 → s.locked = true →
    g = (let p := (BitVec.ofNat 64 s.outAngle - BitVec.ofNat 64 (s.desc d).next).toInt
      if s.on F.SXT_STAT_NEG then -p else p) → 0 ≤ g → completes (.angleTrigger d) s fun t =>
      (t.desc d).seq = ((s.desc d).seq + 1 + g.toNat / dStep (s.desc d).words) % 2 ^ 32)

/-- A request past its deadline, a target without lock, and ANGLE requests after lock is lost are withdrawn or
skipped, and counted. (R243, R248, R255) -/
def Obligations.RequestsAreWithdrawnAndSkipped : Prop :=
  (∀ (s : State) (d : Nat) (r : Request) (h : Nat), s.mapsWf = true → s.running = true → (s.desc d).pend = some r →
    deadline r = some h → h ≤ s.ht → s.portReady (dPort r.words) = false → completes (.jitDeadline d) s fun t =>
      (t.desc d).pend = none ∧ (t.desc d).skips = min ((s.desc d).skips + 1) (2 ^ 32 - 1) ∧ t.bit (F.PIRQ 0x18) 8 = true) ∧
  (∀ (s : State) (d : Nat), s.mapsWf = true → s.running = true → (s.desc d).armed = true → (s.desc d).lockSeen = true →
    dEn (s.desc d).words = true → dTrig (s.desc d).words = 1 → s.locked = false → 0 ≤ s.anglePast (s.desc d).next →
    completes (.noLockTargetSkip d) s fun t => (t.desc d).next = s.angleOn (s.desc d).next (dStep (s.desc d).words) ∧
      (t.desc d).seq = ((s.desc d).seq + 1) % 2 ^ 32 ∧ (t.desc d).skips = min ((s.desc d).skips + 1) (2 ^ 32 - 1) ∧
      t.bit (F.PIRQ 0x18) 8 = true) ∧
  (∀ s : State, s.mapsWf = true → s.running = true → s.locked = false → completes .angleWithdraw s fun t =>
    ∀ d r, (t.desc d).pend = some r → dTrig r.words ≠ 1) ∧
  (∀ s : State, s.mapsWf = true → s.cclk = true → s.shareDue = true → completes .shareWindowEnd s fun t =>
    t.shareNow = shareWindow s.ht ∧ (∀ k, k ≠ shareMark → t.chargeOf k = 0) ∧
    (s.shareNow + 1 = shareWindow s.ht → ∀ k, t.chargeWas k = mapGet (fun _ => 0) s.charge k) ∧
    (s.shareNow + 1 ≠ shareWindow s.ht → ∀ k, t.chargeWas k = 0) ∧ changesOnly [.charge, .chargeLast] s t)

/-- DISPATCH puts the next request into its port's dispatch queue; TRANSFER_START takes a request from there and
begins the transfer. (R193, R194, R245, R246, R252) -/
def Obligations.DispatchAndStart : Prop :=
  (∀ (s : State) (r : Request), s.mapsWf = true → s.running = true → s.nextRequest = some r → completes .dispatch s fun t =>
    (t.desc r.idx).pend = none ∧ ∃ l, t.queue (qDisp (dPort r.words)) = l ++ [⟨.psq, 1, .request r⟩]) ∧
  (∀ (s : State) (p n : Nat) (q : Producer) (r : Request) (l : List Entry), s.mapsWf = true → p < 7 → s.canTake p = true →
    s.queue (qDisp p) = ⟨q, n, .request r⟩ :: l → gearLt s.cycleGear (s.portFloor p r.words) = false → dKind r.words = 0 →
    (s.setQueue (qDisp p) l).canPut (qCap p) .port (ceilDiv (16 + dLen r.words) 32) s.ht = true →
    completes (.transferStart p) s fun t => (t.xfer p).map (fun x => (x.req, x.start)) = some (r, s.ht)) ∧
  (∀ (s : State) (p n : Nat) (q : Producer) (r : Request) (l : List Entry), p < 7 → s.canTake p = true →
    s.queue (qDisp p) = ⟨q, n, .request r⟩ :: l → gearLt s.cycleGear (s.portFloor p r.words) = true →
    exec (.transferStart p) s = .next s.regear)

/-- The ends of a transfer and the conditions of a two-wire bus: the port's transfer, its bus flags and its interrupts
after each. (R195, R203, R204, R205, R206, R211) -/
def Obligations.TransfersEnd : Prop :=
  (∀ (s : State) (p : Nat) (data : List Byte) (f n r m : Nat), s.mapsWf = true → p < 7 → s.driving p = true →
    f = 0 ∨ (p < 4 ∧ f ≤ 2) → completes (.transferEnd p data f n r m) s fun t =>
      t.xfer p = none ∧ (t.prt p).busFree = false) ∧
  (∀ (s : State) (p : Nat) (data : List Byte), s.mapsWf = true → p < 4 → s.driving p = true →
    completes (.stretchTimeout p data) s fun t => t.xfer p = none) ∧
  (∀ (s : State) (p : Nat) (data : List Byte) (x : Xfer), s.mapsWf = true → p < 4 → s.xfer p = some x → x.waitFree = false →
    completes (.arbLost ⟨p, data⟩) s fun t =>
      (getBits (x.cfg.getD 0 0) 4 4 ≤ x.losses → t.xfer p = none) ∧
      (x.losses < getBits (x.cfg.getD 0 0) 4 4 → t.xfer p = some { x with losses := x.losses + 1, waitFree := true } ∧
        t.driving p = false)) ∧
  (∀ (s : State) (p : Nat) (data : List Byte), s.mapsWf = true → p < 4 → s.portLive p = true →
    (s.prt p).blocked = false → completes (.busStuck p data) s fun t =>
      (t.prt p).blocked = true ∧ t.xfer p = none ∧ t.bit (F.PIRQ (portPage p)) 10 = true) ∧
  (∀ (s : State) (p : Nat), s.mapsWf = true → p < 4 → s.portLive p = true → s.driving p = false →
    completes (.busFree p) s fun t => (t.prt p).blocked = false ∧ (t.prt p).busFree = true ∧ (t.prt p).owed = none ∧
      (∀ x, s.xfer p = some x → (t.xfer p).map (fun y => (y.req, y.waitFree, y.start)) = some (x.req, false, s.ht))) ∧
  (∀ (s : State) (p : Nat), s.mapsWf = true → p < 4 → s.portLive p = true → s.driving p = false →
    completes (.busRecovery p) s fun t => (t.prt p).blocked = false ∧ (t.prt p).busFree = false ∧
      t.fld (F.TWC_CNT_RECOV p) = min (s.fld (F.TWC_CNT_RECOV p) + 1) (2 ^ (F.TWC_CNT_RECOV p).w - 1) ∧
      t.fld (F.TWC_STAT_STATE p) = 3)

/-- Enqueueing, forwarding and draining never take more slots of a queue than a producer's base credits, nor, of an input
queue, more than its 16 slots in all. (R159, R160, R161, R162, R164, R167) -/
def Obligations.QueuesNeverOverdrawCredits : Prop :=
  let within := fun (s : State) => (∀ q p, slotsOf (s.queue q) p ≤ queBase q p) ∧
    (∀ q, isInput q = true → (s.queue q).foldl (fun n e => n + e.slots) 0 ≤ 16)
  (∀ (s : State) (q n src ht : Nat) (p : Producer) (b : Body), s.mapsWf = true → within s →
    within (s.enqueue q p n b src ht)) ∧
  (∀ (s : State) (q : Nat) (p : Producer) (g : Gap), s.mapsWf = true → within s → within (s.forwardGap q p g)) ∧
  (∀ (s : State) (q : Nat) (p : Producer), s.mapsWf = true → within s → within (s.drain q p)) ∧
  (∀ (s t : State) (q : Nat) (e : Entry), s.mapsWf = true → within s → s.popQueue q = some (e, t) → within t) ∧
  (∀ (s : State) (q n src ht : Nat) (p : Producer) (b : Body), s.mapsWf = true → s.pendOf q p = [] →
    n + 1 ≤ s.credits q p → (s.enqueue q p n b src ht).queue q = s.queue q ++ [⟨p, n, b⟩]) ∧
  (∀ (s : State) (q n src ht : Nat) (p : Producer) (b : Body), s.mapsWf = true → s.pendOf q p = [] →
    s.credits q p < n + 1 → (s.enqueue q p n b src ht).queue q = s.queue q ∧
    (s.enqueue q p n b src ht).pendOf q p = [⟨src, some (part1 gcCREDIT none ht), none, false, false, false⟩])

/-- The AFE's conversions, drains, excitation faults, touchstone and calibration: buffers, flags and modes after each.
(R221, R225, R227, R229, R230, R231) -/
def Obligations.AnalogFrontEndRuns : Prop :=
  (∀ (s : State) (ch : Nat) (raw : Int), s.mapsWf = true → ch < 2 → s.running = true → s.converts ch = true →
    s.afe.settling = false → completes (.afeConversion ch raw true) s fun t => t.bit F.AFE_FAULT_OVR ch = true) ∧
  (∀ (s : State) (ch : Nat) (raw : Int), ch < 2 → s.running = true → s.converts ch = true → s.afe.settling = false →
    (s.ach ch).touch = 0 → (s.ach ch).cal = 0 → s.afe.mode ≠ 2 → s.afe.mclkWait = false →
    s.afe.modeWait = false → (s.ach ch).restartWait = false → (s.ach ch).discard ≠ 0 → s.mapsWf = true →
    completes (.afeConversion ch raw false) s fun t => (t.ach ch).discard = (s.ach ch).discard - 1 ∧
      (t.ach ch).buf = (s.ach ch).buf) ∧
  (∀ (s : State) (q : Producer) (n : Nat) (r : Request) (l : List Entry), s.mapsWf = true → s.running = true →
    s.pageOn 0x17 = true → s.railOff 7 = false → s.queue (qDisp 7) = ⟨q, n, .request r⟩ :: l →
    (s.ach (dSel r.words)).buf = [] → completes .afeDrain s fun t =>
      t.fld F.AFE_CNT_EMPTY = min (s.fld F.AFE_CNT_EMPTY + 1) (2 ^ F.AFE_CNT_EMPTY.w - 1) ∧ t.queue (qDisp 7) = l) ∧
  (∀ s : State, s.mapsWf = true → s.running = true → s.afe.settling = true → completes .excSettleEnd s fun t =>
    t.afe.settling = false ∧ (t.ach 0).discard = 2 ∧ (t.ach 1).discard = 2) ∧
  (∀ s : State, s.mapsWf = true → s.running = true → s.afe.excOn = true → completes .excOvercurrent s fun t =>
    t.afe.excOn = false ∧ t.afe.excBlocked = true ∧ t.bit F.AFE_FAULT_EXC_OC 0 = true) ∧
  (∀ s : State, s.mapsWf = true → s.running = true → s.afe.excOn = true → completes .excOpen s fun t =>
    t.bit F.AFE_FAULT_EXC_OPEN 0 = true ∧ t.afe = { s.afe with excLow := true }) ∧
  (∀ (s : State) (ch : Nat), s.mapsWf = true → ch < 2 → s.running = true → s.converts ch = true → s.on F.AFE_TS_PER = true →
    s.afe.excOn = true → (s.ach ch).touch = 0 → completes (.touchstoneStart ch) s fun t =>
      ((s.ach ch).cal = 0 → (t.ach ch).touch = 6) ∧
      ((s.ach ch).cal = 6 → (s.ach ch).calAt = s.ht → (t.ach ch).touch = 6 ∧ (t.ach ch).cal = 0 ∧ (t.ach ch).calWait = true) ∧
      ((s.ach ch).cal ≠ 0 → ¬((s.ach ch).cal = 6 ∧ (s.ach ch).calAt = s.ht) → (t.ach ch).touchWait = true)) ∧
  (∀ (s : State) (ch : Nat), s.mapsWf = true → ch < 2 → s.running = true → s.converts ch = true →
    s.on F.AFE_CALPER_SEC = true → s.loopLive (loopCAL ch) = true → (s.ach ch).cal = 0 →
    completes (.afeCalStart ch) s fun t =>
      ((s.ach ch).touch = 0 ∧ (s.ach ch).touchWait = false → (t.ach ch).cal = 6) ∧
      ((s.ach ch).touch ≠ 0 → (t.ach ch).calWait = true))

/-- A qualified edge is stamped later than its channel's last; capture entries, calibration hits, beacons and epoch
records go on. (R266, R267, R270, R273, R281, R494) -/
def Obligations.StampsAndBeacons : Prop :=
  (∀ (s : State) (ch miss tk cd : Nat) (f : Bool), s.mapsWf = true → ch < 10 → s.awake = true →
    s.on (F.STP_CH_CFG_EN ch) = true → s.on (if ch < 9 then F.PWR_BANK_VSENSIO_OK else F.PWR_BANK_VIOH_OK) = true →
    s.fld (F.STP_CH_CFG_EDGE ch) = 2 ∨ s.fld (F.STP_CH_CFG_EDGE ch) = (if f then 1 else 0) →
    completes (.edgeStamp ch f miss tk cd) s fun t => (t.chan ch).count = ((s.chan ch).count + 1 + miss) % 2 ^ 30 ∧
      ((s.chan ch).newest ≠ 0 → (s.chan ch).newest < (t.chan ch).newest) ∧
      ((s.chan ch).newest = 0 → (t.chan ch).newest = s.edgeTime ch tk cd)) ∧
  (∀ (s : State) (l c : Nat), s.mapsWf = true → l < 10 → c < 40 → s.cclk = true → s.on F.CLK_SYN_ON = true →
    lineHits (s.lineOf l) < s.icalN → (∃ j, j < 10 ∧ j ≠ l ∧ lineHits (s.lineOf j) < s.icalN) → completes (.icalHit l c) s fun t =>
      (t.lineOf l).hits = listSet (s.lineOf l).hits c ((s.lineOf l).hits.getD c 0 + 1) ∧ changesOnly [.lines] s t) ∧
  (∀ (s : State) (n : Nat), s.cclk = true → completes (.beaconWindowEnd n) s fun t =>
    (∀ e ∈ t.rck.sync, e.seq = n % 65536 → e.paired = false → e.stamp + 2 ^ 32 ≤ s.ht → e.ended = true) ∧
    changesOnly [.rck] s t) ∧
  (∀ (s : State) (p n : Nat) (q : Producer) (c : Capture) (l : List Entry), p < 8 → s.running = true →
    firstWith (fun k => s.urgentHead k) (List.range 8) = none → s.queue (qCap p) = ⟨q, n, .capture c⟩ :: l →
    (s.setQueue (qCap p) l).resetDiscards c = none →
    exec (.stampService p) s = .next ((s.setQueue (qCap p) l).takeCapture c)) ∧
  (∀ (s : State) (p : Nat) (e : Entry) (l : List Entry), s.mapsWf = true → p < 8 → s.running = true →
    (∀ k, k < 8 → s.urgentHead k = true → p ≤ k ∧ s.urgentHead p = true) → s.queue (qCap p) = e :: l →
    completes (.stampService p) s fun t => t.queue (qCap p) = l) ∧
  (∀ (s : State) (p n q : Nat) (x : Producer) (c : Capture) (i : Item) (l : List Entry), s.mapsWf = true → p < 8 → s.running = true →
    (∀ k, k < 8 → s.urgentHead k = true → p ≤ k ∧ s.urgentHead p = true) → s.queue (qCap p) = ⟨x, n, .capture c⟩ :: l →
    (s.setQueue (qCap p) l).resetDiscards c = none → c.failed = false → c.join = none → isInput q = true →
    s.captureConsumers c = [(q, true)] → s.pendOf q .stamp = [] →
    i = ⟨0x01, (if c.fenced then 1 else 0) + (if c.hold then 4 else 0), srcDesc c.desc, c.seq % 65536, c.ht,
      bytesLE 4 c.seq ++ bytesLE 8 c.ht ++ bytesLE 4 c.spacing ++ c.data⟩ → copySlots q i + 1 ≤ s.credits q .stamp →
    completes (.stampService p) s fun t => t.queue q = s.queue q ++ [⟨.stamp, copySlots q i, .item i⟩]) ∧
  (∀ (s : State) (n : Nat) (i : Item) (l : List Item), s.running = true → s.unsentOf n = i :: l →
    s.canPut (qIntake n 1) .record (itemSlots i) i.ht = true → exec (.epochRecordEnqueue n) s =
      .next (((s.setUnsent n l).modTen n (fun x => { x with recCnt := (x.recCnt + 1) % 65536 })).intake n 1 .record
        { i with seq := (s.ten n).recCnt })) ∧
  (∀ (s : State) (n : Nat) (i : Item) (l : List Item), s.mapsWf = true → mapWf (fun _ => []) s.rck.unsent = true →
    s.running = true → s.unsentOf n = i :: l → s.canPut (qIntake n 1) .record (itemSlots i) i.ht = true →
    completes (.epochRecordEnqueue n) s fun t => t.unsentOf n = l ∧ (t.ten n).recCnt = ((s.ten n).recCnt + 1) % 65536 ∧
      ∃ q, t.queue (qIntake n 1) = q ++ [⟨.record, itemSlots i, .item { i with seq := (s.ten n).recCnt }⟩]) ∧
  (∀ (s : State) (n : Nat) (i : Item) (l : List Item), s.running = true → s.unsentOf n = i :: l →
    s.canPut (qIntake n 1) .record (itemSlots i) i.ht = false →
    exec (.epochRecordEnqueue n) s = .next (s.drain (qIntake n 1) .record))

/-- The Sextant loses lock, fires its comparators and adapts its bandwidth; an index measurement corrects it; a
Resampler channel puts out. (R149, R292, R293, R294, R296, R297, R300) -/
def Obligations.SextantAndResampler : Prop :=
  (∀ (s : State) (c : Nat), s.mapsWf = true → s.awake = true → s.pageOn 0x07 = true → s.locked = true →
    (c = 1 ∧ s.lose ≤ s.sxt.bad) ∨ (c = 2 ∧ s.sxtMissing = true) ∨ (c = 3 ∧ s.tooSlow = true) ∨ (c = 4 ∧ s.tooFast = true) →
    completes (.sxtLockLost c) s fun t => t.locked = false ∧ t.fld F.SXT_EVT_LOST = 1 ∧ t.bit (F.PIRQ 0x07) 8 = true) ∧
  (∀ (s : State) (k : Nat), s.mapsWf = true → k < 16 → s.awake = true → s.locked = true → s.on (F.SXT_CMP_EN k) = true →
    s.cmpPasses k = true → completes (.angleComparatorFire k) s fun t => t.bit F.SXT_CMPSTAT_FIRED k = true ∧ t.bit (F.PIRQ 0x07) 10 = true ∧
      t.fld (F.SXT_CMP_EN k) = (if s.on (F.SXT_CMP_ONCE k) then 0 else s.fld (F.SXT_CMP_EN k))) ∧
  (∀ s : State, s.mapsWf = true → s.awake = true → s.pageOn 0x07 = true → s.locked = true → s.loopLive loopBW = true →
    s.loopLo loopBW ≤ s.loopHi loopBW → completes .bandwidthUpdate s fun t =>
      s.loopLo loopBW ≤ (t.loop loopBW).out ∧ (t.loop loopBW).out ≤ s.loopHi loopBW ∧
      (s.loopLo loopBW ≤ (s.loop loopBW).out → (s.loop loopBW).out ≤ s.loopHi loopBW →
        ((t.loop loopBW).out - (s.loop loopBW).out).natAbs ≤ s.loopStep loopBW)) ∧
  (∀ s : State, s.awake = true → s.pageOn 0x07 = true → s.idxUsed = true → s.sxt.lastIdx < (s.chan 8).newest →
    exec .idxMeasurement s = .next ((s.setFld F.SXT_STAT_NOIDX 0).measure true (BitVec.ofNat 32 (s.fld F.SXT_ZERO_A))
      (s.chan 8).newest)) ∧
  (∀ s : State, s.mapsWf = true → s.awake = true → s.pageOn 0x07 = true → s.idxUsed = true → s.sxt.lastIdx < (s.chan 8).newest →
    completes .idxMeasurement s fun t => t.on F.SXT_STAT_NOIDX = false ∧ t.sxt.lastIdx = (s.chan 8).newest ∧
      (s.locked = false → s.sxt.nIdx = 0 → t.sxt.theta = BitVec.ofNat 96 (s.sxt.theta.toNat / 2 ^ 64 * 2 ^ 64 +
        (BitVec.ofNat 32 (s.fld F.SXT_ZERO_A)).toNat * 2 ^ 32))) ∧
  (∀ (s : State) (ch : Nat), ch < 8 → s.running = true → s.pageOn 0x08 = true → s.on (F.RSM_CH_CFG_EN ch) = true →
    exec (.resamplerOutput ch) s = .next (rsmRun ch 4096 s)) ∧
  (∀ (s : State) (ch : Nat) (p q : RsmPoint) (l : List RsmPoint) (a b j : Int), s.mapsWf = true → ch < 8 → s.running = true →
    s.pageOn 0x08 = true → s.on (F.RSM_CH_CFG_EN ch) = true → s.on (F.RSM_CH_CFG_INTERP ch) = false →
    (s.rchan ch).points = p :: q :: l → p.vals ≠ [] → q.vals ≠ [] → p.phi = some a → q.phi = some b → q.gap = none →
    (s.rchan ch).next = none → j = s.rsmFirst ch (s.rsmPhi ch a) →
    j < s.rsmFirst ch (nearAngle (s.rsmPhi ch a) (s.rsmPhi ch b)) → completes (.resamplerOutput ch) s fun t =>
      (t.rchan ch).next = some (j + 1) ∧ (t.rchan ch).outCnt = min ((s.rchan ch).outCnt + 1) 65535 ∧
      (t.rchan ch).points = (s.rchan ch).points ∧ t.queue (qRsm ch) = s.queue (qRsm ch))

/-- An Assay pass moves to the next sample; a GAP record restarts the frame; a second decision decides or doubts a
critical change. (R311, R312, R325, R326, R332) -/
def Obligations.AssayRuns : Prop :=
  (∀ (s : State) (u : Nat) (i : Item), s.mapsWf = true → s.running = true → s.nextUnit = some u → s.headItem u = some i →
    s.passWaits u i = false → completes .assayPass s fun t => (t.unit u).pos =
      (if (s.samplesOf u i).length ≤ (s.unit u).pos + 1 then 0 else (s.unit u).pos + 1)) ∧
  (∀ (s : State) (u n : Nat) (p : Producer) (l : List Entry) (r : List Gap), s.mapsWf = true → u < 24 → s.running = true →
    s.on (F.ASY_CFG_EN u) = true → s.queue (qUnit u) = ⟨p, n, .gaps r⟩ :: l → completes (.assayGapInput u) s fun t =>
      (t.unit u).samples = [] ∧ (t.unit u).psis = [] ∧ (t.unit u).restartFeat = true ∧ (t.unit u).frameFlags = 0) ∧
  (∀ (s : State) (u : Nat) (p : Pend2), u < 24 → s.mapsWf = true → s.running = true → (s.unit u).cpend = some p →
    (s.unit u).forced = false → exec (.criticalSecondDecision u true) s = .next ((((s.modUnit u (fun x =>
      { x with cpend := none })).setFld (F.ASY_STAT_CPEND u) 0).addSat F.ASY_CRIT_DECISIONS 1).decideActive u p.active p.item)) ∧
  (∀ (s : State) (u : Nat) (agree : Bool), u < 24 → s.running = true → (s.unit u).cpend.isSome = true → s.mapsWf = true →
    completes (.criticalSecondDecision u agree) s fun t => (t.unit u).cpend = none)

/-- An event reaches its channel's consumer; a flare's pulse ends; items enter lanes; bundles close, with their
tenant's next sequence. (R164, R176, R177, R344, R349, R366, R367, R368, R369, R374) -/
def Obligations.RoseAndBundlerRun : Prop :=
  (∀ (s : State) (x : RoseEvent) (c : Nat) (d : RoseDest) (e : Option (Nat × Nat)) (b : Bool), s.cclk = true → s.rose = [x] →
    s.roseReach x = some (c, d, e, b) →
    ((∀ f, d ≠ .flare f) → exec .roseEvent s = .next ({ s with rose := [] }.consume c d e)) ∧
    (∀ f, f < 2 → d = .flare f → exec .roseEvent s = .next ({ s with rose := [] }.flareEvents f [(c, b)]))) ∧
  (∀ (s : State) (x : RoseEvent) (c : Nat) (e : Option (Nat × Nat)) (b : Bool), s.mapsWf = true → s.cclk = true →
    s.rose = [x] → c < 64 → s.roseReach x = some (c, .hostWake, e, b) → s.on F.SYS_HWAKE_ROSE = false →
    completes .roseEvent s fun t => t.on F.SYS_HWAKE_ROSE = true ∧ t.bit (F.ROS_EVT_BITS (c / 32)) (c % 32) = true) ∧
  (∀ (s : State) (x : RoseEvent) (c f : Nat) (e : Option (Nat × Nat)) (b : Bool), s.mapsWf = true → s.cclk = true →
    s.rose = [x] → c < 64 → f < 2 → s.roseReach x = some (c, .flare f, e, b) → s.on (F.ROS_FLR_REL f) = true →
    s.on (F.ROS_FLR_MODE f) = false ∨ s.pulsing f = false ∨ b = true → completes .roseEvent s fun t =>
      t.fld (F.ROS_FLR_STATE f) = (if b then 0 else 1) ∧ t.bit (F.ROS_EVT_BITS (c / 32)) (c % 32) = true) ∧
  (∀ (s : State) (f : Nat), s.mapsWf = true → f < 2 → s.cclk = true → s.pulsing f = true →
    completes (.flarePulseEnd f) s fun t => t.pulsing f = false ∧ t.fld (F.ROS_FLR_STATE f) = 0) ∧
  (∀ (s : State) (k n : Nat) (p : Producer) (i : Item) (l : List Entry), s.running = true → (∀ j, j < 32 → s.mustWait j = false) →
    firstWith (fun j => !(s.queue (qIntake (j / 4) (j % 4))).isEmpty) (intakeOrder s.hallmark.rr) = some k →
    s.queue (qIntake (k / 4) (k % 4)) = ⟨p, n, .item i⟩ :: l → exec .bundlerIntake s =
      .next ((if k % 4 = 0 then s.setQueue (qIntake (k / 4) (k % 4)) l else { s.setQueue (qIntake (k / 4) (k % 4)) l with
        hallmark := { s.hallmark with rr := (3 * (k / 4) + k % 4) % 24 } }).intakeItem k i)) ∧
  (∀ (s : State) (k n : Nat) (p : Producer) (i : Item) (l : List Entry), s.mapsWf = true → s.running = true →
    (∀ j, j < 32 → s.mustWait j = false) →
    firstWith (fun j => !(s.queue (qIntake (j / 4) (j % 4))).isEmpty) (intakeOrder s.hallmark.rr) = some k →
    s.queue (qIntake (k / 4) (k % 4)) = ⟨p, n, .item i⟩ :: l → k % 4 ≠ 3 → s.pendOf k .bundler = [] →
    s.on (F.QUE_TCFG_L3_NEWEST (k / 4)) = false → s.overLimit k (itemBytes i) = false →
    s.allows (k / 4) (s.laneNeed k (itemBytes i)) = true → completes .bundlerIntake s fun t =>
      (t.lane k).items = (s.lane k).items ++ [i] ∧ (t.lane k).len = (s.lane k).len + itemBytes i ∧
      ∃ r, t.queue (qIntake (k / 4) (k % 4)) = l ++ r) ∧
  (∀ (s : State) (k : Nat) (i : Item), s.mapsWf = true → k % 4 ≠ 3 → s.pendOf k .bundler = [] →
    s.on (F.QUE_TCFG_L3_NEWEST (k / 4)) = false → s.overLimit k (itemBytes i) = false →
    (s.allows (k / 4) (s.laneNeed k (itemBytes i)) = true → ((s.intakeItem k i).lane k).items = (s.lane k).items ++ [i] ∧
      ((s.intakeItem k i).lane k).len = (s.lane k).len + itemBytes i) ∧
    (s.allows (k / 4) (s.laneNeed k (itemBytes i)) = false → (s.intakeItem k i).lanes = s.lanes ∧
      (s.intakeItem k i).pendOf k .bundler ≠ [])) ∧
  (∀ (s : State) (n l : Nat), s.mapsWf = true → s.running = true → n < 8 → 1 ≤ l → l < 4 → s.on (F.BND_LCFG_AGE (qOut n l)) = true →
    s.ageDue (qOut n l) 0 = true →
    completes (.bundleAgeExpiry n l) s fun t => ((t.lane (qOut n l)).closeReq = true ↔
      (s.lane (qOut n l)).closeReq = true ∨ (s.lane (qOut n l)).items ≠ []) ∧
      (t.lane (qOut n l)).items = (s.lane (qOut n l)).items ∧ changesBesideIrq [.lanes, .reg 0x2118] s t) ∧
  (∀ (s : State) (k : Nat), s.mapsWf = true → s.running = true →
    firstWith (fun j => (s.lane j).closeReq && !(s.lane j).items.isEmpty && s.canClose j) closeOrder = some k →
    completes .bundleClose s fun t => t.closedOf k = s.closedOf k ++ [s.makeBundle k] ∧ t.lane k = { lane0 with credit := true } ∧
      t.hallmark.queue = s.hallmark.queue ++ [(k, (s.ten (k / 4)).seqNext)] ∧
      (t.ten (k / 4)).seqNext = (s.ten (k / 4)).seqNext + 1) ∧
  (∀ (s : State) (q n : Nat) (p : Producer), s.running = true → prodOf n = some p →
    (q < 0x20 → p = .bundler → exec (.gapRecordEnqueue q n) s = .next (s.drainLane q)) ∧
    (0x20 ≤ q → q < 0x68 → exec (.gapRecordEnqueue q n) s = .next (s.drain q p)) ∧
    (0x70 ≤ q → q < 0x78 → p = .psq → exec (.gapRecordEnqueue q n) s = .next (s.psqGaps (q - 0x70)))) ∧
  (∀ (s : State) (q n : Nat) (p : Producer) (r : PendRec) (g : Gap), s.mapsWf = true → s.running = true → prodOf n = some p →
    0x20 ≤ q → q < 0x68 → s.pendOf q p = [r] → r.held = false → r.gap = some g → gapSlots g + 1 ≤ s.credits q p →
    completes (.gapRecordEnqueue q n) s fun t => t.queue q = s.queue q ++ [⟨p, gapSlots g, .gaps [g]⟩] ∧ t.pendOf q p = [] ∧
      t.fld F.QUE_STAT_GAPS = min (s.fld F.QUE_STAT_GAPS + 1) (2 ^ F.QUE_STAT_GAPS.w - 1) ∧
      changesOnly [.queues, .pendg, .reg F.QUE_STAT_GAPS.addr] s t)

/-- The Hallmark engine takes, finishes or stops; HEALTH, the placement loop and an uncorrectable memory error do what
their rules say. (R174, R190, R371, R372, R374, R375, R379) -/
def Obligations.SealsHealthAndMemoryErrors : Prop :=
  (∀ (s : State) (k q : Nat) (rest : List (Nat × Nat)), s.running = true → s.hallmark.work = none →
    s.hallmark.queue = (k, q) :: rest → s.on F.TAM_LATCH_SEALSTOP = false ∨ (s.bundleAt k q).map (fun b => b.mode) = some 0 →
    completes .sealStart s fun t => t.hallmark.work = some (k, q) ∧ t.hallmark.queue = rest ∧ changesOnly [.hallmark] s t) ∧
  (∀ (s : State) (k q : Nat) (b : Bundle) (rest : List (Nat × Nat)), s.mapsWf = true → s.running = true →
    s.hallmark.work = none → s.hallmark.queue = (k, q) :: rest → s.on F.TAM_LATCH_SEALSTOP = true → s.bundleAt k q = some b →
    b.mode ≠ 0 → s.on F.BND_HSTAT_STOPPED = false → completes .sealStart s fun t => t.on F.BND_HSTAT_STOPPED = true ∧
      t.bit (F.PIRQ 0x21) 8 = true ∧ t.hallmark = s.hallmark) ∧
  (∀ (s : State) (k q : Nat) (b : Bundle), s.mapsWf = true → s.running = true → s.hallmark.work = some (k, q) →
    s.bundleAt k q = some b → completes .sealDone s fun t => t.hallmark.work = none ∧ (t.lane k).credit = false ∧
      t.closedOf k = (s.closedOf k).map (fun x => if x.seq = q then s.sealBundle (k / 4) x else x) ∧
      t.fld F.BND_SEALS_COUNT = (if b.mode = 0 then s.fld F.BND_SEALS_COUNT else min (s.fld F.BND_SEALS_COUNT + 1) (2 ^ 32 - 1))) ∧
  (∀ s : State, s.running = true → s.on F.BND_HCFG_PER = true →
    exec .healthRecord s = .next (s.record 0 2 0x08 0x21 s.ht s.encHealth)) ∧
  (∀ (s : State) (i : Item), s.mapsWf = true → s.running = true → s.on F.BND_HCFG_PER = true → s.dormant 0 = false →
    i = ⟨0x08, 0, srcPage 0x21, (s.ten 0).recCnt, s.ht, s.encHealth⟩ →
    s.canPut (qIntake 0 2) .record (itemSlots i) s.ht = true → completes .healthRecord s fun t =>
      (t.ten 0).recCnt = ((s.ten 0).recCnt + 1) % 65536 ∧
      ∃ q, t.queue (qIntake 0 2) = q ++ [⟨.record, itemSlots i, .item i⟩]) ∧
  (∀ s : State, s.mapsWf = true → s.cclk = true → s.loopLive loopPLC = true → 0 < s.poolSize →
    completes .placementUpdate s fun t => t.capped = false ∧ (s.poolFree < s.fld F.QUE_PLC_CFG_FREE → t.loop loopPLC =
      clampLoop (s.loopLo loopPLC) (s.loopHi loopPLC) ((s.loop loopPLC).out - (16 * s.loopStep loopPLC : Nat)))) ∧
  (∀ (s : State) (q : Nat) (e : Entry) (l : List Entry), s.mapsWf = true → s.cclk = true → 0x20 ≤ q → q < 0x48 →
    s.queue q = e :: l → completes (.eccUncorrectable q) s fun t => t.queue q = l ∧ t.on F.QUE_STAT_ECC_UNCORR = true ∧
      t.bit (F.PIRQ 0x20) 8 = true) ∧
  (∀ (s : State) (q : Nat) (b : Bundle) (l : List Bundle), s.mapsWf = true → s.cclk = true → q < 0x20 →
    s.closedOf q = b :: l → completes (.eccUncorrectable q) s fun t => t.closedOf q = spoil b :: l ∧ t.on F.QUE_STAT_ECC_UNCORR = true ∧
      t.bit (F.PIRQ 0x20) 8 = true)

/-- The Planisher's own loops at their updates: margin, canary, window, harvester power and the open-circuit resample.
(R149, R481, R484, R490, R491) -/
def Obligations.PlanisherLoopsRun : Prop :=
  (∀ (s : State) (m : Nat), s.mapsWf = true → s.cclk = true → completes (.avsUpdate m) s fun t =>
    t.fld F.PLN_AVS_STAT_MARGIN = min m 63 ∧ t.pln.gearMoved = false ∧
    (s.loopLive loopAVS = false ∨ s.pln.gearMoved = true ∨ s.changing = true → t.loop loopAVS = s.loop loopAVS)) ∧
  (∀ s : State, s.mapsWf = true → s.cclk = true → completes .avsCanary s fun t =>
    t.fld F.PLN_AVS_STAT_CANARY = min (s.fld F.PLN_AVS_STAT_CANARY + 1) 255 ∧ t.bit (F.PIRQ 0x04) 9 = true) ∧
  (∀ (s : State) (a b c d n : Nat), s.mapsWf = true → s.awake = true → completes (.gearWindowEnd a b c d n) s fun t =>
    t.fld F.PLN_GEAR_STAT_U = min 255 (share256 n [a, b, c, d])) ∧
  (∀ (s : State) (v i : Nat), s.mpptRuns = true → completes (.mpptPowerSample v i) s fun t =>
    t.pln.pSum = s.pln.pSum + (quot ((v * i : Nat) : Int) 100).toNat ∧ t.pln.pCount = s.pln.pCount + 1 ∧ changesOnly [.pln] s t) ∧
  (∀ s : State, s.powered = true → completes .mpptUpdate s fun t => t.pln.pSum = 0 ∧ t.pln.pCount = 0) ∧
  (∀ s : State, s.mapsWf = true → s.mpptRuns = true → s.on F.SYS_DIP_ACTIVE = false →
    s.pln.vocWait = true ∨ s.on F.PLN_MPPT_CFG_VOCPER = true → completes .vocResampleStart s fun t =>
      t.pln.vocPause = true ∧ t.on F.PWR_HSTAT_CHARGING = false) ∧
  (∀ (s : State) (v : Nat), s.mapsWf = true → s.powered = true → s.pln.vocPause = true → s.sys.pstate ≠ .stowCold →
    completes (.vocPauseEnd v) s fun t =>
    t.pln.vocPause = false ∧ t.fld F.PLN_MPPT_STAT_VOC = min (quot v 20).toNat 1023 ∧ t.fld F.PLN_MPPT_STAT_DIR = 0 ∧
    t.pln.dirUp = true ∧ t.bit (F.PIRQ 0x04) 10 = true)

/-- The tamper monitor's events: temperature, supply, probes, the TAP, the TRNG, shadow copies, the Logbook scan and
the TST page. (R447, R448, R450, R453, R454, R466, R477) -/
def Obligations.TamperMonitorRuns : Prop :=
  (∀ (s : State) (tj : Int), s.mapsWf = true → s.cclk = true → completes (.tempSample tj) s fun t =>
    t.fld F.TAM_TEMP_TJ = code 16 tj ∧ t.tam.t1 = tj ∧ t.sys.temp = tj ∧
    (s.bit F.TAM_LATCH_COND (tcTHERMAL - 1) = false → 1 ≤ s.tam.nSamples →
      (s.tam.t1 < tenths (s.fld F.TAM_TLIM_LO) ∧ tj < tenths (s.fld F.TAM_TLIM_LO)) ∨
      (tenths (s.fld F.TAM_TLIM_HI) < s.tam.t1 ∧ tenths (s.fld F.TAM_TLIM_HI) < tj) → t.tam.thermal1 = true)) ∧
  (∀ s : State, s.cclk = true → s.tam.thermal1 = true → exec (.thermalSecondDecision true) s =
    .next (occur tcTHERMAL 15 0 0 0 { s with tam := { s.tam with thermal1 := false } })) ∧
  (∀ (s : State) (agree : Bool), s.mapsWf = true → s.cclk = true → s.tam.thermal1 = true → s.halted = false →
    s.respOf tcTHERMAL < 4 → s.respOf tcDOUBLE < 4 → completes (.thermalSecondDecision agree) s fun t =>
      t.tam.thermal1 = false ∧ t.latched tcTHERMAL = true ∧
      t.fld (F.TAM_CNT_CNT (tcTHERMAL - 1)) = min (s.fld (F.TAM_CNT_CNT (tcTHERMAL - 1)) + 1) 255 ∧
      t.fld F.TAM_LAST_CLASS = (if agree then tcTHERMAL else tcDOUBLE) ∧ (agree = false → t.latched tcDOUBLE = true)) ∧
  (∀ (s : State) (ovr : Bool), s.sys.phase ≠ .unpowered → s.sys.phase ≠ .inReset → exec (.supplyGlitch ovr) s =
    .next (occur tcSUPPLY 15 0 0 0 ((s.modTam (fun x => if ovr then { x with vstoreHigh := true } else
      { x with vcoreLow := true })).setFld (if ovr then F.TAM_SUP_VSTORE_OV else F.TAM_SUP_VCORE_GL) 1))) ∧
  (∀ (s : State) (ovr : Bool), s.mapsWf = true → s.sys.phase ≠ .unpowered → s.sys.phase ≠ .inReset → s.halted = false →
    s.respOf tcSUPPLY < 4 → completes (.supplyGlitch ovr) s fun t => t.latched tcSUPPLY = true ∧
      t.fld F.TAM_LAST_CLASS = tcSUPPLY ∧ t.fld (if ovr then F.TAM_SUP_VSTORE_OV else F.TAM_SUP_VCORE_GL) = 1 ∧
      t.fld (F.TAM_CNT_CNT (tcSUPPLY - 1)) = min (s.fld (F.TAM_CNT_CNT (tcSUPPLY - 1)) + 1) 255) ∧
  (∀ (s : State) (ovr : Bool), s.sys.phase = .inReset → completes (.supplyGlitch ovr) s fun t =>
    (if ovr then t.tam.vstoreHigh else t.tam.vcoreLow) = true ∧ changesOnly [.tam] s t) ∧
  (∀ s : State, s.mapsWf = true → s.cclk = true → completes .probeWindowEnd s fun t => t.fld F.TAM_PCNT_CUR = 0 ∧
    t.tam.probeRaised = false ∧ t.bit F.TAM_LATCH_COND (tcPROBE - 1) = false) ∧
  (∀ s : State, s.mapsWf = true → s.portServes = true → s.fielded = true →
    s.fld F.TAM_PCNT_CUR + 1 ≤ max 1 (s.fld F.TAM_PROBE_THR) → completes (.tapInstruction false) s fun t =>
      t.fld F.TAM_PCNT_CUR = s.fld F.TAM_PCNT_CUR + 1 ∧ changesOnly [.reg A.TAM_PCNT] s t) ∧
  (∀ (s : State) (n : Nat), s.mapsWf = true → s.cclk = true → 1 ≤ n → n ≤ 3 → completes (.trngHealthFail n) s fun t =>
    t.on F.TAM_TRNG_FAIL = true ∧ t.fld F.TAM_TRNG_FAILS = min (s.fld F.TAM_TRNG_FAILS + 1) 65535 ∧
    t.bit (F.PIRQ 0x23) 10 = true) ∧
  (∀ (s : State) (pass : Bool), s.mapsWf = true → s.cclk = true → s.on F.TAM_TRNG_FAIL = true →
    completes (.trngRetest pass) s fun t => t.on F.TAM_TRNG_FAIL = !pass ∧
      t.fld F.TAM_TRNG_FAILS = (if pass then s.fld F.TAM_TRNG_FAILS else min (s.fld F.TAM_TRNG_FAILS + 1) 65535)) ∧
  (∀ (s : State) (a k : Nat), s.cclk = true → a ≠ A.DSC_W 0 → a % 256 ≠ 0x20 → (shadowMask a).testBit k = true →
    a / 256 ∉ [0x06, 0x08, 0x0A, 0x0B] → ¬ (0x1A ≤ a / 256 ∧ a / 256 < 0x20) → a ≠ A.PLN_URG → a ≠ A.RCK_CTRL →
    exec (.shadowMismatch a k) s = .next (s.shadow a (s.shadowAud a))) ∧
  (∀ (s : State) (a k : Nat), s.mapsWf = true → s.cclk = true → a ≠ A.DSC_W 0 → a % 256 ≠ 0x20 → (shadowMask a).testBit k = true →
    a / 256 ∉ [0x06, 0x08, 0x0A, 0x0B] → ¬ (0x1A ≤ a / 256 ∧ a / 256 < 0x20) → a ≠ A.PLN_URG → a ≠ A.RCK_CTRL →
    s.halted = false → s.respOf tcSHADOW < 4 → completes (.shadowMismatch a k) s fun t =>
      t.fld (F.PSHD_MISM (a / 256)) = 1 ∧ t.fld (F.PSHD_LAST_OFF (a / 256)) = a % 256 ∧ t.bit (F.PIRQ (a / 256)) 1 = true ∧
      t.latched tcSHADOW = true) ∧
  (∀ (s : State) (d : Nat), s.cclk = true → d < 256 → exec (.shadowMismatch (A.DSC_W 0) d) s = .next (s.dscShadow d)) ∧
  (∀ s : State, s.mapsWf = true → s.cclk = true → s.on F.LOG_STATUS_SCAN = true →
    (∀ e ∈ s.nv.log, e.2.good = true ∧ s.macGood e.2 = true) → completes .logbookScan s fun t =>
      let head := ((s.nv.log.map (fun x => x.2)) ++ s.nv.fly).foldl (fun m e => max m (fieldLE e.bytes 4 4)) 0
      t.on F.LOG_STATUS_SCAN = false ∧ t.nv.logSeq = head ∧ t.fld F.LOG_SEQ_SEQ = head ∧ t.log.clean = true) ∧
  (∀ (s : State) (pass : Bool) (a : Nat), s.mapsWf = true → s.cclk = true → s.blankOpen = true → s.on F.TST_MODE_MODE = true →
    s.on F.TST_RES_DONE = false → completes (.tstDone pass a) s fun t => t.on F.TST_RES_DONE = true ∧
      t.on F.TST_RES_PASS = pass ∧ t.fld F.TST_RES_FAIL_ADDR = (if pass then 0 else a % 2 ^ 24) ∧ changesOnly [.reg A.TST_RES] s t)

/-- An occurrence of a tamper class: latch, count, TAM_LAST, and the response of its level; the level in force is the
highest latched one. (R446, R456, R458, R460) -/
def Obligations.TamperClassesRespond : Prop :=
  (∀ (s : State) (c rq p o aud : Nat), s.mapsWf = true → 1 ≤ c → c ≤ 7 → s.halted = false → s.respOf c < 4 →
    let t := occur c rq p o aud s
    t.latched c = true ∧ t.fld (F.TAM_CNT_CNT (c - 1)) = min (s.fld (F.TAM_CNT_CNT (c - 1)) + 1) 255 ∧
    t.fld F.TAM_LAST_CLASS = c ∧ t.fld F.TAM_LAST_LEVEL = s.respOf c ∧ t.fld F.TAM_LAST_REQ = rq % 16 ∧
    t.fld F.TAM_LAST_PAGE = p % 256 ∧ t.fld F.TAM_LAST_OFFSET = o % 256 ∧
    (1 ≤ s.respOf c → t.bit (F.PIRQ 0x23) 8 = true) ∧ (2 ≤ s.respOf c → t.on F.TAM_LATCH_SEALSTOP = true) ∧
    (s.respOf c = 3 → t.env = none ∧ t.asm = [] ∧ t.on F.TAM_LATCH_ZEROIZED = true)) ∧
  (∀ (s : State) (c rq p o aud : Nat), 4 ≤ s.respOf c → s.halted = false → let t := occur c rq p o aud s
    t.sys.cause = .hold ∧ t.sys.holding = c ∧ t.sys.phase = .inReset ∧ t.env = none ∧ ∀ a, t.reg a = resetOf a) ∧
  (∀ (s : State) (n : Nat), s.levelInForce ≤ n ↔ ∀ c, 1 ≤ c → c ≤ 7 → s.latched c = true → s.respOf c ≤ n)

/-- An adaptive loop's update is clamped to its bounds with the flags, holds its home value while off, and starts at
the reset values. (R149, R478, R62, R92, R123) -/
def Obligations.LoopsStayInTheirBounds : Prop :=
  (∀ (s : State) (g h : Nat) (r : Int), s.mapsWf = true →
    (r < s.loopLo g → (s.loopUpdate g r).loop g = ⟨s.loopLo g, true, false⟩) ∧
    (s.loopLo g ≤ r → s.loopHi g < r → (s.loopUpdate g r).loop g = ⟨s.loopHi g, false, true⟩) ∧
    (s.loopLo g ≤ r → r ≤ s.loopHi g → (s.loopUpdate g r).loop g = ⟨r, false, false⟩) ∧
    (h ≠ g → (s.loopUpdate g r).loop h = s.loop h)) ∧
  (∀ (s : State) (g : Nat) (home : Int), s.mapsWf = true →
    (s.loopEn g = false → (s.loopCommitted g home).loop g = ⟨home, false, false⟩) ∧
    (s.loopEn g = true → s.loopLo g ≤ s.loopHi g → let o := ((s.loopCommitted g home).loop g).out
      s.loopLo g ≤ o ∧ o ≤ s.loopHi g ∧
      (s.loopLo g ≤ (s.loop g).out → (s.loop g).out ≤ s.loopHi g → s.loopCommitted g home = s) ∧
      ((s.loop g).out < s.loopLo g → ((s.loopCommitted g home).loop g).satLo = true) ∧
      (s.loopHi g < (s.loop g).out → ((s.loopCommitted g home).loop g).satHi = true))) ∧
  (∀ (c : Cause) (h : Nat) (s : State), let t := fullReset c h s
    t.fld F.CLK_PERIOD_TICKS = 64 ∧ t.fld F.PWR_VHOST_EN = 1 ∧ t.fld F.SYS_BOOT_STAGE = 1 ∧ t.fld F.SYS_DORM_EXIST = 1)

/-- The watchdog's expiry pulses the host's reset and begins a session; the pulse ends; RESET_RESTART ends the partial
resets. (R104, R105, R106, R110, R116) -/
def Obligations.SessionsAndRestart : Prop :=
  (∀ s : State, s.mapsWf = true → s.wdogRuns = true → s.wdogTicks ≤ s.sys.wdog → completes .wdogExpire s fun t =>
    t.fld F.SYS_HREL_RELEASED = 0 ∧ t.fld F.SYS_SESSION_NUM = (s.fld F.SYS_SESSION_NUM + 1) % 65536 ∧ t.sys.wdog = 0 ∧
    t.sys.pulse = true ∧ t.txOf 0 = none ∧ t.txOf 1 = none ∧ (∀ n, n < 8 → (t.asmOf n).bytes = []) ∧
    t.fld F.SYS_WDOG_STAT_EXPIRED = min (s.fld F.SYS_WDOG_STAT_EXPIRED + 1) 255 ∧ t.bit (F.PIRQ 0x01) 8 = true) ∧
  (∀ s : State, s.mapsWf = true → s.powered = true → s.sys.pulse = true → completes .hostPulseEnd s fun t =>
    t.sys.pulse = false ∧ t.fld F.SYS_HREL_RELEASED =
      (if s.sys.vhostOn && !s.sys.vhostSettle then 1 else s.fld F.SYS_HREL_RELEASED)) ∧
  (∀ s : State, s.awake = true → s.rst.dp.isSome = true ∨ s.rst.busy ≠ 0 → completes .resetRestart s fun t =>
    (s.sameRun t = true → t.rst.dp = none ∧ t.rst.busy = 0) ∧ (s.resetTens = [] → s.sameRun t = true))

/-- The two-wire target: an address not acknowledged, the begin of a transaction, staged bytes, reads, the proper end
and the aborts. (R185, R415, R416, R419, R420, R422, R423, R442) -/
def Obligations.TheTwoWireTarget : Prop :=
  (∀ (s : State) (a n : Nat) (read : Bool) (data : List Byte), s.portServes = true → s.txOf 0 = none → s.addrOf a = none →
    exec (.htwStart a read data n) s = .next (s.addSat F.HTW_CNT_NACK 1)) ∧
  (∀ (s : State) (a n m : Nat) (o : Byte) (rest : List Byte), s.mapsWf = true → s.portServes = true → s.txOf 0 = none →
    s.addrOf a = some (.window m) → completes (.htwStart a false (o :: rest) n) s fun t =>
      (t.txOf 0).map (fun y => (y.req, y.addr7, y.count)) = some (.window m, a, min 256 rest.length) ∧
      (t.txOf 0).map (fun y => y.staged.map (fun x => x.2)) = some (rest.take 256) ∧
      (t.txOf 0).bind (fun y => y.staged.head?) = rest.head?.map (fun b => (0x3000 + 256 * m + o.toNat, b)) ∧
      (t.txOf 0).map (fun y => y.result) = some (if 256 < rest.length then 4 else 0) ∧ t.fld F.HTW_STAT_STATE = 2) ∧
  (∀ (s : State) (a n : Nat) (rq : Requester), s.portServes = true → s.txOf 0 = none → s.addrOf a = some rq →
    exec (.htwStart a true [] n) s = .next (let u := s.openTx 0 rq a (s.ptrOf rq)
      State.sendBytes 0 n n ((((u.modTx 0 (fun x => { x with read := true, ptr := u.ptrOf rq })).setFld F.HTW_STAT_REQ
        (reqCode rq)).setFld F.HTW_STAT_PTR (u.ptrOf rq)).setFld F.HTW_STAT_STATE 3))) ∧
  (∀ (s : State) (a n : Nat) (rq : Requester) (x : Tx), s.mapsWf = true → s.portServes = true → s.txOf 0 = some x →
    x.stall = none → x.addr7 = a → s.addrOf a = some rq → completes (.htwStart a false [] n) s fun t =>
      t.txOf 0 = some { x with read := false, ptr := s.ptrOf rq }) ∧
  (∀ (s : State) (a n : Nat) (data : List Byte) (x : Tx), s.mapsWf = true → s.portServes = true → s.txOf 0 = some x →
    x.stall = none → x.addr7 ≠ a → completes (.htwStart a false data n) s fun t =>
      t.fld F.HTW_LAST_RESULT = max x.result 3 % 256 ∧ t.fld F.HTW_CNT_ABORT = min (s.fld F.HTW_CNT_ABORT + 1)
        (2 ^ F.HTW_CNT_ABORT.w - 1) ∧ t.closed = s.closed) ∧
  (∀ (s : State) (x : Tx), s.cclk = true → s.txOf 0 = some x → x.stall = none → exec .htwStop s = .next (s.properEnd 0)) ∧
  (∀ (s u : State) (x : Tx) (d : Done), s.mapsWf = true → s.cclk = true → s.txOf 0 = some x → x.stall = none →
    u = (s.retire x).dropTx 0 x → d = u.commit x.req (u.stagedWrites x) → s.sameRun d.state = true →
    completes .htwStop s fun t => t.fld F.HTW_LAST_RESULT = max x.result (if d.denied.any (fun y => y.2 == dcPARTIAL) then 2
        else if x.denied + d.denied.length = 0 then 0 else 1) % 256 ∧
      t.fld F.HTW_LAST_REGS = min d.regs 255 ∧ t.fld F.HTW_LAST_DENIED = min (x.denied + d.denied.length) 255 ∧
      t.fld F.HTW_STAT_STATE = 0 ∧ t.fld F.HTW_CNT_TRANS = min (d.state.fld F.HTW_CNT_TRANS + 1) (2 ^ F.HTW_CNT_TRANS.w - 1)) ∧
  (∀ (s : State) (x : Tx), s.mapsWf = true → s.cclk = true → s.txOf 0 = some x → x.stall = none →
    completes .htwIdleAbort s fun t => t.txOf 0 = none ∧ t.fld F.HTW_LAST_RESULT = max x.result 3 % 256 ∧
      t.fld F.HTW_CNT_ABORT = min (s.fld F.HTW_CNT_ABORT + 1) (2 ^ F.HTW_CNT_ABORT.w - 1) ∧ t.closed = s.closed ∧
      t.bit (F.PIRQ 0x0D) 8 = true ∧ ∀ b ∈ x.bundles, t.on (F.QUE_PSTAT_REWOUND (b.1 / 4)) = true)

/-- The SPI target: chip select, the headers of WRITE and READ, staged bytes, the proper end, the abort and the
overrun. (R415, R416, R419, R428, R429, R430, R431, R432, R433, R443) -/
def Obligations.TheSpiTarget : Prop :=
  (∀ s : State, s.mapsWf = true → s.portServes = true → s.sys.phase ≠ .stow → s.txOf 1 = none → s.hspFloor = false →
    completes .spiCsFall s fun t => t.on F.HSP_STAT_ACTIVE = true ∧ t.sys.csLow = true ∧ t.hspFloor = true ∧
      (t.txOf 1).map (fun x => (x.req, x.started, x.staged, x.result)) = some (.host, false, [], 0)) ∧
  (∀ s : State, s.mapsWf = true → s.sys.phase = .stow → s.on F.PWR_BANK_VIOH_OK = true → completes .spiCsFall s fun t =>
    t.fld F.HSP_LAST_RESULT = 9 ∧ t.fld F.HSP_CNT_TRANS = min (s.fld F.HSP_CNT_TRANS + 1) (2 ^ F.HSP_CNT_TRANS.w - 1) ∧
    t.sys.csLow = true ∧
    (s.bit F.SYS_WAKE_EN_WAKE 10 = true → t.sys.wakes.testBit 10 = true)) ∧
  (∀ (s : State) (a len : Nat) (data : List Byte) (x : Tx), s.mapsWf = true → s.cclk = true → s.txOf 1 = some x →
    x.started = false → completes (.spiWrite a len data) s fun t => t.fld F.HSP_STAT_OPC = 2 ∧ t.fld F.HSP_STAT_ADDR = a % 65536 ∧
      (len ≤ 256 → x.staged = [] → x.count = 0 → (t.txOf 1).map (fun y => y.staged.map (fun z => z.2)) = some (data.take len)) ∧
      (256 < len → (t.txOf 1).map (fun y => (y.staged, y.result)) = some (x.staged, max x.result 4))) ∧
  (∀ (s : State) (a : Nat) (x : Tx), s.mapsWf = true → s.cclk = true → s.txOf 1 = some x → x.started = false →
    completes (.spiRead a 0) s fun t => (t.txOf 1).map (fun y => (y.result, y.opc, y.ptr)) = some (max x.result 5, 3, a % 65536)) ∧
  (∀ (s : State) (a len : Nat) (x : Tx), s.mapsWf = true → s.cclk = true → s.txOf 1 = some x → x.started = false → 0 < len →
    popTenant (s.target x.req (a % 65536 / 4 * 4)).2 = none →
    exec (.spiRead a len) s = .next (((s.spiHeader 3 a).sent 1 [0]).spiData len)) ∧
  (∀ (s v : State) (whole : Bool), s.cclk = true → v = (s.modSys (fun y => { y with csLow := false })).spiFree →
    exec (.spiCsRise whole) s = .next (if whole then v.properEnd 1 else v.abortTx 1 3)) ∧
  (∀ s : State, s.cclk = false → completes (.spiCsRise true) s fun t => t = s.modSys (fun y => { y with csLow := false })) ∧
  (∀ (s : State) (x : Tx), s.mapsWf = true → s.cclk = true → s.txOf 1 = some x → completes (.spiCsRise false) s fun t =>
    t.txOf 1 = none ∧ t.sys.csLow = false ∧ t.hspFloor = false ∧ t.on F.HSP_STAT_ACTIVE = false ∧
    t.fld F.HSP_LAST_RESULT = max x.result 3 % 256 ∧ t.bit (F.PIRQ 0x0E) 8 = true ∧
    t.fld F.HSP_CNT_ABORT = min (s.fld F.HSP_CNT_ABORT + 1) (2 ^ F.HSP_CNT_ABORT.w - 1) ∧ t.closed = s.closed) ∧
  (∀ (s v u : State) (x : Tx) (d : Done), s.mapsWf = true → s.cclk = true → s.txOf 1 = some x →
    v = (s.modSys (fun y => { y with csLow := false })).spiFree → u = (v.retire x).dropTx 1 x →
    d = u.commit x.req (u.stagedWrites x) → s.sameRun d.state = true → completes (.spiCsRise true) s fun t =>
      t.fld F.HSP_LAST_RESULT = max x.result (if d.denied.any (fun y => y.2 == dcPARTIAL) then 2
        else if x.denied + d.denied.length = 0 then 0 else 1) % 256 ∧
      t.fld F.HSP_LAST_REGS = min d.regs 255 ∧ t.fld F.HSP_LAST_DENIED = min (x.denied + d.denied.length) 255 ∧
      t.on F.HSP_STAT_ACTIVE = false) ∧
  (∀ (s : State) (x : Tx), s.mapsWf = true → s.cclk = true → s.txOf 1 = some x → completes .spiOverrun s fun t =>
    t.txOf 1 = none ∧ t.fld F.HSP_LAST_RESULT = max x.result 6 % 256 ∧ t.bit (F.PIRQ 0x0E) 10 = true ∧
    t.fld F.HSP_CNT_OVERRUN = min (s.fld F.HSP_CNT_OVERRUN + 1) (2 ^ F.HSP_CNT_OVERRUN.w - 1))

/-- Pops deliver, stall, resume and time out; a complete command assembly becomes the envelope; TNn_XDAT reads and
writes its target. (R180, R181, R182, R183, R430, R435, R438) -/
def Obligations.PopsAndAssembliesRun : Prop :=
  (∀ (s : State) (p n : Nat) (x : Tx), s.cclk = true → p < 2 → n < 8 → s.txOf p = some x → x.stall = none →
    exec (.popRead p n) s = .next (State.sendBytes p 4 4
      (s.putPtr p x (match x.req with | .window _ => A.TN_POP n | _ => A.QUE_POP n)))) ∧
  (∀ (s u : State) (p n k m a : Nat) (x y : Tx) (b : Bundle), s.mapsWf = true → s.cclk = true → p < 2 → n < 8 →
    s.txOf p = some x → x.stall = none → x.zero = false → muted x = false →
    a = (match x.req with | .window _ => A.TN_POP n | _ => A.QUE_POP n) → u = s.putPtr p x a → u.txOf p = some y →
    u.deniesRead x.req false a = false → u.popNext p y n = some (k, b, m) → completes (.popRead p n) s fun t =>
      (t.txOf p).map (fun z => (z.bundles, z.popT, z.stall)) =
        some (deliver x.bundles k b.seq (ceilDiv m 4 * 4 + 4), some n, none) ∧
      mapGet (fun _ => []) t.port p = mapGet (fun _ => []) s.port p ++ bytesLE 4 (fieldLE (bundleBytes b) (ceilDiv m 4 * 4) 4)) ∧
  (∀ (s : State) (p n e k m : Nat) (x : Tx) (b : Bundle), s.mapsWf = true → s.txOf p = some x → x.zero = false → muted x = false →
    s.popNext p x n = some (k, b, m) → ∃ t, s.popWord p n e = some (BitVec.ofNat 32 (fieldLE (bundleBytes b) (ceilDiv m 4 * 4) 4), t) ∧
      (t.txOf p).map (fun y => (y.bundles, y.popT)) = some (deliver x.bundles k b.seq (ceilDiv m 4 * 4 + e), some n)) ∧
  (∀ (s : State) (p n : Nat) (x : Tx), s.cclk = true → p < 2 → s.txOf p = some x → x.stall = some n →
    (s.popWaits p x n = true → exec (.popStallResume p) s = .next s) ∧
    (s.popWaits p x n = false → exec (.popStallResume p) s = .next (if p = 1 then s.spiData x.left else
      State.sendBytes 0 x.left x.left ((s.modTx 0 (fun y => { y with stall := none, left := 0 })).setFld F.HTW_STAT_STATE 3)))) ∧
  (∀ (s u : State) (n k m a : Nat) (x y : Tx) (b : Bundle), s.mapsWf = true → s.cclk = true → n < 8 → s.txOf 0 = some x →
    x.stall = some n → x.left = 4 → x.ptr = a → x.zero = false → muted x = false →
    a = (match x.req with | .window _ => A.TN_POP n | _ => A.QUE_POP n) →
    u = (s.modTx 0 (fun y => { y with stall := none, left := 0 })).setFld F.HTW_STAT_STATE 3 → u.txOf 0 = some y →
    s.popWaits 0 x n = false → u.deniesRead x.req false a = false → u.popNext 0 y n = some (k, b, m) →
    completes (.popStallResume 0) s fun t =>
      (t.txOf 0).map (fun z => (z.bundles, z.popT, z.stall)) =
        some (deliver x.bundles k b.seq (ceilDiv m 4 * 4 + 4), some n, none) ∧
      mapGet (fun _ => []) t.port 0 = mapGet (fun _ => []) s.port 0 ++ bytesLE 4 (fieldLE (bundleBytes b) (ceilDiv m 4 * 4) 4)) ∧
  (∀ (s : State) (p n : Nat) (x : Tx), s.mapsWf = true → s.cclk = true → p < 2 → n < 8 → s.txOf p = some x → x.stall = some n →
    (s.popWaits p x n = true → completes (.popStallTimeout p) s fun t => t.on (F.QUE_PSTAT_EMPTY n) = true ∧
      (t.txOf p).map (fun y => (y.stall, y.result)) = some (none, max x.result 7)) ∧
    (s.popWaits p x n = false → exec (.popStallTimeout p) s = exec (.popStallResume p) s)) ∧
  (∀ (s : State) (n : Nat), s.mapsWf = true → s.cclk = true → s.queue qCmd = [] → s.env = none → s.nextAssembly = some n →
    completes .commandEnqueue s fun t => let b := (s.asmOf n).bytes
      let len := fieldLE b 4 2
      t.env = some ⟨b.take 16, sliceB b 16 len, b.drop (16 + len)⟩ ∧ t.asmOf n = asm0 ∧ t.fld (F.TN_CSTAT_STATE n) = 3 ∧
      t.queue qCmd = (if len = 0 then [] else [⟨.host, ceilDiv len 32, .command (sliceB b 16 len)⟩])) ∧
  (∀ (s : State) (rq : Requester) (n : Nat) (w : Word), s.reachable rq = true → n < 8 → exec (.xdatAccess rq n (some w)) s =
    .next (s.commit rq [⟨A.TN_XDAT n, w.toNat, false, false⟩]).state) ∧
  (∀ (s : State) (rq : Requester) (n a : Nat) (via : Bool), s.mapsWf = true → s.reachable rq = true → n < 8 →
    s.target rq (A.TN_XDAT n) = (via, a) → popTenant a = none → s.readDenied rq via a = none → lockNo a = none →
    s.streamBytes rq a = none → completes (.xdatAccess rq n none) s fun t => t.rdata = s.view rq a ∧
      (∀ b ∈ sampledBy a, t.sampOf b rq = s.blockView rq b + 1) ∧ changesOnly [.rdata, .samp] s t) ∧
  (∀ (s : State) (rq : Requester) (n k a j m : Nat) (via : Bool) (b : Bundle) (x : Tx), s.mapsWf = true → s.reachable rq = true →
    n < 8 → k < 8 → s.target rq (A.TN_XDAT n) = (via, a) → popTenant a = some k → s.deniesRead rq via a = false →
    s.txPort rq = none → s.otherPops 0 k = false → s.otherPops 1 k = false →
    s.txOf alone = some x → s.underDelivery x k = some (j, b, m) → m + 4 < (bundleBytes b).length →
    completes (.xdatAccess rq n none) s fun t => t.rdata = BitVec.ofNat 32 (fieldLE (bundleBytes b) m 4) ∧
      changesOnly [.rdata, .tx] s t) ∧
  (∀ (s : State) (rq : Requester) (n : Nat), s.reachable rq = true → n < 8 → popTenant (s.target rq (A.TN_XDAT n)).2 = none →
    exec (.xdatAccess rq n none) s = .next ((s.readReg rq (s.target rq (A.TN_XDAT n)).1 (s.target rq (A.TN_XDAT n)).2).2.latch
      (s.readReg rq (s.target rq (A.TN_XDAT n)).1 (s.target rq (A.TN_XDAT n)).2).1))

/-- A power, clock, harvester, rail, Stow, loop or tamper event changes only the parts of the state named for it.
(R84, R77, R134, 04_power_harvest_and_supply.md, 03_one_clock_and_its_gears.md, 18_tamper_and_logbook.md) -/
def Obligations.FramesOfPowerClockAndTamper : Prop :=
  (∀ (s t : State), exec .vstartRise s = .next t → changesOnly [.mode] s t) ∧
  (∀ (s t : State), exec .nrstRelease s = .next t → changesOnly [.mode, .sys] s t) ∧
  (∀ time (s t : State), exec (.hostRelease time) s = .next t → changesBesideIrq [.mode, .regs, .clk, .loops] s t) ∧
  (∀ (s t : State), exec .synthLock s = .next t → changesOnly [.reg 0x254, .reg 0x248, .reg 0x244] s t) ∧
  (∀ (s t : State), exec .vcoreRampDone s = .next t →
    changesOnly [.reg 0x454, .reg 0x254, .reg 0x248, .reg 0x354, .loops, .clk] s t) ∧
  (∀ (s t : State), exec .gearSwitchDone s = .next t →
    changesBesideIrq [.reg 0x260, .reg 0x254, .reg 0x248, .reg 0x354, .loops, .pln, .reg 0x218, .reg 0x474,
      .reg 0x478, .reg 0x418, .reg 0x454, .clk, .reg 0x25c, .reg 0x140, .mode, .reg 0x244] s t) ∧
  (∀ (s t : State), exec .lockRegained s = .next t →
    changesBesideIrq [.reg 0x544, .reg 0x244, .reg 0x2344, .reg 0x258, .rck, .reg 0x558, .reg 0x554, .reg 0x550,
      .reg 0x518, .reg 0x144, .reg 0x474, .reg 0x478, .reg 0x418, .reg 0x454, .reg 0x254, .reg 0x248, .clk, .loops,
      .reg 0x25c] s t) ∧
  (∀ mv (s t : State), exec (.dipBegin mv) s = .next t →
    changesBesideIrq [.regs, .stw, .nv, .descs, .ports, .chainDue, .clk, .loops, .charge, .chargeLast] s t) ∧
  (∀ mv (s t : State), exec (.dipContinue mv) s = .next t →
    changesBesideIrq [.regs, .stw, .nv, .descs, .ports, .chainDue, .clk, .loops, .charge, .chargeLast] s t) ∧
  (∀ mv (s t : State), exec (.dipEnd mv) s = .next t → changesBesideIrq [.regs, .stw, .log, .clk, .loops] s t) ∧
  (∀ (s t : State), exec .dipSettled s = .next t →
    changesBesideIrq [.stw, .reg 0x2458, .reg 0x2418, .log, .reg 0x158] s t) ∧
  (∀ (s t : State), exec .vchgRise s = .next t → changesOnly [.reg 0x344, .reg 0x158, .stw, .sys] s t) ∧
  (∀ (s t : State), exec .harvOvp s = .next t → changesBesideIrq [.reg 0x350, .reg 0x318, .pln, .reg 0x368] s t) ∧
  (∀ (s t : State), exec .harvUvlo s = .next t → changesBesideIrq [.reg 0x318, .reg 0x350, .pln] s t) ∧
  (∀ (s t : State), exec .harvCeiling s = .next t → changesBesideIrq [.reg 0x350, .pln, .reg 0x418, .loops] s t) ∧
  (∀ vstore vharv iharv (s t : State), exec (.pwrMeasUpdate vstore vharv iharv) s = .next t →
    changesOnly [.sys, .reg 0x348, .reg 0x344, .reg 0x350, .reg 0x158, .stw, .pln] s t) ∧
  (∀ (s t : State), exec .vhostSettleEnd s = .next t → changesOnly [.reg 0x16c, .sys] s t) ∧
  (∀ (s t : State), exec .vhostTrip s = .next t → changesBesideIrq [.regs, .asm, .streams, .tx, .locks] s t) ∧
  (∀ (s t : State), exec .vhostCycleOffEnd s = .next t → changesOnly [.reg 0x358, .sys] s t) ∧
  (∀ n (s t : State), exec (.vsensRampDone n) s = .next t → changesOnly [.regs] s t) ∧
  (∀ n (s t : State), exec (.vsensSettleDone n) s = .next t → changesOnly [.regs] s t) ∧
  (∀ n (s t : State), exec (.vsensTrip n) s = .next t →
    changesBesideIrq [.regs, .descs, .ports, .chainDue, .clk, .loops, .charge, .chargeLast] s t) ∧
  (∀ sens (s t : State), exec (.bankLost sens) s = .next t →
    changesBesideIrq [.regs, .descs, .ports, .chainDue, .clk, .loops, .charge, .chargeLast, .streams, .tx] s t) ∧
  (∀ sens pins (s t : State), exec (.bankRestored sens pins) s = .next t → changesOnly [.regs, .sys] s t) ∧
  (∀ (s t : State), exec .stowEntry s = .next t →
    changesBesideIrq [.regs, .descs, .ports, .chainDue, .clk, .loops, .charge, .chargeLast, .afe, .mode, .pln]
      s t) ∧
  (∀ (s t : State), exec .stowTimeWake s = .next t → changesOnly [.sys] s t) ∧
  (∀ pin falling (s t : State), exec (.wakeEdge pin falling) s = .next t → changesOnly [.sys] s t) ∧
  (∀ (s t : State), exec .stowWake s = .next t →
    changesBesideIrq [.loops, .pln, .mode, .rck, .clk, .regs, .afe, .stw, .nv, .descs, .ports, .chainDue, .charge,
      .chargeLast] s t) ∧
  (∀ addr read (s t : State), exec (.lookoutMatch addr read) s = .next t →
    changesOnly [.reg 0xd48, .reg 0xd54, .sys] s t) ∧
  (∀ (s t : State), exec .wdogExpire s = .next t → changesBesideIrq [.regs, .asm, .streams, .tx, .locks] s t) ∧
  (∀ (s t : State), exec .hostPulseEnd s = .next t → changesOnly [.sys, .reg 0x16c] s t) ∧
  (∀ mmin (s t : State), exec (.avsUpdate mmin) s = .next t →
    changesBesideIrq [.reg 0x454, .pln, .reg 0x354, .reg 0x418, .loops] s t) ∧
  (∀ (s t : State), exec .avsCanary s = .next t →
    changesBesideIrq [.pln, .reg 0x354, .reg 0x418, .loops, .reg 0x454] s t) ∧
  (∀ assay sealing bundler steward cycles (s t : State), exec (.gearWindowEnd assay sealing bundler steward cycles) s = .next t →
    changesBesideIrq [.clk, .loops, .regs, .pln] s t) ∧
  (∀ vstore iharv (s t : State), exec (.mpptPowerSample vstore iharv) s = .next t → changesOnly [.pln] s t) ∧
  (∀ (s t : State), exec .mpptUpdate s = .next t → changesBesideIrq [.pln, .regs, .loops] s t) ∧
  (∀ (s t : State), exec .vocResampleStart s = .next t → changesOnly [.reg 0x350, .pln] s t) ∧
  (∀ vharv (s t : State), exec (.vocPauseEnd vharv) s = .next t → changesBesideIrq [.regs, .loops, .pln] s t) ∧
  (∀ (s t : State), exec .retentionLoss s = .next t → changesOnly [.sys, .closed, .log] s t) ∧
  (∀ stop (s t : State), exec (.harvResume stop) s = .next t → changesOnly [.reg 0x350, .pln] s t) ∧
  (∀ (s t : State), exec .holdEnd s = .next t → changesOnly [.mode, .sys] s t) ∧
  (∀ beyond (s t : State), exec (.thermalComparator beyond) s = .next t → changesOnly [.tam, .sys, .mode] s t) ∧
  (∀ (s t : State), exec .supplyConditionEnd s = .next t → changesOnly [.mode, .reg 0x2344, .tam] s t) ∧
  (∀ tj (s t : State), exec (.tempSample tj) s = .next t → changesBesideIrq [.tam, .log, .stw, .regs] s t) ∧
  (∀ (s t : State), exec .probeWindowEnd s = .next t → changesOnly [.reg 0x2344, .tam, .reg 0x236c] s t) ∧
  (∀ test (s t : State), exec (.trngHealthFail test) s = .next t →
    changesBesideIrq [.reg 0x2370, .reg 0x1ae8, .reg 0x2318, .reg 0x2458, .reg 0x2418, .log, .stw, .reg 0x158]
      s t) ∧
  (∀ pass (s t : State), exec (.trngRetest pass) s = .next t →
    changesBesideIrq [.reg 0x1ae8, .reg 0x2370, .reg 0x2318, .reg 0x2458, .reg 0x2418, .log, .stw, .reg 0x158]
      s t) ∧
  (∀ pass failAddr (s t : State), exec (.tstDone pass failAddr) s = .next t → changesOnly [.reg 0x2744] s t)

/-- A poll, transfer, AFE, stamp, Sextant, Resampler or Assay event changes only the parts of the state named for it.
(R134, R239, R311, 08_sensor_ports.md, 10_poll_sequencer.md, 11_reckoner_and_stamps.md) -/
def Obligations.FramesOfTheDatapath : Prop :=
  (∀ (s t : State), exec .dispatch s = .next t → changesBesideIrq [.descs, .reg 0x1818, .loops, .reg 0x1854] s t) ∧
  (∀ d (s t : State), exec (.timeTrigger d) s = .next t → changesBesideIrq [.descs, .reg 0x1818, .reg 0x1858] s t) ∧
  (∀ d (s t : State), exec (.angleTrigger d) s = .next t → changesBesideIrq [.descs, .reg 0x1818, .reg 0x1858] s t) ∧
  (∀ d (s t : State), exec (.chainTrigger d) s = .next t →
    changesBesideIrq [.descs, .reg 0x1818, .reg 0x1858, .chainDue] s t) ∧
  (∀ d (s t : State), exec (.jitDeadline d) s = .next t → changesBesideIrq [.descs, .reg 0x1818, .reg 0x1858] s t) ∧
  (∀ d (s t : State), exec (.noLockTargetSkip d) s = .next t →
    changesBesideIrq [.descs, .reg 0x1818, .reg 0x1858] s t) ∧
  (∀ (s t : State), exec .angleWithdraw s = .next t → changesBesideIrq [.descs, .reg 0x1818, .reg 0x1858] s t) ∧
  (∀ (s t : State), exec .shareWindowEnd s = .next t → changesOnly [.charge, .chargeLast] s t) ∧
  (∀ p (s t : State), exec (.transferStart p) s = .next t →
    changesBesideIrq [.clk, .loops, .chainDue, .regs, .ports] s t) ∧
  (∀ p data fail done rise mmin (s t : State), exec (.transferEnd p data fail done rise mmin) s = .next t →
    changesBesideIrq [.regs, .loops, .chainDue, .ports, .clk, .charge, .chargeLast] s t) ∧
  (∀ lost (s t : State), exec (.arbLost lost) s = .next t →
    changesBesideIrq [.regs, .ports, .chainDue, .clk, .loops, .charge, .chargeLast] s t) ∧
  (∀ p data (s t : State), exec (.stretchTimeout p data) s = .next t →
    changesBesideIrq [.regs, .ports, .chainDue, .clk, .loops, .charge, .chargeLast] s t) ∧
  (∀ p data (s t : State), exec (.busStuck p data) s = .next t →
    changesBesideIrq [.ports, .regs, .chainDue, .clk, .loops, .charge, .chargeLast, .descs] s t) ∧
  (∀ p (s t : State), exec (.busFree p) s = .next t →
    changesOnly [.ports, .regs, .charge, .chargeLast] s t) ∧
  (∀ p (s t : State), exec (.busRecovery p) s = .next t → changesOnly [.ports, .regs] s t) ∧
  (∀ ch raw ovr (s t : State), exec (.afeConversion ch raw ovr) s = .next t →
    changesBesideIrq [.regs, .afeCh, .loops, .afe, .clk] s t) ∧
  (∀ (s t : State), exec .afeDrain s = .next t → 
    changesOnly [.queues, .afeCh, .chainDue, .regs, .pendg, .charge, .chargeLast] s t) ∧
  (∀ (s t : State), exec .excSettleEnd s = .next t → changesOnly [.afe, .regs, .afeCh] s t) ∧
  (∀ (s t : State), exec .excOvercurrent s = .next t → changesBesideIrq [.afe, .afeCh, .regs] s t) ∧
  (∀ (s t : State), exec .excOpen s = .next t → changesBesideIrq [.regs, .afe] s t) ∧
  (∀ ch (s t : State), exec (.touchstoneStart ch) s = .next t → changesBesideIrq [.regs, .afeCh] s t) ∧
  (∀ ch (s t : State), exec (.afeCalStart ch) s = .next t → changesOnly [.afeCh, .regs] s t) ∧
  (∀ ch falling missed ticks code (s t : State), exec (.edgeStamp ch falling missed ticks code) s = .next t →
    changesBesideIrq [.stp, .regs, .rck] s t) ∧
  (∀ ln code (s t : State), exec (.icalHit ln code) s = .next t →
    changesBesideIrq [.lines, .regs, .loops, .icalRun] s t) ∧
  (∀ p (s t : State), exec (.stampService p) s = .next t → changesBesideIrq [.stp, .sxt, .regs, .descs] s t) ∧
  (∀ seq (s t : State), exec (.beaconWindowEnd seq) s = .next t → changesOnly [.rck] s t) ∧
  (∀ tn (s t : State), exec (.epochRecordEnqueue tn) s = .next t →
    changesOnly [.reg 0x2048, .queues, .pendg, .tens, .rck] s t) ∧
  (∀ (s t : State), exec .idxMeasurement s = .next t →
    changesBesideIrq [.sxt, .reg 0x77c, .reg 0x760, .reg 0x778, .reg 0x798, .reg 0x794, .reg 0x79c, .reg 0x764,
      .reg 0x1818, .reg 0x718, .descs] s t) ∧
  (∀ cause (s t : State), exec (.sxtLockLost cause) s = .next t →
    changesBesideIrq [.reg 0x760, .reg 0x79c, .reg 0x764, .sxt, .reg 0x778, .reg 0x798, .reg 0x794, .reg 0x1818,
      .reg 0x718] s t) ∧
  (∀ k (s t : State), exec (.angleComparatorFire k) s = .next t → changesBesideIrq [.regs, .sxt] s t) ∧
  (∀ (s t : State), exec .bandwidthUpdate s = .next t → changesBesideIrq [.regs, .loops] s t) ∧
  (∀ ch (s t : State), exec (.resamplerOutput ch) s = .next t → changesBesideIrq [.regs, .rsm] s t) ∧
  (∀ (s t : State), exec .assayPass s = .next t → changesBesideIrq [.asyLast, .asy, .regs, .loops] s t) ∧
  (∀ u (s t : State), exec (.assayGapInput u) s = .next t → changesOnly [.asy, .queues, .reg 0x2048, .pendg] s t)

/-- A Rose, Bundler, Hallmark, NV, host-port or assembly event changes only the parts of the state named for it.
(R134, R185, R366, 15_bundles_and_hallmarks.md, 17_host_ports.md) -/
def Obligations.FramesOfBundlesNvAndHostPorts : Prop :=
  (∀ k (s t : State), exec (.leaseExpiry k) s = .next t → changesBesideIrq [.reg 0x918, .reg 0x990, .locks] s t) ∧
  (∀ q prod (s t : State), exec (.gapRecordEnqueue q prod) s = .next t →
    changesBesideIrq [.lanes, .regs, .evicts] s t) ∧
  (∀ (s t : State), exec .placementUpdate s = .next t → changesBesideIrq [.regs, .loops, .capped] s t) ∧
  (∀ p (s t : State), (∀ x n, s.txOf p = some x → x.stall = some n → s.popWaits p x n = true) →
    exec (.popStallTimeout p) s = .next t → changesOnly [.tx, .regs, .port] s t) ∧
  (∀ q (s t : State), exec (.eccUncorrectable q) s = .next t →
    changesBesideIrq [.regs, .closed, .asy, .env] s t) ∧
  (∀ (s t : State), exec .roseEvent s = .next t → changesBesideIrq [.regs, .descs, .stp, .lanes] s t) ∧
  (∀ f (s t : State), exec (.flarePulseEnd f) s = .next t → changesBesideIrq [.regs] s t) ∧
  (∀ (s t : State), exec .bundlerIntake s = .next t →
    changesBesideIrq [.lanes, .hallmark, .regs, .evicts, .closed, .capped] s t) ∧
  (∀ (s t : State), exec .bundleClose s = .next t → changesBesideIrq [.regs, .closed, .lanes, .hallmark, .stw] s t) ∧
  (∀ tn ln (s t : State), exec (.bundleAgeExpiry tn ln) s = .next t →
    changesBesideIrq [.reg 0x2118, .lanes] s t) ∧
  (∀ (s t : State), exec .sealStart s = .next t → changesBesideIrq [.reg 0x2118, .reg 0x21e0, .hallmark] s t) ∧
  (∀ (s t : State), exec .sealDone s = .next t → changesOnly [.closed, .lanes, .reg 0x21e4, .hallmark] s t) ∧
  (∀ tn (s t : State), exec (.seqReservationCommit tn) s = .next t →
    changesOnly [.reg 0x158, .tens, .nv, .stw, .hallmark] s t) ∧
  (∀ (s t : State), exec .healthRecord s = .next t → changesOnly [.reg 0x2048, .queues, .pendg, .tens] s t) ∧
  (∀ tn ok (s t : State), exec (.chartCommitDone tn ok) s = .next t →
    changesBesideIrq [.stw, .nv, .regs, .descs, .lanes, .ports, .chainDue, .clk, .loops, .charge, .chargeLast, .asy,
      .rsm, .sxt, .afeCh, .locks, .rst] s t) ∧
  (∀ tn ok (s t : State), exec (.keyUpdateWrite tn ok) s = .next t → changesBesideIrq [.nv, .stw, .regs] s t) ∧
  (∀ tn ok (s t : State), exec (.keyUpdateCommit tn ok) s = .next t →
    changesBesideIrq [.nv, .stw, .hallmark, .regs] s t) ∧
  (∀ tn (s t : State), exec (.attestSignDone tn) s = .next t → changesBesideIrq [.reg 0x2218] s t) ∧
  (∀ ok (s t : State), exec (.nvWriteComplete ok) s = .next t → changesBesideIrq [.nv, .stw, .regs] s t) ∧
  (∀ (s t : State), exec .htwIdleAbort s = .next t → changesBesideIrq [.regs, .streams, .tx] s t) ∧
  (∀ (s t : State), exec .spiCsFall s = .next t →
    changesBesideIrq [.reg 0xe48, .reg 0xe4c, .reg 0x474, .reg 0x478, .reg 0x418, .reg 0x454, .reg 0x254, .reg 0x248, .clk,
      .loops, .reg 0x25c, .reg 0x250, .reg 0xe44, .tx, .port] s t) ∧
  (∀ addr len data (s t : State), exec (.spiWrite addr len data) s = .next t →
    changesOnly [.port, .tx, .reg 0xe44, .reg 0xd48, .ptrs] s t) ∧
  (∀ (s t : State), exec .spiOverrun s = .next t → changesBesideIrq [.regs, .streams, .tx] s t) ∧
  (∀ (s t : State), exec .commandEnqueue s = .next t → changesOnly [.regs, .asm, .env, .queues] s t)

/-- A step leaves NV, the phase and the power state as they were, but for the commands that can write NV, reset the
hub or change its power. (R84, R95, R116, R403, 16_tenants_keys_and_commands.md, 18_tamper_and_logbook.md) -/
def Obligations.NvAndPowerStateStand : Prop :=
  ∀ s t : State, step s = .next t → match s.pending with
    | [] => t.nv = s.nv ∧ t.sys.phase = s.sys.phase ∧ t.sys.pstate = s.sys.pstate
    | c :: l => t.pending = l ∧ ((Instr.reach c).1 = false → t.nv = s.nv) ∧
      ((Instr.reach c).2 = false → t.sys.phase = s.sys.phase ∧ t.sys.pstate = s.sys.pstate)

/-- Accesses are checked in order: partial writes, lifecycle, reach, owner, hidden and sealed registers; a denied read
reads 0. (R136, R140, R141, R145, R146) -/
def Obligations.AccessIsDeniedInOrder : Prop :=
  (∀ (s : State) (rq : Requester) (w : Wr), writable w.addr = false → s.permit rq w = ⟨none, none⟩) ∧
  (∀ (s : State) (rq : Requester) (w : Wr), writable w.addr = true → rq ≠ .internal →
    (w.part = true → s.permit rq w = .no dcPARTIAL) ∧
    (w.part = false → s.lifeDenies rq (w.addr / 256) = true → s.permit rq w = .no dcLIFECYCLE) ∧
    (w.part = false → s.lifeDenies rq (w.addr / 256) = false → reaches rq w.via (w.addr / 256) = false →
      s.permit rq w = .no dcREACH)) ∧
  (∀ (n p : Nat), reaches (.window n) false p = true ↔ p = 0x30 + n) ∧
  (∀ (s : State) (rq : Requester) (via : Bool) (a : Nat), rq ≠ .internal → masksAt a ≠ none →
    (s.lifeDenies rq (a / 256) = true → s.readReg rq via a = (0, s.deny rq a dcLIFECYCLE false)) ∧
    (s.lifeDenies rq (a / 256) = false → reaches rq via (a / 256) = false → s.readReg rq via a = (0, s.deny rq a dcREACH false))) ∧
  (∀ (s : State) (rq : Requester) (via : Bool) (a rw wo w1c : Nat), rq ≠ .internal → masksAt a = some ⟨rw, wo, w1c, .plain⟩ →
    s.lifeDenies rq (a / 256) = false → reaches rq via (a / 256) = true → 0x40 ≤ a % 256 → a / 256 ≠ 0 → perField a = false →
    woOnly a = false → (s.seat rq a).free = false →
    (ownerDenies (s.seat rq a) rq = true → s.readReg rq via a = (0, s.deny rq a dcOWNER false)) ∧
    (ownerDenies (s.seat rq a) rq = false → (s.seat rq a).hp = true → s.fielded = true → stewardFor rq (s.seat rq a).owner = false →
      s.readReg rq via a = (0, s.deny rq a dcHP false))) ∧
  (∀ (s : State) (rq : Requester) (a c : Nat) (w : Bool), s.mapsWf = true → rq ≠ .internal → s.tam.probeRaised = true →
    let t := s.deny rq a c w
    t.fld (F.PDEN_COUNT (a / 256)) = min (s.fld (F.PDEN_COUNT (a / 256)) + 1) (2 ^ (F.PDEN_COUNT (a / 256)).w - 1) ∧
    t.fld (F.PERR (a / 256)) = perrWord rq a c w % 2 ^ (F.PERR (a / 256)).w ∧ t.bit (F.PIRQ (a / 256)) 0 = true)

/-- A flare's release never changes its ball level; a retired hub counts Logbook entries and writes none; the level
follows STATE and ACT. (R347, R348, R468) -/
def Obligations.FlareLevelsAndTheRetiredLog : Prop :=
  (∀ (s : State) (f : Nat), s.on (F.ROS_FLR_REL f) = false → s.flareLevel f = s.on (F.ROS_FLR_RSTLVL f)) ∧
  (∀ (s : State) (f : Nat), s.on (F.ROS_FLR_REL f) = true →
    s.flareLevel f = (if s.on (F.ROS_FLR_STATE f) then s.on (F.ROS_FLR_ACT f) else !s.on (F.ROS_FLR_ACT f))) ∧
  (∀ (s : State) (f : Nat), s.mapsWf = true → f < 2 → s.on (F.ROS_FLR_REL f) = true → let t := s.flareReleased f
    t.on (F.ROS_FLR_STATE f) = (s.on (F.ROS_FLR_RSTLVL f) == s.on (F.ROS_FLR_ACT f)) ∧
    t.flareLevel f = s.on (F.ROS_FLR_RSTLVL f) ∧ t.pulsing f = false) ∧
  (∀ (s : State) (ty sub aud level data : Nat), s.mapsWf = true → s.life = 0xE → let t := s.logEntry ty sub aud level data
    t.fld F.LOG_CNT_LOST = min (s.fld F.LOG_CNT_LOST + 1) 255 ∧ changesOnly [.reg A.LOG_CNT] s t)
end

