-- ==== Sys2Proof/Laws/Map.lean ====
section
/-! SUPPORT. The laws of the keyed maps: a read after a write, and that a write keeps the canonical form. -/

namespace Sys2Proof.Machine

variable {α : Type} [DecidableEq α] {d : Nat → α} {m : Map α} {k j lo : Nat} {v : α}

theorem mapWfFrom_le (h : mapWfFrom d lo m = true) (hj : j ≤ lo) : mapWfFrom d j m = true := by
  cases m with
  | nil => rfl
  | cons e t =>
    simp only [mapWfFrom, Bool.and_eq_true, decide_eq_true_eq] at h ⊢
    exact ⟨⟨Nat.le_trans hj h.1.1, h.1.2⟩, h.2⟩

theorem mapGet_below (h : mapWfFrom d lo m = true) (hk : k < lo) : mapGet d m k = d k := by
  induction m generalizing lo with
  | nil => rfl
  | cons e t ih =>
    simp only [mapWfFrom, Bool.and_eq_true, decide_eq_true_eq] at h
    rw [mapGet, if_neg (by omega)]
    exact ih h.2 (by omega)

theorem mapGet_mapSet_from (h : mapWfFrom d lo m = true) : mapGet d (mapSet d m k v) k = v := by
  induction m generalizing lo with
  | nil => unfold mapSet; split <;> simp_all [mapGet]
  | cons e t ih =>
    simp only [mapWfFrom, Bool.and_eq_true, decide_eq_true_eq] at h
    simp only [mapSet]
    split
    · split
      · rw [mapGet, if_neg (by omega), mapGet_below h.2 (by omega)]
        exact (‹v = d k›).symm
      · simp [mapGet]
    · split
      · split
        · rw [mapGet_below h.2 (by omega)]
          exact (‹v = d k›).symm
        · simp [mapGet]
      · rw [mapGet, if_neg ‹_›]
        exact ih h.2

/-- A read of the key just written. -/
theorem mapGet_mapSet (h : mapWf d m = true) : mapGet d (mapSet d m k v) k = v := mapGet_mapSet_from h

/-- A write leaves every other key alone. -/
theorem mapGet_mapSet_ne (hj : j ≠ k) : mapGet d (mapSet d m k v) j = mapGet d m j := by
  induction m with
  | nil => unfold mapSet; split <;> simp [mapGet, hj]
  | cons e t ih =>
    simp only [mapSet]
    split
    · split
      · rfl
      · rw [mapGet, if_neg hj]
    · split
      · subst k
        split <;> simp [mapGet, hj]
      · simp only [mapGet, ih]

theorem mapWf_mapSet_from (h : mapWfFrom d lo m = true) (hk : lo ≤ k) : mapWfFrom d lo (mapSet d m k v) = true := by
  induction m generalizing lo with
  | nil => unfold mapSet; split <;> simp_all [mapWfFrom]
  | cons e t ih =>
    have h0 := h
    simp only [mapWfFrom, Bool.and_eq_true, decide_eq_true_eq] at h
    simp only [mapSet]
    split
    · split
      · exact h0
      · first | (simp_all [mapWfFrom]; done) | (simp_all [mapWfFrom]; omega)
    · split
      · split
        · exact mapWfFrom_le h.2 (by omega)
        · subst k
          simp_all [mapWfFrom]
      · simp only [mapWfFrom, Bool.and_eq_true, decide_eq_true_eq]
        exact ⟨h.1, ih h.2 (by omega)⟩

/-- A write keeps the canonical form. -/
theorem mapWf_mapSet (h : mapWf d m = true) : mapWf d (mapSet d m k v) = true :=
  mapWf_mapSet_from h (Nat.zero_le k)

theorem mapWf_filter_from {p : Nat × α → Bool} (h : mapWfFrom d lo m = true) :
    mapWfFrom d lo (m.filter p) = true := by
  induction m generalizing lo with
  | nil => rfl
  | cons e t ih =>
    simp only [mapWfFrom, Bool.and_eq_true, decide_eq_true_eq] at h
    rw [List.filter_cons]
    split
    · simp only [mapWfFrom, Bool.and_eq_true, decide_eq_true_eq]
      exact ⟨h.1, ih h.2⟩
    · exact mapWfFrom_le (ih h.2) (by omega)

/-- Taking entries out keeps the canonical form. -/
theorem mapWf_filter {p : Nat × α → Bool} (h : mapWf d m = true) : mapWf d (m.filter p) = true := mapWf_filter_from h

theorem mapWf_nil : mapWf d ([] : Map α) = true := rfl

end Sys2Proof.Machine
end

