-- ==== Sys2Proof/Laws/Parts.lean ====
section
/-! SUPPORT. How a claim travels through the operations of the machine. `Closed l P` says that `P` survives every change of
the parts in `l`; each operation has one lemma, `<operation>_ind`: a property closed under the parts that it changes
holds after it if it held before. Frames and invariants are instances of it. -/

namespace Sys2Proof.Machine

/-- `P` survives any change of the part. -/
def Part.closes (p : Part) (P : State → Prop) : Prop :=
  match p with
  | .reg a => ∀ s w, P s → P (s.setReg a w)
  | .regs => ∀ s a w, P s → P (s.setReg a w)
  | .reset => ∀ c h s, P s → P (fullReset c h s)
  | .mode => ∀ (s : State) (y : Sys), (s.modeWf = true → legalMode y.phase y.pstate = true) → P s → P { s with sys := y }
  | .sys => ∀ (s : State) (y : Sys), y.phase = s.sys.phase → y.pstate = s.sys.pstate → P s → P { s with sys := y }
  | .nv => ∀ (s : State) (n : Nv), P s → P { s with nv := n }
  | .pending => False
  | .rst => ∀ (s : State) (v : Rst), P s → P { s with rst := v }
  | .clk => ∀ (s : State) (v : Clk), P s → P { s with clk := v }
  | .pln => ∀ (s : State) (v : Pln), P s → P { s with pln := v }
  | .locks => ∀ (s : State) (v : Map Lock), (s.mapsWf = true → mapWf (fun _ => lock0) v = true) → P s → P { s with locks := v }
  | .shadowBad => ∀ (s : State) (v : List Nat), P s → P { s with shadowBad := v }
  | .pownBad => ∀ (s : State) (v : List Nat), P s → P { s with pownBad := v }
  | .sel => ∀ (s : State) (v : Map Nat), (s.mapsWf = true → mapWf (fun _ => 0) v = true) → P s → P { s with sel := v }
  | .samp => ∀ (s : State) (v : Map Nat), (s.mapsWf = true → mapWf (fun _ => 0) v = true) → P s → P { s with samp := v }
  | .streams => ∀ (s : State) (v : Map Nat), (s.mapsWf = true → mapWf (fun _ => 0) v = true) → P s → P { s with streams := v }
  | .queues => ∀ (s : State) (v : Map (List Entry)), (s.mapsWf = true → mapWf (fun _ => []) v = true) → P s → P { s with queues := v }
  | .pendg => ∀ (s : State) (v : Map (List PendRec)), (s.mapsWf = true → mapWf (fun _ => []) v = true) → P s → P { s with pendg := v }
  | .capped => ∀ (s : State) (v : Bool), P s → P { s with capped := v }
  | .loops => ∀ (s : State) (v : Map Loop), (s.mapsWf = true → mapWf loop0 v = true) → P s → P { s with loops := v }
  | .descs => ∀ (s : State) (v : Map Desc), (s.mapsWf = true → mapWf (fun _ => desc0) v = true) → P s → P { s with descs := v }
  | .chainDue => ∀ (s : State) (v : List Nat), P s → P { s with chainDue := v }
  | .charge => ∀ (s : State) (v : Map Nat), (s.mapsWf = true → mapWf (fun _ => 0) v = true) → P s → P { s with charge := v }
  | .chargeLast => ∀ (s : State) (v : Map Nat), (s.mapsWf = true → mapWf (fun _ => 0) v = true) → P s → P { s with chargeLast := v }
  | .ports => ∀ (s : State) (v : Map Port), (s.mapsWf = true → mapWf (fun _ => port0) v = true) → P s → P { s with ports := v }
  | .afe => ∀ (s : State) (v : Afe), P s → P { s with afe := v }
  | .afeCh => ∀ (s : State) (v : Map AfeCh), (s.mapsWf = true → mapWf (fun _ => afeCh0) v = true) → P s → P { s with afeCh := v }
  | .stp => ∀ (s : State) (v : Map StpCh), (s.mapsWf = true → mapWf (fun _ => stpCh0) v = true) → P s → P { s with stp := v }
  | .lines => ∀ (s : State) (v : Map Line), (s.mapsWf = true → mapWf (fun _ => line0) v = true) → P s → P { s with lines := v }
  | .icalRun => ∀ (s : State) (v : Nat), P s → P { s with icalRun := v }
  | .rck => ∀ (s : State) (v : Rck), P s → P { s with rck := v }
  | .sxt => ∀ (s : State) (v : Sxt), P s → P { s with sxt := v }
  | .rsm => ∀ (s : State) (v : Map Rsm), (s.mapsWf = true → mapWf (fun _ => rsm0) v = true) → P s → P { s with rsm := v }
  | .asy => ∀ (s : State) (v : Map Asy), (s.mapsWf = true → mapWf (fun _ => asy0) v = true) → P s → P { s with asy := v }
  | .asyLast => ∀ (s : State) (v : Nat), P s → P { s with asyLast := v }
  | .rose => ∀ (s : State) (v : List RoseEvent), P s → P { s with rose := v }
  | .lanes => ∀ (s : State) (v : Map Lane), (s.mapsWf = true → mapWf (fun _ => lane0) v = true) → P s → P { s with lanes := v }
  | .closed => ∀ (s : State) (v : Map (List Bundle)), (s.mapsWf = true → mapWf (fun _ => []) v = true) → P s → P { s with closed := v }
  | .evicts => ∀ (s : State) (v : Map (Option Evict)), (s.mapsWf = true → mapWf (fun _ => none) v = true) → P s → P { s with evicts := v }
  | .hallmark => ∀ (s : State) (v : Seal), P s → P { s with hallmark := v }
  | .routes => ∀ (s : State) (v : Map Nat), (s.mapsWf = true → mapWf (fun _ => 0) v = true) → P s → P { s with routes := v }
  | .tens => ∀ (s : State) (v : Map Ten), (s.mapsWf = true → mapWf (fun _ => ten0) v = true) → P s → P { s with tens := v }
  | .stw => ∀ (s : State) (v : Stw), P s → P { s with stw := v }
  | .tx => ∀ (s : State) (v : Map (Option Tx)), (s.mapsWf = true → mapWf (fun _ => none) v = true) → P s → P { s with tx := v }
  | .ptrs => ∀ (s : State) (v : Map Nat), (s.mapsWf = true → mapWf ptrHome v = true) → P s → P { s with ptrs := v }
  | .asm => ∀ (s : State) (v : Map Assembly), (s.mapsWf = true → mapWf (fun _ => asm0) v = true) → P s → P { s with asm := v }
  | .env => ∀ (s : State) (v : Option Envelope), P s → P { s with env := v }
  | .port => ∀ (s : State) (v : Map (List Byte)), (s.mapsWf = true → mapWf (fun _ => []) v = true) → P s → P { s with port := v }
  | .tam => ∀ (s : State) (v : Tam), P s → P { s with tam := v }
  | .log => ∀ (s : State) (v : Log), P s → P { s with log := v }
  | .rdata => ∀ (s : State) (v : Word), P s → P { s with rdata := v }

/-- `P` survives any change of the parts in `l`. -/
structure Closed (l : List Part) (P : State → Prop) : Prop where
  part : ∀ p, p ∈ l → p.closes P

variable {l m : List Part} {P : State → Prop}

/-- A part is in the list; the whole register file stands for each register. -/
def Part.needs (p : Part) (l : List Part) : Bool :=
  match p with
  | .reg a => l.contains .regs || l.contains (.reg a)
  | p => l.contains p

def needsAll (l m : List Part) : Bool := l.all (fun p => p.needs m)

theorem Closed.closes (hC : Closed l P) {p : Part} (h : p.needs l = true) : p.closes P := by
  unfold Part.needs at h
  split at h
  · rcases Bool.or_eq_true _ _ ▸ h with h | h
    · exact fun s w hs => hC.part .regs (by simpa using h) s _ w hs
    · exact hC.part _ (by simpa using h)
  · exact hC.part _ (by simpa using h)

theorem Closed.mono (hC : Closed m P) (h : needsAll l m = true) : Closed l P :=
  ⟨fun _ hp => hC.closes (List.all_eq_true.mp h _ hp)⟩

/-! ## Control -/

/-- The outcome is a next state, and `Q` holds of it. -/
def Answers (o : Host.Outcome State Fault Refusal) (Q : State → Prop) : Prop := ∃ t, o = .next t ∧ Q t

theorem answers_next {Q : State → Prop} {t : State} (h : Q t) : Answers (.next t) Q := ⟨t, rfl, h⟩


theorem ite_ind {σ : Type} {Q : σ → Prop} {c : Prop} [Decidable c] {a b : σ} (ha : Q a) (hb : Q b) :
    Q (if c then a else b) := by split <;> assumption

theorem forEach_ind {α σ : Type} {Q : σ → Prop} {l : List α} {f : α → σ → σ} {s : σ} (hf : ∀ x s, Q s → Q (f x s))
    (h : Q s) : Q (forEach l f s) := by
  unfold forEach
  induction l generalizing s with
  | nil => exact h
  | cons x t ih => exact ih (hf x s h)

variable {s : State}

theorem ite_with {σ : Type} {Q : σ → Prop} {c : Prop} [Decidable c] {a b : σ} (ha : c → Q a) (hb : ¬c → Q b) :
    Q (if c then a else b) := by
  split
  · exact ha ‹_›
  · exact hb ‹_›

theorem when_with {c : Bool} {f : State → State} (hf : c = true → P (f s)) (h : P s) : P (s.when c f) :=
  ite_with hf (fun _ => h)

theorem when_ind {c : Bool} {f : State → State} (hf : ∀ s, P s → P (f s)) (h : P s) : P (s.when c f) :=
  ite_ind (hf s h) h

/-! ## Updates of the state record -/

theorem upd_sys {s : State} {y : Sys} (hC : Closed [.sys] P) (hp : y.phase = s.sys.phase) (hq : y.pstate = s.sys.pstate)
    (h : P s) : P { s with sys := y } := hC.part .sys (by simp) s y hp hq h

theorem upd_nv {s : State} {n : Nv} (hC : Closed [.nv] P) (h : P s) : P { s with nv := n } :=
  hC.part .nv (by simp) s n h

theorem fullReset_ind {s : State} {c : Cause} {n : Nat} (hC : Closed [.reset] P) (h : P s) : P (fullReset c n s) :=
  hC.part .reset (by simp) c n s h

theorem getD_ind {σ : Type} {Q : σ → Prop} {o : Option σ} {d : σ} (ho : ∀ x, o = some x → Q x) (hd : Q d) :
    Q (o.getD d) := by
  cases o with
  | none => exact hd
  | some x => exact ho x rfl

theorem upd_rst {s : State} {v : Rst} (hC : Closed [.rst] P) (h : P s) : P { s with rst := v } :=
  hC.part .rst (by simp) s v h

theorem upd_clk {s : State} {v : Clk} (hC : Closed [.clk] P) (h : P s) : P { s with clk := v } :=
  hC.part .clk (by simp) s v h

theorem upd_pln {s : State} {v : Pln} (hC : Closed [.pln] P) (h : P s) : P { s with pln := v } :=
  hC.part .pln (by simp) s v h

theorem mapsWf_locks {s : State} (h : s.mapsWf = true) : mapWf (fun _ => lock0) s.locks = true := by
  simp only [State.mapsWf, Bool.and_eq_true] at h
  simp only [h]

theorem upd_locks {s : State} {v : Map Lock} (hC : Closed [.locks] P) (h : P s)
    (hw : s.mapsWf = true → mapWf (fun _ => lock0) v = true := by
      first | exact fun _ => rfl | exact fun h => mapWf_mapSet (mapsWf_locks h) | exact fun h => mapWf_filter (mapsWf_locks h)) :
    P { s with locks := v } :=
  hC.part .locks (by simp) s v hw h

theorem upd_shadowBad {s : State} {v : List Nat} (hC : Closed [.shadowBad] P) (h : P s) : P { s with shadowBad := v } :=
  hC.part .shadowBad (by simp) s v h

theorem upd_pownBad {s : State} {v : List Nat} (hC : Closed [.pownBad] P) (h : P s) : P { s with pownBad := v } :=
  hC.part .pownBad (by simp) s v h

theorem mapsWf_sel {s : State} (h : s.mapsWf = true) : mapWf (fun _ => 0) s.sel = true := by
  simp only [State.mapsWf, Bool.and_eq_true] at h
  simp only [h]

theorem upd_sel {s : State} {v : Map Nat} (hC : Closed [.sel] P) (h : P s)
    (hw : s.mapsWf = true → mapWf (fun _ => 0) v = true := by
      first | exact fun _ => rfl | exact fun h => mapWf_mapSet (mapsWf_sel h) | exact fun h => mapWf_filter (mapsWf_sel h)) :
    P { s with sel := v } :=
  hC.part .sel (by simp) s v hw h

theorem mapsWf_samp {s : State} (h : s.mapsWf = true) : mapWf (fun _ => 0) s.samp = true := by
  simp only [State.mapsWf, Bool.and_eq_true] at h
  simp only [h]

theorem upd_samp {s : State} {v : Map Nat} (hC : Closed [.samp] P) (h : P s)
    (hw : s.mapsWf = true → mapWf (fun _ => 0) v = true := by
      first | exact fun _ => rfl | exact fun h => mapWf_mapSet (mapsWf_samp h) | exact fun h => mapWf_filter (mapsWf_samp h)) :
    P { s with samp := v } :=
  hC.part .samp (by simp) s v hw h

theorem mapsWf_streams {s : State} (h : s.mapsWf = true) : mapWf (fun _ => 0) s.streams = true := by
  simp only [State.mapsWf, Bool.and_eq_true] at h
  simp only [h]

theorem upd_streams {s : State} {v : Map Nat} (hC : Closed [.streams] P) (h : P s)
    (hw : s.mapsWf = true → mapWf (fun _ => 0) v = true := by
      first | exact fun _ => rfl | exact fun h => mapWf_mapSet (mapsWf_streams h) | exact fun h => mapWf_filter (mapsWf_streams h)) :
    P { s with streams := v } :=
  hC.part .streams (by simp) s v hw h

theorem mapsWf_queues {s : State} (h : s.mapsWf = true) : mapWf (fun _ => []) s.queues = true := by
  simp only [State.mapsWf, Bool.and_eq_true] at h
  simp only [h]

theorem upd_queues {s : State} {v : Map (List Entry)} (hC : Closed [.queues] P) (h : P s)
    (hw : s.mapsWf = true → mapWf (fun _ => []) v = true := by
      first | exact fun _ => rfl | exact fun h => mapWf_mapSet (mapsWf_queues h) | exact fun h => mapWf_filter (mapsWf_queues h)) :
    P { s with queues := v } :=
  hC.part .queues (by simp) s v hw h

theorem mapsWf_pendg {s : State} (h : s.mapsWf = true) : mapWf (fun _ => []) s.pendg = true := by
  simp only [State.mapsWf, Bool.and_eq_true] at h
  simp only [h]

theorem upd_pendg {s : State} {v : Map (List PendRec)} (hC : Closed [.pendg] P) (h : P s)
    (hw : s.mapsWf = true → mapWf (fun _ => []) v = true := by
      first | exact fun _ => rfl | exact fun h => mapWf_mapSet (mapsWf_pendg h) | exact fun h => mapWf_filter (mapsWf_pendg h)) :
    P { s with pendg := v } :=
  hC.part .pendg (by simp) s v hw h

theorem upd_capped {s : State} {v : Bool} (hC : Closed [.capped] P) (h : P s) : P { s with capped := v } :=
  hC.part .capped (by simp) s v h

theorem mapsWf_loops {s : State} (h : s.mapsWf = true) : mapWf loop0 s.loops = true := by
  simp only [State.mapsWf, Bool.and_eq_true] at h
  simp only [h]

theorem upd_loops {s : State} {v : Map Loop} (hC : Closed [.loops] P) (h : P s)
    (hw : s.mapsWf = true → mapWf loop0 v = true := by
      first | exact fun _ => rfl | exact fun h => mapWf_mapSet (mapsWf_loops h) | exact fun h => mapWf_filter (mapsWf_loops h)) :
    P { s with loops := v } :=
  hC.part .loops (by simp) s v hw h

theorem mapsWf_descs {s : State} (h : s.mapsWf = true) : mapWf (fun _ => desc0) s.descs = true := by
  simp only [State.mapsWf, Bool.and_eq_true] at h
  simp only [h]

theorem upd_descs {s : State} {v : Map Desc} (hC : Closed [.descs] P) (h : P s)
    (hw : s.mapsWf = true → mapWf (fun _ => desc0) v = true := by
      first | exact fun _ => rfl | exact fun h => mapWf_mapSet (mapsWf_descs h) | exact fun h => mapWf_filter (mapsWf_descs h)) :
    P { s with descs := v } :=
  hC.part .descs (by simp) s v hw h

theorem upd_chainDue {s : State} {v : List Nat} (hC : Closed [.chainDue] P) (h : P s) : P { s with chainDue := v } :=
  hC.part .chainDue (by simp) s v h

theorem mapsWf_charge {s : State} (h : s.mapsWf = true) : mapWf (fun _ => 0) s.charge = true := by
  simp only [State.mapsWf, Bool.and_eq_true] at h
  simp only [h]

theorem upd_charge {s : State} {v : Map Nat} (hC : Closed [.charge] P) (h : P s)
    (hw : s.mapsWf = true → mapWf (fun _ => 0) v = true := by
      first | exact fun _ => rfl | exact fun h => mapWf_mapSet (mapsWf_charge h) | exact fun h => mapWf_filter (mapsWf_charge h)) :
    P { s with charge := v } :=
  hC.part .charge (by simp) s v hw h

theorem mapsWf_chargeLast {s : State} (h : s.mapsWf = true) : mapWf (fun _ => 0) s.chargeLast = true := by
  simp only [State.mapsWf, Bool.and_eq_true] at h
  simp only [h]

theorem upd_chargeLast {s : State} {v : Map Nat} (hC : Closed [.chargeLast] P) (h : P s)
    (hw : s.mapsWf = true → mapWf (fun _ => 0) v = true := by
      first | exact fun _ => rfl | exact fun h => mapWf_mapSet (mapsWf_chargeLast h) | exact fun h => mapWf_filter (mapsWf_chargeLast h)) :
    P { s with chargeLast := v } :=
  hC.part .chargeLast (by simp) s v hw h

theorem mapsWf_ports {s : State} (h : s.mapsWf = true) : mapWf (fun _ => port0) s.ports = true := by
  simp only [State.mapsWf, Bool.and_eq_true] at h
  simp only [h]

theorem upd_ports {s : State} {v : Map Port} (hC : Closed [.ports] P) (h : P s)
    (hw : s.mapsWf = true → mapWf (fun _ => port0) v = true := by
      first | exact fun _ => rfl | exact fun h => mapWf_mapSet (mapsWf_ports h) | exact fun h => mapWf_filter (mapsWf_ports h)) :
    P { s with ports := v } :=
  hC.part .ports (by simp) s v hw h

theorem upd_afe {s : State} {v : Afe} (hC : Closed [.afe] P) (h : P s) : P { s with afe := v } :=
  hC.part .afe (by simp) s v h

theorem mapsWf_afeCh {s : State} (h : s.mapsWf = true) : mapWf (fun _ => afeCh0) s.afeCh = true := by
  simp only [State.mapsWf, Bool.and_eq_true] at h
  simp only [h]

theorem upd_afeCh {s : State} {v : Map AfeCh} (hC : Closed [.afeCh] P) (h : P s)
    (hw : s.mapsWf = true → mapWf (fun _ => afeCh0) v = true := by
      first | exact fun _ => rfl | exact fun h => mapWf_mapSet (mapsWf_afeCh h) | exact fun h => mapWf_filter (mapsWf_afeCh h)) :
    P { s with afeCh := v } :=
  hC.part .afeCh (by simp) s v hw h

theorem mapsWf_stp {s : State} (h : s.mapsWf = true) : mapWf (fun _ => stpCh0) s.stp = true := by
  simp only [State.mapsWf, Bool.and_eq_true] at h
  simp only [h]

theorem upd_stp {s : State} {v : Map StpCh} (hC : Closed [.stp] P) (h : P s)
    (hw : s.mapsWf = true → mapWf (fun _ => stpCh0) v = true := by
      first | exact fun _ => rfl | exact fun h => mapWf_mapSet (mapsWf_stp h) | exact fun h => mapWf_filter (mapsWf_stp h)) :
    P { s with stp := v } :=
  hC.part .stp (by simp) s v hw h

theorem mapsWf_lines {s : State} (h : s.mapsWf = true) : mapWf (fun _ => line0) s.lines = true := by
  simp only [State.mapsWf, Bool.and_eq_true] at h
  simp only [h]

theorem upd_lines {s : State} {v : Map Line} (hC : Closed [.lines] P) (h : P s)
    (hw : s.mapsWf = true → mapWf (fun _ => line0) v = true := by
      first | exact fun _ => rfl | exact fun h => mapWf_mapSet (mapsWf_lines h) | exact fun h => mapWf_filter (mapsWf_lines h)) :
    P { s with lines := v } :=
  hC.part .lines (by simp) s v hw h

theorem upd_icalRun {s : State} {v : Nat} (hC : Closed [.icalRun] P) (h : P s) : P { s with icalRun := v } :=
  hC.part .icalRun (by simp) s v h

theorem upd_rck {s : State} {v : Rck} (hC : Closed [.rck] P) (h : P s) : P { s with rck := v } :=
  hC.part .rck (by simp) s v h

theorem upd_sxt {s : State} {v : Sxt} (hC : Closed [.sxt] P) (h : P s) : P { s with sxt := v } :=
  hC.part .sxt (by simp) s v h

theorem mapsWf_rsm {s : State} (h : s.mapsWf = true) : mapWf (fun _ => rsm0) s.rsm = true := by
  simp only [State.mapsWf, Bool.and_eq_true] at h
  simp only [h]

theorem upd_rsm {s : State} {v : Map Rsm} (hC : Closed [.rsm] P) (h : P s)
    (hw : s.mapsWf = true → mapWf (fun _ => rsm0) v = true := by
      first | exact fun _ => rfl | exact fun h => mapWf_mapSet (mapsWf_rsm h) | exact fun h => mapWf_filter (mapsWf_rsm h)) :
    P { s with rsm := v } :=
  hC.part .rsm (by simp) s v hw h

theorem mapsWf_asy {s : State} (h : s.mapsWf = true) : mapWf (fun _ => asy0) s.asy = true := by
  simp only [State.mapsWf, Bool.and_eq_true] at h
  simp only [h]

theorem upd_asy {s : State} {v : Map Asy} (hC : Closed [.asy] P) (h : P s)
    (hw : s.mapsWf = true → mapWf (fun _ => asy0) v = true := by
      first | exact fun _ => rfl | exact fun h => mapWf_mapSet (mapsWf_asy h) | exact fun h => mapWf_filter (mapsWf_asy h)) :
    P { s with asy := v } :=
  hC.part .asy (by simp) s v hw h

theorem upd_asyLast {s : State} {v : Nat} (hC : Closed [.asyLast] P) (h : P s) : P { s with asyLast := v } :=
  hC.part .asyLast (by simp) s v h

theorem upd_rose {s : State} {v : List RoseEvent} (hC : Closed [.rose] P) (h : P s) : P { s with rose := v } :=
  hC.part .rose (by simp) s v h

theorem mapsWf_lanes {s : State} (h : s.mapsWf = true) : mapWf (fun _ => lane0) s.lanes = true := by
  simp only [State.mapsWf, Bool.and_eq_true] at h
  simp only [h]

theorem upd_lanes {s : State} {v : Map Lane} (hC : Closed [.lanes] P) (h : P s)
    (hw : s.mapsWf = true → mapWf (fun _ => lane0) v = true := by
      first | exact fun _ => rfl | exact fun h => mapWf_mapSet (mapsWf_lanes h) | exact fun h => mapWf_filter (mapsWf_lanes h)) :
    P { s with lanes := v } :=
  hC.part .lanes (by simp) s v hw h

theorem mapsWf_closed {s : State} (h : s.mapsWf = true) : mapWf (fun _ => []) s.closed = true := by
  simp only [State.mapsWf, Bool.and_eq_true] at h
  simp only [h]

theorem upd_closed {s : State} {v : Map (List Bundle)} (hC : Closed [.closed] P) (h : P s)
    (hw : s.mapsWf = true → mapWf (fun _ => []) v = true := by
      first | exact fun _ => rfl | exact fun h => mapWf_mapSet (mapsWf_closed h) | exact fun h => mapWf_filter (mapsWf_closed h)) :
    P { s with closed := v } :=
  hC.part .closed (by simp) s v hw h

theorem mapsWf_evicts {s : State} (h : s.mapsWf = true) : mapWf (fun _ => none) s.evicts = true := by
  simp only [State.mapsWf, Bool.and_eq_true] at h
  simp only [h]

theorem upd_evicts {s : State} {v : Map (Option Evict)} (hC : Closed [.evicts] P) (h : P s)
    (hw : s.mapsWf = true → mapWf (fun _ => none) v = true := by
      first | exact fun _ => rfl | exact fun h => mapWf_mapSet (mapsWf_evicts h) | exact fun h => mapWf_filter (mapsWf_evicts h)) :
    P { s with evicts := v } :=
  hC.part .evicts (by simp) s v hw h

theorem upd_hallmark {s : State} {v : Seal} (hC : Closed [.hallmark] P) (h : P s) : P { s with hallmark := v } :=
  hC.part .hallmark (by simp) s v h

theorem mapsWf_routes {s : State} (h : s.mapsWf = true) : mapWf (fun _ => 0) s.routes = true := by
  simp only [State.mapsWf, Bool.and_eq_true] at h
  simp only [h]

theorem upd_routes {s : State} {v : Map Nat} (hC : Closed [.routes] P) (h : P s)
    (hw : s.mapsWf = true → mapWf (fun _ => 0) v = true := by
      first | exact fun _ => rfl | exact fun h => mapWf_mapSet (mapsWf_routes h) | exact fun h => mapWf_filter (mapsWf_routes h)) :
    P { s with routes := v } :=
  hC.part .routes (by simp) s v hw h

theorem mapsWf_tens {s : State} (h : s.mapsWf = true) : mapWf (fun _ => ten0) s.tens = true := by
  simp only [State.mapsWf, Bool.and_eq_true] at h
  simp only [h]

theorem upd_tens {s : State} {v : Map Ten} (hC : Closed [.tens] P) (h : P s)
    (hw : s.mapsWf = true → mapWf (fun _ => ten0) v = true := by
      first | exact fun _ => rfl | exact fun h => mapWf_mapSet (mapsWf_tens h) | exact fun h => mapWf_filter (mapsWf_tens h)) :
    P { s with tens := v } :=
  hC.part .tens (by simp) s v hw h

theorem upd_stw {s : State} {v : Stw} (hC : Closed [.stw] P) (h : P s) : P { s with stw := v } :=
  hC.part .stw (by simp) s v h

theorem mapsWf_tx {s : State} (h : s.mapsWf = true) : mapWf (fun _ => none) s.tx = true := by
  simp only [State.mapsWf, Bool.and_eq_true] at h
  simp only [h]

theorem upd_tx {s : State} {v : Map (Option Tx)} (hC : Closed [.tx] P) (h : P s)
    (hw : s.mapsWf = true → mapWf (fun _ => none) v = true := by
      first | exact fun _ => rfl | exact fun h => mapWf_mapSet (mapsWf_tx h) | exact fun h => mapWf_filter (mapsWf_tx h)) :
    P { s with tx := v } :=
  hC.part .tx (by simp) s v hw h

theorem mapsWf_ptrs {s : State} (h : s.mapsWf = true) : mapWf ptrHome s.ptrs = true := by
  simp only [State.mapsWf, Bool.and_eq_true] at h
  simp only [h]

theorem upd_ptrs {s : State} {v : Map Nat} (hC : Closed [.ptrs] P) (h : P s)
    (hw : s.mapsWf = true → mapWf ptrHome v = true := by
      first | exact fun _ => rfl | exact fun h => mapWf_mapSet (mapsWf_ptrs h) | exact fun h => mapWf_filter (mapsWf_ptrs h)) :
    P { s with ptrs := v } :=
  hC.part .ptrs (by simp) s v hw h

theorem mapsWf_asm {s : State} (h : s.mapsWf = true) : mapWf (fun _ => asm0) s.asm = true := by
  simp only [State.mapsWf, Bool.and_eq_true] at h
  simp only [h]

theorem upd_asm {s : State} {v : Map Assembly} (hC : Closed [.asm] P) (h : P s)
    (hw : s.mapsWf = true → mapWf (fun _ => asm0) v = true := by
      first | exact fun _ => rfl | exact fun h => mapWf_mapSet (mapsWf_asm h) | exact fun h => mapWf_filter (mapsWf_asm h)) :
    P { s with asm := v } :=
  hC.part .asm (by simp) s v hw h

theorem upd_env {s : State} {v : Option Envelope} (hC : Closed [.env] P) (h : P s) : P { s with env := v } :=
  hC.part .env (by simp) s v h

theorem mapsWf_port {s : State} (h : s.mapsWf = true) : mapWf (fun _ => []) s.port = true := by
  simp only [State.mapsWf, Bool.and_eq_true] at h
  simp only [h]

theorem upd_port {s : State} {v : Map (List Byte)} (hC : Closed [.port] P) (h : P s)
    (hw : s.mapsWf = true → mapWf (fun _ => []) v = true := by
      first | exact fun _ => rfl | exact fun h => mapWf_mapSet (mapsWf_port h) | exact fun h => mapWf_filter (mapsWf_port h)) :
    P { s with port := v } :=
  hC.part .port (by simp) s v hw h

theorem upd_tam {s : State} {v : Tam} (hC : Closed [.tam] P) (h : P s) : P { s with tam := v } :=
  hC.part .tam (by simp) s v h

theorem upd_log {s : State} {v : Log} (hC : Closed [.log] P) (h : P s) : P { s with log := v } :=
  hC.part .log (by simp) s v h

theorem upd_rdata {s : State} {v : Word} (hC : Closed [.rdata] P) (h : P s) : P { s with rdata := v } :=
  hC.part .rdata (by simp) s v h

/-! ## Registers -/

theorem setReg_ind {a : Nat} {w : Word} (hC : Closed [.reg a] P) (h : P s) : P (s.setReg a w) :=
  hC.part (.reg a) (by simp) s w h

theorem setFld_ind {f : Fld} {v : Nat} (hC : Closed [.reg f.addr] P) (h : P s) : P (s.setFld f v) :=
  setReg_ind hC h

theorem setBit_ind {f : Fld} {k : Nat} (hC : Closed [.reg f.addr] P) (h : P s) : P (s.setBit f k) :=
  setFld_ind hC h

theorem clrBit_ind {f : Fld} {k : Nat} (hC : Closed [.reg f.addr] P) (h : P s) : P (s.clrBit f k) :=
  ite_ind (setFld_ind hC h) h

theorem putBit_ind {f : Fld} {k : Nat} {b : Bool} (hC : Closed [.reg f.addr] P) (h : P s) :
    P (s.putBit f k b) := ite_ind (setBit_ind hC h) (clrBit_ind hC h)

theorem putOn_ind {f : Fld} {b : Bool} (hC : Closed [.reg f.addr] P) (h : P s) : P (s.putOn f b) :=
  setFld_ind hC h

theorem addSat_ind {f : Fld} {n : Nat} (hC : Closed [.reg f.addr] P) (h : P s) : P (s.addSat f n) :=
  setFld_ind hC h

theorem addWrap_ind {f : Fld} {n : Nat} (hC : Closed [.reg f.addr] P) (h : P s) : P (s.addWrap f n) :=
  setFld_ind hC h

end Sys2Proof.Machine
end

