-- ==== Sys2Proof/Laws/FramesQueue.lean ====
section
/-! SUPPORT. What each operation may change: the keyed operations, the event queues, the interrupt and message paths, the loops and the guards. A property closed under
those parts of the state holds after the operation if it held before. -/

namespace Sys2Proof.Machine

variable {P : State → Prop}

theorem modSys_ind {s : State} {f : Sys → Sys} (hC : Closed [.sys] P) (hp : (f s.sys).phase = s.sys.phase)
    (hq : (f s.sys).pstate = s.sys.pstate) (h : P s) : P (s.modSys f) := upd_sys hC hp hq h

theorem modMode_ind {s : State} {f : Sys → Sys} (hC : Closed [.mode] P)
    (hl : s.modeWf = true → legalMode (f s.sys).phase (f s.sys).pstate = true) (h : P s) : P (s.modSys f) :=
  hC.part .mode (by simp) s (f s.sys) hl h

theorem setSel_ind {s : Machine.State} {a : Nat} {rq : Requester} {v : Nat} (hC : Closed [.sel] P) (hs : P s) :
    P (State.setSel s a rq v) := by
  unfold State.setSel
  exact upd_sel (hC.mono (by decide)) hs

theorem setSamp_ind {s : Machine.State} {a : Nat} {rq : Requester} {v : Nat} (hC : Closed [.samp] P) (hs : P s) :
    P (State.setSamp s a rq v) := by
  unfold State.setSamp
  exact upd_samp (hC.mono (by decide)) hs

theorem modTen_ind {s : Machine.State} {t : Nat} {f : Ten → Ten} (hC : Closed [.tens] P) (hs : P s) :
    P (State.modTen s t f) := by
  unfold State.modTen
  exact upd_tens (hC.mono (by decide)) hs

theorem modTnv_ind {s : Machine.State} {t : Nat} {f : TenNv → TenNv} (hC : Closed [.nv] P) (hs : P s) :
    P (State.modTnv s t f) := by
  unfold State.modTnv
  extract_lets -merge -underBinder n1
  exact upd_nv (hC.mono (by decide)) hs

theorem modPrt_ind {s : Machine.State} {p : Nat} {f : Port → Port} (hC : Closed [.ports] P) (hs : P s) :
    P (State.modPrt s p f) := by
  unfold State.modPrt
  exact upd_ports (hC.mono (by decide)) hs

theorem setPin_ind {s : Machine.State} {k : Nat} {up : Bool} (hC : Closed [.sys] P) (hs : P s) :
    P (State.setPin s k up) := by
  unfold State.setPin
  extract_lets -merge -underBinder n1
  exact upd_sys (hC.mono (by decide)) rfl rfl hs

theorem modDesc_ind {s : Machine.State} {d : Nat} {f : Desc → Desc} (hC : Closed [.descs] P) (hs : P s) :
    P (State.modDesc s d f) := by
  unfold State.modDesc
  exact upd_descs (hC.mono (by decide)) hs

theorem modUnit_ind {s : Machine.State} {u : Nat} {f : Asy → Asy} (hC : Closed [.asy] P) (hs : P s) :
    P (State.modUnit s u f) := by
  unfold State.modUnit
  exact upd_asy (hC.mono (by decide)) hs

theorem modChan_ind {s : Machine.State} {c : Nat} {f : StpCh → StpCh} (hC : Closed [.stp] P) (hs : P s) :
    P (State.modChan s c f) := by
  unfold State.modChan
  exact upd_stp (hC.mono (by decide)) hs

theorem modRchan_ind {s : Machine.State} {c : Nat} {f : Rsm → Rsm} (hC : Closed [.rsm] P) (hs : P s) :
    P (State.modRchan s c f) := by
  unfold State.modRchan
  exact upd_rsm (hC.mono (by decide)) hs

theorem modAch_ind {s : Machine.State} {c : Nat} {f : AfeCh → AfeCh} (hC : Closed [.afeCh] P) (hs : P s) :
    P (State.modAch s c f) := by
  unfold State.modAch
  exact upd_afeCh (hC.mono (by decide)) hs

theorem modLane_ind {s : Machine.State} {l : Nat} {f : Lane → Lane} (hC : Closed [.lanes] P) (hs : P s) :
    P (State.modLane s l f) := by
  unfold State.modLane
  exact upd_lanes (hC.mono (by decide)) hs

theorem setClosed_ind {s : Machine.State} {l : Nat} {b : List Bundle} (hC : Closed [.closed] P) (hs : P s) :
    P (State.setClosed s l b) := by
  unfold State.setClosed
  exact upd_closed (hC.mono (by decide)) hs

theorem setLock_ind {s : Machine.State} {k : Nat} {l : Lock} (hC : Closed [.locks] P) (hs : P s) :
    P (State.setLock s k l) := by
  unfold State.setLock
  exact upd_locks (hC.mono (by decide)) hs

theorem setTx_ind {s : Machine.State} {p : Nat} {t : Option Tx} (hC : Closed [.tx] P) (hs : P s) :
    P (State.setTx s p t) := by
  unfold State.setTx
  exact upd_tx (hC.mono (by decide)) hs

theorem setAsm_ind {s : Machine.State} {n : Nat} {a : Assembly} (hC : Closed [.asm] P) (hs : P s) :
    P (State.setAsm s n a) := by
  unfold State.setAsm
  exact upd_asm (hC.mono (by decide)) hs

theorem sent_ind {s : Machine.State} {p : Nat} {bs : List Byte} (hC : Closed [.port] P) (hs : P s) :
    P (State.sent s p bs) := by
  unfold State.sent
  exact upd_port (hC.mono (by decide)) hs

theorem resetRegs_ind {s : Machine.State} {l : List Nat} (hC : Closed [.regs] P) (hs : P s) :
    P (State.resetRegs s l) := by
  unfold State.resetRegs
  refine forEach_ind (fun _ _ hz1 => ?_) ?_
  · exact setReg_ind (hC.mono rfl) hz1
  · exact hs

theorem setQueue_ind {s : Machine.State} {q : Nat} {l : List Entry} (hC : Closed [.queues] P) (hs : P s) :
    P (State.setQueue s q l) := by
  unfold State.setQueue
  exact upd_queues (hC.mono (by decide)) hs

theorem setPend_ind {s : Machine.State} {q : Nat} {p : Producer} {l : List PendRec} (hC : Closed [.pendg] P) (hs : P s) :
    P (State.setPend s q p l) := by
  unfold State.setPend
  exact upd_pendg (hC.mono (by decide)) hs

theorem push_ind {s : Machine.State} {q : Nat} {e : Entry} (hC : Closed [.queues] P) (hs : P s) :
    P (State.push s q e) := by
  unfold State.push
  exact setQueue_ind (hC.mono (by decide)) hs

theorem drainGaps_ind {q : Nat} {p : Producer} {l kept : List PendRec} {s : State}
    (hC : Closed [.reg 0x2048, .queues, .pendg] P) (h : P s) : P (drainGaps q p l kept s) := by
  induction l generalizing kept s with
  | nil => exact setPend_ind (hC.mono (by decide)) h
  | cons r t ih =>
    unfold drainGaps
    split
    · exact ih h
    · refine ite_ind (ih h) (ite_ind (ih ?_) (setPend_ind (hC.mono (by decide)) h))
      exact addSat_ind (hC.mono (by decide)) (push_ind (hC.mono (by decide)) h)

theorem drain_ind {s : Machine.State} {q : Nat} {p : Producer} (hC : Closed [.reg 0x2048, .queues, .pendg] P) (hs : P s) :
    P (State.drain s q p) := by
  unfold State.drain
  exact drainGaps_ind (hC.mono (by decide)) hs

theorem skip_ind {s : Machine.State} {q : Nat} {p : Producer} {src : Nat} {cause : Nat} {detail : Option Nat} {ht : Nat} (hC :
    Closed [.pendg] P) (hs : P s) :
    P (State.skip s q p src cause detail ht) := by
  unfold State.skip
  exact setPend_ind (hC.mono (by decide)) hs

theorem enqueue_ind {s : Machine.State} {q : Nat} {p : Producer} {slots : Nat} {b : Body} {src : Nat} {ht : Nat} (hC : Closed
    [.queues, .pendg, .reg 0x2048] P) (hs : P s) :
    P (State.enqueue s q p slots b src ht) := by
  unfold State.enqueue
  extract_lets -merge -underBinder z1
  have hz1 : P z1 := by
    exact drain_ind (hC.mono (by decide)) (setPend_ind (hC.mono (by decide)) hs)
  refine ite_ind ?_ ?_
  · exact push_ind (hC.mono (by decide)) hz1
  · exact skip_ind (hC.mono (by decide)) hz1

theorem forwardGap_ind {s : Machine.State} {q : Nat} {p : Producer} {g : Gap} (hC : Closed [.reg 0x2048, .queues, .pendg] P)
    (hs : P s) :
    P (State.forwardGap s q p g) := by
  unfold State.forwardGap
  extract_lets -merge -underBinder z1
  have hz1 : P z1 := by
    exact drain_ind (hC.mono (by decide)) hs
  refine ite_ind ?_ ?_
  · exact addSat_ind (hC.mono (by decide)) (push_ind (hC.mono (by decide)) hz1)
  · exact setPend_ind (hC.mono (by decide)) hz1

theorem removeFrom_ind {s : Machine.State} {q : Nat} {cause : Nat} {hit : Entry → Bool} (hC : Closed [.pendg, .queues] P) (hs
    : P s) :
    P (State.removeFrom s q cause hit) := by
  unfold State.removeFrom
  extract_lets -merge -underBinder n1 z2
  have hz2 : P z2 := by
    exact setQueue_ind (hC.mono (by decide)) hs
  refine forEach_ind (fun _ _ hz3 => ?_) ?_
  · split
    · exact hz3
    · exact setPend_ind (hC.mono (by decide)) hz3
  · exact hz2

theorem headGone_ind {s : Machine.State} {q : Nat} (hC : Closed [.asy] P) (hs : P s) :
    P (State.headGone s q) := by
  unfold State.headGone
  refine ite_ind ?_ ?_
  · exact modUnit_ind (hC.mono (by decide)) hs
  · exact hs

theorem flushQueue_ind {s : Machine.State} {q : Nat} {cause : Nat} (hC : Closed [.asy, .pendg, .queues] P) (hs : P s) :
    P (State.flushQueue s q cause) := by
  unfold State.flushQueue
  exact headGone_ind (hC.mono (by decide)) (removeFrom_ind (hC.mono (by decide)) hs)

theorem popQueue_ind {s t : State} {q : Nat} {e : Entry} (hC : Closed [.queues] P) (h : P s)
    (hr : s.popQueue q = some (e, t)) : P t := by
  unfold State.popQueue at hr
  split at hr
  · cases hr
  · cases hr
    exact setQueue_ind hC h

theorem intake_ind {s : Machine.State} {t : Nat} {l : Nat} {p : Producer} {i : Item} (hC : Closed [.queues, .pendg, .reg
    0x2048] P) (hs : P s) :
    P (State.intake s t l p i) := by
  unfold State.intake
  exact enqueue_ind (hC.mono (by decide)) hs

theorem record_ind {s : Machine.State} {t : Nat} {l : Nat} {ty : Nat} {page : Nat} {ht : Nat} {payload : List Byte} (hC :
    Closed [.queues, .pendg, .reg 0x2048, .tens] P) (hs : P s) :
    P (State.record s t l ty page ht payload) := by
  unfold State.record
  refine when_ind (fun _ hz1 => ?_) ?_
  · extract_lets -merge -underBinder n2
    exact intake_ind (hC.mono (by decide)) (modTen_ind (hC.mono (by decide)) hz1)
  · exact hs

theorem railFault_ind {s : Machine.State} {cause : Nat} {rail : Nat} (hC : Closed [.queues, .pendg, .reg 0x2048, .tens] P) (hs
    : P s) :
    P (State.railFault s cause rail) := by
  unfold State.railFault
  exact record_ind (hC.mono (by decide)) hs

theorem presentOn_ind {s : Machine.State} {c : Nat} {edge : Option (Nat × Nat)} (hC : Closed [.rose] P) (hs : P s) :
    P (State.presentOn s c edge) := by
  unfold State.presentOn
  refine ite_ind ?_ ?_
  · refine ite_ind ?_ ?_
    · exact hs
    · exact upd_rose (hC.mono (by decide)) hs
  · exact hs

theorem present_ind {s : Machine.State} {k : Nat} {wired : Nat → Bool} {edge : Option (Nat × Nat)} (hC : Closed [.rose] P) (hs
    : P s) :
    P (State.present s k wired edge) := by
  unfold State.present
  refine forEach_ind (fun _ _ hz1 => ?_) ?_
  · refine ite_ind ?_ ?_
    · exact presentOn_ind (hC.mono (by decide)) hz1
    · exact hz1
  · exact hs

theorem presentEdge_ind {s : Machine.State} {k : Nat} {count : Nat} (hC : Closed [.rose] P) (hs : P s) :
    P (State.presentEdge s k count) := by
  unfold State.presentEdge
  refine ite_ind ?_ ?_
  · exact present_ind (hC.mono (by decide)) hs
  · exact hs

theorem presentRise_ind {s : Machine.State} {u : Nat} (hC : Closed [.rose] P) (hs : P s) :
    P (State.presentRise s u) := by
  unfold State.presentRise
  exact present_ind (hC.mono (by decide)) hs

theorem presentFall_ind {s : Machine.State} {u : Nat} (hC : Closed [.rose] P) (hs : P s) :
    P (State.presentFall s u) := by
  unfold State.presentFall
  exact present_ind (hC.mono (by decide)) hs

theorem presentCmp_ind {s : Machine.State} {k : Nat} (hC : Closed [.rose] P) (hs : P s) :
    P (State.presentCmp s k) := by
  unfold State.presentCmp
  exact present_ind (hC.mono (by decide)) hs

theorem presentAt_ind {s : Machine.State} {ch : Nat} (hC : Closed [.rose] P) (hs : P s) :
    P (State.presentAt s ch) := by
  unfold State.presentAt
  exact present_ind (hC.mono (by decide)) hs

theorem wakeHost_ind {s : State} {f : Fld} (hC : Closed [.reg f.addr, .reg 0x178, .sys] P) (h : P s) :
    P (s.wakeHost f) := by
  have h1 : P (s.setFld f 1) := setFld_ind ⟨fun x hx => hC.part x (by simp_all)⟩ h
  refine ite_ind h1 (upd_sys ⟨fun x hx => hC.part x (by simp_all)⟩ rfl rfl ?_)
  exact setFld_ind ⟨fun x hx => hC.part x (List.mem_cons_of_mem _ (by revert x; decide))⟩ h1

theorem routeLine_ind {s : State} {p : Nat}
    (hC : Closed [.reg 0x154, .reg 0x178, .reg 0x2048, .sys, .rose, .queues, .pendg, .tens] P) (hs : P s) :
    P (State.routeLine s p) := by
  unfold State.routeLine
  extract_lets -merge -underBinder z1 z2
  have hz1 : P z1 := by
    refine ite_ind ?_ ?_
    · exact wakeHost_ind (hC.mono (by decide)) hs
    · exact hs
  have hz2 : P z2 := by
    refine ite_ind ?_ ?_
    · split
      · exact hz1
      · exact presentAt_ind (hC.mono (by decide)) hz1
    · exact hz1
  refine ite_ind ?_ ?_
  · exact record_ind (hC.mono (by decide)) hz2
  · exact hz2

theorem pirq_addr (p : Nat) : (F.PIRQ p).addr = 256 * p + 0x18 := rfl

theorem raise_ind {s : State} {p b : Nat}
    (hC : Closed [.reg (256 * p + 0x18), .reg 0x154, .reg 0x178, .reg 0x2048, .sys, .rose, .queues, .pendg, .tens] P) (h : P s)
        : P (s.raise p b) := by
  have hb : P (s.setBit (F.PIRQ p) b) := setBit_ind ⟨fun x hx => hC.part x (by rw [pirq_addr] at hx; simp_all)⟩ h
  exact ite_ind (routeLine_ind ⟨fun x hx => hC.part x (List.mem_cons_of_mem _ (by revert x; decide))⟩ hb) hb

theorem risen_ind {s0 s : State} {ps : List Nat}
    (hC : Closed (ps.map (fun p => .reg (256 * p + 0x18)) ++ [.reg 0x154, .reg 0x178, .reg 0x2048, .sys, .rose, .queues,
        .pendg, .tens]) P) (h : P s) :
    P (State.risen s0 ps s) := by
  unfold State.risen forEach
  induction ps generalizing s with
  | nil => exact h
  | cons p t ih =>
    refine ih ⟨fun x hx => hC.part x (by simp_all)⟩ ?_
    refine ite_ind (raise_ind ⟨fun x hx => hC.part x ?_⟩ h) h
    rcases List.mem_cons.mp hx with rfl | hx
    · simp
    · exact List.mem_append_right _ hx

theorem setLoop_ind {s : Machine.State} {g : Nat} {l : Machine.Loop} (hC : Closed [.loops] P) (hs : P s) :
    P (State.setLoop s g l) := by
  unfold State.setLoop
  exact upd_loops (hC.mono (by decide)) hs

theorem putLoop_ind {s : State} {g : Nat} {l : Loop}
    (hC : Closed [.reg (256 * (g / 256) + 0x18), .loops, .reg 0x154, .reg 0x178, .reg 0x2048, .sys, .rose, .queues, .pendg,
        .tens] P) (h : P s) :
    P (s.putLoop g l) := by
  have h1 : P (s.setLoop g l) := setLoop_ind ⟨fun x hx => hC.part x (by simp_all)⟩ h
  refine ite_ind (raise_ind ⟨fun x hx => hC.part x ?_⟩ h1) h1
  rcases List.mem_cons.mp hx with rfl | hx
  · simp
  · exact List.mem_cons_of_mem _ (List.mem_cons_of_mem _ hx)

theorem satHigh_ind {s : State} {g : Nat}
    (hC : Closed [.reg (256 * (g / 256) + 0x18), .loops, .reg 0x154, .reg 0x178, .reg 0x2048, .sys, .rose, .queues, .pendg,
        .tens] P) (h : P s) :
    P (s.satHigh g) :=
  when_ind (fun _ h => putLoop_ind hC h) h

theorem loopUpdate_ind {s : Machine.State} {g : Nat} {r : Int} (hC : Closed [.loops, .regs, .sys, .rose, .queues, .pendg,
    .tens] P) (hs : P s) :
    P (State.loopUpdate s g r) := by
  unfold State.loopUpdate
  exact putLoop_ind (hC.mono rfl) hs

theorem loopCommitted_ind {s : Machine.State} {g : Nat} {home : Int} (hC : Closed [.loops, .regs, .sys, .rose, .queues,
    .pendg, .tens] P) (hs : P s) :
    P (State.loopCommitted s g home) := by
  unfold State.loopCommitted
  extract_lets -merge -underBinder n1
  refine ite_ind ?_ ?_
  · refine ite_ind ?_ ?_
    · exact putLoop_ind (hC.mono rfl) hs
    · refine ite_ind ?_ ?_
      · exact putLoop_ind (hC.mono rfl) hs
      · exact hs
  · exact putLoop_ind (hC.mono rfl) hs

theorem nvErase_ind {s : Machine.State} {pg : Nat} (hC : Closed [.reg 0x2618, .reg 0x154, .reg 0x178, .reg 0x2048, .sys,
    .rose, .queues, .pendg, .tens, .nv] P) (hs : P s) :
    P (State.nvErase s pg) := by
  unfold State.nvErase
  extract_lets -merge -underBinder n1 n2 z3
  have hz3 : P z3 := by
    unfold z3
    exact upd_nv (hC.mono (by decide)) hs
  refine ite_ind ?_ ?_
  · exact raise_ind (hC.mono (by decide)) hz3
  · exact hz3

theorem nvFail_ind {s : Machine.State} {pg : Nat} {cause : Nat} (hC : Closed [.reg 0x2644] P) (hs : P s) :
    P (State.nvFail s pg cause) := by
  unfold State.nvFail
  exact addSat_ind (hC.mono (by decide)) (setFld_ind (hC.mono (by decide)) (setFld_ind (hC.mono (by decide)) hs))

theorem nvUncorr_ind {s : Machine.State} {pg : Nat} (hC : Closed [.reg 0x2618, .reg 0x154, .reg 0x178, .reg 0x2048, .sys,
    .rose, .queues, .pendg, .tens, .reg 0x2648, .reg 0x2644] P) (hs : P s) :
    P (State.nvUncorr s pg) := by
  unfold State.nvUncorr
  exact raise_ind (hC.mono (by decide)) (addSat_ind (hC.mono (by decide)) (nvFail_ind (hC.mono (by decide)) hs))

theorem patchStand_ind {s : Machine.State} {l : List Byte} (hC : Closed [.nv] P) (hs : P s) :
    P (State.patchStand s l) := by
  unfold State.patchStand
  extract_lets -merge -underBinder n1
  exact upd_nv (hC.mono (by decide)) hs

theorem modUpdates_ind {s : Machine.State} {f : KeyUpdate → KeyUpdate} (hC : Closed [.tens] P) (hs : P s) :
    P (State.modUpdates s f) := by
  unfold State.modUpdates
  refine forEach_ind (fun _ _ hz1 => ?_) ?_
  · split
    · exact hz1
    · exact modTen_ind (hC.mono (by decide)) hz1
  · exact hs

theorem deferShow_ind {s : Machine.State} (hC : Closed [.reg 0x158] P) (hs : P s) :
    P (State.deferShow s) := by
  unfold State.deferShow
  extract_lets -merge -underBinder n1
  exact setFld_ind (hC.mono (by decide)) hs

theorem nvStart_ind {s : Machine.State} (hC : Closed [.reg 0x158, .stw] P) (hs : P s) :
    P (State.nvStart s) := by
  unfold State.nvStart
  extract_lets -merge -underBinder n1
  refine ite_ind ?_ ?_
  · exact hs
  · exact deferShow_ind (hC.mono (by decide)) (upd_stw (hC.mono (by decide)) hs)

theorem nvRequest_ind {s : Machine.State} {j : NvJob} (hC : Closed [.reg 0x158, .stw] P) (hs : P s) :
    P (State.nvRequest s j) := by
  unfold State.nvRequest
  extract_lets -merge -underBinder n1
  exact nvStart_ind (hC.mono (by decide)) (deferShow_ind (hC.mono (by decide)) (upd_stw (hC.mono (by decide)) hs))

theorem nvEnd_ind {s : Machine.State} (hC : Closed [.reg 0x158, .stw, .tens, .nv] P) (hs : P s) :
    P (State.nvEnd s) := by
  unfold State.nvEnd
  extract_lets -merge -underBinder n1 n2 n3 z4
  have hz4 : P z4 := by
    unfold z4
    have key5 : ∀ e, P e → ∀ v0 v1, P { e with stw := v0, nv := v1 } :=
      fun e he v0 _ => upd_nv (s := { e with stw := v0 }) (hC.mono (by decide)) (upd_stw (s := e) (hC.mono (by decide)) he)
    refine key5 _ ?_ _ _
    exact hs
  exact nvStart_ind (hC.mono (by decide)) (modUpdates_ind (hC.mono (by decide)) hz4)

theorem nvDrop_ind {s : Machine.State} (hC : Closed [.reg 0x2644, .reg 0x158, .stw, .nv] P) (hs : P s) :
    P (State.nvDrop s) := by
  unfold State.nvDrop
  extract_lets -merge -underBinder n1 n2
  refine nvFail_ind (hC.mono (by decide)) ?_
  refine deferShow_ind (hC.mono (by decide)) ?_
  have key3 : ∀ e, P e → ∀ v0 v1, P { e with stw := v0, nv := v1 } :=
    fun e he v0 _ => upd_nv (s := { e with stw := v0 }) (hC.mono (by decide)) (upd_stw (s := e) (hC.mono (by decide)) he)
  refine key3 _ ?_ _ _
  exact hs

theorem logEntry_ind {s : Machine.State} {ty : Nat} {sub : Nat} {aud : Nat} {level : Nat} {data : Nat} (hC : Closed [.reg
    0x2458, .reg 0x2418, .reg 0x154, .reg 0x178, .reg 0x2048, .sys, .rose, .queues, .pendg, .tens, .log, .reg 0x158, .stw] P)
    (hs : P s) :
    P (State.logEntry s ty sub aud level data) := by
  unfold State.logEntry
  extract_lets -merge -underBinder z1 n2 n3 n4
  have hz1 : P z1 := by
    exact addSat_ind (hC.mono (by decide)) hs
  refine ite_ind ?_ ?_
  · exact addSat_ind (hC.mono (by decide)) hs
  · refine ite_ind ?_ ?_
    · exact raise_ind (hC.mono (by decide)) (upd_log (hC.mono (by decide)) hz1)
    · exact nvRequest_ind (hC.mono (by decide)) (upd_log (hC.mono (by decide)) hs)

theorem logStore_ind {s : Machine.State} {seq : Nat} {bytes : List Byte} {good : Bool} (hC : Closed [.nv, .reg 0x2618, .reg
    0x154, .reg 0x178, .reg 0x2048, .sys, .rose, .queues, .pendg, .tens] P) (hs : P s) :
    P (State.logStore s seq bytes good) := by
  unfold State.logStore
  extract_lets -merge -underBinder n1 z2 n3 z4 n5
  have hz2 : P z2 := by
    exact nvErase_ind (hC.mono (by decide)) hs
  have hz4 : P z4 := by
    refine ite_ind ?_ ?_
    · exact upd_nv (hC.mono (by decide)) hz2
    · exact hs
  exact upd_nv (hC.mono (by decide)) hz4

theorem logForward_ind {s : Machine.State} {aud : Nat} {bytes : List Byte} (hC : Closed [.queues, .pendg, .reg 0x2048, .tens]
    P) (hs : P s) :
    P (State.logForward s aud bytes) := by
  unfold State.logForward
  refine forEach_ind (fun _ _ hz1 => ?_) ?_
  · refine ite_ind ?_ ?_
    · exact record_ind (hC.mono (by decide)) hz1
    · exact hz1
  · exact hs

theorem logWrite_ind {s : Machine.State} {e : LogPend} (hC : Closed [.queues, .pendg, .reg 0x2048, .tens, .reg 0x2458, .reg
    0x2444, .nv, .log, .reg 0x2618, .reg 0x154, .reg 0x178, .sys, .rose] P) (hs : P s) :
    P (State.logWrite s e) := by
  unfold State.logWrite
  extract_lets -merge -underBinder n1 n2 z3 n4 n5 z6
  have hz3 : P z3 := by
    exact logStore_ind (hC.mono (by decide)) hs
  have hz6 : P z6 := by
    unfold z6
    have key7 : ∀ e, P e → ∀ v0 v1, P { e with nv := v0, log := v1 } :=
      fun e he v0 _ => upd_log (s := { e with nv := v0 }) (hC.mono (by decide)) (upd_nv (s := e) (hC.mono (by decide)) he)
    refine key7 _ ?_ _ _
    exact hz3
  exact logForward_ind (hC.mono (by decide)) (addSat_ind (hC.mono (by decide)) (setFld_ind (hC.mono (by decide)) hz6))

theorem flyWrite_ind {s : Machine.State} {e : LogPend} {good : Bool} (hC : Closed [.reg 0x245c, .queues, .pendg, .reg 0x2048,
    .tens, .reg 0x2644, .reg 0x2440, .reg 0x2444, .nv, .log] P) (hs : P s) :
    P (State.flyWrite s e good) := by
  unfold State.flyWrite
  extract_lets -merge -underBinder n1 n2 n3 n4 n5 z6 z7
  have hz6 : P z6 := by
    unfold z6
    have key8 : ∀ e, P e → ∀ v0 v1, P { e with nv := v0, log := v1 } :=
      fun e he v0 _ => upd_log (s := { e with nv := v0 }) (hC.mono (by decide)) (upd_nv (s := e) (hC.mono (by decide)) he)
    refine key8 _ ?_ _ _
    exact hs
  have hz7 : P z7 := by
    exact setFld_ind (hC.mono (by decide)) (setFld_ind (hC.mono (by decide)) hz6)
  refine ite_ind ?_ ?_
  · exact hs
  · refine ite_ind ?_ ?_
    · exact addSat_ind (hC.mono (by decide)) hs
    · refine ite_ind ?_ ?_
      · exact logForward_ind (hC.mono (by decide)) hz7
      · exact nvFail_ind (hC.mono (by decide)) (setFld_ind (hC.mono (by decide)) hz7)

theorem poolMark_ind {s : Machine.State} (hC : Closed [.reg 0x2018, .reg 0x154, .reg 0x178, .reg 0x2048, .sys, .rose, .queues,
    .pendg, .tens] P) (hs : P s) :
    P (State.poolMark s) := by
  unfold State.poolMark
  extract_lets -merge -underBinder n1 z2
  have hz2 : P z2 := by
    exact putOn_ind (hC.mono (by decide)) hs
  refine ite_ind ?_ ?_
  · exact raise_ind (hC.mono (by decide)) hz2
  · exact hz2

theorem freeGran_ind {s : Machine.State} {t : Nat} {n : Nat} (hC : Closed [.sys, .rose, .queues, .pendg, .tens, .regs] P) (hs
    : P s) :
    P (State.freeGran s t n) := by
  unfold State.freeGran
  exact poolMark_ind (hC.mono (by decide)) (setFld_ind (hC.mono rfl) (setFld_ind (hC.mono rfl) hs))

theorem takeGran_ind {s : Machine.State} {t : Nat} {n : Nat} {res : Nat} (hC : Closed [.sys, .rose, .queues, .pendg, .tens,
    .regs] P) (hs : P s) :
    P (State.takeGran s t n res) := by
  unfold State.takeGran
  extract_lets -merge -underBinder n1
  exact poolMark_ind (hC.mono (by decide)) (setFld_ind (hC.mono rfl) (setFld_ind (hC.mono rfl) hs))

theorem flushLane_ind {s : Machine.State} {t : Nat} {l : Nat} {cause : Nat} (hC : Closed [.sys, .rose, .queues, .pendg, .tens,
    .regs, .hallmark, .lanes, .closed, .tx] P) (hs : P s) :
    P (State.flushLane s t l cause) := by
  unfold State.flushLane
  extract_lets -merge -underBinder n1 n2 n3 n4 n5 n6 n7 n8 z9 z10 z11 n12 z13 z14
  clear_value n6
  split
  · refine freeGran_ind (hC.mono (by decide)) ?_
    unfold z13
    refine upd_hallmark (hC.mono (by decide)) ?_
    refine modLane_ind (hC.mono (by decide)) ?_
    refine setClosed_ind (hC.mono (by decide)) ?_
    refine ite_ind ?_ ?_
    · refine forEach_ind (fun _ _ hz15 => ?_) ?_
      · exact setTx_ind (hC.mono (by decide)) hz15
      · exact hs
    · refine raise_ind (hC.mono (by decide)) ?_
      refine setFld_ind (hC.mono rfl) ?_
      refine forEach_ind (fun _ _ hz16 => ?_) ?_
      · exact setTx_ind (hC.mono (by decide)) hz16
      · exact hs
  · extract_lets -merge -underBinder n17
    refine setPend_ind (hC.mono (by decide)) ?_
    refine freeGran_ind (hC.mono (by decide)) ?_
    unfold z13
    refine upd_hallmark (hC.mono (by decide)) ?_
    refine modLane_ind (hC.mono (by decide)) ?_
    refine setClosed_ind (hC.mono (by decide)) ?_
    refine ite_ind ?_ ?_
    · refine forEach_ind (fun _ _ hz18 => ?_) ?_
      · exact setTx_ind (hC.mono (by decide)) hz18
      · exact hs
    · refine raise_ind (hC.mono (by decide)) ?_
      refine setFld_ind (hC.mono rfl) ?_
      refine forEach_ind (fun _ _ hz19 => ?_) ?_
      · exact setTx_ind (hC.mono (by decide)) hz19
      · exact hs

theorem zeroizeVolatile_ind {s : Machine.State} (hC : Closed [.stw, .asm, .env, .tens, .regs, .sys, .rose, .queues, .pendg,
    .hallmark, .lanes, .closed, .tx, .asy] P) (hs : P s) :
    P (State.zeroizeVolatile s) := by
  unfold State.zeroizeVolatile
  extract_lets -merge -underBinder z1 z2 z3 z4 z5
  have hz1 : P z1 := by
    exact setFld_ind (hC.mono (by decide)) hs
  have hz2 : P z2 := by
    refine forEach_ind (fun _ _ hz10 => ?_) ?_
    · exact flushQueue_ind (hC.mono (by decide)) hz10
    · exact setQueue_ind (hC.mono (by decide)) hz1
  have hz3 : P z3 := by
    refine forEach_ind (fun _ _ hz9 => ?_) ?_
    · exact flushLane_ind (hC.mono (by decide)) hz9
    · exact hz2
  have hz4 : P z4 := by
    refine forEach_ind (fun _ _ hz8 => ?_) ?_
    · refine ite_ind ?_ ?_
      · exact hz8
      · exact setFld_ind (hC.mono rfl) (setFld_ind (hC.mono rfl) hz8)
    · exact hz3
  have hz5 : P z5 := by
    refine forEach_ind (fun _ _ hz7 => ?_) ?_
    · exact modTen_ind (hC.mono (by decide)) hz7
    · exact hz4
  refine nvStart_ind (hC.mono (by decide)) ?_
  refine deferShow_ind (hC.mono (by decide)) ?_
  have key6 : ∀ e, P e → ∀ v0 v1, (State.mapsWf e = true → mapWf (fun _ => asm0) v0 = true) → P { e with asm := v0, env := v1
      } :=
    fun e he v0 _ w0 => upd_env (s := { e with asm := v0 }) (hC.mono (by decide)) (upd_asm (s := e) (hC.mono (by decide)) he
        w0)
  refine key6 _ ?_ _ _
    (by
      first
      | exact fun _ => rfl
      | exact fun h => mapWf_mapSet (mapsWf_asm h)
      | exact fun h => mapWf_filter (mapsWf_asm h))
  exact hz5

theorem hold_ind {s : Machine.State} {cls : Nat} {e : LogPend} (hC : Closed [.reset, .reg 0x2458, .log, .reg 0x245c, .queues,
    .pendg, .reg 0x2048, .tens, .reg 0x2644, .reg 0x2440, .reg 0x2444, .nv, .reg 0x2618, .reg 0x154, .reg 0x178, .sys, .rose]
    P) (hs : P s) :
    P (State.hold s cls e) := by
  unfold State.hold
  extract_lets -merge -underBinder n1 z2 n3 z4
  have hz2 : P z2 := by
    unfold z2
    exact upd_log (hC.mono (by decide)) hs
  have hz4 : P z4 := by
    refine ite_ind ?_ ?_
    · exact addSat_ind (hC.mono (by decide)) hz2
    · refine ite_ind ?_ ?_
      · exact upd_log (hC.mono (by decide)) hz2
      · refine ite_ind ?_ ?_
        · exact flyWrite_ind (hC.mono (by decide)) hz2
        · exact logWrite_ind (hC.mono (by decide)) hz2
  exact fullReset_ind (hC.mono (by decide)) hz4

theorem tamLast_ind {s : Machine.State} {cls : Nat} {level : Nat} {req : Nat} {page : Nat} {off : Nat} (hC : Closed [.reg
    0x234c] P) (hs : P s) :
    P (State.tamLast s cls level req page off) := by
  unfold State.tamLast
  exact setFld_ind (hC.mono (by decide)) (setFld_ind (hC.mono (by decide)) (setFld_ind (hC.mono (by decide)) (setFld_ind
      (hC.mono (by decide)) (setFld_ind (hC.mono (by decide)) hs))))

theorem tamEntry_ind {s : Machine.State} {was : Bool} {cls : Nat} {level : Nat} {aud : Nat} (hC : Closed [.reg 0x2458, .reg
    0x2418, .reg 0x154, .reg 0x178, .reg 0x2048, .sys, .rose, .queues, .pendg, .tens, .log, .reg 0x158, .stw, .tam] P) (hs : P
    s) :
    P (State.tamEntry s was cls level aud) := by
  unfold State.tamEntry
  extract_lets -merge -underBinder n1 n2
  refine ite_ind ?_ ?_
  · simp only [n2]
    exact upd_tam (hC.mono (by decide)) (logEntry_ind (hC.mono (by decide)) hs)
  · refine ite_ind ?_ ?_
    · simp only [n2]
      exact upd_tam (hC.mono (by decide)) (logEntry_ind (hC.mono (by decide)) hs)
    · exact hs

theorem occur_ind {cls : Nat} {req : Nat} {page : Nat} {off : Nat} {aud : Nat} {s : Machine.State} (hC : Closed [.reset, .log,
    .queues, .pendg, .tens, .nv, .sys, .rose, .stw, .asm, .env, .regs, .hallmark, .lanes, .closed, .tx, .asy, .tam] P) (hs : P
    s) :
    P (occur cls req page off aud s) := by
  unfold occur
  refine when_ind (fun _ hz1 => ?_) ?_
  · extract_lets -merge -underBinder n2 n3 z4 z5 z6 z7 z8 n9 z10 z11
    have hz4 : P z4 := by
      exact tamLast_ind (hC.mono (by decide)) (addSat_ind (hC.mono rfl) (setBit_ind (hC.mono (by decide)) hz1))
    have hz5 : P z5 := by
      refine ite_ind ?_ ?_
      · exact hz4
      · exact setBit_ind (hC.mono (by decide)) hz4
    have hz6 : P z6 := by
      exact risen_ind (hC.mono (by decide)) hz5
    have hz7 : P z7 := by
      exact tamEntry_ind (hC.mono (by decide)) hz6
    have hz8 : P z8 := by
      refine ite_ind ?_ ?_
      · exact raise_ind (hC.mono (by decide)) hz7
      · exact hz7
    have hz10 : P z10 := by
      refine ite_ind ?_ ?_
      · exact upd_sys (hC.mono (by decide)) rfl rfl hz8
      · exact hz8
    have hz11 : P z11 := by
      refine ite_ind ?_ ?_
      · exact setFld_ind (hC.mono (by decide)) hz10
      · exact hz10
    refine ite_ind ?_ ?_
    · exact hold_ind (hC.mono (by decide)) (zeroizeVolatile_ind (hC.mono (by decide)) hz6)
    · refine ite_ind ?_ ?_
      · exact zeroizeVolatile_ind (hC.mono (by decide)) hz11
      · exact hz11
  · exact hs

theorem logDead_ind {s : Machine.State} {sub : Nat} {seq : Nat} {failed : Option LogPend} (hC : Closed [.reset, .log, .queues,
    .pendg, .tens, .nv, .sys, .rose, .stw, .asm, .env, .regs, .hallmark, .lanes, .closed, .tx, .asy, .tam] P) (hs : P s) :
    P (State.logDead s sub seq failed) := by
  unfold State.logDead
  extract_lets -merge -underBinder z1 n2 z3 z4 n5
  have hz1 : P z1 := by
    exact raise_ind (hC.mono (by decide)) (setFld_ind (hC.mono (by decide)) hs)
  have hz3 : P z3 := by
    exact flyWrite_ind (hC.mono (by decide)) hz1
  have hz4 : P z4 := by
    unfold z4
    split
    · exact hz3
    · exact flyWrite_ind (hC.mono (by decide)) hz3
  exact occur_ind (hC.mono (by decide)) (upd_log (hC.mono (by decide)) hz4)

theorem logUnread_ind {s : Machine.State} {pg : Nat} {e : LogSlot} (hC : Closed [.reset, .log, .queues, .pendg, .tens, .nv,
    .sys, .rose, .stw, .asm, .env, .regs, .hallmark, .lanes, .closed, .tx, .asy, .tam] P) (hs : P s) :
    P (State.logUnread s pg e) := by
  unfold State.logUnread
  extract_lets -merge -underBinder z1
  have hz1 : P z1 := by
    exact nvUncorr_ind (hC.mono (by decide)) hs
  refine ite_ind ?_ ?_
  · exact hz1
  · exact logDead_ind (hC.mono (by decide)) hz1

theorem logForged_ind {s : Machine.State} {pg : Nat} (hC : Closed [.reset, .log, .queues, .pendg, .tens, .nv, .sys, .rose,
    .stw, .asm, .env, .regs, .hallmark, .lanes, .closed, .tx, .asy, .tam] P) (hs : P s) :
    P (State.logForged s pg) := by
  unfold State.logForged
  exact occur_ind (hC.mono (by decide)) (raise_ind (hC.mono (by decide)) (nvFail_ind (hC.mono (by decide)) hs))

theorem logChecked_ind {s : Machine.State} {pg : Nat} {e : LogSlot} (hC : Closed [.reset, .log, .queues, .pendg, .tens, .nv,
    .sys, .rose, .stw, .asm, .env, .regs, .hallmark, .lanes, .closed, .tx, .asy, .tam] P) (hs : P s) :
    P (State.logChecked s pg e) := by
  unfold State.logChecked
  refine ite_ind ?_ ?_
  · exact logUnread_ind (hC.mono (by decide)) hs
  · refine ite_ind ?_ ?_
    · exact hs
    · exact logForged_ind (hC.mono (by decide)) hs

theorem condEnd_ind {s : Machine.State} {cls : Nat} (hC : Closed [.reg 0x2344] P) (hs : P s) :
    P (State.condEnd s cls) := by
  unfold State.condEnd
  exact clrBit_ind (hC.mono (by decide)) hs

theorem probe_ind {s : Machine.State} {req : Nat} {page : Nat} {off : Nat} {aud : Nat} (hC : Closed [.reset, .log, .queues,
    .pendg, .tens, .nv, .sys, .rose, .stw, .asm, .env, .regs, .hallmark, .lanes, .closed, .tx, .asy, .tam] P) (hs : P s) :
    P (State.probe s req page off aud) := by
  unfold State.probe
  extract_lets -merge -underBinder z1 n2
  have hz1 : P z1 := by
    exact addSat_ind (hC.mono (by decide)) hs
  refine ite_ind ?_ ?_
  · exact occur_ind (hC.mono (by decide)) (upd_tam (hC.mono (by decide)) hz1)
  · exact hz1

theorem shadow_ind {s : Machine.State} {a : Nat} {aud : Nat} (hC : Closed [.reset, .log, .queues, .pendg, .tens, .nv, .sys,
    .rose, .stw, .asm, .env, .regs, .hallmark, .lanes, .closed, .tx, .asy, .tam] P) (hs : P s) :
    P (State.shadow s a aud) := by
  unfold State.shadow
  extract_lets -merge -underBinder n1 z2
  have hz2 : P z2 := by
    exact setFld_ind (hC.mono rfl) (addSat_ind (hC.mono rfl) (setFld_ind (hC.mono rfl) hs))
  exact occur_ind (hC.mono (by decide)) (raise_ind (hC.mono rfl) hz2)

end Sys2Proof.Machine
end

