-- ==== Sys2Proof/Laws/FramesClock.lean ====
section
/-! SUPPORT. What each operation may change: the descriptors and their triggers, the epochs, the timing floors, the clock and its gears, and the ports. A property closed under
those parts of the state holds after the operation if it held before. -/

namespace Sys2Proof.Machine

variable {P : State → Prop}

theorem psqSkip_ind {s : Machine.State} {port : Nat} {d : Nat} {cause : Nat} {detail : Option Nat} (hC : Closed [.reg 0x1818,
    .reg 0x154, .reg 0x178, .reg 0x2048, .sys, .rose, .queues, .pendg, .tens, .reg 0x1858, .descs] P) (hs : P s) :
    P (State.psqSkip s port d cause detail) := by
  unfold State.psqSkip
  extract_lets -merge -underBinder z1 z2
  have hz1 : P z1 := by
    exact modDesc_ind (hC.mono (by decide)) hs
  have hz2 : P z2 := by
    exact setPend_ind (hC.mono (by decide)) hz1
  exact raise_ind (hC.mono (by decide)) (addSat_ind (hC.mono (by decide)) hz2)

theorem psqSkips_ind {s : Machine.State} {d : Nat} {cause : Nat} {detail : Option Nat} {n : Nat} (hC : Closed [.reg 0x1818,
    .reg 0x154, .reg 0x178, .reg 0x2048, .sys, .rose, .queues, .pendg, .tens, .reg 0x1858, .descs] P) (hs : P s) :
    P (State.psqSkips s d cause detail n) := by
  unfold State.psqSkips
  extract_lets -merge -underBinder n1 z2 n3 n4 z5
  have hz2 : P z2 := by
    exact modDesc_ind (hC.mono (by decide)) hs
  have hz5 : P z5 := by
    exact setPend_ind (hC.mono (by decide)) hz2
  refine ite_ind ?_ ?_
  · exact hs
  · exact raise_ind (hC.mono (by decide)) (addSat_ind (hC.mono (by decide)) hz5)

theorem resetSkip_ind {s : Machine.State} {q : Nat} {p : Producer} {src : Nat} {ht : Nat} (hC : Closed [.pendg] P) (hs : P s) :
    P (State.resetSkip s q p src ht) := by
  unfold State.resetSkip
  exact setPend_ind (hC.mono (by decide)) hs

theorem psqReset_ind {s : Machine.State} {d : Nat} {n : Nat} (hC : Closed [.reg 0x1818, .reg 0x154, .reg 0x178, .reg 0x2048,
    .sys, .rose, .queues, .pendg, .tens, .reg 0x1858, .descs] P) (hs : P s) :
    P (State.psqReset s d n) := by
  unfold State.psqReset
  extract_lets -merge -underBinder n1 n2 n3 n4 z5 z6
  have hz5 : P z5 := by
    exact modDesc_ind (hC.mono (by decide)) hs
  have hz6 : P z6 := by
    exact setPend_ind (hC.mono (by decide)) hz5
  refine ite_ind ?_ ?_
  · exact hs
  · exact raise_ind (hC.mono (by decide)) (addSat_ind (hC.mono (by decide)) hz6)

theorem passGaps_ind {s : Machine.State} {p : Nat} (hC : Closed [.reg 0x2048, .queues, .pendg] P) (hs : P s) :
    P (State.passGaps s p) := by
  unfold State.passGaps
  split
  · refine forEach_ind (fun _ _ hz1 => ?_) ?_
    · exact forwardGap_ind (hC.mono (by decide)) hz1
    · exact setQueue_ind (hC.mono (by decide)) hs
  · exact hs

theorem psqGaps_ind {s : Machine.State} {p : Nat} (hC : Closed [.reg 0x2048, .queues, .pendg] P) (hs : P s) :
    P (State.psqGaps s p) := by
  unfold State.psqGaps
  extract_lets -merge -underBinder n1 n2
  refine ite_ind ?_ ?_
  · exact passGaps_ind (hC.mono (by decide)) (addSat_ind (hC.mono (by decide)) (push_ind (hC.mono (by decide)) (setPend_ind
      (hC.mono (by decide)) hs)))
  · exact hs

theorem withdraw_ind {s : Machine.State} {d : Nat} {cause : Nat} {detail : Option Nat} (hC : Closed [.reg 0x1818, .reg 0x154,
    .reg 0x178, .reg 0x2048, .sys, .rose, .queues, .pendg, .tens, .reg 0x1858, .descs] P) (hs : P s) :
    P (State.withdraw s d cause detail) := by
  unfold State.withdraw
  split
  · exact hs
  · exact psqSkip_ind (hC.mono (by decide)) (modDesc_ind (hC.mono (by decide)) hs)

theorem withdrawAll_ind {s : Machine.State} {hit : Nat → Desc → Bool} {cause : Nat} {detail : Option Nat} (hC : Closed [.reg
    0x1818, .reg 0x154, .reg 0x178, .reg 0x2048, .sys, .rose, .queues, .pendg, .tens, .reg 0x1858, .descs] P) (hs : P s) :
    P (State.withdrawAll s hit cause detail) := by
  unfold State.withdrawAll
  refine forEach_ind (fun _ _ hz1 => ?_) ?_
  · refine ite_ind ?_ ?_
    · exact withdraw_ind (hC.mono (by decide)) hz1
    · exact hz1
  · exact hs

theorem recall_ind {s : Machine.State} {p : Nat} {cause : Nat} {detail : Option Nat} (hC : Closed [.reg 0x1818, .reg 0x154,
    .reg 0x178, .reg 0x2048, .sys, .rose, .queues, .pendg, .tens, .reg 0x1858, .descs] P) (hs : P s) :
    P (State.recall s p cause detail) := by
  unfold State.recall
  refine forEach_ind (fun _ _ hz1 => ?_) ?_
  · split
    · exact psqSkip_ind (hC.mono (by decide)) hz1
    · exact hz1
  · exact setQueue_ind (hC.mono (by decide)) hs

theorem checkPorts_ind {s : Machine.State} {ps : List Nat} (hC : Closed [.reg 0x1818, .reg 0x154, .reg 0x178, .reg 0x2048,
    .sys, .rose, .queues, .pendg, .tens, .reg 0x1858, .descs] P) (hs : P s) :
    P (State.checkPorts s ps) := by
  unfold State.checkPorts
  refine forEach_ind (fun _ _ hz1 => ?_) ?_
  · split
    · exact hz1
    · exact recall_ind (hC.mono (by decide)) (withdrawAll_ind (hC.mono (by decide)) hz1)
  · exact hs

theorem trigger_ind {s : Machine.State} {d : Nat} {join : Option (Nat × Nat)} (hC : Closed [.reg 0x1818, .reg 0x154, .reg
    0x178, .reg 0x2048, .sys, .rose, .queues, .pendg, .tens, .reg 0x1858, .descs] P) (hs : P s) :
    P (State.trigger s d join) := by
  unfold State.trigger
  extract_lets -merge -underBinder n1 n2 z3 n4
  have hz3 : P z3 := by
    exact modDesc_ind (hC.mono (by decide)) hs
  refine ite_ind ?_ ?_
  · exact psqReset_ind (hC.mono (by decide)) hz3
  · split
    · exact psqSkip_ind (hC.mono (by decide)) hz3
    · split
      · exact modDesc_ind (hC.mono (by decide)) hz3
      · refine ite_ind ?_ ?_
        · exact psqSkip_ind (hC.mono (by decide)) (modDesc_ind (hC.mono (by decide)) hz3)
        · exact psqSkip_ind (hC.mono (by decide)) hz3

theorem arm_ind {s : Machine.State} {d : Nat} {fresh : Bool} (hC : Closed [.descs] P) (hs : P s) :
    P (State.arm s d fresh) := by
  unfold State.arm
  exact modDesc_ind (hC.mono (by decide)) hs

theorem complete_ind {s : Machine.State} {d : Nat} {ok : Bool} (hC : Closed [.chainDue] P) (hs : P s) :
    P (State.complete s d ok) := by
  unfold State.complete
  extract_lets -merge -underBinder n1
  exact upd_chainDue (hC.mono (by decide)) hs

theorem shareTurn_ind {s : State} (hC : Closed [.charge, .chargeLast] P) (h : P s) : P s.shareTurn :=
  upd_charge (s := { s with chargeLast := if s.shareNow + 1 = shareWindow s.ht then s.charge else [] }) (hC.mono (by decide))
    (upd_chargeLast (hC.mono (by decide)) h (fun hw => by split; exact mapsWf_charge hw; exact rfl))
    (fun _ => mapWf_mapSet mapWf_nil)

theorem chargeAdd_ind {s0 : Machine.State} {p : Nat} {t : Nat} {taken : Nat} {n : Nat} (hC : Closed [.charge, .chargeLast] P)
    (hs0 : P s0) :
    P (State.chargeAdd s0 p t taken n) := by
  unfold State.chargeAdd
  extract_lets -merge -underBinder z1 n2
  have hz1 : P z1 := by
    refine when_ind (fun _ hz3 => ?_) ?_
    · exact shareTurn_ind (hC.mono (by decide)) hz3
    · exact hs0
  refine ite_ind ?_ ?_
  · exact upd_charge (hC.mono (by decide)) hz1
  · refine ite_ind ?_ ?_
    · exact upd_chargeLast (hC.mono (by decide)) hz1
    · exact hz1

theorem chargeShare_ind {s : Machine.State} {p : Nat} {t : Nat} {taken : Nat} (hC : Closed [.charge, .chargeLast] P) (hs : P
    s) :
    P (State.chargeShare s p t taken) := by
  unfold State.chargeShare
  exact chargeAdd_ind (hC.mono (by decide)) hs

theorem place_ind {s : Machine.State} {d : Nat} {r : Request} (hC : Closed [.descs, .loops, .reg 0x1818, .reg 0x154, .reg
    0x178, .reg 0x2048, .sys, .rose, .queues, .pendg, .tens] P) (hs : P s) :
    P (State.place s d r) := by
  unfold State.place
  extract_lets -merge -underBinder n1 n2 n3 n4
  refine ite_ind ?_ ?_
  · split
    · extract_lets -merge -underBinder n5 n6 n7 n8
      exact modDesc_ind (hC.mono (by decide)) (putLoop_ind (hC.mono (by decide)) hs)
  · exact hs

theorem execDispatch_ind {s : Machine.State} (hC : Closed [.reg 0x1854, .queues, .descs, .loops, .reg 0x1818, .reg 0x154, .reg
    0x178, .reg 0x2048, .sys, .rose, .pendg, .tens] P) (hs : P s) :
    Answers (execDispatch s) P := by
  unfold execDispatch
  refine answers_next ?_
  refine when_ind (fun _ hz1 => ?_) ?_
  · split
    · exact hz1
    · extract_lets -merge -underBinder n2 z3 z4
      have hz3 : P z3 := by
        exact setPend_ind (hC.mono (by decide)) hz1
      have hz4 : P z4 := by
        exact place_ind (hC.mono (by decide)) (psqGaps_ind (hC.mono (by decide)) hz3)
      exact addSat_ind (hC.mono (by decide)) (push_ind (hC.mono (by decide)) (modDesc_ind (hC.mono (by decide)) hz4))
  · exact hs

theorem execTimeTrigger_ind {d : Nat} {s : Machine.State} (hC : Closed [.reg 0x1818, .reg 0x154, .reg 0x178, .reg 0x2048,
    .sys, .rose, .queues, .pendg, .tens, .reg 0x1858, .descs] P) (hs : P s) :
    Answers (execTimeTrigger d s) P := by
  unfold execTimeTrigger
  extract_lets -merge -underBinder n1
  refine answers_next ?_
  refine when_ind (fun _ hz2 => ?_) ?_
  · exact trigger_ind (hC.mono (by decide)) (modDesc_ind (hC.mono (by decide)) hz2)
  · exact hs

theorem execChainTrigger_ind {d : Nat} {s : Machine.State} (hC : Closed [.reg 0x1818, .reg 0x154, .reg 0x178, .reg 0x2048,
    .sys, .rose, .queues, .pendg, .tens, .reg 0x1858, .descs, .chainDue] P) (hs : P s) :
    Answers (execChainTrigger d s) P := by
  unfold execChainTrigger
  extract_lets -merge -underBinder n1
  refine answers_next ?_
  refine when_ind (fun _ hz2 => ?_) ?_
  · exact trigger_ind (hC.mono (by decide)) (upd_chainDue (hC.mono (by decide)) hz2)
  · exact hs

theorem execJitDeadline_ind {d : Nat} {s : Machine.State} (hC : Closed [.reg 0x1818, .reg 0x154, .reg 0x178, .reg 0x2048,
    .sys, .rose, .queues, .pendg, .tens, .reg 0x1858, .descs] P) (hs : P s) :
    Answers (execJitDeadline d s) P := by
  unfold execJitDeadline
  refine answers_next ?_
  refine when_ind (fun _ hz1 => ?_) ?_
  · split
    · exact hz1
    · split
      · exact hz1
      · refine ite_ind ?_ ?_
        · exact withdraw_ind (hC.mono (by decide)) hz1
        · exact hz1
  · exact hs

theorem lineEvent_ind {s : Machine.State} {line : Nat} {join : Option (Nat × Nat)} (hC : Closed [.reg 0x1818, .reg 0x154, .reg
    0x178, .reg 0x2048, .sys, .rose, .queues, .pendg, .tens, .reg 0x1858, .descs] P) (hs : P s) :
    P (State.lineEvent s line join) := by
  unfold State.lineEvent
  refine forEach_ind (fun _ _ hz1 => ?_) ?_
  · extract_lets -merge -underBinder n2
    refine ite_ind ?_ ?_
    · exact trigger_ind (hC.mono (by decide)) hz1
    · exact hz1
  · exact hs

theorem execShareWindowEnd_ind {s : Machine.State} (hC : Closed [.charge, .chargeLast] P) (hs : P s) :
    Answers (execShareWindowEnd s) P := by
  unfold execShareWindowEnd
  refine answers_next ?_
  refine when_ind (fun _ hz1 => ?_) ?_
  · exact shareTurn_ind (hC.mono (by decide)) hz1
  · exact hs

theorem putOfs_ind {s : Machine.State} {o : Option Nat} (hC : Closed [.reg 0x544, .reg 0x558, .reg 0x554, .rck] P) (hs : P s) :
    P (State.putOfs s o) := by
  unfold State.putOfs
  extract_lets -merge -underBinder n1 z2
  have hz2 : P z2 := by
    unfold z2
    exact upd_rck (hC.mono (by decide)) hs
  exact putOn_ind (hC.mono (by decide)) (setFld_ind (hC.mono (by decide)) (setFld_ind (hC.mono (by decide)) hz2))

theorem setUnsent_ind {s : Machine.State} {t : Nat} {l : List Item} (hC : Closed [.rck] P) (hs : P s) :
    P (State.setUnsent s t l) := by
  unfold State.setUnsent
  extract_lets -merge -underBinder n1
  exact upd_rck (hC.mono (by decide)) hs

theorem epochUnsent_ind {s : Machine.State} {t : Nat} {i : Item} (hC : Closed [.rck, .pendg] P) (hs : P s) :
    P (State.epochUnsent s t i) := by
  unfold State.epochUnsent
  extract_lets -merge -underBinder n1
  refine ite_ind ?_ ?_
  · exact setUnsent_ind (hC.mono (by decide)) hs
  · exact skip_ind (hC.mono (by decide)) (setUnsent_ind (hC.mono (by decide)) hs)

theorem epochRecord_ind {s : Machine.State} {kind : Nat} {source : Nat} {seq : Nat} {before : Nat} {after : Nat} (hC : Closed
    [.rck, .pendg] P) (hs : P s) :
    P (State.epochRecord s kind source seq before after) := by
  unfold State.epochRecord
  extract_lets -merge -underBinder n1
  refine forEach_ind (fun _ _ hz2 => ?_) ?_
  · refine ite_ind ?_ ?_
    · exact epochUnsent_ind (hC.mono (by decide)) hz2
    · exact hz2
  · exact hs

theorem openEpoch_ind {s : Machine.State} {kind : Nat} {source : Nat} {seq : Nat} {o : Option Nat} (hC : Closed [.reg 0x144,
    .reg 0x518, .reg 0x154, .reg 0x178, .reg 0x2048, .sys, .rose, .queues, .pendg, .tens, .reg 0x544, .rck, .reg 0x558, .reg
    0x554, .reg 0x550] P) (hs : P s) :
    P (State.openEpoch s kind source seq o) := by
  unfold State.openEpoch
  extract_lets -merge -underBinder n1 n2 z3 n4 z5 z6
  have hz3 : P z3 := by
    exact putOfs_ind (hC.mono (by decide)) (setFld_ind (hC.mono (by decide)) hs)
  have hz5 : P z5 := by
    unfold z5
    exact upd_rck (hC.mono (by decide)) hz3
  have hz6 : P z6 := by
    exact raise_ind (hC.mono (by decide)) (epochRecord_ind (hC.mono (by decide)) hz5)
  refine ite_ind ?_ ?_
  · exact hs
  · refine ite_ind ?_ ?_
    · exact setFld_ind (hC.mono (by decide)) (raise_ind (hC.mono (by decide)) (setFld_ind (hC.mono (by decide)) hz6))
    · exact hz6

theorem execEpochRecordEnqueue_ind {t : Nat} {s : Machine.State} (hC : Closed [.queues, .pendg, .reg 0x2048, .tens, .rck] P)
    (hs : P s) :
    Answers (execEpochRecordEnqueue t s) P := by
  unfold execEpochRecordEnqueue
  refine answers_next ?_
  refine when_ind (fun _ hz1 => ?_) ?_
  · split
    · exact hz1
    · extract_lets -merge -underBinder n2
      refine ite_ind ?_ ?_
      · exact intake_ind (hC.mono (by decide)) (modTen_ind (hC.mono (by decide)) (setUnsent_ind (hC.mono (by decide)) hz1))
      · exact drain_ind (hC.mono (by decide)) hz1
  · exact hs

theorem putFloor_ind {s : Machine.State} {h : Nat} {g : Option Nat} (hC : Closed [.reg 0x250, .clk] P) (hs : P s) :
    P (State.putFloor s h g) := by
  unfold State.putFloor
  extract_lets -merge -underBinder n1 n2 z3
  have hz3 : P z3 := by
    unfold z3
    exact upd_clk (hC.mono (by decide)) hs
  exact setFld_ind (hC.mono (by decide)) (setFld_ind (hC.mono (by decide)) hz3)

theorem floorStat_ind {s : Machine.State} (hC : Closed [.reg 0x418, .reg 0x154, .reg 0x178, .reg 0x2048, .sys, .rose, .queues,
    .pendg, .tens, .reg 0x478, .reg 0x474] P) (hs : P s) :
    P (State.floorStat s) := by
  unfold State.floorStat
  extract_lets -merge -underBinder n1 n2 z3 z4
  have hz3 : P z3 := by
    exact putOn_ind (hC.mono (by decide)) (setFld_ind (hC.mono (by decide)) (setFld_ind (hC.mono (by decide)) hs))
  have hz4 : P z4 := by
    exact putOn_ind (hC.mono (by decide)) (putOn_ind (hC.mono (by decide)) hz3)
  refine ite_ind ?_ ?_
  · exact raise_ind (hC.mono (by decide)) (risen_ind (hC.mono (by decide)) hz4)
  · exact hz4

theorem setLearned_ind {s : Machine.State} {g : Nat} {c : Nat} (hC : Closed [.pln] P) (hs : P s) :
    P (State.setLearned s g c) := by
  unfold State.setLearned
  extract_lets -merge -underBinder n1
  exact upd_pln (hC.mono (by decide)) hs

theorem applyCode_ind {s : Machine.State} {g : Nat} (hC : Closed [.reg 0x354, .loops] P) (hs : P s) :
    P (State.applyCode s g) := by
  unfold State.applyCode
  extract_lets -merge -underBinder n1 n2
  refine ite_ind ?_ ?_
  · exact setFld_ind (hC.mono (by decide)) hs
  · exact setFld_ind (hC.mono (by decide)) (setLoop_ind (hC.mono (by decide)) hs)

theorem holdGear_ind {s : Machine.State} {h : Nat} (hC : Closed [.reg 0x248, .clk] P) (hs : P s) :
    P (State.holdGear s h) := by
  unfold State.holdGear
  extract_lets -merge -underBinder n1 z2
  have hz2 : P z2 := by
    exact setFld_ind (hC.mono (by decide)) (upd_clk (hC.mono (by decide)) hs)
  refine ite_ind ?_ ?_
  · exact hz2
  · exact setFld_ind (hC.mono (by decide)) hz2

theorem dropHeld_ind {s : Machine.State} (hC : Closed [.reg 0x248, .clk] P) (hs : P s) :
    P (State.dropHeld s) := by
  unfold State.dropHeld
  extract_lets -merge -underBinder n1 z2
  have hz2 : P z2 := by
    exact setFld_ind (hC.mono (by decide)) (upd_clk (hC.mono (by decide)) hs)
  refine ite_ind ?_ ?_
  · exact hz2
  · exact setFld_ind (hC.mono (by decide)) hz2

theorem switchTo_ind {s : Machine.State} {h : Nat} (hC : Closed [.reg 0x254, .reg 0x248] P) (hs : P s) :
    P (State.switchTo s h) := by
  unfold State.switchTo
  extract_lets -merge -underBinder z1
  have hz1 : P z1 := by
    exact setFld_ind (hC.mono (by decide)) (setFld_ind (hC.mono (by decide)) hs)
  exact setFld_ind (hC.mono (by decide)) hz1

theorem upRefused_ind {s : Machine.State} {holdover : Bool} (hC : Closed [.reg 0x25c, .loops, .reg 0x418, .reg 0x154, .reg
    0x178, .reg 0x2048, .sys, .rose, .queues, .pendg, .tens] P) (hs : P s) :
    P (State.upRefused s holdover) := by
  unfold State.upRefused
  extract_lets -merge -underBinder z1
  have hz1 : P z1 := by
    exact satHigh_ind (hC.mono (by decide)) hs
  refine ite_ind ?_ ?_
  · exact setFld_ind (hC.mono (by decide)) hz1
  · exact hz1

theorem gearRequest_ind {s : Machine.State} {h : Nat} (hC : Closed [.reg 0x248, .clk, .reg 0x25c, .loops, .reg 0x418, .reg
    0x154, .reg 0x178, .reg 0x2048, .sys, .rose, .queues, .pendg, .tens, .reg 0x254, .reg 0x454] P) (hs : P s) :
    P (State.gearRequest s h) := by
  unfold State.gearRequest
  extract_lets -merge -underBinder z1 n2
  have hz1 : P z1 := by
    exact setFld_ind (hC.mono (by decide)) (setFld_ind (hC.mono (by decide)) (setFld_ind (hC.mono (by decide)) (dropHeld_ind
        (hC.mono (by decide)) hs)))
  refine ite_ind ?_ ?_
  · refine ite_ind ?_ ?_
    · exact dropHeld_ind (hC.mono (by decide)) hs
    · exact holdGear_ind (hC.mono (by decide)) hs
  · refine ite_ind ?_ ?_
    · exact dropHeld_ind (hC.mono (by decide)) hs
    · refine ite_ind ?_ ?_
      · refine ite_ind ?_ ?_
        · exact upRefused_ind (hC.mono (by decide)) hs
        · refine ite_ind ?_ ?_
          · refine ite_ind ?_ ?_
            · exact upRefused_ind (hC.mono (by decide)) hs
            · exact switchTo_ind (hC.mono (by decide)) (dropHeld_ind (hC.mono (by decide)) hs)
          · refine ite_ind ?_ ?_
            · exact upd_clk (hC.mono (by decide)) hz1
            · exact switchTo_ind (hC.mono (by decide)) (dropHeld_ind (hC.mono (by decide)) hs)
      · refine ite_ind ?_ ?_
        · exact holdGear_ind (hC.mono (by decide)) hs
        · exact switchTo_ind (hC.mono (by decide)) (dropHeld_ind (hC.mono (by decide)) hs)

theorem regear_ind {s : Machine.State} (hC : Closed [.reg 0x248, .clk, .reg 0x418, .reg 0x154, .reg 0x178, .reg 0x2048, .sys,
    .rose, .queues, .pendg, .tens, .reg 0x478, .reg 0x474, .reg 0x25c, .loops, .reg 0x254, .reg 0x454] P) (hs : P s) :
    P (State.regear s) := by
  unfold State.regear
  extract_lets -merge -underBinder z1 z2 n3
  have hz1 : P z1 := by
    exact floorStat_ind (hC.mono (by decide)) hs
  have hz2 : P z2 := by
    exact gearRequest_ind (hC.mono (by decide)) hz1
  refine ite_ind ?_ ?_
  · refine ite_ind ?_ ?_
    · exact holdGear_ind (hC.mono (by decide)) hz2
    · exact hz2
  · exact floorStat_ind (hC.mono (by decide)) hs

theorem setFloor_ind {s : Machine.State} {h : Nat} {g : Option Nat} (hC : Closed [.reg 0x248, .clk, .reg 0x418, .reg 0x154,
    .reg 0x178, .reg 0x2048, .sys, .rose, .queues, .pendg, .tens, .reg 0x478, .reg 0x474, .reg 0x25c, .loops, .reg 0x254, .reg
    0x454, .reg 0x250] P) (hs : P s) :
    P (State.setFloor s h g) := by
  unfold State.setFloor
  exact regear_ind (hC.mono (by decide)) (putFloor_ind (hC.mono (by decide)) hs)

theorem runState_ind {s : State} (hC : Closed [.reg 0x140, .mode] P) (hr : s.sys.phase = .running) (h : P s) :
    P s.runState := by
  unfold State.runState
  refine setFld_ind (hC.mono (by decide)) (hC.part .mode (by simp) s _ ?_ h)
  intro
  simp only [hr]
  split <;> rfl

theorem switched_ind {s : Machine.State} (hC : Closed [.reg 0x218, .reg 0x154, .reg 0x178, .reg 0x2048, .sys, .rose, .queues,
    .pendg, .tens, .reg 0x354, .loops, .pln, .reg 0x260, .reg 0x254, .reg 0x248] P) (hs : P s) :
    P (State.switched s) := by
  unfold State.switched
  extract_lets -merge -underBinder n1 z2 n3 z4
  have hz2 : P z2 := by
    exact addSat_ind (hC.mono (by decide)) (setFld_ind (hC.mono (by decide)) (setFld_ind (hC.mono (by decide)) (setFld_ind
        (hC.mono (by decide)) hs)))
  have hz4 : P z4 := by
    exact applyCode_ind (hC.mono (by decide)) (upd_pln (hC.mono (by decide)) hz2)
  exact raise_ind (hC.mono (by decide)) hz4

theorem execVcoreRampDone_ind {s : Machine.State} (hC : Closed [.reg 0x254, .reg 0x248, .reg 0x354, .loops, .clk, .reg 0x454]
    P) (hs : P s) :
    Answers (execVcoreRampDone s) P := by
  unfold execVcoreRampDone
  refine answers_next ?_
  refine when_ind (fun _ hz1 => ?_) ?_
  · split
    · exact hz1
    · extract_lets -merge -underBinder z2 n3
      have hz2 : P z2 := by
        exact setFld_ind (hC.mono (by decide)) (setFld_ind (hC.mono (by decide)) hz1)
      exact switchTo_ind (hC.mono (by decide)) (applyCode_ind (hC.mono (by decide)) (upd_clk (hC.mono (by decide)) hz2))
  · exact hs

theorem synthOff_ind {s : Machine.State} (hC : Closed [.reg 0x244] P) (hs : P s) :
    P (State.synthOff s) := by
  unfold State.synthOff
  exact setFld_ind (hC.mono (by decide)) (setFld_ind (hC.mono (by decide)) hs)

theorem execGearSwitchDone_ind {s : State}
    (hC : Closed [.reg 0x260, .reg 0x254, .reg 0x248, .reg 0x354, .loops, .pln, .reg 0x218, .reg 0x154, .reg 0x178, .reg
        0x2048, .sys, .rose, .queues, .pendg, .tens, .reg 0x474, .reg 0x478, .reg 0x418, .reg 0x454, .clk, .reg 0x25c, .reg
        0x140, .mode, .reg 0x244] P) (h : P s) : Answers (execGearSwitchDone s) P := by
  unfold execGearSwitchDone
  refine answers_next (when_ind (fun s hs => ?_) h)
  have h1 : P s.switched := switched_ind (hC.mono (by decide)) hs
  refine ite_ind (synthOff_ind (hC.mono (by decide)) h1) (ite_with (fun hr => ?_) (fun _ => h1))
  have h2 := runState_ind (hC.mono (by decide)) hr h1
  dsimp only
  split
  · exact regear_ind (hC.mono (by decide)) (dropHeld_ind (hC.mono (by decide)) h2)
  · exact regear_ind (hC.mono (by decide)) (gearRequest_ind (hC.mono (by decide)) (dropHeld_ind (hC.mono (by decide)) h2))

theorem execSynthLock_ind {s : Machine.State} (hC : Closed [.reg 0x254, .reg 0x248, .reg 0x244] P) (hs : P s) :
    Answers (execSynthLock s) P := by
  unfold execSynthLock
  refine answers_next ?_
  refine when_ind (fun _ hz1 => ?_) ?_
  · exact switchTo_ind (hC.mono (by decide)) (setFld_ind (hC.mono (by decide)) (setFld_ind (hC.mono (by decide)) hz1))
  · exact hs

theorem holdFlags_ind {s : Machine.State} (hC : Closed [.reg 0x544, .reg 0x244] P) (hs : P s) :
    P (State.holdFlags s) := by
  unfold State.holdFlags
  exact setFld_ind (hC.mono (by decide)) (setFld_ind (hC.mono (by decide)) hs)

theorem holdFrom_ind {s0 : Machine.State} {s : Machine.State} (hC : Closed [.reset, .log, .queues, .pendg, .tens, .nv, .sys,
    .rose, .stw, .asm, .env, .regs, .hallmark, .lanes, .closed, .tx, .asy, .tam] P) (hs : P s) :
    P (State.holdFrom s0 s) := by
  unfold State.holdFrom
  exact occur_ind (hC.mono (by decide)) (risen_ind (hC.mono (by decide)) hs)

theorem holdover_ind {s : Machine.State} (hC : Closed [.reset, .log, .queues, .pendg, .tens, .nv, .sys, .rose, .stw, .asm,
    .env, .regs, .hallmark, .lanes, .closed, .tx, .asy, .tam] P) (hs : P s) :
    P (State.holdover s) := by
  unfold State.holdover
  exact holdFrom_ind (hC.mono (by decide)) (holdFlags_ind (hC.mono (by decide)) hs)

theorem unlock_ind {s : Machine.State} (hC : Closed [.reg 0x244] P) (hs : P s) :
    P (State.unlock s) := by
  unfold State.unlock
  refine ite_ind ?_ ?_
  · exact addSat_ind (hC.mono (by decide)) (setFld_ind (hC.mono (by decide)) hs)
  · exact hs

theorem freeRun_ind {s : Machine.State} (hC : Closed [.sys, .reg 0x218, .reg 0x154, .reg 0x178, .reg 0x2048, .rose, .queues,
    .pendg, .tens, .reg 0x354, .loops, .pln, .reg 0x260, .reg 0x254, .reg 0x248, .reg 0x25c, .reg 0x244] P) (hs : P s) :
    P (State.freeRun s) := by
  unfold State.freeRun
  extract_lets -merge -underBinder z1 z2
  have hz1 : P z1 := by
    exact setFld_ind (hC.mono (by decide)) (setFld_ind (hC.mono (by decide)) (setFld_ind (hC.mono (by decide)) (unlock_ind
        (hC.mono (by decide)) hs)))
  have hz2 : P z2 := by
    refine setFld_ind (hC.mono (by decide)) ?_
    refine ite_ind ?_ ?_
    · exact switched_ind (hC.mono (by decide)) hz1
    · exact hz1
  exact modSys_ind (hC.mono (by decide)) rfl rfl (switched_ind (hC.mono (by decide)) hz2)

theorem execLockLost_ind {s : Machine.State} (hC : Closed [.reset, .log, .queues, .pendg, .tens, .nv, .sys, .rose, .stw, .asm,
    .env, .regs, .hallmark, .lanes, .closed, .tx, .asy, .tam] P) (hs : P s) :
    Answers (execLockLost s) P := by
  unfold execLockLost
  refine answers_next ?_
  refine when_ind (fun _ hz1 => ?_) ?_
  · exact holdover_ind (hC.mono (by decide)) (raise_ind (hC.mono (by decide)) (setFld_ind (hC.mono (by decide)) (unlock_ind
      (hC.mono (by decide)) hz1)))
  · exact hs

theorem execLockRegained_ind {s : Machine.State} (hC : Closed [.reg 0x248, .clk, .reg 0x418, .reg 0x154, .reg 0x178, .reg
    0x2048, .sys, .rose, .queues, .pendg, .tens, .reg 0x478, .reg 0x474, .reg 0x25c, .loops, .reg 0x254, .reg 0x454, .reg
    0x144, .reg 0x518, .reg 0x544, .rck, .reg 0x558, .reg 0x554, .reg 0x550, .reg 0x2344, .reg 0x258, .reg 0x244] P) (hs : P
    s) :
    Answers (execLockRegained s) P := by
  unfold execLockRegained
  refine answers_next ?_
  refine when_ind (fun _ hz1 => ?_) ?_
  · extract_lets -merge -underBinder n2 z3 z4 z5
    have hz3 : P z3 := by
      exact setFld_ind (hC.mono (by decide)) (setFld_ind (hC.mono (by decide)) (setFld_ind (hC.mono (by decide)) hz1))
    have hz4 : P z4 := by
      exact condEnd_ind (hC.mono (by decide)) (setFld_ind (hC.mono (by decide)) (setFld_ind (hC.mono (by decide)) hz3))
    have hz5 : P z5 := by
      refine ite_ind ?_ ?_
      · exact openEpoch_ind (hC.mono (by decide)) hz4
      · exact hz4
    exact regear_ind (hC.mono (by decide)) hz5
  · exact hs

theorem setXfer_ind {s : Machine.State} {p : Nat} {x : Option Xfer} (hC : Closed [.ports] P) (hs : P s) :
    P (State.setXfer s p x) := by
  unfold State.setXfer
  exact modPrt_ind (hC.mono (by decide)) hs

theorem portFault_ind {s : Machine.State} {p : Nat} {b : Nat} (hC : Closed [.regs, .sys, .rose, .queues, .pendg, .tens] P) (hs
    : P s) :
    P (State.portFault s p b) := by
  unfold State.portFault
  refine ite_ind ?_ ?_
  · exact hs
  · exact raise_ind (hC.mono rfl) (setBit_ind (hC.mono rfl) hs)

theorem portState_ind {s : Machine.State} {p : Nat} {v : Nat} (hC : Closed [.regs] P) (hs : P s) :
    P (State.portState s p v) := by
  unfold State.portState
  refine ite_ind ?_ ?_
  · exact setFld_ind (hC.mono rfl) hs
  · exact setFld_ind (hC.mono rfl) hs

theorem portTarget_ind {s : Machine.State} {p : Nat} {ws : List Word} (hC : Closed [.regs] P) (hs : P s) :
    P (State.portTarget s p ws) := by
  unfold State.portTarget
  refine ite_ind ?_ ?_
  · exact setFld_ind (hC.mono rfl) hs
  · exact setFld_ind (hC.mono rfl) hs

theorem portCount_ind {s : Machine.State} {p : Nat} (hC : Closed [.regs] P) (hs : P s) :
    P (State.portCount s p) := by
  unfold State.portCount
  refine ite_ind ?_ ?_
  · exact addSat_ind (hC.mono rfl) hs
  · exact addSat_ind (hC.mono rfl) hs

theorem portIdle_ind {s : Machine.State} {p : Nat} {x : Xfer} (hC : Closed [.clk, .sys, .rose, .queues, .pendg, .tens, .loops,
    .regs, .ports, .charge, .chargeLast] P) (hs : P s) :
    P (State.portIdle s p x) := by
  unfold State.portIdle
  extract_lets -merge -underBinder z1 z2
  have hz1 : P z1 := by
    exact setXfer_ind (hC.mono (by decide)) hs
  have hz2 : P z2 := by
    refine ite_ind ?_ ?_
    · exact modPrt_ind (hC.mono (by decide)) hz1
    · exact chargeShare_ind (hC.mono (by decide)) hz1
  exact setFloor_ind (hC.mono (by decide)) (portCount_ind (hC.mono (by decide)) (portState_ind (hC.mono (by decide)) hz2))

theorem portPaid_ind {s : Machine.State} {p : Nat} (hC : Closed [.charge, .chargeLast, .ports] P) (hs : P s) :
    P (State.portPaid s p) := by
  unfold State.portPaid
  split
  · exact hs
  · exact chargeShare_ind (hC.mono (by decide)) (modPrt_ind (hC.mono (by decide)) hs)

theorem captureRead_ind {s : Machine.State} {p : Nat} {x : Xfer} {data : List Byte} {failed : Bool} (hC : Closed [.queues,
    .pendg, .reg 0x2048] P) (hs : P s) :
    P (State.captureRead s p x data failed) := by
  unfold State.captureRead
  exact enqueue_ind (hC.mono (by decide)) hs

theorem transferFail_ind {s : Machine.State} {p : Nat} {code : Nat} {done : Nat} {data : List Byte} (hC : Closed [.ports,
    .clk, .sys, .rose, .queues, .pendg, .tens, .loops, .regs, .charge, .chargeLast, .chainDue] P) (hs : P s) :
    P (State.transferFail s p code done data) := by
  unfold State.transferFail
  split
  · exact hs
  · extract_lets -merge -underBinder n1 n2 n3 n4 z5 z6 z7 n8 z9 z10 z11
    have hz5 : P z5 := by
      exact portFault_ind (hC.mono (by decide)) hs
    have hz6 : P z6 := by
      refine ite_ind ?_ ?_
      · exact raise_ind (hC.mono rfl) (modPrt_ind (hC.mono (by decide)) hz5)
      · exact hz5
    have hz7 : P z7 := by
      refine ite_ind ?_ ?_
      · exact portFault_ind (hC.mono (by decide)) hz6
      · exact hz6
    have hz9 : P z9 := by
      exact record_ind (hC.mono (by decide)) hz7
    have hz10 : P z10 := by
      refine ite_ind ?_ ?_
      · exact captureRead_ind (hC.mono (by decide)) hz9
      · exact hz9
    have hz11 : P z11 := by
      refine ite_ind ?_ ?_
      · exact hz10
      · exact complete_ind (hC.mono (by decide)) hz10
    exact modPrt_ind (hC.mono (by decide)) (portIdle_ind (hC.mono (by decide)) hz11)

theorem drive_ind {s : Machine.State} {p : Nat} {r : Request} {fenced : Bool} (hC : Closed [.clk, .sys, .rose, .queues,
    .pendg, .tens, .loops, .regs, .ports] P) (hs : P s) :
    P (State.drive s p r fenced) := by
  unfold State.drive
  extract_lets -merge -underBinder n1
  exact setFloor_ind (hC.mono (by decide)) (portTarget_ind (hC.mono (by decide)) (portState_ind (hC.mono (by decide))
      (setXfer_ind (hC.mono (by decide)) hs)))

theorem takeRequest_ind {s : Machine.State} {p : Nat} {r : Request} (hC : Closed [.clk, .sys, .rose, .queues, .pendg, .tens,
    .loops, .regs, .ports, .chainDue] P) (hs : P s) :
    P (State.takeRequest s p r) := by
  unfold State.takeRequest
  extract_lets -merge -underBinder n1 n2 n3 z4
  have hz4 : P z4 := by
    refine ite_ind ?_ ?_
    · exact complete_ind (hC.mono (by decide)) hs
    · exact hs
  refine ite_ind ?_ ?_
  · refine ite_ind ?_ ?_
    · exact drive_ind (hC.mono (by decide)) hs
    · exact skip_ind (hC.mono (by decide)) (drain_ind (hC.mono (by decide)) hs)
  · split
    · exact modPrt_ind (hC.mono (by decide)) hz4
    · exact drive_ind (hC.mono (by decide)) hz4

theorem execTransferStart_ind {p : Nat} {s : Machine.State} (hC : Closed [.clk, .sys, .rose, .queues, .pendg, .tens, .loops,
    .regs, .ports, .chainDue] P) (hs : P s) :
    Answers (execTransferStart p s) P := by
  unfold execTransferStart
  refine answers_next ?_
  refine when_ind (fun _ hz1 => ?_) ?_
  · split
    · exact hz1
    · split
      · refine ite_ind ?_ ?_
        · exact regear_ind (hC.mono (by decide)) hz1
        · exact takeRequest_ind (hC.mono (by decide)) (popQueue_ind (hC.mono (by decide)) hz1 ‹_›)
      · refine forEach_ind (fun _ _ hz2 => ?_) ?_
        · exact forwardGap_ind (hC.mono (by decide)) hz2
        · exact popQueue_ind (hC.mono (by decide)) hz1 ‹_›
      · exact popQueue_ind (hC.mono (by decide)) hz1 ‹_›
  · exact hs

theorem edgeRate_ind {s : Machine.State} {p : Nat} {x : Xfer} {rise : Nat} {m : Nat} {good : Bool} (hC : Closed [.loops,
    .regs, .sys, .rose, .queues, .pendg, .tens] P) (hs : P s) :
    P (State.edgeRate s p x rise m good) := by
  unfold State.edgeRate
  extract_lets -merge -underBinder n1 n2 z3 z4 n5 n6 n7 n8
  have hz3 : P z3 := by
    exact setFld_ind (hC.mono rfl) hs
  have hz4 : P z4 := by
    refine ite_ind ?_ ?_
    · exact portFault_ind (hC.mono (by decide)) hz3
    · exact hz3
  refine ite_ind ?_ ?_
  · exact loopUpdate_ind (hC.mono (by decide)) hz4
  · exact hz4

theorem transferBreak_ind {s : Machine.State} {p : Nat} {code : Nat} {done : Nat} {data : List Byte} (hC : Closed [.ports,
    .clk, .sys, .rose, .queues, .pendg, .tens, .loops, .regs, .charge, .chargeLast, .chainDue] P) (hs : P s) :
    P (State.transferBreak s p code done data) := by
  unfold State.transferBreak
  split
  · exact hs
  · refine transferFail_ind (hC.mono (by decide)) ?_
    refine ite_ind ?_ ?_
    · exact edgeRate_ind (hC.mono (by decide)) hs
    · exact hs

theorem execTransferEnd_ind {p : Nat} {data : List Byte} {fail : Nat} {done : Nat} {rise : Nat} {mmin : Nat} {s :
    Machine.State} (hC : Closed [.ports, .clk, .sys, .rose, .queues, .pendg, .tens, .loops, .regs, .charge, .chargeLast,
    .chainDue] P) (hs : P s) :
    Answers (execTransferEnd p data fail done rise mmin s) P := by
  unfold execTransferEnd
  refine answers_next ?_
  refine when_ind (fun _ hz1 => ?_) ?_
  · split
    · exact hz1
    · extract_lets -merge -underBinder z2 n3 z4 z5
      have hz2 : P z2 := by
        refine ite_ind ?_ ?_
        · exact edgeRate_ind (hC.mono (by decide)) hz1
        · exact hz1
      have hz4 : P z4 := by
        refine ite_ind ?_ ?_
        · exact captureRead_ind (hC.mono (by decide)) hz2
        · exact hz2
      have hz5 : P z5 := by
        refine ite_ind ?_ ?_
        · exact hz4
        · exact complete_ind (hC.mono (by decide)) hz4
      refine ite_ind ?_ ?_
      · exact transferFail_ind (hC.mono (by decide)) hz2
      · exact modPrt_ind (hC.mono (by decide)) (portIdle_ind (hC.mono (by decide)) hz5)
  · exact hs

theorem execArbLost_ind {lost : PortBytes} {s : Machine.State} (hC : Closed [.ports, .clk, .sys, .rose, .queues, .pendg,
    .tens, .loops, .regs, .charge, .chargeLast, .chainDue] P) (hs : P s) :
    Answers (execArbLost lost s) P := by
  unfold execArbLost
  extract_lets -merge -underBinder n1
  refine answers_next ?_
  refine when_ind (fun _ hz2 => ?_) ?_
  · split
    · exact hz2
    · extract_lets -merge -underBinder z3
      have hz3 : P z3 := by
        exact addSat_ind (hC.mono rfl) hz2
      refine ite_ind ?_ ?_
      · exact transferBreak_ind (hC.mono (by decide)) hz3
      · exact modPrt_ind (hC.mono (by decide)) (portState_ind (hC.mono (by decide)) (setXfer_ind (hC.mono (by decide)) hz3))
  · exact hs

theorem execStretchTimeout_ind {p : Nat} {data : List Byte} {s : Machine.State} (hC : Closed [.ports, .clk, .sys, .rose,
    .queues, .pendg, .tens, .loops, .regs, .charge, .chargeLast, .chainDue] P) (hs : P s) :
    Answers (execStretchTimeout p data s) P := by
  unfold execStretchTimeout
  refine answers_next ?_
  refine when_ind (fun _ hz1 => ?_) ?_
  · exact transferBreak_ind (hC.mono (by decide)) hz1
  · exact hs

theorem execBusStuck_ind {p : Nat} {data : List Byte} {s : Machine.State} (hC : Closed [.sys, .rose, .queues, .pendg, .tens,
    .descs, .regs, .ports, .clk, .loops, .charge, .chargeLast, .chainDue] P) (hs : P s) :
    Answers (execBusStuck p data s) P := by
  unfold execBusStuck
  refine answers_next ?_
  refine when_ind (fun _ hz1 => ?_) ?_
  · extract_lets -merge -underBinder z2 z3
    have hz2 : P z2 := by
      exact modPrt_ind (hC.mono (by decide)) hz1
    have hz3 : P z3 := by
      refine ite_ind ?_ ?_
      · exact transferBreak_ind (hC.mono (by decide)) hz2
      · exact portFault_ind (hC.mono (by decide)) hz2
    exact checkPorts_ind (hC.mono (by decide)) (raise_ind (hC.mono rfl) (portState_ind (hC.mono (by decide)) hz3))
  · exact hs

theorem execBusFree_ind {p : Nat} {s : Machine.State} (hC : Closed [.regs, .ports, .charge, .chargeLast] P) (hs : P s) :
    Answers (execBusFree p s) P := by
  unfold execBusFree
  refine answers_next ?_
  refine when_ind (fun _ hz1 => ?_) ?_
  · extract_lets -merge -underBinder z2
    have hz2 : P z2 := by
      exact portPaid_ind (hC.mono (by decide)) (modPrt_ind (hC.mono (by decide)) hz1)
    split
    · exact portState_ind (hC.mono (by decide)) hz2
    · exact portState_ind (hC.mono (by decide)) (setXfer_ind (hC.mono (by decide)) hz2)
  · exact hs

theorem execBusRecovery_ind {p : Nat} {s : Machine.State} (hC : Closed [.regs, .ports] P) (hs : P s) :
    Answers (execBusRecovery p s) P := by
  unfold execBusRecovery
  refine answers_next ?_
  refine when_ind (fun _ hz1 => ?_) ?_
  · extract_lets -merge -underBinder z2
    have hz2 : P z2 := by
      exact modPrt_ind (hC.mono (by decide)) (addSat_ind (hC.mono rfl) hz1)
    exact portState_ind (hC.mono (by decide)) hz2
  · exact hs

theorem cutPort_ind {s : Machine.State} {p : Nat} {code : Nat} (hC : Closed [.ports, .clk, .sys, .rose, .queues, .pendg,
    .tens, .loops, .regs, .charge, .chargeLast, .chainDue] P) (hs : P s) :
    P (State.cutPort s p code) := by
  unfold State.cutPort
  split
  · exact hs
  · extract_lets -merge -underBinder n1
    exact transferBreak_ind (hC.mono (by decide)) hs

theorem cutPorts_ind {s : Machine.State} {ps : List Nat} {code : Nat} (hC : Closed [.ports, .clk, .sys, .rose, .queues,
    .pendg, .tens, .loops, .regs, .charge, .chargeLast, .chainDue] P) (hs : P s) :
    P (State.cutPorts s ps code) := by
  unfold State.cutPorts
  refine forEach_ind (fun _ _ hz1 => ?_) ?_
  · exact cutPort_ind (hC.mono (by decide)) hz1
  · exact hs

theorem streamsEnd_ind {s : Machine.State} {rq : Requester} (hC : Closed [.streams] P) (hs : P s) :
    P (State.streamsEnd s rq) := by
  unfold State.streamsEnd
  exact upd_streams (hC.mono (by decide)) hs

theorem showEnd_ind {s : Machine.State} {p : Nat} {x : Tx} {r : Nat} {regs : Nat} {denied : Nat} (hC : Closed [.reg 0xd50,
    .reg 0xd48, .reg 0xd4c, .reg 0xe4c, .reg 0xe44, .reg 0xe48] P) (hs : P s) :
    P (State.showEnd s p x r regs denied) := by
  unfold State.showEnd
  extract_lets -merge -underBinder z1 z2
  have hz1 : P z1 := by
    exact setFld_ind (hC.mono (by decide)) (setFld_ind (hC.mono (by decide)) (setFld_ind (hC.mono (by decide)) hs))
  have hz2 : P z2 := by
    exact setFld_ind (hC.mono (by decide)) (setFld_ind (hC.mono (by decide)) (setFld_ind (hC.mono (by decide)) hs))
  refine ite_ind ?_ ?_
  · exact addSat_ind (hC.mono (by decide)) (setFld_ind (hC.mono (by decide)) (setFld_ind (hC.mono (by decide)) hz1))
  · exact addSat_ind (hC.mono (by decide)) (setFld_ind (hC.mono (by decide)) hz2)

theorem dropTx_ind {s : Machine.State} {p : Nat} {x : Tx} (hC : Closed [.streams, .tx] P) (hs : P s) :
    P (State.dropTx s p x) := by
  unfold State.dropTx
  exact streamsEnd_ind (hC.mono (by decide)) (setTx_ind (hC.mono (by decide)) hs)

theorem spiFree_ind {s : Machine.State} (hC : Closed [.reg 0x248, .clk, .reg 0x418, .reg 0x154, .reg 0x178, .reg 0x2048, .sys,
    .rose, .queues, .pendg, .tens, .reg 0x478, .reg 0x474, .reg 0x25c, .loops, .reg 0x254, .reg 0x454, .reg 0x250] P) (hs : P
    s) :
    P (State.spiFree s) := by
  unfold State.spiFree
  refine ite_ind ?_ ?_
  · exact setFloor_ind (hC.mono (by decide)) hs
  · exact hs

theorem abortTx_ind {s : Machine.State} {p : Nat} {code : Nat} (hC : Closed [.regs, .sys, .rose, .queues, .pendg, .tens,
    .streams, .tx] P) (hs : P s) :
    P (State.abortTx s p code) := by
  unfold State.abortTx
  split
  · exact hs
  · extract_lets -merge -underBinder z1 z2
    have hz1 : P z1 := by
      refine forEach_ind (fun _ _ hz3 => ?_) ?_
      · exact setFld_ind (hC.mono rfl) hz3
      · exact hs
    have hz2 : P z2 := by
      exact showEnd_ind (hC.mono (by decide)) (dropTx_ind (hC.mono (by decide)) hz1)
    refine raise_ind (hC.mono rfl) ?_
    refine ite_ind ?_ ?_
    · exact addSat_ind (hC.mono (by decide)) hz2
    · exact addSat_ind (hC.mono (by decide)) hz2

theorem breakHostLocks_ind {s : Machine.State} (hC : Closed [.reg 0x990, .locks] P) (hs : P s) :
    P (State.breakHostLocks s) := by
  unfold State.breakHostLocks
  refine forEach_ind (fun _ _ hz1 => ?_) ?_
  · split
    · refine ite_ind ?_ ?_
      · exact addSat_ind (hC.mono (by decide)) (setLock_ind (hC.mono (by decide)) hz1)
      · exact hz1
    · exact hz1
  · exact hs

theorem dropAssemblies_ind {s : Machine.State} (hC : Closed [.regs, .asm] P) (hs : P s) :
    P (State.dropAssemblies s) := by
  unfold State.dropAssemblies
  refine forEach_ind (fun _ _ hz1 => ?_) ?_
  · refine ite_ind ?_ ?_
    · exact hz1
    · exact setFld_ind (hC.mono rfl) (setFld_ind (hC.mono rfl) (setAsm_ind (hC.mono (by decide)) hz1))
  · exact hs

theorem sessionInc_ind {s : Machine.State} (hC : Closed [.regs, .asm, .sys, .rose, .queues, .pendg, .tens, .streams, .tx,
    .locks] P) (hs : P s) :
    P (State.sessionInc s) := by
  unfold State.sessionInc
  exact dropAssemblies_ind (hC.mono (by decide)) (abortTx_ind (hC.mono (by decide)) (abortTx_ind (hC.mono (by decide))
      (breakHostLocks_ind (hC.mono (by decide)) (addWrap_ind (hC.mono (by decide)) hs))))

theorem hostPulse_ind {s : Machine.State} (hC : Closed [.regs, .asm, .sys, .rose, .queues, .pendg, .tens, .streams, .tx,
    .locks] P) (hs : P s) :
    P (State.hostPulse s) := by
  unfold State.hostPulse
  extract_lets -merge -underBinder z1 n2
  have hz1 : P z1 := by
    exact setFld_ind (hC.mono (by decide)) hs
  refine ite_ind ?_ ?_
  · exact sessionInc_ind (hC.mono (by decide)) (upd_sys (hC.mono (by decide)) rfl rfl hz1)
  · exact hs

end Sys2Proof.Machine
end

