-- ==== Sys2Proof/Laws/FramesAfe.lean ====
section
/-! SUPPORT. What each operation may change: the key updates, the answers of commands and the analog front end. A property closed under
those parts of the state holds after the operation if it held before. -/

namespace Sys2Proof.Machine

variable {P : State → Prop}

theorem modAfe_ind {s : Machine.State} {f : Afe → Afe} (hC : Closed [.afe] P) (hs : P s) :
    P (State.modAfe s f) := by
  unfold State.modAfe
  exact upd_afe (hC.mono (by decide)) hs

theorem afeShow_ind {s : Machine.State} (hC : Closed [.regs] P) (hs : P s) :
    P (State.afeShow s) := by
  unfold State.afeShow
  extract_lets -merge -underBinder n1 z2 z3 z4
  have hz2 : P z2 := by
    exact setFld_ind (hC.mono (by decide)) (setFld_ind (hC.mono (by decide)) hs)
  have hz3 : P z3 := by
    exact setFld_ind (hC.mono (by decide)) (setFld_ind (hC.mono (by decide)) hz2)
  have hz4 : P z4 := by
    exact setFld_ind (hC.mono (by decide)) hz3
  refine forEach_ind (fun _ _ hz5 => ?_) ?_
  · refine ite_ind ?_ ?_
    · exact setFld_ind (hC.mono rfl) hz5
    · exact hz5
  · exact hz4

theorem filterRestart_ind {s : Machine.State} {ch : Nat} (hC : Closed [.afeCh] P) (hs : P s) :
    P (State.filterRestart s ch) := by
  unfold State.filterRestart
  extract_lets -merge -underBinder n1
  exact modAch_ind (hC.mono (by decide)) hs

theorem afeFloor_ind {s : Machine.State} (hC : Closed [.reg 0x248, .clk, .reg 0x418, .reg 0x154, .reg 0x178, .reg 0x2048,
    .sys, .rose, .queues, .pendg, .tens, .reg 0x478, .reg 0x474, .reg 0x25c, .loops, .reg 0x254, .reg 0x454, .reg 0x250] P)
    (hs : P s) :
    P (State.afeFloor s) := by
  unfold State.afeFloor
  exact setFloor_ind (hC.mono (by decide)) hs

theorem excSwitchOn_ind {s : Machine.State} (hC : Closed [.afe] P) (hs : P s) :
    P (State.excSwitchOn s) := by
  unfold State.excSwitchOn
  exact modAfe_ind (hC.mono (by decide)) hs

theorem excApply_ind {s : Machine.State} (hC : Closed [.afe] P) (hs : P s) :
    P (State.excApply s) := by
  unfold State.excApply
  extract_lets -merge -underBinder n1 z2
  have hz2 : P z2 := by
    exact modAfe_ind (hC.mono (by decide)) hs
  refine ite_ind ?_ ?_
  · exact modAfe_ind (hC.mono (by decide)) hz2
  · refine ite_ind ?_ ?_
    · exact hz2
    · exact excSwitchOn_ind (hC.mono (by decide)) hz2

theorem afeBoundary_ind {s : Machine.State} (hC : Closed [.reg 0x248, .clk, .reg 0x418, .reg 0x154, .reg 0x178, .reg 0x2048,
    .sys, .rose, .queues, .pendg, .tens, .reg 0x478, .reg 0x474, .reg 0x25c, .loops, .reg 0x254, .reg 0x454, .reg 0x250,
    .afeCh, .afe] P) (hs : P s) :
    P (State.afeBoundary s) := by
  unfold State.afeBoundary
  extract_lets -merge -underBinder z1 z2
  have hz1 : P z1 := by
    refine ite_ind ?_ ?_
    · exact excApply_ind (hC.mono (by decide)) hs
    · exact hs
  have hz2 : P z2 := by
    exact modAfe_ind (hC.mono (by decide)) hz1
  exact afeFloor_ind (hC.mono (by decide)) (filterRestart_ind (hC.mono (by decide)) (filterRestart_ind (hC.mono (by decide))
      hz2))

theorem afeFault_ind {s : Machine.State} {f : Fld} {k : Nat} (hC : Closed [.sys, .rose, .queues, .pendg, .tens, .regs] P) (hs
    : P s) :
    P (State.afeFault s f k) := by
  unfold State.afeFault
  refine ite_ind ?_ ?_
  · exact hs
  · exact raise_ind (hC.mono (by decide)) (setBit_ind (hC.mono rfl) hs)

theorem afeRecord_ind {s : Machine.State} {cause : Nat} {ch : Nat} (hC : Closed [.queues, .pendg, .reg 0x2048, .tens] P) (hs :
    P s) :
    P (State.afeRecord s cause ch) := by
  unfold State.afeRecord
  exact record_ind (hC.mono (by decide)) hs

theorem bufferResult_ind {s : Machine.State} {ch : Nat} {code : Int} {flags : Nat} {ht : Nat} (hC : Closed [.rose, .afeCh,
    .sys, .queues, .pendg, .tens, .regs] P) (hs : P s) :
    P (State.bufferResult s ch code flags ht) := by
  unfold State.bufferResult
  extract_lets -merge -underBinder n1 n2 z3 z4
  have hz3 : P z3 := by
    exact drain_ind (hC.mono (by decide)) (skip_ind (hC.mono (by decide)) hs)
  have hz4 : P z4 := by
    refine ite_ind ?_ ?_
    · exact addSat_ind (hC.mono (by decide)) (afeFault_ind (hC.mono (by decide)) hz3)
    · exact hs
  exact presentAt_ind (hC.mono (by decide)) (modAch_ind (hC.mono (by decide)) hz4)

theorem intervalEnd_ind {s : Machine.State} {ch : Nat} (hC : Closed [.afeCh] P) (hs : P s) :
    P (State.intervalEnd s ch) := by
  unfold State.intervalEnd
  extract_lets -merge -underBinder n1
  refine ite_ind ?_ ?_
  · exact modAch_ind (hC.mono (by decide)) hs
  · refine ite_ind ?_ ?_
    · exact modAch_ind (hC.mono (by decide)) hs
    · exact filterRestart_ind (hC.mono (by decide)) hs

theorem touchResult_ind {s : Machine.State} {ch : Nat} {dev : Option Int} (hC : Closed [.sys, .rose, .queues, .pendg, .tens,
    .regs] P) (hs : P s) :
    P (State.touchResult s ch dev) := by
  unfold State.touchResult
  extract_lets -merge -underBinder n1 n2 z3 z4
  have hz3 : P z3 := by
    exact setFld_ind (hC.mono rfl) (putOn_ind (hC.mono rfl) (setFld_ind (hC.mono rfl) hs))
  have hz4 : P z4 := by
    refine ite_ind ?_ ?_
    · exact hz3
    · exact afeRecord_ind (hC.mono (by decide)) (afeFault_ind (hC.mono (by decide)) hz3)
  exact raise_ind (hC.mono (by decide)) hz4

theorem touchStep_ind {s : Machine.State} {ch : Nat} {raw : Int} {ovr : Bool} (hC : Closed [.afeCh, .sys, .rose, .queues,
    .pendg, .tens, .regs] P) (hs : P s) :
    P (State.touchStep s ch raw ovr) := by
  unfold State.touchStep
  extract_lets -merge -underBinder n1 n2 z3 n4
  have hz3 : P z3 := by
    exact modAch_ind (hC.mono (by decide)) (bufferResult_ind (hC.mono (by decide)) hs)
  refine ite_ind ?_ ?_
  · exact intervalEnd_ind (hC.mono (by decide)) (touchResult_ind (hC.mono (by decide)) hz3)
  · exact hz3

theorem calStep_ind {s : Machine.State} {ch : Nat} {raw : Int} (hC : Closed [.afeCh, .sys, .rose, .queues, .pendg, .tens,
    .regs, .loops] P) (hs : P s) :
    P (State.calStep s ch raw) := by
  unfold State.calStep
  extract_lets -merge -underBinder n1 z2 n3 n4 n5 z6 n7 n8 n9 z10 z11
  have hz2 : P z2 := by
    exact modAch_ind (hC.mono (by decide)) (bufferResult_ind (hC.mono (by decide)) hs)
  have hz6 : P z6 := by
    exact loopUpdate_ind (hC.mono (by decide)) hz2
  have hz10 : P z10 := by
    exact setFld_ind (hC.mono rfl) hz6
  have hz11 : P z11 := by
    refine ite_ind ?_ ?_
    · refine ite_ind ?_ ?_
      · exact afeFault_ind (hC.mono (by decide)) hz10
      · exact hz10
    · exact hz2
  refine ite_ind ?_ ?_
  · exact intervalEnd_ind (hC.mono (by decide)) (raise_ind (hC.mono (by decide)) hz11)
  · exact hz2

theorem chopReverse_ind {s : Machine.State} (hC : Closed [.afeCh, .afe] P) (hs : P s) :
    P (State.chopReverse s) := by
  unfold State.chopReverse
  refine ite_ind ?_ ?_
  · refine forEach_ind (fun _ _ hz1 => ?_) ?_
    · exact modAch_ind (hC.mono (by decide)) hz1
    · exact modAfe_ind (hC.mono (by decide)) hs
  · exact hs

theorem chopStep_ind {s : Machine.State} {ch : Nat} {v : Int} {ovr : Bool} (hC : Closed [.afeCh, .afe, .rose, .sys, .queues,
    .pendg, .tens, .regs] P) (hs : P s) :
    P (State.chopStep s ch v ovr) := by
  unfold State.chopStep
  extract_lets -merge -underBinder n1 n2 z3 z4
  have hz3 : P z3 := by
    exact modAch_ind (hC.mono (by decide)) hs
  have hz4 : P z4 := by
    refine ite_ind ?_ ?_
    · exact modAch_ind (hC.mono (by decide)) hz3
    · split
      · exact hz3
      · extract_lets -merge -underBinder n5
        exact bufferResult_ind (hC.mono (by decide)) (modAch_ind (hC.mono (by decide)) hz3)
  refine ite_ind ?_ ?_
  · exact chopReverse_ind (hC.mono (by decide)) hz3
  · exact chopReverse_ind (hC.mono (by decide)) hz4

theorem plainStep_ind {s : Machine.State} {ch : Nat} {v : Int} {ovr : Bool} (hC : Closed [.afeCh, .rose, .sys, .queues,
    .pendg, .tens, .regs] P) (hs : P s) :
    P (State.plainStep s ch v ovr) := by
  unfold State.plainStep
  extract_lets -merge -underBinder n1
  refine ite_ind ?_ ?_
  · exact modAch_ind (hC.mono (by decide)) hs
  · exact bufferResult_ind (hC.mono (by decide)) (modAch_ind (hC.mono (by decide)) hs)

theorem execAfeConversion_ind {ch : Nat} {raw : Int} {ovr : Bool} {s : Machine.State} (hC : Closed [.regs, .clk, .sys, .rose,
    .queues, .pendg, .tens, .loops, .afeCh, .afe] P) (hs : P s) :
    Answers (execAfeConversion ch raw ovr s) P := by
  unfold execAfeConversion
  refine answers_next ?_
  refine when_ind (fun _ hz1 => ?_) ?_
  · extract_lets -merge -underBinder n2 n3 n4 z5 z6 z7 z8 z9
    have hz5 : P z5 := by
      refine ite_ind ?_ ?_
      · exact afeFault_ind (hC.mono (by decide)) hz1
      · exact hz1
    have hz6 : P z6 := by
      refine ite_ind ?_ ?_
      · exact touchStep_ind (hC.mono (by decide)) hz5
      · refine ite_ind ?_ ?_
        · exact calStep_ind (hC.mono (by decide)) hz5
        · refine ite_ind ?_ ?_
          · exact chopStep_ind (hC.mono (by decide)) hz5
          · refine ite_ind ?_ ?_
            · exact plainStep_ind (hC.mono (by decide)) hz5
            · exact plainStep_ind (hC.mono (by decide)) hz5
    have hz7 : P z7 := by
      refine ite_ind ?_ ?_
      · exact filterRestart_ind (hC.mono (by decide)) hz6
      · exact hz6
    have hz8 : P z8 := by
      refine ite_ind ?_ ?_
      · exact afeBoundary_ind (hC.mono (by decide)) hz7
      · exact hz7
    have hz9 : P z9 := by
      exact modAfe_ind (hC.mono (by decide)) hz8
    refine ite_ind ?_ ?_
    · exact afeShow_ind (hC.mono (by decide)) (afeFloor_ind (hC.mono (by decide)) (modAch_ind (hC.mono (by decide)) hz9))
    · exact afeShow_ind (hC.mono (by decide)) hz9
  · exact hs

theorem execAfeDrain_ind {s : Machine.State} (hC : Closed [.chainDue, .regs, .queues, .pendg, .afeCh, .charge, .chargeLast] P)
    (hs : P s) :
    Answers (execAfeDrain s) P := by
  unfold execAfeDrain
  refine answers_next ?_
  refine when_ind (fun _ hz1 => ?_) ?_
  · split
    · exact hz1
    · split
      · extract_lets -merge -underBinder n2 n3 z4 n5 n6 n7 z8
        have hz4 : P z4 := by
          exact chargeAdd_ind (hC.mono (by decide)) (popQueue_ind (hC.mono (by decide)) hz1 ‹_›)
        have hz8 : P z8 := by
          exact modAch_ind (hC.mono (by decide)) hz4
        refine ite_ind ?_ ?_
        · exact complete_ind (hC.mono (by decide)) (addSat_ind (hC.mono (by decide)) hz4)
        · refine ite_ind ?_ ?_
          · exact afeShow_ind (hC.mono (by decide)) (complete_ind (hC.mono (by decide)) (enqueue_ind (hC.mono (by decide))
              hz8))
          · exact skip_ind (hC.mono (by decide)) (drain_ind (hC.mono (by decide)) hz4)
      · refine forEach_ind (fun _ _ hz9 => ?_) ?_
        · exact forwardGap_ind (hC.mono (by decide)) hz9
        · exact popQueue_ind (hC.mono (by decide)) hz1 ‹_›
      · exact popQueue_ind (hC.mono (by decide)) hz1 ‹_›
  · exact hs

theorem execExcSettleEnd_ind {s : Machine.State} (hC : Closed [.regs, .afeCh, .afe] P) (hs : P s) :
    Answers (execExcSettleEnd s) P := by
  unfold execExcSettleEnd
  refine answers_next ?_
  refine when_ind (fun _ hz1 => ?_) ?_
  · extract_lets -merge -underBinder z2
    have hz2 : P z2 := by
      exact modAfe_ind (hC.mono (by decide)) hz1
    refine afeShow_ind (hC.mono (by decide)) ?_
    refine forEach_ind (fun _ _ hz3 => ?_) ?_
    · exact modAch_ind (hC.mono (by decide)) hz3
    · exact hz2
  · exact hs

theorem execExcOvercurrent_ind {s : Machine.State} (hC : Closed [.regs, .queues, .pendg, .tens, .sys, .rose, .afeCh, .afe] P)
    (hs : P s) :
    Answers (execExcOvercurrent s) P := by
  unfold execExcOvercurrent
  refine answers_next ?_
  refine when_ind (fun _ hz1 => ?_) ?_
  · extract_lets -merge -underBinder z2 z3
    have hz2 : P z2 := by
      exact modAfe_ind (hC.mono (by decide)) hz1
    have hz3 : P z3 := by
      refine forEach_ind (fun _ _ hz4 => ?_) ?_
      · exact modAch_ind (hC.mono (by decide)) hz4
      · exact hz2
    exact afeShow_ind (hC.mono (by decide)) (afeRecord_ind (hC.mono (by decide)) (afeFault_ind (hC.mono (by decide)) hz3))
  · exact hs

theorem execExcOpen_ind {s : Machine.State} (hC : Closed [.queues, .pendg, .tens, .sys, .rose, .regs, .afe] P) (hs : P s) :
    Answers (execExcOpen s) P := by
  unfold execExcOpen
  refine answers_next ?_
  refine when_ind (fun _ hz1 => ?_) ?_
  · exact afeRecord_ind (hC.mono (by decide)) (afeFault_ind (hC.mono (by decide)) (modAfe_ind (hC.mono (by decide)) hz1))
  · exact hs

theorem touchStart_ind {s : Machine.State} {ch : Nat} (hC : Closed [.sys, .rose, .queues, .pendg, .tens, .regs, .afeCh] P) (hs
    : P s) :
    P (State.touchStart s ch) := by
  unfold State.touchStart
  extract_lets -merge -underBinder n1
  refine ite_ind ?_ ?_
  · exact touchResult_ind (hC.mono (by decide)) hs
  · refine ite_ind ?_ ?_
    · exact hs
    · refine ite_ind ?_ ?_
      · exact modAch_ind (hC.mono (by decide)) hs
      · refine ite_ind ?_ ?_
        · exact modAch_ind (hC.mono (by decide)) hs
        · exact afeShow_ind (hC.mono (by decide)) (modAch_ind (hC.mono (by decide)) hs)

theorem execTouchstoneStart_ind {ch : Nat} {s : Machine.State} (hC : Closed [.sys, .rose, .queues, .pendg, .tens, .regs,
    .afeCh] P) (hs : P s) :
    Answers (execTouchstoneStart ch s) P := by
  unfold execTouchstoneStart
  refine answers_next ?_
  refine when_ind (fun _ hz1 => ?_) ?_
  · exact touchStart_ind (hC.mono (by decide)) hz1
  · exact hs

theorem execAfeCalStart_ind {ch : Nat} {s : Machine.State} (hC : Closed [.afeCh, .regs] P) (hs : P s) :
    Answers (execAfeCalStart ch s) P := by
  unfold execAfeCalStart
  refine answers_next ?_
  refine when_ind (fun _ hz1 => ?_) ?_
  · extract_lets -merge -underBinder n2
    refine ite_ind ?_ ?_
    · exact hz1
    · refine ite_ind ?_ ?_
      · exact modAch_ind (hC.mono (by decide)) hz1
      · exact afeShow_ind (hC.mono (by decide)) (modAch_ind (hC.mono (by decide)) hz1)
  · exact hs

theorem modSlot_ind {s : Machine.State} {t : Nat} {b : Bool} {f : KeySlot → KeySlot} (hC : Closed [.nv] P) (hs : P s) :
    P (State.modSlot s t b f) := by
  unfold State.modSlot
  exact modTnv_ind (hC.mono (by decide)) hs

theorem countAnswer_ind {s : Machine.State} {st : Nat} {second : Bool} (hC : Closed [.sys, .rose, .queues, .pendg, .tens,
    .regs] P) (hs : P s) :
    P (State.countAnswer s st second) := by
  unfold State.countAnswer
  extract_lets -merge -underBinder z1
  have hz1 : P z1 := by
    refine ite_ind ?_ ?_
    · exact hs
    · exact addSat_ind (hC.mono rfl) hs
  refine ite_ind ?_ ?_
  · exact hz1
  · exact raise_ind (hC.mono (by decide)) hz1

theorem answer_ind {s : Machine.State} {k : Ticket} {o : Outcome} (hC : Closed [.sys, .rose, .queues, .pendg, .tens, .regs] P)
    (hs : P s) :
    P (State.answer s k o) := by
  unfold State.answer
  extract_lets -merge -underBinder n1
  exact countAnswer_ind (hC.mono (by decide)) (modTen_ind (hC.mono (by decide)) hs)

theorem pendAnswer_ind {s : State} {k : Ticket} (hC : Closed [.sys, .rose, .queues, .pendg, .tens, .regs] P) (h : P s) :
    P (s.pendAnswer k).1 := by
  unfold State.pendAnswer
  split
  · exact h
  · show P (s.answer k (.of stPENDING))
    exact answer_ind (hC.mono (by decide)) h

theorem pendJobs_ind {l m : List NvJob} {s : State} (hC : Closed [.stw, .regs, .sys, .rose, .queues, .pendg, .tens] P) (h : P
    s) : P (pendJobs l m s) := by
  induction l generalizing m s with
  | nil => exact upd_stw (hC.mono (by decide)) h
  | cons j t ih =>
    unfold pendJobs
    split
    · exact ih h
    · exact ih (pendAnswer_ind (hC.mono (by decide)) h)

theorem pendUpdate_ind {s : Machine.State} {t : Nat} (hC : Closed [.tens, .sys, .rose, .queues, .pendg, .regs] P) (hs : P s) :
    P (State.pendUpdate s t) := by
  unfold State.pendUpdate
  split
  · exact hs
  · refine ite_ind ?_ ?_
    · exact hs
    · exact modTen_ind (hC.mono (by decide)) (pendAnswer_ind (hC.mono (by decide)) hs)

theorem pendAll_ind {s : Machine.State} (hC : Closed [.tens, .sys, .rose, .queues, .pendg, .regs, .stw] P) (hs : P s) :
    P (State.pendAll s) := by
  unfold State.pendAll
  extract_lets -merge -underBinder n1 n2
  refine forEach_ind (fun _ _ hz3 => ?_) ?_
  · exact pendUpdate_ind (hC.mono (by decide)) hz3
  · exact pendJobs_ind (hC.mono (by decide)) hs

end Sys2Proof.Machine
end

