-- ==== Sys2Proof/Laws/FramesTime.lean ====
section
/-! SUPPORT. What each operation may change: the supply, Stow, the Planisher, the Reckoner and the Sextant. A property closed under
those parts of the state holds after the operation if it held before. -/

namespace Sys2Proof.Machine

variable {P : State → Prop}

theorem vhostDown_ind {s : Machine.State} (hC : Closed [.sys, .regs, .asm, .rose, .queues, .pendg, .tens, .streams, .tx,
    .locks] P) (hs : P s) :
    P (State.vhostDown s) := by
  unfold State.vhostDown
  exact modSys_ind (hC.mono (by decide)) rfl rfl (hostPulse_ind (hC.mono (by decide)) hs)

theorem vhostUp_ind {s : Machine.State} (hC : Closed [.sys, .reg 0x358] P) (hs : P s) :
    P (State.vhostUp s) := by
  unfold State.vhostUp
  extract_lets -merge -underBinder n1
  refine ite_ind ?_ ?_
  · exact hs
  · exact modSys_ind (hC.mono (by decide)) rfl rfl (setFld_ind (hC.mono (by decide)) hs)

theorem vhostDisable_ind {s : Machine.State} (hC : Closed [.sys, .regs, .asm, .rose, .queues, .pendg, .tens, .streams, .tx,
    .locks] P) (hs : P s) :
    P (State.vhostDisable s) := by
  unfold State.vhostDisable
  exact modSys_ind (hC.mono (by decide)) rfl rfl (vhostDown_ind (hC.mono (by decide)) hs)

theorem execVhostSettleEnd_ind {s : Machine.State} (hC : Closed [.sys, .reg 0x16c] P) (hs : P s) :
    Answers (execVhostSettleEnd s) P := by
  unfold execVhostSettleEnd
  refine answers_next ?_
  refine when_ind (fun _ hz1 => ?_) ?_
  · exact modSys_ind (hC.mono (by decide)) rfl rfl (setFld_ind (hC.mono (by decide)) hz1)
  · exact hs

theorem execVhostTrip_ind {s : Machine.State} (hC : Closed [.sys, .rose, .queues, .pendg, .tens, .regs, .asm, .streams, .tx,
    .locks] P) (hs : P s) :
    Answers (execVhostTrip s) P := by
  unfold execVhostTrip
  refine answers_next ?_
  refine when_ind (fun _ hz1 => ?_) ?_
  · extract_lets -merge -underBinder n2 n3 z4 z5 z6
    have hz4 : P z4 := by
      exact modSys_ind (hC.mono (by decide)) rfl rfl (addSat_ind (hC.mono (by decide)) (vhostDown_ind (hC.mono (by decide))
          hz1))
    have hz5 : P z5 := by
      exact setFld_ind (hC.mono (by decide)) hz4
    have hz6 : P z6 := by
      refine ite_ind ?_ ?_
      · exact setFld_ind (hC.mono (by decide)) (setFld_ind (hC.mono (by decide)) hz5)
      · exact hz5
    exact raise_ind (hC.mono (by decide)) (railFault_ind (hC.mono (by decide)) (wakeHost_ind (hC.mono (by decide)) (risen_ind
        (hC.mono (by decide)) hz6)))
  · exact hs

theorem execVhostCycleOffEnd_ind {s : Machine.State} (hC : Closed [.sys, .reg 0x358] P) (hs : P s) :
    Answers (execVhostCycleOffEnd s) P := by
  unfold execVhostCycleOffEnd
  refine answers_next ?_
  refine when_ind (fun _ hz1 => ?_) ?_
  · exact vhostUp_ind (hC.mono (by decide)) hz1
  · exact hs

theorem railOn_ind {s : Machine.State} {n : Nat} (hC : Closed [.sys, .regs] P) (hs : P s) :
    P (State.railOn s n) := by
  unfold State.railOn
  extract_lets -merge -underBinder n1
  refine ite_ind ?_ ?_
  · exact hs
  · exact modSys_ind (hC.mono (by decide)) rfl rfl (setFld_ind (hC.mono rfl) hs)

theorem railCut_ind {s : Machine.State} {n : Nat} (hC : Closed [.sys, .rose, .queues, .pendg, .tens, .descs, .ports, .clk,
    .loops, .regs, .charge, .chargeLast, .chainDue] P) (hs : P s) :
    P (State.railCut s n) := by
  unfold State.railCut
  extract_lets -merge -underBinder z1
  have hz1 : P z1 := by
    exact setFld_ind (hC.mono rfl) hs
  refine ite_ind ?_ ?_
  · exact hs
  · exact checkPorts_ind (hC.mono (by decide)) (cutPorts_ind (hC.mono (by decide)) hz1)

theorem railEnable_ind {s : Machine.State} {n : Nat} (hC : Closed [.sys, .regs] P) (hs : P s) :
    P (State.railEnable s n) := by
  unfold State.railEnable
  refine ite_ind ?_ ?_
  · exact modSys_ind (hC.mono (by decide)) rfl rfl hs
  · exact railOn_ind (hC.mono (by decide)) hs

theorem execVsensRampDone_ind {n : Nat} {s : Machine.State} (hC : Closed [.regs] P) (hs : P s) :
    Answers (execVsensRampDone n s) P := by
  unfold execVsensRampDone
  refine answers_next ?_
  refine when_ind (fun _ hz1 => ?_) ?_
  · exact setFld_ind (hC.mono rfl) hz1
  · exact hs

theorem execVsensSettleDone_ind {n : Nat} {s : Machine.State} (hC : Closed [.regs] P) (hs : P s) :
    Answers (execVsensSettleDone n s) P := by
  unfold execVsensSettleDone
  refine answers_next ?_
  refine when_ind (fun _ hz1 => ?_) ?_
  · exact setFld_ind (hC.mono rfl) hz1
  · exact hs

theorem execVsensTrip_ind {n : Nat} {s : Machine.State} (hC : Closed [.sys, .rose, .queues, .pendg, .tens, .regs, .descs,
    .ports, .clk, .loops, .charge, .chargeLast, .chainDue] P) (hs : P s) :
    Answers (execVsensTrip n s) P := by
  unfold execVsensTrip
  refine answers_next ?_
  refine when_ind (fun _ hz1 => ?_) ?_
  · extract_lets -merge -underBinder z2 z3
    have hz2 : P z2 := by
      exact setFld_ind (hC.mono rfl) (railCut_ind (hC.mono (by decide)) hz1)
    have hz3 : P z3 := by
      exact risen_ind (hC.mono (by decide)) (setBit_ind (hC.mono (by decide)) hz2)
    exact raise_ind (hC.mono (by decide)) (railFault_ind (hC.mono (by decide)) (wakeHost_ind (hC.mono (by decide)) hz3))
  · exact hs

theorem shed_ind {s : Machine.State} (hC : Closed [.sys, .rose, .queues, .pendg, .tens, .descs, .ports, .clk, .loops, .regs,
    .charge, .chargeLast, .chainDue] P) (hs : P s) :
    P (State.shed s) := by
  unfold State.shed
  refine forEach_ind (fun _ _ hz1 => ?_) ?_
  · exact railCut_ind (hC.mono (by decide)) (modSys_ind (hC.mono (by decide)) rfl rfl hz1)
  · exact hs

theorem nvAbandon_ind {s : Machine.State} (hC : Closed [.reg 0x2644, .reg 0x158, .stw, .nv] P) (hs : P s) :
    P (State.nvAbandon s) := by
  unfold State.nvAbandon
  refine ite_ind ?_ ?_
  · exact nvDrop_ind (hC.mono (by decide)) hs
  · exact hs

theorem supplyShow_ind {s : Machine.State} (hC : Closed [.reg 0x158, .stw, .reg 0x344] P) (hs : P s) :
    P (State.supplyShow s) := by
  unfold State.supplyShow
  exact nvStart_ind (hC.mono (by decide)) (putOn_ind (hC.mono (by decide)) (putOn_ind (hC.mono (by decide)) hs))

theorem supply_ind {s : Machine.State} {mv : Nat} (hC : Closed [.reg 0x158, .stw, .reg 0x344, .sys] P) (hs : P s) :
    P (State.supply s mv) := by
  unfold State.supply
  exact supplyShow_ind (hC.mono (by decide)) (modSys_ind (hC.mono (by decide)) rfl rfl hs)

theorem dipEnter_ind {s : Machine.State} {start : Nat} {fresh : Bool} (hC : Closed [.clk, .sys, .rose, .queues, .pendg, .tens,
    .loops, .regs, .stw, .nv, .descs, .ports, .charge, .chargeLast, .chainDue] P) (hs : P s) :
    P (State.dipEnter s start fresh) := by
  unfold State.dipEnter
  extract_lets -merge -underBinder z1 z2 z3
  have hz1 : P z1 := by
    exact modSys_ind (hC.mono (by decide)) rfl rfl hs
  have hz2 : P z2 := by
    exact setFld_ind (hC.mono (by decide)) (setFld_ind (hC.mono (by decide)) (setFld_ind (hC.mono (by decide)) hz1))
  have hz3 : P z3 := by
    exact pendAll_ind (hC.mono (by decide)) (nvAbandon_ind (hC.mono (by decide)) (shed_ind (hC.mono (by decide)) (wakeHost_ind
        (hC.mono (by decide)) hz2)))
  refine regear_ind (hC.mono (by decide)) ?_
  refine ite_ind ?_ ?_
  · exact raise_ind (hC.mono (by decide)) hz3
  · exact hz3

theorem execDipBegin_ind {mv : Nat} {s : Machine.State} (hC : Closed [.sys, .stw, .clk, .rose, .queues, .pendg, .tens, .loops,
    .regs, .nv, .descs, .ports, .charge, .chargeLast, .chainDue] P) (hs : P s) :
    Answers (execDipBegin mv s) P := by
  unfold execDipBegin
  refine answers_next ?_
  refine when_ind (fun _ hz1 => ?_) ?_
  · refine ite_ind ?_ ?_
    · exact modSys_ind (hC.mono (by decide)) rfl rfl (setFld_ind (hC.mono (by decide)) (supply_ind (hC.mono (by decide)) hz1))
    · exact supply_ind (hC.mono (by decide)) (dipEnter_ind (hC.mono (by decide)) hz1)
  · exact hs

theorem execDipContinue_ind {mv : Nat} {s : Machine.State} (hC : Closed [.stw, .sys, .clk, .rose, .queues, .pendg, .tens,
    .loops, .regs, .nv, .descs, .ports, .charge, .chargeLast, .chainDue] P) (hs : P s) :
    Answers (execDipContinue mv s) P := by
  unfold execDipContinue
  refine answers_next ?_
  refine when_ind (fun _ hz1 => ?_) ?_
  · exact supply_ind (hC.mono (by decide)) (dipEnter_ind (hC.mono (by decide)) hz1)
  · exact hs

theorem dipEntry_ind {s : Machine.State} (hC : Closed [.reg 0x2458, .reg 0x2418, .reg 0x154, .reg 0x178, .reg 0x2048, .sys,
    .rose, .queues, .pendg, .tens, .log, .stw] P) (hs : P s) :
    P (State.dipEntry s) := by
  unfold State.dipEntry
  extract_lets -merge -underBinder n1 z2 n3 n4 n5 n6 n7 n8
  have hz2 : P z2 := by
    exact addSat_ind (hC.mono (by decide)) hs
  refine ite_ind ?_ ?_
  · exact addSat_ind (hC.mono (by decide)) hs
  · refine ite_ind ?_ ?_
    · exact raise_ind (hC.mono (by decide)) (upd_log (hC.mono (by decide)) hz2)
    · refine modUpdates_ind (hC.mono (by decide)) ?_
      have key9 : ∀ e, P e → ∀ v0 v1, P { e with stw := v0, log := v1 } :=
        fun e he v0 _ => upd_log (s := { e with stw := v0 }) (hC.mono (by decide)) (upd_stw (s := e) (hC.mono (by decide)) he)
      refine key9 _ ?_ _ _
      exact hs

theorem dipFinish_ind {s : Machine.State} {windowEnd : Nat} (hC : Closed [.reg 0x158, .stw, .reg 0x2458, .reg 0x2418, .reg
    0x154, .reg 0x178, .reg 0x2048, .sys, .rose, .queues, .pendg, .tens, .log] P) (hs : P s) :
    P (State.dipFinish s windowEnd) := by
  unfold State.dipFinish
  extract_lets -merge -underBinder z1
  have hz1 : P z1 := by
    exact modSys_ind (hC.mono (by decide)) rfl rfl hs
  exact nvStart_ind (hC.mono (by decide)) (dipEntry_ind (hC.mono (by decide)) (setFld_ind (hC.mono (by decide)) hz1))

theorem execDipEnd_ind {mv : Nat} {s : Machine.State} (hC : Closed [.clk, .sys, .rose, .queues, .pendg, .tens, .loops, .stw,
    .log, .regs] P) (hs : P s) :
    Answers (execDipEnd mv s) P := by
  unfold execDipEnd
  refine answers_next ?_
  refine when_ind (fun _ hz1 => ?_) ?_
  · extract_lets -merge -underBinder n2 n3 n4 n5 n6 z7 z8 z9 z10 n11 z12 z13
    have hz7 : P z7 := by
      exact modSys_ind (hC.mono (by decide)) rfl rfl (supply_ind (hC.mono (by decide)) hz1)
    have hz8 : P z8 := by
      exact raise_ind (hC.mono (by decide)) (setFld_ind (hC.mono (by decide)) (setFld_ind (hC.mono (by decide)) hz7))
    have hz9 : P z9 := by
      exact setFld_ind (hC.mono (by decide)) (setFld_ind (hC.mono (by decide)) hz8)
    have hz10 : P z10 := by
      refine ite_ind ?_ ?_
      · exact addSat_ind (hC.mono (by decide)) hz9
      · exact hz9
    have hz12 : P z12 := by
      refine forEach_ind (fun _ _ hz14 => ?_) ?_
      · exact railOn_ind (hC.mono (by decide)) hz14
      · exact hz10
    have hz13 : P z13 := by
      refine ite_ind ?_ ?_
      · exact dipFinish_ind (hC.mono (by decide)) (modSys_ind (hC.mono (by decide)) rfl rfl hz12)
      · exact setFld_ind (hC.mono (by decide)) hz12
    exact regear_ind (hC.mono (by decide)) hz13
  · exact hs

theorem execDipSettled_ind {s : Machine.State} (hC : Closed [.reg 0x158, .stw, .reg 0x2458, .reg 0x2418, .reg 0x154, .reg
    0x178, .reg 0x2048, .sys, .rose, .queues, .pendg, .tens, .log] P) (hs : P s) :
    Answers (execDipSettled s) P := by
  unfold execDipSettled
  refine answers_next ?_
  refine when_ind (fun _ hz1 => ?_) ?_
  · exact dipFinish_ind (hC.mono (by decide)) (modSys_ind (hC.mono (by decide)) rfl rfl hz1)
  · exact hs

theorem wakeCause_ind {s : Machine.State} {k : Nat} (hC : Closed [.sys] P) (hs : P s) :
    P (State.wakeCause s k) := by
  unfold State.wakeCause
  exact modSys_ind (hC.mono (by decide)) rfl rfl hs

theorem execVchgRise_ind {s : Machine.State} (hC : Closed [.sys, .reg 0x158, .stw, .reg 0x344] P) (hs : P s) :
    Answers (execVchgRise s) P := by
  unfold execVchgRise
  refine answers_next ?_
  refine when_ind (fun _ hz1 => ?_) ?_
  · refine when_ind (fun _ hz2 => ?_) ?_
    · exact wakeCause_ind (hC.mono (by decide)) hz2
    · exact supply_ind (hC.mono (by decide)) hz1
  · exact hs

theorem mpptWatch_ind {s : Machine.State} (hC : Closed [.pln] P) (hs : P s) :
    P (State.mpptWatch s) := by
  unfold State.mpptWatch
  extract_lets -merge -underBinder n1
  refine ite_ind ?_ ?_
  · exact hs
  · exact upd_pln (hC.mono (by decide)) hs

theorem harvShow_ind {s : Machine.State} (hC : Closed [.reg 0x350, .pln] P) (hs : P s) :
    P (State.harvShow s) := by
  unfold State.harvShow
  exact putOn_ind (hC.mono (by decide)) (mpptWatch_ind (hC.mono (by decide)) hs)

theorem execHarvOvp_ind {s : Machine.State} (hC : Closed [.reg 0x318, .reg 0x154, .reg 0x178, .reg 0x2048, .sys, .rose,
    .queues, .pendg, .tens, .reg 0x350, .pln, .reg 0x368] P) (hs : P s) :
    Answers (execHarvOvp s) P := by
  unfold execHarvOvp
  refine answers_next ?_
  refine when_ind (fun _ hz1 => ?_) ?_
  · extract_lets -merge -underBinder z2
    have hz2 : P z2 := by
      exact setFld_ind (hC.mono (by decide)) hz1
    exact raise_ind (hC.mono (by decide)) (harvShow_ind (hC.mono (by decide)) (risen_ind (hC.mono (by decide)) (setFld_ind
        (hC.mono (by decide)) hz2)))
  · exact hs

theorem execHarvUvlo_ind {s : Machine.State} (hC : Closed [.reg 0x318, .reg 0x154, .reg 0x178, .reg 0x2048, .sys, .rose,
    .queues, .pendg, .tens, .reg 0x350, .pln] P) (hs : P s) :
    Answers (execHarvUvlo s) P := by
  unfold execHarvUvlo
  refine answers_next ?_
  refine when_ind (fun _ hz1 => ?_) ?_
  · exact raise_ind (hC.mono (by decide)) (harvShow_ind (hC.mono (by decide)) (setFld_ind (hC.mono (by decide)) hz1))
  · exact hs

theorem execHarvCeiling_ind {s : Machine.State} (hC : Closed [.loops, .reg 0x418, .reg 0x154, .reg 0x178, .reg 0x2048, .sys,
    .rose, .queues, .pendg, .tens, .reg 0x350, .pln] P) (hs : P s) :
    Answers (execHarvCeiling s) P := by
  unfold execHarvCeiling
  refine answers_next ?_
  refine when_ind (fun _ hz1 => ?_) ?_
  · exact satHigh_ind (hC.mono (by decide)) (harvShow_ind (hC.mono (by decide)) (setFld_ind (hC.mono (by decide)) hz1))
  · exact hs

theorem execHarvResume_ind {stop : HarvStop} {s : Machine.State} (hC : Closed [.reg 0x350, .pln] P) (hs : P s) :
    Answers (execHarvResume stop s) P := by
  unfold execHarvResume
  refine answers_next ?_
  refine when_ind (fun _ hz1 => ?_) ?_
  · refine harvShow_ind (hC.mono (by decide)) ?_
    split
    · exact setFld_ind (hC.mono (by decide)) hz1
    · exact setFld_ind (hC.mono (by decide)) hz1
    · exact setFld_ind (hC.mono (by decide)) hz1
  · exact hs

theorem execPwrMeasUpdate_ind {vstore : Nat} {vharv : Nat} {iharv : Nat} {s : Machine.State} (hC : Closed [.pln, .reg 0x158,
    .stw, .reg 0x344, .reg 0x350, .reg 0x348, .sys] P) (hs : P s) :
    Answers (execPwrMeasUpdate vstore vharv iharv s) P := by
  unfold execPwrMeasUpdate
  refine answers_next ?_
  refine when_ind (fun _ hz1 => ?_) ?_
  · extract_lets -merge -underBinder n2 z3 z4
    have hz3 : P z3 := by
      exact modSys_ind (hC.mono (by decide)) rfl rfl hz1
    have hz4 : P z4 := by
      exact setFld_ind (hC.mono (by decide)) (setFld_ind (hC.mono (by decide)) (setFld_ind (hC.mono (by decide)) hz3))
    exact mpptWatch_ind (hC.mono (by decide)) (supplyShow_ind (hC.mono (by decide)) (putOn_ind (hC.mono (by decide)) hz4))
  · exact hs

theorem execBankLost_ind {sens : Bool} {s : Machine.State} (hC : Closed [.sys, .rose, .queues, .pendg, .tens, .descs, .ports,
    .clk, .loops, .regs, .charge, .chargeLast, .chainDue, .streams, .tx] P) (hs : P s) :
    Answers (execBankLost sens s) P := by
  unfold execBankLost
  extract_lets -merge -underBinder n1
  refine answers_next ?_
  refine when_ind (fun _ hz2 => ?_) ?_
  · extract_lets -merge -underBinder z3 z4
    have hz3 : P z3 := by
      exact setFld_ind (hC.mono rfl) hz2
    have hz4 : P z4 := by
      refine ite_ind ?_ ?_
      · exact checkPorts_ind (hC.mono (by decide)) (cutPorts_ind (hC.mono (by decide)) hz3)
      · exact spiFree_ind (hC.mono (by decide)) (modSys_ind (hC.mono (by decide)) rfl rfl (abortTx_ind (hC.mono (by decide))
          (abortTx_ind (hC.mono (by decide)) hz3)))
    exact raise_ind (hC.mono (by decide)) hz4
  · exact hs

theorem execBankRestored_ind {sens : Bool} {pins : Nat} {s : Machine.State} (hC : Closed [.sys, .regs] P) (hs : P s) :
    Answers (execBankRestored sens pins s) P := by
  unfold execBankRestored
  extract_lets -merge -underBinder n1
  refine answers_next ?_
  refine when_ind (fun _ hz2 => ?_) ?_
  · extract_lets -merge -underBinder n3
    exact modSys_ind (hC.mono (by decide)) rfl rfl (setFld_ind (hC.mono rfl) hz2)
  · exact hs

theorem execStowEntry_ind {s : Machine.State} (hC : Closed [.pln, .sys, .rose, .queues, .pendg, .tens, .loops, .mode, .afe,
    .descs, .ports, .clk, .regs, .charge, .chargeLast, .chainDue] P) (hs : P s) :
    Answers (execStowEntry s) P := by
  unfold execStowEntry
  refine answers_next ?_
  refine when_ind (fun _ hz1 => ?_) ?_
  · extract_lets -merge -underBinder n2 n3 n4 z5 z6 z7 z8 z9 z10 n11
    have hz5 : P z5 := by
      refine forEach_ind (fun _ _ hz12 => ?_) ?_
      · exact railCut_ind (hC.mono (by decide)) hz12
      · exact hz1
    have hz6 : P z6 := by
      exact modAfe_ind (hC.mono (by decide)) hz5
    have hz7 : P z7 := by
      exact addSat_ind (hC.mono (by decide)) (setFld_ind (hC.mono (by decide)) hz6)
    have hz8 : P z8 := by
      exact modMode_ind (hC.mono (by decide)) (by intro; first | rfl | (dsimp only; split <;> rfl)) hz7
    have hz9 : P z9 := by
      exact switchTo_ind (hC.mono (by decide)) hz8
    have hz10 : P z10 := by
      exact setFld_ind (hC.mono (by decide)) (setFld_ind (hC.mono (by decide)) (synthOff_ind (hC.mono (by decide))
          (switched_ind (hC.mono (by decide)) hz9)))
    refine ite_ind ?_ ?_
    · exact harvShow_ind (hC.mono (by decide)) (upd_pln (hC.mono (by decide)) hz10)
    · exact hz9
  · exact hs

theorem execStowTimeWake_ind {s : Machine.State} (hC : Closed [.sys] P) (hs : P s) :
    Answers (execStowTimeWake s) P := by
  unfold execStowTimeWake
  refine answers_next ?_
  refine when_ind (fun _ hz1 => ?_) ?_
  · exact wakeCause_ind (hC.mono (by decide)) hz1
  · exact hs

theorem execWakeEdge_ind {pin : Nat} {falling : Bool} {s : Machine.State} (hC : Closed [.sys] P) (hs : P s) :
    Answers (execWakeEdge pin falling s) P := by
  unfold execWakeEdge
  extract_lets -merge -underBinder n1 n2
  refine answers_next ?_
  refine when_ind (fun _ hz3 => ?_) ?_
  · extract_lets -merge -underBinder z4
    have hz4 : P z4 := by
      refine ite_ind ?_ ?_
      · exact modSys_ind (hC.mono (by decide)) rfl rfl hz3
      · exact setPin_ind (hC.mono (by decide)) hz3
    refine when_ind (fun _ hz5 => ?_) ?_
    · exact wakeCause_ind (hC.mono (by decide)) hz5
    · exact hz4
  · exact hs

theorem execLookoutMatch_ind {addr : Nat} {_read : Bool} {s : Machine.State} (hC : Closed [.reg 0xd48, .reg 0xd54, .sys] P)
    (hs : P s) :
    Answers (execLookoutMatch addr _read s) P := by
  unfold execLookoutMatch
  refine answers_next ?_
  refine when_ind (fun _ hz1 => ?_) ?_
  · exact setFld_ind (hC.mono (by decide)) (addSat_ind (hC.mono (by decide)) (setFld_ind (hC.mono (by decide)) (wakeCause_ind
      (hC.mono (by decide)) hz1)))
  · exact hs

theorem toG0_ind {s : Machine.State} (hC : Closed [.reg 0x218, .reg 0x154, .reg 0x178, .reg 0x2048, .sys, .rose, .queues,
    .pendg, .tens, .reg 0x354, .loops, .pln, .reg 0x260, .reg 0x254, .reg 0x248, .reg 0x258, .reg 0x244] P) (hs : P s) :
    P (State.toG0 s) := by
  unfold State.toG0
  extract_lets -merge -underBinder z1 z2
  have hz1 : P z1 := by
    refine ite_ind ?_ ?_
    · exact switched_ind (hC.mono (by decide)) hs
    · exact hs
  have hz2 : P z2 := by
    exact setFld_ind (hC.mono (by decide)) (setFld_ind (hC.mono (by decide)) (setFld_ind (hC.mono (by decide)) hz1))
  refine ite_ind ?_ ?_
  · exact switched_ind (hC.mono (by decide)) (switchTo_ind (hC.mono (by decide)) hz2)
  · exact hz1

theorem wakeUp_ind {s : Machine.State} (hC : Closed [.clk, .sys, .rose, .queues, .pendg, .tens, .loops, .regs, .stw, .nv,
    .descs, .ports, .charge, .chargeLast, .chainDue, .afe, .rck, .mode, .pln] P) (hs : P s) :
    P (State.wakeUp s) := by
  unfold State.wakeUp
  extract_lets -merge -underBinder n1 n2 z3 z4 z5 z6 z7 n8 z9 n10 z11 z12
  have hz3 : P z3 := by
    exact modMode_ind (hC.mono (by decide)) (by intro; first | rfl | (dsimp only; split <;> rfl)) (toG0_ind (hC.mono (by
        decide)) hs)
  have hz4 : P z4 := by
    exact setFld_ind (hC.mono (by decide)) (setReg_ind (hC.mono (by decide)) hz3)
  have hz5 : P z5 := by
    refine ite_ind ?_ ?_
    · exact wakeHost_ind (hC.mono (by decide)) hz4
    · exact hz4
  have hz6 : P z6 := by
    refine ite_ind ?_ ?_
    · exact raise_ind (hC.mono (by decide)) hz5
    · exact hz5
  have hz7 : P z7 := by
    exact openEpoch_ind (hC.mono (by decide)) hz6
  have hz9 : P z9 := by
    refine ite_ind ?_ ?_
    · exact upd_clk (hC.mono (by decide)) hz7
    · exact hz6
  have hz11 : P z11 := by
    refine forEach_ind (fun _ _ hz13 => ?_) ?_
    · refine ite_ind ?_ ?_
      · exact hz13
      · refine ite_ind ?_ ?_
        · exact modSys_ind (hC.mono (by decide)) rfl rfl hz13
        · exact railOn_ind (hC.mono (by decide)) hz13
    · exact hz9
  have hz12 : P z12 := by
    exact excApply_ind (hC.mono (by decide)) (modSys_ind (hC.mono (by decide)) rfl rfl hz11)
  refine ite_ind ?_ ?_
  · exact dipEnter_ind (hC.mono (by decide)) hz12
  · exact hz12

theorem execStowWake_ind {s : Machine.State} (hC : Closed [.clk, .sys, .rose, .queues, .pendg, .tens, .loops, .regs, .stw,
    .nv, .descs, .ports, .charge, .chargeLast, .chainDue, .afe, .rck, .mode, .pln] P) (hs : P s) :
    Answers (execStowWake s) P := by
  unfold execStowWake
  refine answers_next ?_
  refine when_ind (fun _ hz1 => ?_) ?_
  · exact regear_ind (hC.mono (by decide)) (wakeUp_ind (hC.mono (by decide)) hz1)
  · exact hs

theorem execAmpLost_ind {startFailed : Bool} {s : Machine.State} (hC : Closed [.clk, .sys, .rose, .queues, .pendg, .tens,
    .loops, .reset, .log, .nv, .stw, .asm, .env, .regs, .hallmark, .lanes, .closed, .tx, .asy, .tam, .descs, .ports, .charge,
    .chargeLast, .chainDue, .afe, .rck, .mode, .pln] P) (hs : P s) :
    Answers (execAmpLost startFailed s) P := by
  unfold execAmpLost
  extract_lets -merge -underBinder n1
  refine answers_next ?_
  refine when_ind (fun _ hz2 => ?_) ?_
  · extract_lets -merge -underBinder z3 z4
    have hz3 : P z3 := by
      exact raise_ind (hC.mono (by decide)) (setFld_ind (hC.mono (by decide)) (setFld_ind (hC.mono (by decide)) hz2))
    have hz4 : P z4 := by
      exact holdFrom_ind (hC.mono (by decide)) (wakeUp_ind (hC.mono (by decide)) (holdFlags_ind (hC.mono (by decide))
          (freeRun_ind (hC.mono (by decide)) hz3)))
    refine ite_ind ?_ ?_
    · refine when_ind (fun _ hz5 => ?_) ?_
      · exact regear_ind (hC.mono (by decide)) hz5
      · exact hz4
    · exact holdover_ind (hC.mono (by decide)) (unlock_ind (hC.mono (by decide)) hz3)
  · exact hs

theorem execRetentionLoss_ind {s : Machine.State} (hC : Closed [.closed, .log, .sys] P) (hs : P s) :
    Answers (execRetentionLoss s) P := by
  unfold execRetentionLoss
  refine answers_next ?_
  refine when_ind (fun _ hz1 => ?_) ?_
  · extract_lets -merge -underBinder z2 n3
    have hz2 : P z2 := by
      exact modSys_ind (hC.mono (by decide)) rfl rfl hz1
    have key4 : ∀ e, P e → ∀ v0 v1, (State.mapsWf e = true → mapWf (fun _ => []) v0 = true) → P { e with closed := v0, log :=
        v1 } :=
      fun e he v0 _ w0 => upd_log (s := { e with closed := v0 }) (hC.mono (by decide)) (upd_closed (s := e) (hC.mono (by
          decide)) he w0)
    refine key4 _ ?_ _ _
      (by
        first
        | exact fun _ => rfl
        | exact fun h => mapWf_mapSet (mapsWf_closed h)
        | exact fun h => mapWf_filter (mapsWf_closed h))
    exact hz2
  · exact hs

theorem advance_ind {s : Machine.State} (hC : Closed [.rck] P) (hs : P s) :
    P (State.advance s) := by
  unfold State.advance
  extract_lets -merge -underBinder n1 n2 n3 n4 n5 n6
  exact upd_rck (hC.mono (by decide)) hs

theorem slewSet_ind {s : Machine.State} (hC : Closed [.rck] P) (hs : P s) :
    P (State.slewSet s) := by
  unfold State.slewSet
  extract_lets -merge -underBinder n1 n2
  exact upd_rck (hC.mono (by decide)) hs

theorem setPhase_ind {s : Machine.State} {r : Int} {fast : Bool} (hC : Closed [.rck] P) (hs : P s) :
    P (State.setPhase s r fast) := by
  unfold State.setPhase
  extract_lets -merge -underBinder n1
  exact slewSet_ind (hC.mono (by decide)) (upd_rck (hC.mono (by decide)) hs)

theorem syncStamp_ind {s : Machine.State} {stamp : Nat} {seq : Nat} (hC : Closed [.reg 0x518, .reg 0x154, .reg 0x178, .reg
    0x2048, .sys, .rose, .queues, .pendg, .tens, .reg 0x58c, .reg 0x588, .reg 0x584, .rck] P) (hs : P s) :
    P (State.syncStamp s stamp seq) := by
  unfold State.syncStamp
  extract_lets -merge -underBinder n1 n2 z3
  have hz3 : P z3 := by
    unfold z3
    exact upd_rck (hC.mono (by decide)) hs
  exact raise_ind (hC.mono (by decide)) (setFld_ind (hC.mono (by decide)) (setFld_ind (hC.mono (by decide)) (setFld_ind
      (hC.mono (by decide)) hz3)))

theorem beaconDone_ind {s : Machine.State} {result : Nat} (hC : Closed [.reg 0x59c, .reg 0x518, .reg 0x154, .reg 0x178, .reg
    0x2048, .sys, .rose, .queues, .pendg, .tens] P) (hs : P s) :
    P (State.beaconDone s result) := by
  unfold State.beaconDone
  extract_lets -merge -underBinder z1
  have hz1 : P z1 := by
    exact setFld_ind (hC.mono (by decide)) hs
  refine ite_ind ?_ ?_
  · exact addSat_ind (hC.mono (by decide)) hz1
  · exact raise_ind (hC.mono (by decide)) (addSat_ind (hC.mono (by decide)) hz1)

theorem pairDone_ind {s : Machine.State} {e : SyncEntry} (hC : Closed [.rck] P) (hs : P s) :
    P (State.pairDone s e) := by
  unfold State.pairDone
  extract_lets -merge -underBinder n1
  exact upd_rck (hC.mono (by decide)) hs

theorem discipline_ind {s : Machine.State} {phi : Int} {dt : Nat} (hC : Closed [.loops, .regs, .sys, .rose, .queues, .pendg,
    .tens] P) (hs : P s) :
    P (State.discipline s phi dt) := by
  unfold State.discipline
  exact loopUpdate_ind (hC.mono (by decide)) hs

theorem beaconAccept_ind {s : Machine.State} {e : SyncEntry} {src : Nat} {mt : Nat} (hC : Closed [.sys, .rose, .queues,
    .pendg, .tens, .rck, .loops, .regs] P) (hs : P s) :
    P (State.beaconAccept s e src mt) := by
  unfold State.beaconAccept
  extract_lets -merge -underBinder n1
  split
  · extract_lets -merge -underBinder n2
    exact beaconDone_ind (hC.mono (by decide)) (pairDone_ind (hC.mono (by decide)) (raise_ind (hC.mono (by decide))
        (epochRecord_ind (hC.mono (by decide)) (setPhase_ind (hC.mono (by decide)) (putOfs_ind (hC.mono (by decide)) hs)))))
  · extract_lets -merge -underBinder n3 z4 z5
    have hz4 : P z4 := by
      exact setFld_ind (hC.mono (by decide)) hs
    have hz5 : P z5 := by
      unfold z5
      split
      · exact hz4
      · extract_lets -merge -underBinder n6 z7 n8
        have hz7 : P z7 := by
          refine ite_ind ?_ ?_
          · exact discipline_ind (hC.mono (by decide)) hz4
          · exact hz4
        refine ite_ind ?_ ?_
        · exact upd_rck (hC.mono (by decide)) hz7
        · exact hz4
    refine ite_ind ?_ ?_
    · exact beaconDone_ind (hC.mono (by decide)) (pairDone_ind (hC.mono (by decide)) (setPhase_ind (hC.mono (by decide))
        (openEpoch_ind (hC.mono (by decide)) hz4)))
    · exact beaconDone_ind (hC.mono (by decide)) (pairDone_ind (hC.mono (by decide)) (setPhase_ind (hC.mono (by decide)) hz5))

theorem beacon_ind {s : Machine.State} {isSigned : Bool} {seq : Nat} {mt : Nat} (hC : Closed [.sys, .rose, .queues, .pendg,
    .tens, .rck, .loops, .regs] P) (hs : P s) :
    P (State.beacon s isSigned seq mt) := by
  unfold State.beacon
  refine ite_ind ?_ ?_
  · exact beaconDone_ind (hC.mono (by decide)) hs
  · split
    · exact beaconDone_ind (hC.mono (by decide)) hs
    · refine ite_ind ?_ ?_
      · exact beaconDone_ind (hC.mono (by decide)) hs
      · refine ite_ind ?_ ?_
        · exact beaconDone_ind (hC.mono (by decide)) hs
        · refine ite_ind ?_ ?_
          · exact beaconDone_ind (hC.mono (by decide)) hs
          · exact beaconAccept_ind (hC.mono (by decide)) hs

theorem execBeaconWindowEnd_ind {seq : Nat} {s : Machine.State} (hC : Closed [.rck] P) (hs : P s) :
    Answers (execBeaconWindowEnd seq s) P := by
  unfold execBeaconWindowEnd
  refine answers_next ?_
  refine when_ind (fun _ hz1 => ?_) ?_
  · extract_lets -merge -underBinder n2
    exact upd_rck (hC.mono (by decide)) hz1
  · exact hs

theorem modSxt_ind {s : Machine.State} {f : Sxt → Sxt} (hC : Closed [.sxt] P) (hs : P s) :
    P (State.modSxt s f) := by
  unfold State.modSxt
  exact upd_sxt (hC.mono (by decide)) hs

theorem sxtShow_ind {s : Machine.State} (hC : Closed [.reg 0x798, .reg 0x794, .reg 0x778, .reg 0x760] P) (hs : P s) :
    P (State.sxtShow s) := by
  unfold State.sxtShow
  extract_lets -merge -underBinder z1 z2 z3
  have hz1 : P z1 := by
    exact putOn_ind (hC.mono (by decide)) hs
  have hz2 : P z2 := by
    exact putOn_ind (hC.mono (by decide)) (putOn_ind (hC.mono (by decide)) (putOn_ind (hC.mono (by decide)) hz1))
  have hz3 : P z3 := by
    exact setFld_ind (hC.mono (by decide)) (setFld_ind (hC.mono (by decide)) hz2)
  exact setFld_ind (hC.mono (by decide)) (setFld_ind (hC.mono (by decide)) hz3)

theorem follow_ind {s : Machine.State} (hC : Closed [.sxt] P) (hs : P s) :
    P (State.follow s) := by
  unfold State.follow
  extract_lets -merge -underBinder n1
  refine ite_ind ?_ ?_
  · exact modSxt_ind (hC.mono (by decide)) hs
  · exact hs

theorem predict_ind {s : Machine.State} {d : Nat} (hC : Closed [.sxt] P) (hs : P s) :
    P (State.predict s d) := by
  unfold State.predict
  refine ite_ind ?_ ?_
  · exact follow_ind (hC.mono (by decide)) (modSxt_ind (hC.mono (by decide)) hs)
  · exact hs

theorem sxtLose_ind {s : Machine.State} {cause : Nat} (hC : Closed [.reg 0x798, .reg 0x794, .reg 0x778, .reg 0x760, .rose,
    .reg 0x1818, .reg 0x154, .reg 0x178, .reg 0x2048, .sys, .queues, .pendg, .tens, .reg 0x718, .sxt, .reg 0x79c, .reg 0x764]
    P) (hs : P s) :
    P (State.sxtLose s cause) := by
  unfold State.sxtLose
  extract_lets -merge -underBinder z1 z2 z3
  have hz1 : P z1 := by
    exact setFld_ind (hC.mono (by decide)) (setFld_ind (hC.mono (by decide)) hs)
  have hz2 : P z2 := by
    exact addSat_ind (hC.mono (by decide)) (setFld_ind (hC.mono (by decide)) (setFld_ind (hC.mono (by decide)) hz1))
  have hz3 : P z3 := by
    exact modSxt_ind (hC.mono (by decide)) hz2
  refine ite_ind ?_ ?_
  · exact sxtShow_ind (hC.mono (by decide)) (presentAt_ind (hC.mono (by decide)) (raise_ind (hC.mono (by decide)) (raise_ind
      (hC.mono (by decide)) (risen_ind (hC.mono (by decide)) hz3))))
  · exact hs

theorem sxtGain_ind {s : Machine.State} (hC : Closed [.rose, .reg 0x718, .reg 0x154, .reg 0x178, .reg 0x2048, .sys, .queues,
    .pendg, .tens, .descs, .reg 0x798, .reg 0x794, .reg 0x778, .reg 0x760, .reg 0x79c, .reg 0x764, .sxt] P) (hs : P s) :
    P (State.sxtGain s) := by
  unfold State.sxtGain
  extract_lets -merge -underBinder n1 z2 z3 z4 z5
  have hz2 : P z2 := by
    refine ite_ind ?_ ?_
    · exact modSxt_ind (hC.mono (by decide)) hs
    · exact hs
  have hz3 : P z3 := by
    exact modSxt_ind (hC.mono (by decide)) (setFld_ind (hC.mono (by decide)) hz2)
  have hz4 : P z4 := by
    exact sxtShow_ind (hC.mono (by decide)) (addSat_ind (hC.mono (by decide)) (setFld_ind (hC.mono (by decide)) hz3))
  have hz5 : P z5 := by
    refine forEach_ind (fun _ _ hz6 => ?_) ?_
    · exact modDesc_ind (hC.mono (by decide)) hz6
    · exact hz4
  exact presentAt_ind (hC.mono (by decide)) (raise_ind (hC.mono (by decide)) hz5)

theorem lockCheck_ind {s : Machine.State} (hC : Closed [.reg 0x798, .reg 0x794, .reg 0x778, .reg 0x760, .rose, .reg 0x1818,
    .reg 0x154, .reg 0x178, .reg 0x2048, .sys, .queues, .pendg, .tens, .reg 0x718, .sxt, .reg 0x79c, .reg 0x764, .descs] P)
    (hs : P s) :
    P (State.lockCheck s) := by
  unfold State.lockCheck
  refine ite_ind ?_ ?_
  · refine ite_ind ?_ ?_
    · exact sxtLose_ind (hC.mono (by decide)) hs
    · refine ite_ind ?_ ?_
      · exact sxtLose_ind (hC.mono (by decide)) hs
      · refine ite_ind ?_ ?_
        · exact sxtLose_ind (hC.mono (by decide)) hs
        · exact hs
  · refine ite_ind ?_ ?_
    · exact sxtGain_ind (hC.mono (by decide)) hs
    · exact hs

theorem history_ind {s : Machine.State} (hC : Closed [.sxt] P) (hs : P s) :
    P (State.history s) := by
  unfold State.history
  refine ite_ind ?_ ?_
  · exact modSxt_ind (hC.mono (by decide)) hs
  · exact hs

theorem residual_ind {s : Machine.State} {e : Int} (hC : Closed [.reg 0x77c, .sxt] P) (hs : P s) :
    P (State.residual s e) := by
  unfold State.residual
  extract_lets -merge -underBinder z1 n2 n3
  have hz1 : P z1 := by
    exact modSxt_ind (hC.mono (by decide)) hs
  exact setFld_ind (hC.mono (by decide)) (setFld_ind (hC.mono (by decide)) hz1)

theorem correct_ind {s : Machine.State} {isIdx : Bool} {e : Int} {t : Nat} {count : Bool} (hC : Closed [.reg 0x77c, .sxt] P)
    (hs : P s) :
    P (State.correct s isIdx e t count) := by
  unfold State.correct
  extract_lets -merge -underBinder n1 n2 n3 n4 n5 n6 z7 n8 n9 n10
  have hz7 : P z7 := by
    exact modSxt_ind (hC.mono (by decide)) hs
  exact residual_ind (hC.mono (by decide)) (modSxt_ind (hC.mono (by decide)) hz7)

theorem setSpeed_ind {s : Machine.State} {isIdx : Bool} {m : BitVec 32} {t : Nat} (hC : Closed [.sxt] P) (hs : P s) :
    P (State.setSpeed s isIdx m t) := by
  unfold State.setSpeed
  extract_lets -merge -underBinder n1 n2
  refine ite_ind ?_ ?_
  · exact hs
  · exact modSxt_ind (hC.mono (by decide)) hs

theorem measure_ind {s : Machine.State} {isIdx : Bool} {m : BitVec 32} {stamp : Nat} (hC : Closed [.reg 0x798, .reg 0x794,
    .reg 0x778, .reg 0x760, .rose, .reg 0x1818, .reg 0x154, .reg 0x178, .reg 0x2048, .sys, .queues, .pendg, .tens, .reg 0x718,
    .sxt, .reg 0x79c, .reg 0x764, .descs, .reg 0x77c] P) (hs : P s) :
    P (State.measure s isIdx m stamp) := by
  unfold State.measure
  extract_lets -merge -underBinder n1 n2 n3 n4 z5 z6
  have hz5 : P z5 := by
    refine ite_ind ?_ ?_
    · exact modSxt_ind (hC.mono (by decide)) hs
    · refine ite_ind ?_ ?_
      · exact setSpeed_ind (hC.mono (by decide)) hs
      · exact correct_ind (hC.mono (by decide)) hs
  have hz6 : P z6 := by
    exact modSxt_ind (hC.mono (by decide)) hz5
  exact sxtShow_ind (hC.mono (by decide)) (lockCheck_ind (hC.mono (by decide)) (follow_ind (hC.mono (by decide)) (history_ind
      (hC.mono (by decide)) (sxtShow_ind (hC.mono (by decide)) hz6))))

theorem execIdxMeasurement_ind {s : Machine.State} (hC : Closed [.reg 0x798, .reg 0x794, .reg 0x778, .reg 0x760, .rose, .reg
    0x1818, .reg 0x154, .reg 0x178, .reg 0x2048, .sys, .queues, .pendg, .tens, .reg 0x718, .sxt, .reg 0x79c, .reg 0x764,
    .descs, .reg 0x77c] P) (hs : P s) :
    Answers (execIdxMeasurement s) P := by
  unfold execIdxMeasurement
  extract_lets -merge -underBinder n1
  refine answers_next ?_
  refine when_ind (fun _ hz2 => ?_) ?_
  · exact measure_ind (hC.mono (by decide)) (setFld_ind (hC.mono (by decide)) hz2)
  · exact hs

theorem idxMissing_ind {s : Machine.State} (hC : Closed [.reg 0x760] P) (hs : P s) :
    P (State.idxMissing s) := by
  unfold State.idxMissing
  refine ite_ind ?_ ?_
  · exact setFld_ind (hC.mono (by decide)) hs
  · exact hs

theorem gravitySample_ind {s : Machine.State} {data : List Byte} {stamp : Nat} (hC : Closed [.reg 0x764, .reg 0x760, .reg
    0x798, .reg 0x794, .reg 0x778, .rose, .reg 0x1818, .reg 0x154, .reg 0x178, .reg 0x2048, .sys, .queues, .pendg, .tens, .reg
    0x718, .sxt, .reg 0x79c, .descs, .reg 0x77c] P) (hs : P s) :
    P (State.gravitySample s data stamp) := by
  unfold State.gravitySample
  extract_lets -merge -underBinder n1 n2 n3 n4 n5 n6 z7 n8 n9 n10 n11 n12
  have hz7 : P z7 := by
    exact modSxt_ind (hC.mono (by decide)) hs
  refine ite_ind ?_ ?_
  · exact setFld_ind (hC.mono (by decide)) hz7
  · exact idxMissing_ind (hC.mono (by decide)) (measure_ind (hC.mono (by decide)) hz7)

theorem gyroSample_ind {s0 : Machine.State} {data : List Byte} {stamp : Nat} (hC : Closed [.reg 0x764, .reg 0x798, .reg 0x794,
    .reg 0x778, .reg 0x760, .rose, .reg 0x1818, .reg 0x154, .reg 0x178, .reg 0x2048, .sys, .queues, .pendg, .tens, .reg 0x718,
    .sxt, .reg 0x79c, .descs] P) (hs0 : P s0) :
    P (State.gyroSample s0 data stamp) := by
  unfold State.gyroSample
  extract_lets -merge -underBinder z1 n2 n3 z4
  have hz1 : P z1 := by
    exact modSxt_ind (hC.mono (by decide)) hs0
  have hz4 : P z4 := by
    exact modSxt_ind (hC.mono (by decide)) hz1
  refine ite_ind ?_ ?_
  · exact setFld_ind (hC.mono (by decide)) hz1
  · exact sxtShow_ind (hC.mono (by decide)) (idxMissing_ind (hC.mono (by decide)) (lockCheck_ind (hC.mono (by decide))
      (follow_ind (hC.mono (by decide)) (history_ind (hC.mono (by decide)) (sxtShow_ind (hC.mono (by decide)) hz4)))))

theorem sextantSample_ind {s : Machine.State} {d : Nat} {grant : Nat} {data : List Byte} {stamp : Nat} (hC : Closed [.reg
    0x764, .reg 0x798, .reg 0x794, .reg 0x778, .reg 0x760, .rose, .reg 0x1818, .reg 0x154, .reg 0x178, .reg 0x2048, .sys,
    .queues, .pendg, .tens, .reg 0x718, .sxt, .reg 0x79c, .descs, .reg 0x77c] P) (hs : P s) :
    P (State.sextantSample s d grant data stamp) := by
  unfold State.sextantSample
  extract_lets -merge -underBinder z1
  have hz1 : P z1 := by
    refine ite_ind ?_ ?_
    · exact gravitySample_ind (hC.mono (by decide)) hs
    · exact hs
  refine ite_ind ?_ ?_
  · refine ite_ind ?_ ?_
    · exact gyroSample_ind (hC.mono (by decide)) hz1
    · exact hz1
  · exact hs

theorem sxtRestart_ind {s : Machine.State} {cause : Nat} (hC : Closed [.reg 0x798, .reg 0x794, .reg 0x778, .reg 0x760, .sxt,
    .rose, .reg 0x1818, .reg 0x154, .reg 0x178, .reg 0x2048, .sys, .queues, .pendg, .tens, .reg 0x718, .reg 0x79c, .reg 0x764]
    P) (hs : P s) :
    P (State.sxtRestart s cause) := by
  unfold State.sxtRestart
  exact sxtShow_ind (hC.mono (by decide)) (modSxt_ind (hC.mono (by decide)) (sxtLose_ind (hC.mono (by decide)) hs))

theorem execSxtLockLost_ind {cause : Nat} {s : Machine.State} (hC : Closed [.reg 0x798, .reg 0x794, .reg 0x778, .reg 0x760,
    .rose, .reg 0x1818, .reg 0x154, .reg 0x178, .reg 0x2048, .sys, .queues, .pendg, .tens, .reg 0x718, .sxt, .reg 0x79c, .reg
    0x764] P) (hs : P s) :
    Answers (execSxtLockLost cause s) P := by
  unfold execSxtLockLost
  extract_lets -merge -underBinder n1
  refine answers_next ?_
  refine when_ind (fun _ hz2 => ?_) ?_
  · exact sxtLose_ind (hC.mono (by decide)) hz2
  · exact hs

theorem execAngleComparatorFire_ind {k : Nat} {s : Machine.State} (hC : Closed [.rose, .regs, .sys, .queues, .pendg, .tens,
    .sxt] P) (hs : P s) :
    Answers (execAngleComparatorFire k s) P := by
  unfold execAngleComparatorFire
  refine answers_next ?_
  refine when_ind (fun _ hz1 => ?_) ?_
  · extract_lets -merge -underBinder z2 z3 z4
    have hz2 : P z2 := by
      exact modSxt_ind (hC.mono (by decide)) hz1
    have hz3 : P z3 := by
      exact raise_ind (hC.mono (by decide)) (setBit_ind (hC.mono (by decide)) hz2)
    have hz4 : P z4 := by
      refine ite_ind ?_ ?_
      · exact setFld_ind (hC.mono rfl) hz3
      · exact hz3
    exact presentCmp_ind (hC.mono (by decide)) hz4
  · exact hs

theorem execBandwidthUpdate_ind {s : Machine.State} (hC : Closed [.loops, .regs, .sys, .rose, .queues, .pendg, .tens] P) (hs :
    P s) :
    Answers (execBandwidthUpdate s) P := by
  unfold execBandwidthUpdate
  refine answers_next ?_
  refine when_ind (fun _ hz1 => ?_) ?_
  · extract_lets -merge -underBinder n2 n3 n4 n5
    exact loopUpdate_ind (hC.mono (by decide)) hz1
  · exact hs

theorem execAngleTrigger_ind {d : Nat} {s : Machine.State} (hC : Closed [.reg 0x1818, .reg 0x154, .reg 0x178, .reg 0x2048,
    .sys, .rose, .queues, .pendg, .tens, .reg 0x1858, .descs] P) (hs : P s) :
    Answers (execAngleTrigger d s) P := by
  unfold execAngleTrigger
  extract_lets -merge -underBinder n1 n2
  refine answers_next ?_
  refine when_ind (fun _ hz3 => ?_) ?_
  · extract_lets -merge -underBinder n4
    exact psqSkips_ind (hC.mono (by decide)) (trigger_ind (hC.mono (by decide)) (modDesc_ind (hC.mono (by decide)) hz3))
  · exact hs

theorem execNoLockTargetSkip_ind {d : Nat} {s : Machine.State} (hC : Closed [.reg 0x1818, .reg 0x154, .reg 0x178, .reg 0x2048,
    .sys, .rose, .queues, .pendg, .tens, .reg 0x1858, .descs] P) (hs : P s) :
    Answers (execNoLockTargetSkip d s) P := by
  unfold execNoLockTargetSkip
  extract_lets -merge -underBinder n1
  refine answers_next ?_
  refine when_ind (fun _ hz2 => ?_) ?_
  · exact psqSkips_ind (hC.mono (by decide)) (modDesc_ind (hC.mono (by decide)) hz2)
  · exact hs

theorem execAngleWithdraw_ind {s : Machine.State} (hC : Closed [.reg 0x1818, .reg 0x154, .reg 0x178, .reg 0x2048, .sys, .rose,
    .queues, .pendg, .tens, .reg 0x1858, .descs] P) (hs : P s) :
    Answers (execAngleWithdraw s) P := by
  unfold execAngleWithdraw
  refine answers_next ?_
  refine when_ind (fun _ hz1 => ?_) ?_
  · exact withdrawAll_ind (hC.mono (by decide)) hz1
  · exact hs

theorem learn_ind {s : Machine.State} {d : Int} (hC : Closed [.reg 0x354, .loops, .reg 0x418, .reg 0x154, .reg 0x178, .reg
    0x2048, .sys, .rose, .queues, .pendg, .tens, .pln] P) (hs : P s) :
    P (State.learn s d) := by
  unfold State.learn
  extract_lets -merge -underBinder n1 n2 z3 n4
  have hz3 : P z3 := by
    exact setLearned_ind (hC.mono (by decide)) hs
  exact setFld_ind (hC.mono (by decide)) (putLoop_ind (hC.mono (by decide)) hz3)

theorem execAvsUpdate_ind {mmin : Nat} {s : Machine.State} (hC : Closed [.pln, .reg 0x354, .loops, .reg 0x418, .reg 0x154,
    .reg 0x178, .reg 0x2048, .sys, .rose, .queues, .pendg, .tens, .reg 0x454] P) (hs : P s) :
    Answers (execAvsUpdate mmin s) P := by
  unfold execAvsUpdate
  refine answers_next ?_
  refine when_ind (fun _ hz1 => ?_) ?_
  · extract_lets -merge -underBinder n2 n3 z4 z5 n6
    have hz4 : P z4 := by
      exact setFld_ind (hC.mono (by decide)) hz1
    have hz5 : P z5 := by
      refine ite_ind ?_ ?_
      · exact hz4
      · refine ite_ind ?_ ?_
        · exact learn_ind (hC.mono (by decide)) hz4
        · refine ite_ind ?_ ?_
          · exact learn_ind (hC.mono (by decide)) hz4
          · exact learn_ind (hC.mono (by decide)) hz4
    exact upd_pln (hC.mono (by decide)) hz5
  · exact hs

theorem execAvsCanary_ind {s : Machine.State} (hC : Closed [.reg 0x418, .reg 0x154, .reg 0x178, .reg 0x2048, .sys, .rose,
    .queues, .pendg, .tens, .reg 0x454, .reg 0x354, .loops, .pln] P) (hs : P s) :
    Answers (execAvsCanary s) P := by
  unfold execAvsCanary
  refine answers_next ?_
  refine when_ind (fun _ hz1 => ?_) ?_
  · extract_lets -merge -underBinder z2
    have hz2 : P z2 := by
      refine ite_ind ?_ ?_
      · exact learn_ind (hC.mono (by decide)) hz1
      · exact hz1
    exact raise_ind (hC.mono (by decide)) (addSat_ind (hC.mono (by decide)) hz2)
  · exact hs

theorem govern_ind {s : Machine.State} {u : Nat} (hC : Closed [.pln, .loops, .regs, .sys, .rose, .queues, .pendg, .tens] P)
    (hs : P s) :
    P (State.govern s u) := by
  unfold State.govern
  extract_lets -merge -underBinder n1 n2
  split
  · extract_lets -merge -underBinder z3 n4
    have hz3 : P z3 := by
      exact loopUpdate_ind (hC.mono (by decide)) hs
    exact upd_pln (hC.mono (by decide)) hz3

theorem execGearWindowEnd_ind {assay : Nat} {sealing : Nat} {bundler : Nat} {steward : Nat} {cycles : Nat} {s : Machine.State}
    (hC : Closed [.clk, .sys, .rose, .queues, .pendg, .tens, .loops, .pln, .regs] P) (hs : P s) :
    Answers (execGearWindowEnd assay sealing bundler steward cycles s) P := by
  unfold execGearWindowEnd
  refine answers_next ?_
  refine when_ind (fun _ hz1 => ?_) ?_
  · extract_lets -merge -underBinder n2 z3
    have hz3 : P z3 := by
      exact setFld_ind (hC.mono (by decide)) hz1
    refine regear_ind (hC.mono (by decide)) ?_
    refine ite_ind ?_ ?_
    · exact govern_ind (hC.mono (by decide)) hz3
    · exact hz3
  · exact hs

theorem execMpptPowerSample_ind {vstore : Nat} {iharv : Nat} {s : Machine.State} (hC : Closed [.pln] P) (hs : P s) :
    Answers (execMpptPowerSample vstore iharv s) P := by
  unfold execMpptPowerSample
  refine answers_next ?_
  refine when_ind (fun _ hz1 => ?_) ?_
  · extract_lets -merge -underBinder n2
    exact upd_pln (hC.mono (by decide)) hz1
  · exact hs

theorem mpptStep_ind {s : Machine.State} {p : Nat} (hC : Closed [.pln, .loops, .regs, .sys, .rose, .queues, .pendg, .tens] P)
    (hs : P s) :
    P (State.mpptStep s p) := by
  unfold State.mpptStep
  extract_lets -merge -underBinder n1 n2 n3 z4 z5 n6
  have hz4 : P z4 := by
    exact loopUpdate_ind (hC.mono (by decide)) hs
  have hz5 : P z5 := by
    exact setFld_ind (hC.mono (by decide)) (setFld_ind (hC.mono (by decide)) hz4)
  exact upd_pln (hC.mono (by decide)) hz5

theorem execMpptUpdate_ind {s : Machine.State} (hC : Closed [.pln, .loops, .regs, .sys, .rose, .queues, .pendg, .tens] P) (hs
    : P s) :
    Answers (execMpptUpdate s) P := by
  unfold execMpptUpdate
  refine answers_next ?_
  refine when_ind (fun _ hz1 => ?_) ?_
  · extract_lets -merge -underBinder n2 z3 n4
    have hz3 : P z3 := by
      unfold z3
      exact upd_pln (hC.mono (by decide)) hz1
    refine ite_ind ?_ ?_
    · exact mpptStep_ind (hC.mono (by decide)) hz1
    · refine ite_ind ?_ ?_
      · exact putLoop_ind (hC.mono (by decide)) hz3
      · exact hz3
  · exact hs

theorem execVocResampleStart_ind {s : Machine.State} (hC : Closed [.reg 0x350, .pln] P) (hs : P s) :
    Answers (execVocResampleStart s) P := by
  unfold execVocResampleStart
  refine answers_next ?_
  refine when_ind (fun _ hz1 => ?_) ?_
  · extract_lets -merge -underBinder n2
    exact harvShow_ind (hC.mono (by decide)) (upd_pln (hC.mono (by decide)) hz1)
  · exact hs

theorem execVocPauseEnd_ind {vharv : Nat} {s : Machine.State} (hC : Closed [.sys, .rose, .queues, .pendg, .tens, .pln, .loops,
    .regs] P) (hs : P s) :
    Answers (execVocPauseEnd vharv s) P := by
  unfold execVocPauseEnd
  refine answers_next ?_
  refine when_ind (fun _ hz1 => ?_) ?_
  · extract_lets -merge -underBinder n2 z3 z4 z5 n6
    have hz3 : P z3 := by
      exact setFld_ind (hC.mono (by decide)) hz1
    have hz4 : P z4 := by
      refine ite_ind ?_ ?_
      · exact loopUpdate_ind (hC.mono (by decide)) hz3
      · exact hz3
    have hz5 : P z5 := by
      exact setFld_ind (hC.mono (by decide)) hz4
    exact raise_ind (hC.mono (by decide)) (harvShow_ind (hC.mono (by decide)) (upd_pln (hC.mono (by decide)) hz5))
  · exact hs

end Sys2Proof.Machine
end

