-- ==== Sys2Proof/Laws/FramesPath.lean ====
section
/-! SUPPORT. What each operation may change: the streams, the assay units, the resamplers, the bundler and the Rose. A property closed under
those parts of the state holds after the operation if it held before. -/

namespace Sys2Proof.Machine

variable {P : State → Prop}

theorem setRoute_ind {s : Machine.State} {kind : Nat} {idx : Nat} {t : Nat} {v : Nat} (hC : Closed [.routes] P) (hs : P s) :
    P (State.setRoute s kind idx t v) := by
  unfold State.setRoute
  exact upd_routes (hC.mono (by decide)) hs

theorem unrevoke_ind {s : Machine.State} {q : Nat} {p : Producer} {src : Nat} (hC : Closed [.pendg] P) (hs : P s) :
    P (State.unrevoke s q p src) := by
  unfold State.unrevoke
  exact setPend_ind (hC.mono (by decide)) hs

theorem copyTo_ind {s : Machine.State} {p : Producer} {i : Item} {c : Nat × Bool} (hC : Closed [.queues, .pendg, .reg 0x2048]
    P) (hs : P s) :
    P (State.copyTo s p i c) := by
  unfold State.copyTo
  refine ite_ind ?_ ?_
  · exact enqueue_ind (hC.mono (by decide)) (unrevoke_ind (hC.mono (by decide)) hs)
  · exact setPend_ind (hC.mono (by decide)) hs

theorem copyAll_ind {s : Machine.State} {p : Producer} {i : Item} {l : List (Nat × Bool)} (hC : Closed [.queues, .pendg, .reg
    0x2048] P) (hs : P s) :
    P (State.copyAll s p i l) := by
  unfold State.copyAll
  refine forEach_ind (fun _ _ hz1 => ?_) ?_
  · exact copyTo_ind (hC.mono (by decide)) hz1
  · exact hs

theorem gapAll_ind {s : Machine.State} {p : Producer} {g : Gap} {owner : Nat} {l : List (Nat × Bool)} (hC : Closed [.reg
    0x2048, .queues, .pendg] P) (hs : P s) :
    P (State.gapAll s p g owner l) := by
  unfold State.gapAll
  extract_lets -merge -underBinder n1
  refine ite_ind ?_ ?_
  · exact forwardGap_ind (hC.mono (by decide)) hs
  · refine forEach_ind (fun _ _ hz2 => ?_) ?_
    · exact forwardGap_ind (hC.mono (by decide)) hz2
    · exact hs

theorem stampChan_ind {s : Machine.State} {ch : Nat} {stamp : Nat} {missed : Nat} (hC : Closed [.stp] P) (hs : P s) :
    P (State.stampChan s ch stamp missed) := by
  unfold State.stampChan
  exact modChan_ind (hC.mono (by decide)) hs

theorem edgeStream_ind {s : Machine.State} {ch : Nat} {falling : Bool} (hC : Closed [.queues, .pendg, .reg 0x2048] P) (hs : P
    s) :
    P (State.edgeStream s ch falling) := by
  unfold State.edgeStream
  extract_lets -merge -underBinder n1 n2 n3
  refine ite_ind ?_ ?_
  · exact copyAll_ind (hC.mono (by decide)) hs
  · exact hs

theorem execEdgeStamp_ind {ch : Nat} {falling : Bool} {missed : Nat} {ticks : Nat} {code : Nat} {s : Machine.State} (hC :
    Closed [.queues, .pendg, .rose, .sys, .tens, .rck, .regs, .stp] P) (hs : P s) :
    Answers (execEdgeStamp ch falling missed ticks code s) P := by
  unfold execEdgeStamp
  extract_lets -merge -underBinder n1 n2 n3 n4 z5
  have hz5 : P z5 := by
    refine when_ind (fun _ hz12 => ?_) ?_
    · exact setPin_ind (hC.mono (by decide)) hz12
    · exact hs
  refine answers_next ?_
  refine when_ind (fun _ hz6 => ?_) ?_
  · extract_lets -merge -underBinder z7 z8 n9 z10 z11
    have hz7 : P z7 := by
      exact stampChan_ind (hC.mono (by decide)) hz6
    have hz8 : P z8 := by
      refine ite_ind ?_ ?_
      · exact raise_ind (hC.mono (by decide)) hz7
      · exact hz7
    have hz10 : P z10 := by
      exact setFld_ind (hC.mono rfl) (setFld_ind (hC.mono rfl) hz8)
    have hz11 : P z11 := by
      refine ite_ind ?_ ?_
      · exact syncStamp_ind (hC.mono (by decide)) hz10
      · exact hz10
    exact edgeStream_ind (hC.mono (by decide)) (presentEdge_ind (hC.mono (by decide)) hz11)
  · exact hz5

theorem setLine_ind {s : Machine.State} {n : Nat} {l : Line} (hC : Closed [.lines] P) (hs : P s) :
    P (State.setLine s n l) := by
  unfold State.setLine
  exact upd_lines (hC.mono (by decide)) hs

theorem icalUpdate_ind {s : Machine.State} (hC : Closed [.sys, .rose, .queues, .pendg, .tens, .icalRun, .loops, .regs, .lines]
    P) (hs : P s) :
    P (State.icalUpdate s) := by
  unfold State.icalUpdate
  extract_lets -merge -underBinder n1 n2 n3 n4 n5 z6 n7 n8 n9 z10 n11 z12
  have hz6 : P z6 := by
    refine forEach_ind (fun _ _ hz13 => ?_) ?_
    · extract_lets -merge -underBinder n14
      exact setLine_ind (hC.mono (by decide)) hz13
    · exact hs
  have hz10 : P z10 := by
    refine ite_ind ?_ ?_
    · exact loopUpdate_ind (hC.mono (by decide)) hz6
    · exact hz6
  have hz12 : P z12 := by
    exact addSat_ind (hC.mono (by decide)) (upd_icalRun (hC.mono (by decide)) hz10)
  refine ite_ind ?_ ?_
  · exact raise_ind (hC.mono (by decide)) (setFld_ind (hC.mono (by decide)) hz12)
  · exact hz12

theorem execIcalHit_ind {line : Nat} {code : Nat} {s : Machine.State} (hC : Closed [.sys, .rose, .queues, .pendg, .tens,
    .icalRun, .loops, .regs, .lines] P) (hs : P s) :
    Answers (execIcalHit line code s) P := by
  unfold execIcalHit
  refine answers_next ?_
  refine when_ind (fun _ hz1 => ?_) ?_
  · extract_lets -merge -underBinder n2 z3
    have hz3 : P z3 := by
      refine ite_ind ?_ ?_
      · exact hz1
      · exact setLine_ind (hC.mono (by decide)) hz1
    refine ite_ind ?_ ?_
    · exact icalUpdate_ind (hC.mono (by decide)) hz3
    · exact hz3
  · exact hs

theorem takeCapture_ind {s : State} {c : Capture} (hC : Closed [.regs, .stp, .sxt, .rose, .sys, .queues, .pendg, .tens,
    .descs] P) (h : P s) :
    P (s.takeCapture c) := by
  unfold State.takeCapture
  refine ite_ind h ?_
  dsimp only
  refine copyAll_ind (hC.mono (by decide)) (sextantSample_ind (hC.mono (by decide)) ?_)
  split
  · exact h
  · split
    · exact h
    · exact modChan_ind (hC.mono (by decide)) h

theorem takeGap_ind {s : Machine.State} {p : Nat} {g : Gap} (hC : Closed [.reg 0x2048, .queues, .pendg] P) (hs : P s) :
    P (State.takeGap s p g) := by
  unfold State.takeGap
  refine ite_ind ?_ ?_
  · exact gapAll_ind (hC.mono (by decide)) hs
  · exact forwardGap_ind (hC.mono (by decide)) hs

theorem execStampService_ind {p : Nat} {s : Machine.State} (hC : Closed [.pendg, .queues, .regs, .stp, .sxt, .rose, .sys,
    .tens, .descs] P) (hs : P s) :
    Answers (execStampService p s) P := by
  unfold execStampService
  extract_lets -merge -underBinder n1
  refine answers_next ?_
  refine when_ind (fun _ hz2 => ?_) ?_
  · split
    · exact hz2
    · split
      · split
        · refine forEach_ind (fun _ _ hz3 => ?_) ?_
          · exact resetSkip_ind (hC.mono (by decide)) hz3
          · exact popQueue_ind (hC.mono (by decide)) hz2 ‹_›
        · exact takeCapture_ind (hC.mono (by decide)) (popQueue_ind (hC.mono (by decide)) hz2 ‹_›)
      · refine forEach_ind (fun _ _ hz4 => ?_) ?_
        · exact takeGap_ind (hC.mono (by decide)) hz4
        · exact popQueue_ind (hC.mono (by decide)) hz2 ‹_›
      · exact popQueue_ind (hC.mono (by decide)) hz2 ‹_›
  · exact hs

theorem closeOut_ind {s : Machine.State} {u : Nat} (hC : Closed [.queues, .pendg, .reg 0x2048, .asy] P) (hs : P s) :
    P (State.closeOut s u) := by
  unfold State.closeOut
  extract_lets -merge -underBinder n1 n2 n3 n4 n5 n6 n7
  refine ite_ind ?_ ?_
  · exact hs
  · exact copyAll_ind (hC.mono (by decide)) (modUnit_ind (hC.mono (by decide)) hs)

theorem emitFeatures_ind {s : Machine.State} {u : Nat} {first : Nat} {last : Nat} (hC : Closed [.queues, .pendg, .reg 0x2048,
    .asy] P) (hs : P s) :
    P (State.emitFeatures s u first last) := by
  unfold State.emitFeatures
  extract_lets -merge -underBinder n1 n2 n3 n4 z5 n6
  have hz5 : P z5 := by
    exact modUnit_ind (hC.mono (by decide)) hs
  refine ite_ind ?_ ?_
  · exact copyTo_ind (hC.mono (by decide)) hz5
  · exact hz5

theorem emitEvent_ind {s : Machine.State} {u : Nat} {i : Item} (hC : Closed [.queues, .pendg, .reg 0x2048] P) (hs : P s) :
    P (State.emitEvent s u i) := by
  unfold State.emitEvent
  refine ite_ind ?_ ?_
  · exact copyTo_ind (hC.mono (by decide)) hs
  · exact hs

theorem setActive_ind {s : Machine.State} {u : Nat} {b : Bool} (hC : Closed [.rose, .regs, .sys, .queues, .pendg, .tens, .asy]
    P) (hs : P s) :
    P (State.setActive s u b) := by
  unfold State.setActive
  extract_lets -merge -underBinder z1 z2
  have hz1 : P z1 := by
    exact putOn_ind (hC.mono rfl) hs
  have hz2 : P z2 := by
    exact addSat_ind (hC.mono rfl) (modUnit_ind (hC.mono (by decide)) hz1)
  refine ite_ind ?_ ?_
  · exact hs
  · refine ite_ind ?_ ?_
    · exact presentRise_ind (hC.mono (by decide)) (raise_ind (hC.mono rfl) hz2)
    · exact presentFall_ind (hC.mono (by decide)) hz1

theorem decideActive_ind {s : Machine.State} {u : Nat} {b : Bool} {i : Item} (hC : Closed [.queues, .pendg, .rose, .regs,
    .sys, .tens, .asy] P) (hs : P s) :
    P (State.decideActive s u b i) := by
  unfold State.decideActive
  exact emitEvent_ind (hC.mono (by decide)) (setActive_ind (hC.mono (by decide)) hs)

theorem ruleDecide_ind {s : Machine.State} {u : Nat} {b : Bool} {stamp : Nat} (hC : Closed [.regs, .asy, .queues, .pendg,
    .rose, .sys, .tens] P) (hs : P s) :
    P (State.ruleDecide s u b stamp) := by
  unfold State.ruleDecide
  extract_lets -merge -underBinder n1 n2
  refine ite_ind ?_ ?_
  · exact hs
  · refine ite_ind ?_ ?_
    · exact setFld_ind (hC.mono rfl) (modUnit_ind (hC.mono (by decide)) hs)
    · exact decideActive_ind (hC.mono (by decide)) hs

theorem ruleTick_ind {s : Machine.State} {u : Nat} {stamp : Nat} (hC : Closed [.regs, .asy, .queues, .pendg, .rose, .sys,
    .tens] P) (hs : P s) :
    P (State.ruleTick s u stamp) := by
  unfold State.ruleTick
  extract_lets -merge -underBinder n1 n2 n3 n4 n5 n6 z7
  have hz7 : P z7 := by
    exact setFld_ind (hC.mono rfl) (modUnit_ind (hC.mono (by decide)) hs)
  refine ite_ind ?_ ?_
  · exact hs
  · refine ite_ind ?_ ?_
    · exact ruleDecide_ind (hC.mono (by decide)) hz7
    · refine ite_ind ?_ ?_
      · exact ruleDecide_ind (hC.mono (by decide)) hz7
      · exact hz7

theorem compareAll_ind {s : Machine.State} {u : Nat} {frame : Bool} {noLock : Bool} (hC : Closed [.regs, .asy] P) (hs : P s) :
    P (State.compareAll s u frame noLock) := by
  unfold State.compareAll
  extract_lets -merge -underBinder n1
  exact setFld_ind (hC.mono rfl) (modUnit_ind (hC.mono (by decide)) hs)

theorem baseline_ind {s : Machine.State} {u : Nat} {f : Int} (hC : Closed [.regs, .asy, .loops, .sys, .rose, .queues, .pendg,
    .tens] P) (hs : P s) :
    P (State.baseline s u f) := by
  unfold State.baseline
  extract_lets -merge -underBinder n1 n2 n3 z4 n5 z6 n7 n8 n9
  have hz4 : P z4 := by
    exact modUnit_ind (hC.mono (by decide)) (loopUpdate_ind (hC.mono (by decide)) hs)
  have hz6 : P z6 := by
    exact loopUpdate_ind (hC.mono (by decide)) hs
  refine ite_ind ?_ ?_
  · refine ite_ind ?_ ?_
    · exact setFld_ind (hC.mono rfl) hz4
    · exact putOn_ind (hC.mono rfl) (modUnit_ind (hC.mono (by decide)) hz6)
  · exact hs

theorem satCond_ind {s : Machine.State} {u : Nat} {b : Bool} (hC : Closed [.regs, .sys, .rose, .queues, .pendg, .tens] P) (hs
    : P s) :
    P (State.satCond s u b) := by
  unfold State.satCond
  refine ite_ind ?_ ?_
  · exact raise_ind (hC.mono rfl) (setFld_ind (hC.mono rfl) hs)
  · exact hs

theorem frameEnd_ind {s : Machine.State} {u : Nat} (hC : Closed [.asy, .queues, .pendg, .regs, .sys, .rose, .tens] P) (hs : P
    s) :
    P (State.frameEnd s u) := by
  unfold State.frameEnd
  extract_lets -merge -underBinder n1 n2 n3 n4 n5 n6 n7 n8 n9 n10 z11 z12 z13 n14
  have hz11 : P z11 := by
    exact modUnit_ind (hC.mono (by decide)) hs
  have hz12 : P z12 := by
    exact putOn_ind (hC.mono rfl) (satCond_ind (hC.mono (by decide)) hz11)
  have hz13 : P z13 := by
    refine ite_ind ?_ ?_
    · exact raise_ind (hC.mono rfl) (setFld_ind (hC.mono rfl) hz12)
    · exact hz12
  exact modUnit_ind (hC.mono (by decide)) (emitFeatures_ind (hC.mono (by decide)) hz13)

theorem keep_ind {s : Machine.State} {u : Nat} {m : Sample} {y : Int} (hC : Closed [.asy, .regs, .loops, .sys, .rose, .queues,
    .pendg, .tens] P) (hs : P s) :
    P (State.keep s u m y) := by
  unfold State.keep
  extract_lets -merge -underBinder n1 n2 n3 z4 n5 z6 z7 n8 z9 n10 z11 n12 n13 z14
  have hz4 : P z4 := by
    exact modUnit_ind (hC.mono (by decide)) hs
  have hz6 : P z6 := by
    refine ite_ind ?_ ?_
    · exact closeOut_ind (hC.mono (by decide)) hz4
    · exact hz4
  have hz7 : P z7 := by
    refine ite_ind ?_ ?_
    · exact frameEnd_ind (hC.mono (by decide)) hz6
    · exact hz6
  have hz9 : P z9 := by
    exact compareAll_ind (hC.mono (by decide)) hz7
  have hz11 : P z11 := by
    refine ite_ind ?_ ?_
    · exact ruleTick_ind (hC.mono (by decide)) hz9
    · exact hz9
  have hz14 : P z14 := by
    refine ite_ind ?_ ?_
    · exact baseline_ind (hC.mono (by decide)) hz11
    · exact hz11
  refine ite_ind ?_ ?_
  · exact modUnit_ind (hC.mono (by decide)) hz14
  · exact hz14

theorem pass_ind {s : Machine.State} {u : Nat} {m : Sample} (hC : Closed [.asy, .regs, .loops, .sys, .rose, .queues, .pendg,
    .tens] P) (hs : P s) :
    P (State.pass s u m) := by
  unfold State.pass
  split
  · extract_lets -merge -underBinder z1 n2
    have hz1 : P z1 := by
      exact satCond_ind (hC.mono (by decide)) (modUnit_ind (hC.mono (by decide)) hs)
    refine ite_ind ?_ ?_
    · exact modUnit_ind (hC.mono (by decide)) hz1
    · exact keep_ind (hC.mono (by decide)) (modUnit_ind (hC.mono (by decide)) hz1)

theorem execAssayPass_ind {s : Machine.State} (hC : Closed [.asy, .queues, .regs, .loops, .sys, .rose, .pendg, .tens,
    .asyLast] P) (hs : P s) :
    Answers (execAssayPass s) P := by
  unfold execAssayPass
  refine answers_next ?_
  refine when_ind (fun _ hz1 => ?_) ?_
  · split
    · exact hz1
    · split
      · exact hz1
      · refine when_ind (fun _ hz2 => ?_) ?_
        · extract_lets -merge -underBinder n3 n4 z5 z6 n7 z8 z9
          have hz5 : P z5 := by
            exact putOn_ind (hC.mono (by decide)) (setFld_ind (hC.mono (by decide)) hz2)
          have hz6 : P z6 := by
            refine ite_ind ?_ ?_
            · exact hz5
            · exact upd_asyLast (hC.mono (by decide)) hz5
          have hz8 : P z8 := by
            unfold z8
            split
            · exact hz6
            · exact pass_ind (hC.mono (by decide)) hz6
          have hz9 : P z9 := by
            refine ite_ind ?_ ?_
            · exact modUnit_ind (hC.mono (by decide)) hz8
            · exact hz8
          refine ite_ind ?_ ?_
          · exact modUnit_ind (hC.mono (by decide)) (setQueue_ind (hC.mono (by decide)) hz9)
          · exact modUnit_ind (hC.mono (by decide)) hz9
        · exact hz1
  · exact hs

theorem execAssayGapInput_ind {u : Nat} {s : Machine.State} (hC : Closed [.reg 0x2048, .queues, .pendg, .asy] P) (hs : P s) :
    Answers (execAssayGapInput u s) P := by
  unfold execAssayGapInput
  refine answers_next ?_
  refine when_ind (fun _ hz1 => ?_) ?_
  · split
    · extract_lets -merge -underBinder z2
      have hz2 : P z2 := by
        exact modUnit_ind (hC.mono (by decide)) (closeOut_ind (hC.mono (by decide)) (setQueue_ind (hC.mono (by decide)) hz1))
      refine forEach_ind (fun _ _ hz3 => ?_) ?_
      · exact gapAll_ind (hC.mono (by decide)) hz3
      · exact hz2
    · exact hz1
  · exact hs

theorem asyDouble_ind {s : Machine.State} {u : Nat} (hC : Closed [.reset, .log, .queues, .pendg, .tens, .nv, .sys, .rose,
    .stw, .asm, .env, .regs, .hallmark, .lanes, .closed, .tx, .asy, .tam] P) (hs : P s) :
    P (State.asyDouble s u) := by
  unfold State.asyDouble
  extract_lets -merge -underBinder z1 z2
  have hz1 : P z1 := by
    exact setFld_ind (hC.mono (by decide)) (addSat_ind (hC.mono (by decide)) hs)
  have hz2 : P z2 := by
    exact risen_ind (hC.mono rfl) (setFld_ind (hC.mono rfl) hz1)
  exact occur_ind (hC.mono (by decide)) (raise_ind (hC.mono rfl) hz2)

theorem execCriticalSecondDecision_ind {u : Nat} {agree : Bool} {s : Machine.State} (hC : Closed [.queues, .pendg, .rose,
    .regs, .sys, .tens, .asy, .reset, .log, .nv, .stw, .asm, .env, .hallmark, .lanes, .closed, .tx, .tam] P) (hs : P s) :
    Answers (execCriticalSecondDecision u agree s) P := by
  unfold execCriticalSecondDecision
  refine answers_next ?_
  refine when_ind (fun _ hz1 => ?_) ?_
  · split
    · exact hz1
    · extract_lets -merge -underBinder z2 z3 n4
      have hz2 : P z2 := by
        exact addSat_ind (hC.mono (by decide)) (setFld_ind (hC.mono rfl) (modUnit_ind (hC.mono (by decide)) hz1))
      have hz3 : P z3 := by
        exact modUnit_ind (hC.mono (by decide)) (setActive_ind (hC.mono (by decide)) hz2)
      refine ite_ind ?_ ?_
      · exact hz2
      · refine ite_ind ?_ ?_
        · exact decideActive_ind (hC.mono (by decide)) hz2
        · exact asyDouble_ind (hC.mono (by decide)) (emitEvent_ind (hC.mono (by decide)) (setFld_ind (hC.mono rfl) hz3))
  · exact hs

theorem asyForce_ind {s : Machine.State} {u : Nat} (hC : Closed [.regs, .sys, .rose, .queues, .pendg, .tens, .asy] P) (hs : P
    s) :
    P (State.asyForce s u) := by
  unfold State.asyForce
  extract_lets -merge -underBinder n1 z2
  have hz2 : P z2 := by
    refine ite_ind ?_ ?_
    · exact hs
    · exact decideActive_ind (hC.mono (by decide)) hs
  exact risen_ind (hC.mono rfl) (setFld_ind (hC.mono rfl) (modUnit_ind (hC.mono (by decide)) hz2))

theorem asyLost_ind {s : Machine.State} {u : Nat} (hC : Closed [.asy, .pendg] P) (hs : P s) :
    P (State.asyLost s u) := by
  unfold State.asyLost
  refine ite_ind ?_ ?_
  · exact hs
  · refine modUnit_ind (hC.mono (by decide)) ?_
    refine forEach_ind (fun _ _ hz1 => ?_) ?_
    · exact resetSkip_ind (hC.mono (by decide)) hz1
    · exact hs

theorem asyRestart_ind {s0 : Machine.State} {u : Nat} (hC : Closed [.regs, .asy, .queues, .pendg] P) (hs0 : P s0) :
    P (State.asyRestart s0 u) := by
  unfold State.asyRestart
  extract_lets -merge -underBinder z1 n2 n3 z4 z5
  have hz1 : P z1 := by
    exact closeOut_ind (hC.mono (by decide)) hs0
  have hz4 : P z4 := by
    refine ite_ind ?_ ?_
    · exact emitEvent_ind (hC.mono (by decide)) (setFld_ind (hC.mono rfl) hz1)
    · exact hz1
  have hz5 : P z5 := by
    exact modUnit_ind (hC.mono (by decide)) hz4
  exact setFld_ind (hC.mono rfl) (setFld_ind (hC.mono rfl) hz5)

theorem learnShow_ind {s : Machine.State} {u : Nat} (hC : Closed [.regs] P) (hs : P s) :
    P (State.learnShow s u) := by
  unfold State.learnShow
  exact putOn_ind (hC.mono rfl) hs

theorem unseed_ind {s : Machine.State} {u : Nat} (hC : Closed [.regs, .asy] P) (hs : P s) :
    P (State.unseed s u) := by
  unfold State.unseed
  exact learnShow_ind (hC.mono (by decide)) (modUnit_ind (hC.mono (by decide)) hs)

theorem rsmTake_ind {s : Machine.State} {c : Nat} {i : Item} (hC : Closed [.rsm] P) (hs : P s) :
    P (State.rsmTake s c i) := by
  unfold State.rsmTake
  extract_lets -merge -underBinder n1
  exact modRchan_ind (hC.mono (by decide)) hs

theorem rsmClose_ind {s : Machine.State} {c : Nat} (hC : Closed [.queues, .pendg, .reg 0x2048, .rsm] P) (hs : P s) :
    P (State.rsmClose s c) := by
  unfold State.rsmClose
  extract_lets -merge -underBinder n1 n2 n3 n4
  refine ite_ind ?_ ?_
  · exact hs
  · exact copyAll_ind (hC.mono (by decide)) (modRchan_ind (hC.mono (by decide)) hs)

theorem rsmGap_ind {s : Machine.State} {c : Nat} {g : Gap} (hC : Closed [.rsm, .reg 0x2048, .queues, .pendg] P) (hs : P s) :
    P (State.rsmGap s c g) := by
  unfold State.rsmGap
  exact modRchan_ind (hC.mono (by decide)) (gapAll_ind (hC.mono (by decide)) (rsmClose_ind (hC.mono (by decide)) hs))

theorem rsmSkip_ind {s : Machine.State} {c : Nat} {cause : Nat} {detail : Option Nat} {n : Nat} {ht : Nat} (hC : Closed [.rsm,
    .pendg] P) (hs : P s) :
    P (State.rsmSkip s c cause detail n ht) := by
  unfold State.rsmSkip
  extract_lets -merge -underBinder n1 n2 z3
  have hz3 : P z3 := by
    refine forEach_ind (fun _ _ hz4 => ?_) ?_
    · exact setPend_ind (hC.mono (by decide)) hz4
    · exact hs
  refine ite_ind ?_ ?_
  · exact hs
  · exact modRchan_ind (hC.mono (by decide)) hz3

theorem rsmFail_ind {s : Machine.State} {c : Nat} {n : Nat} {ht : Nat} (hC : Closed [.reg 0x818, .reg 0x154, .reg 0x178, .reg
    0x2048, .sys, .rose, .queues, .pendg, .tens, .rsm] P) (hs : P s) :
    P (State.rsmFail s c n ht) := by
  unfold State.rsmFail
  exact raise_ind (hC.mono (by decide)) (modRchan_ind (hC.mono (by decide)) (rsmSkip_ind (hC.mono (by decide)) (rsmClose_ind
      (hC.mono (by decide)) hs)))

theorem rsmEmit_ind {s : Machine.State} {c : Nat} {pts : List RsmPoint} {lo : Nat} {j : Int} (hC : Closed [.queues, .pendg,
    .reg 0x2048, .rsm, .reg 0x818, .reg 0x154, .reg 0x178, .sys, .rose, .tens] P) (hs : P s) :
    P (State.rsmEmit s c pts lo j) := by
  unfold State.rsmEmit
  extract_lets -merge -underBinder n1 n2 n3 n4 n5 n6 n7 n8 n9 n10 n11 n12 n13 n14 n15 z16 z17
  have hz16 : P z16 := by
    exact modRchan_ind (hC.mono (by decide)) hs
  have hz17 : P z17 := by
    refine ite_ind ?_ ?_
    · exact raise_ind (hC.mono (by decide)) hz16
    · exact hz16
  refine ite_ind ?_ ?_
  · exact rsmClose_ind (hC.mono (by decide)) hz17
  · exact hz17

theorem rsmDrop_ind {s : Machine.State} {c : Nat} (hC : Closed [.rsm] P) (hs : P s) :
    P (State.rsmDrop s c) := by
  unfold State.rsmDrop
  exact modRchan_ind (hC.mono (by decide)) hs

theorem rsmStep_ind {s : State} {c : Nat} {r : State × Bool} (hC : Closed [.regs, .sys, .rose, .queues, .pendg, .tens, .rsm]
    P) (h : P s)
    (hr : s.rsmStep c = some r) : P r.1 := by
  unfold State.rsmStep at hr
  extract_lets r0 cubic need lo pts p0 p1 at hr
  split at hr
  · cases hr
  · split at hr
    · extract_lets f0 f1 j past at hr
      split at hr
      · cases hr
        exact rsmDrop_ind (hC.mono (by decide)) (modRchan_ind (hC.mono (by decide)) h)
      · split at hr
        · cases hr
          exact rsmDrop_ind (hC.mono (by decide)) (modRchan_ind (hC.mono (by decide)) (rsmSkip_ind (hC.mono (by decide)) h))
        · split at hr
          · cases hr
            exact rsmDrop_ind (hC.mono (by decide)) (rsmFail_ind (hC.mono (by decide)) h)
          · cases hr
            exact rsmEmit_ind (hC.mono (by decide)) h
    · cases hr
      exact rsmDrop_ind (hC.mono (by decide)) (rsmFail_ind (hC.mono (by decide)) h)

theorem rsmRun_ind {c n : Nat} {s : State} (hC : Closed [.regs, .sys, .rose, .queues, .pendg, .tens, .rsm] P) (h : P s) :
    P (rsmRun c n s) := by
  induction n generalizing s with
  | zero => exact h
  | succ n ih =>
    unfold rsmRun
    split
    · exact rsmStep_ind (hC.mono (by decide)) h ‹_›
    · exact ih (rsmStep_ind (hC.mono (by decide)) h ‹_›)
    · split
      · exact h
      · have hq := fun l => setQueue_ind (q := qRsm c) (l := l) (hC.mono (by decide)) h
        dsimp only
        split
        · refine ite_ind h ?_
          exact ih (rsmTake_ind (hC.mono (by decide)) (hq _))
        · exact ih (forEach_ind (fun _ _ h => rsmGap_ind (hC.mono (by decide)) h) (hq _))
        · exact ih (hq _)

theorem execResamplerOutput_ind {ch : Nat} {s : Machine.State} (hC : Closed [.regs, .sys, .rose, .queues, .pendg, .tens, .rsm]
    P) (hs : P s) :
    Answers (execResamplerOutput ch s) P := by
  unfold execResamplerOutput
  refine answers_next ?_
  refine when_ind (fun _ hz1 => ?_) ?_
  · exact rsmRun_ind (hC.mono (by decide)) hz1
  · exact hs

theorem rsmLost_ind {s : Machine.State} {c : Nat} (hC : Closed [.rsm, .pendg] P) (hs : P s) :
    P (State.rsmLost s c) := by
  unfold State.rsmLost
  refine ite_ind ?_ ?_
  · exact hs
  · refine modRchan_ind (hC.mono (by decide)) ?_
    refine forEach_ind (fun _ _ hz1 => ?_) ?_
    · exact resetSkip_ind (hC.mono (by decide)) hz1
    · exact hs

theorem rsmRestart_ind {s : Machine.State} {c : Nat} (hC : Closed [.rsm] P) (hs : P s) :
    P (State.rsmRestart s c) := by
  unfold State.rsmRestart
  exact modRchan_ind (hC.mono (by decide)) hs

theorem bndRise_ind {s0 : Machine.State} {s : Machine.State} (hC : Closed [.reg 0x2118, .reg 0x154, .reg 0x178, .reg 0x2048,
    .sys, .rose, .queues, .pendg, .tens] P) (hs : P s) :
    P (State.bndRise s0 s) := by
  unfold State.bndRise
  extract_lets -merge -underBinder z1
  have hz1 : P z1 := by
    refine ite_ind ?_ ?_
    · exact raise_ind (hC.mono (by decide)) hs
    · exact hs
  refine ite_ind ?_ ?_
  · exact raise_ind (hC.mono (by decide)) hz1
  · exact hz1

theorem askClose_ind {s : Machine.State} {k : Nat} (hC : Closed [.reg 0x2118, .reg 0x154, .reg 0x178, .reg 0x2048, .sys,
    .rose, .queues, .pendg, .tens, .lanes] P) (hs : P s) :
    P (State.askClose s k) := by
  unfold State.askClose
  exact bndRise_ind (hC.mono (by decide)) (modLane_ind (hC.mono (by decide)) hs)

theorem append_ind {s : Machine.State} {k : Nat} {i : Item} {res : Nat} (hC : Closed [.sys, .rose, .queues, .pendg, .tens,
    .lanes, .regs] P) (hs : P s) :
    P (State.append s k i res) := by
  unfold State.append
  extract_lets -merge -underBinder n1 z2 z3
  have hz2 : P z2 := by
    exact modLane_ind (hC.mono (by decide)) hs
  have hz3 : P z3 := by
    exact takeGran_ind (hC.mono (by decide)) hz2
  refine ite_ind ?_ ?_
  · exact askClose_ind (hC.mono (by decide)) hz3
  · exact hz3

theorem placeRecord_ind {s t : State} {k ty src ht : Nat} {l : List Byte} (hC : Closed [.tens, .lanes, .sys, .rose, .queues,
    .pendg, .regs] P) (h : P s)
    (hr : s.placeRecord k ty src ht l = some t) : P t := by
  have h1 : P (s.modTen (k / 4) (fun x => { x with recCnt := (x.recCnt + 1) % 65536 })) :=
    modTen_ind (hC.mono (by decide)) h
  unfold State.placeRecord at hr
  dsimp only at hr
  split at hr
  · cases hr
  · cases hr
    exact modLane_ind (hC.mono (by decide)) (append_ind (hC.mono (by decide)) h1)

theorem recordWaits_ind {s : Machine.State} {k : Nat} {n : Nat} (hC : Closed [.reg 0x2118, .reg 0x154, .reg 0x178, .reg
    0x2048, .sys, .rose, .queues, .pendg, .tens, .lanes] P) (hs : P s) :
    P (State.recordWaits s k n) := by
  unfold State.recordWaits
  refine ite_ind ?_ ?_
  · exact askClose_ind (hC.mono (by decide)) hs
  · exact hs

theorem setEvict_ind {s : Machine.State} {t : Nat} {e : Option Evict} (hC : Closed [.evicts] P) (hs : P s) :
    P (State.setEvict s t e) := by
  unfold State.setEvict
  exact upd_evicts (hC.mono (by decide)) hs

theorem drainEvict_ind {s : Machine.State} {k : Nat} (hC : Closed [.sys, .rose, .queues, .pendg, .tens, .lanes, .evicts,
    .regs] P) (hs : P s) :
    P (State.drainEvict s k) := by
  unfold State.drainEvict
  refine ite_ind ?_ ?_
  · split
    · exact hs
    · split
      · exact recordWaits_ind (hC.mono (by decide)) hs
      · exact setEvict_ind (hC.mono (by decide)) (placeRecord_ind (hC.mono (by decide)) hs ‹_›)
  · exact hs

theorem drainLaneGaps_ind {k : Nat} {l kept : List PendRec} {s : State} (hC : Closed [.pendg, .tens, .lanes, .sys, .rose,
    .queues, .regs] P) (h : P s) :
    P (drainLaneGaps k l kept s) := by
  induction l generalizing kept s with
  | nil => exact setPend_ind (hC.mono (by decide)) h
  | cons r t ih =>
    unfold drainLaneGaps
    split
    · exact ih h
    · refine ite_ind (ih h) ?_
      split
      · exact setPend_ind (hC.mono (by decide)) (recordWaits_ind (hC.mono (by decide)) h)
      · exact ih (addSat_ind (hC.mono (by decide)) (placeRecord_ind (hC.mono (by decide)) h ‹_›))

theorem drainLane_ind {s : Machine.State} {k : Nat} (hC : Closed [.pendg, .tens, .lanes, .sys, .rose, .queues, .regs, .evicts]
    P) (hs : P s) :
    P (State.drainLane s k) := by
  unfold State.drainLane
  extract_lets -merge -underBinder z1
  have hz1 : P z1 := by
    exact drainEvict_ind (hC.mono (by decide)) hs
  exact drainLaneGaps_ind (hC.mono (by decide)) hz1

theorem laneSkip_ind {s : Machine.State} {k : Nat} {cause : Nat} {i : Item} (hC : Closed [.pendg] P) (hs : P s) :
    P (State.laneSkip s k cause i) := by
  unfold State.laneSkip
  exact setPend_ind (hC.mono (by decide)) hs

theorem laneGap_ind {s : State} {k : Nat} {g : Gap} (hC : Closed [.evicts, .pendg, .tens, .lanes, .sys, .rose, .queues, .regs]
    P) (h : P s) :
    P (s.laneGap k g) := by
  have h1 : P (s.drainLane k) := drainLane_ind (hC.mono (by decide)) h
  unfold State.laneGap
  dsimp only
  split
  · rename_i hq
    split at hq
    · exact addSat_ind (hC.mono (by decide)) (placeRecord_ind (hC.mono (by decide)) h1 hq)
    · cases hq
  · exact setPend_ind (hC.mono (by decide)) (recordWaits_ind (hC.mono (by decide)) h1)

theorem evictFor_ind {k n f : Nat} {s : State} (hC : Closed [.closed, .evicts, .pendg, .tens, .lanes, .sys, .rose, .queues,
    .regs] P) (h : P s) :
    P (evictFor k n f s) := by
  induction f generalizing s with
  | zero => exact h
  | succ f ih =>
    unfold evictFor
    have h1 : P (if s.allows (k / 4) (s.laneNeed k (s.withEvict k n)) then s.drainLane k else s) :=
      ite_ind (drainLane_ind (hC.mono (by decide)) h) h
    refine ite_ind h1 ?_
    split
    · exact h1
    · exact ih (setEvict_ind (hC.mono (by decide)) (freeGran_ind (hC.mono (by decide)) (setClosed_ind (hC.mono (by decide))
        h1)))

theorem makeRoom_ind {s : Machine.State} {k : Nat} {n : Nat} (hC : Closed [.closed, .evicts, .pendg, .tens, .lanes, .sys,
    .rose, .queues, .regs] P) (hs : P s) :
    P (State.makeRoom s k n) := by
  unfold State.makeRoom
  refine ite_ind ?_ ?_
  · exact evictFor_ind (hC.mono (by decide)) hs
  · exact hs

theorem intakeItem_ind {s : Machine.State} {k : Nat} {i : Item} (hC : Closed [.pendg, .sys, .rose, .queues, .tens, .lanes,
    .regs, .capped, .closed, .evicts] P) (hs : P s) :
    P (State.intakeItem s k i) := by
  unfold State.intakeItem
  extract_lets -merge -underBinder n1 z2 z3 z4
  have hz2 : P z2 := by
    exact drainLane_ind (hC.mono (by decide)) (setPend_ind (hC.mono (by decide)) hs)
  have hz3 : P z3 := by
    exact makeRoom_ind (hC.mono (by decide)) hz2
  have hz4 : P z4 := by
    exact laneSkip_ind (hC.mono (by decide)) hz3
  refine ite_ind ?_ ?_
  · exact laneSkip_ind (hC.mono (by decide)) hz2
  · refine ite_ind ?_ ?_
    · exact append_ind (hC.mono (by decide)) hz3
    · refine ite_ind ?_ ?_
      · exact upd_capped (hC.mono (by decide)) hz4
      · exact hz4

theorem execBundlerIntake_ind {s : Machine.State} (hC : Closed [.pendg, .sys, .rose, .queues, .tens, .lanes, .regs, .capped,
    .closed, .evicts, .hallmark] P) (hs : P s) :
    Answers (execBundlerIntake s) P := by
  unfold execBundlerIntake
  refine answers_next ?_
  refine when_ind (fun _ hz1 => ?_) ?_
  · extract_lets -merge -underBinder n2 z3
    have hz3 : P z3 := by
      refine forEach_ind (fun _ _ hz7 => ?_) ?_
      · exact askClose_ind (hC.mono (by decide)) hz7
      · exact hz1
    split
    · exact hz3
    · split
      · exact hz3
      · extract_lets -merge -underBinder n4 z5
        have hz5 : P z5 := by
          refine ite_ind ?_ ?_
          · exact popQueue_ind (hC.mono (by decide)) hz3 ‹_›
          · exact upd_hallmark (hC.mono (by decide)) (popQueue_ind (hC.mono (by decide)) hz3 ‹_›)
        split
        · exact intakeItem_ind (hC.mono (by decide)) hz5
        · refine forEach_ind (fun _ _ hz6 => ?_) ?_
          · exact laneGap_ind (hC.mono (by decide)) hz6
          · exact hz5
        · exact hz5
  · exact hs

theorem execBundleAgeExpiry_ind {t : Nat} {l : Nat} {s : Machine.State} (hC : Closed [.reg 0x2118, .reg 0x154, .reg 0x178,
    .reg 0x2048, .sys, .rose, .queues, .pendg, .tens, .lanes] P) (hs : P s) :
    Answers (execBundleAgeExpiry t l s) P := by
  unfold execBundleAgeExpiry
  extract_lets -merge -underBinder n1
  refine answers_next ?_
  refine when_ind (fun _ hz2 => ?_) ?_
  · exact askClose_ind (hC.mono (by decide)) hz2
  · exact hs

theorem execGapRecordEnqueue_ind {q : Nat} {prod : Nat} {s : Machine.State} (hC : Closed [.pendg, .tens, .lanes, .sys, .rose,
    .queues, .regs, .evicts] P) (hs : P s) :
    Answers (execGapRecordEnqueue q prod s) P := by
  unfold execGapRecordEnqueue
  refine answers_next ?_
  refine when_ind (fun _ hz1 => ?_) ?_
  · split
    · exact hz1
    · refine ite_ind ?_ ?_
      · refine ite_ind ?_ ?_
        · exact drainLane_ind (hC.mono (by decide)) hz1
        · exact hz1
      · refine ite_ind ?_ ?_
        · refine ite_ind ?_ ?_
          · exact psqGaps_ind (hC.mono (by decide)) hz1
          · exact hz1
        · refine ite_ind ?_ ?_
          · exact drain_ind (hC.mono (by decide)) hz1
          · exact hz1
  · exact hs

theorem reserveSeq_ind {s : Machine.State} {t : Nat} (hC : Closed [.reg 0x158, .stw, .hallmark] P) (hs : P s) :
    P (State.reserveSeq s t) := by
  unfold State.reserveSeq
  extract_lets -merge -underBinder n1
  refine ite_ind ?_ ?_
  · exact nvRequest_ind (hC.mono (by decide)) (upd_hallmark (hC.mono (by decide)) hs)
  · exact hs

theorem closeLane_ind {s : Machine.State} {k : Nat} (hC : Closed [.stw, .hallmark, .sys, .rose, .queues, .pendg, .tens,
    .closed, .lanes, .regs] P) (hs : P s) :
    P (State.closeLane s k) := by
  unfold State.closeLane
  extract_lets -merge -underBinder n1 n2 z3 z4 n5 z6 z7
  have hz3 : P z3 := by
    exact takeGran_ind (hC.mono (by decide)) hs
  have hz4 : P z4 := by
    exact setClosed_ind (hC.mono (by decide)) (modLane_ind (hC.mono (by decide)) hz3)
  have hz6 : P z6 := by
    unfold z6
    exact upd_hallmark (hC.mono (by decide)) hz4
  have hz7 : P z7 := by
    exact modTen_ind (hC.mono (by decide)) hz6
  exact reserveSeq_ind (hC.mono (by decide)) (bndRise_ind (hC.mono (by decide)) hz7)

theorem execBundleClose_ind {s : Machine.State} (hC : Closed [.stw, .hallmark, .sys, .rose, .queues, .pendg, .tens, .closed,
    .lanes, .regs] P) (hs : P s) :
    Answers (execBundleClose s) P := by
  unfold execBundleClose
  refine answers_next ?_
  refine when_ind (fun _ hz1 => ?_) ?_
  · split
    · exact hz1
    · exact closeLane_ind (hC.mono (by decide)) hz1
  · exact hs

theorem execSeqReservationCommit_ind {t : Nat} {s : Machine.State} (hC : Closed [.reg 0x158, .stw, .tens, .nv, .hallmark] P)
    (hs : P s) :
    Answers (execSeqReservationCommit t s) P := by
  unfold execSeqReservationCommit
  refine answers_next ?_
  refine when_ind (fun _ hz1 => ?_) ?_
  · split
    · extract_lets -merge -underBinder z2 n3
      have hz2 : P z2 := by
        exact modTnv_ind (hC.mono (by decide)) hz1
      refine ite_ind ?_ ?_
      · exact nvEnd_ind (hC.mono (by decide)) (upd_hallmark (hC.mono (by decide)) hz2)
      · exact hz1
    · exact hz1
  · exact hs

theorem execSealStart_ind {s : Machine.State} (hC : Closed [.reg 0x2118, .reg 0x154, .reg 0x178, .reg 0x2048, .sys, .rose,
    .queues, .pendg, .tens, .reg 0x21e0, .hallmark] P) (hs : P s) :
    Answers (execSealStart s) P := by
  unfold execSealStart
  refine answers_next ?_
  refine when_ind (fun _ hz1 => ?_) ?_
  · split
    · exact hz1
    · extract_lets -merge -underBinder n2 n3
      refine ite_ind ?_ ?_
      · refine ite_ind ?_ ?_
        · exact hz1
        · exact raise_ind (hC.mono (by decide)) (risen_ind (hC.mono (by decide)) (setFld_ind (hC.mono (by decide)) hz1))
      · exact upd_hallmark (hC.mono (by decide)) hz1
  · exact hs

theorem execSealDone_ind {s : Machine.State} (hC : Closed [.hallmark, .lanes, .reg 0x21e4, .closed] P) (hs : P s) :
    Answers (execSealDone s) P := by
  unfold execSealDone
  refine answers_next ?_
  refine when_ind (fun _ hz1 => ?_) ?_
  · split
    · exact hz1
    · extract_lets -merge -underBinder n2 z3 z4 n5
      have hz3 : P z3 := by
        exact setClosed_ind (hC.mono (by decide)) hz1
      have hz4 : P z4 := by
        refine modLane_ind (hC.mono (by decide)) ?_
        refine ite_ind ?_ ?_
        · exact addSat_ind (hC.mono (by decide)) hz3
        · exact hz3
      exact upd_hallmark (hC.mono (by decide)) hz4
  · exact hs

theorem execHealthRecord_ind {s : Machine.State} (hC : Closed [.queues, .pendg, .reg 0x2048, .tens] P) (hs : P s) :
    Answers (execHealthRecord s) P := by
  unfold execHealthRecord
  refine answers_next ?_
  refine when_ind (fun _ hz1 => ?_) ?_
  · exact record_ind (hC.mono (by decide)) hz1
  · exact hs

theorem execPlacementUpdate_ind {s : Machine.State} (hC : Closed [.capped, .loops, .regs, .sys, .rose, .queues, .pendg, .tens]
    P) (hs : P s) :
    Answers (execPlacementUpdate s) P := by
  unfold execPlacementUpdate
  extract_lets -merge -underBinder n1
  refine answers_next ?_
  refine when_ind (fun _ hz2 => ?_) ?_
  · extract_lets -merge -underBinder n3 n4 n5 n6 z7
    have hz7 : P z7 := by
      exact loopUpdate_ind (hC.mono (by decide)) hz2
    refine ite_ind ?_ ?_
    · exact upd_capped (hC.mono (by decide)) hz2
    · exact upd_capped (hC.mono (by decide)) hz7
  · exact hs

theorem eccCommand_ind {s : Machine.State} (hC : Closed [.pendg, .env, .regs] P) (hs : P s) :
    P (State.eccCommand s) := by
  unfold State.eccCommand
  extract_lets -merge -underBinder z1
  have hz1 : P z1 := by
    refine forEach_ind (fun _ _ hz2 => ?_) ?_
    · refine ite_ind ?_ ?_
      · exact setFld_ind (hC.mono rfl) (setFld_ind (hC.mono rfl) hz2)
      · exact hz2
    · exact hs
  exact skip_ind (hC.mono (by decide)) (upd_env (hC.mono (by decide)) hz1)

theorem eccSkip_ind {s : Machine.State} {q : Nat} {e : Entry} (hC : Closed [.pendg, .asy, .env, .regs] P) (hs : P s) :
    P (State.eccSkip s q e) := by
  unfold State.eccSkip
  extract_lets -merge -underBinder n1 n2 n3
  refine ite_ind ?_ ?_
  · refine ite_ind ?_ ?_
    · simp only [n3]
      refine ite_ind ?_ ?_
      · exact skip_ind (hC.mono (by decide)) hs
      · refine forEach_ind (fun _ _ hz4 => ?_) ?_
        · exact skip_ind (hC.mono (by decide)) hz4
        · exact hs
    · simp only [n3]
      refine ite_ind ?_ ?_
      · exact skip_ind (hC.mono (by decide)) hs
      · refine forEach_ind (fun _ _ hz5 => ?_) ?_
        · exact skip_ind (hC.mono (by decide)) hz5
        · exact hs
  · refine ite_ind ?_ ?_
    · refine headGone_ind (hC.mono (by decide)) ?_
      simp only [n3]
      refine ite_ind ?_ ?_
      · exact skip_ind (hC.mono (by decide)) hs
      · refine forEach_ind (fun _ _ hz6 => ?_) ?_
        · exact skip_ind (hC.mono (by decide)) hz6
        · exact hs
    · refine ite_ind ?_ ?_
      · simp only [n3]
        refine ite_ind ?_ ?_
        · exact skip_ind (hC.mono (by decide)) hs
        · refine forEach_ind (fun _ _ hz7 => ?_) ?_
          · exact skip_ind (hC.mono (by decide)) hz7
          · exact hs
      · refine ite_ind ?_ ?_
        · exact setPend_ind (hC.mono (by decide)) hs
        · refine ite_ind ?_ ?_
          · exact eccCommand_ind (hC.mono (by decide)) hs
          · exact hs

theorem execEccUncorrectable_ind {q : Nat} {s : Machine.State} (hC : Closed [.queues, .pendg, .tens, .sys, .rose, .closed,
    .asy, .env, .regs] P) (hs : P s) :
    Answers (execEccUncorrectable q s) P := by
  unfold execEccUncorrectable
  extract_lets -merge -underBinder n1
  refine answers_next ?_
  refine when_ind (fun _ hz2 => ?_) ?_
  · refine ite_ind ?_ ?_
    · split
      · exact hz2
      · refine record_ind (hC.mono (by decide)) ?_
        simp only [n1]
        exact raise_ind (hC.mono (by decide)) (risen_ind (hC.mono (by decide)) (setFld_ind (hC.mono (by decide))
            (setClosed_ind (hC.mono (by decide)) hz2)))
    · split
      · exact hz2
      · refine eccSkip_ind (hC.mono (by decide)) ?_
        simp only [n1]
        exact raise_ind (hC.mono (by decide)) (risen_ind (hC.mono (by decide)) (setFld_ind (hC.mono (by decide)) (popQueue_ind
            (hC.mono (by decide)) hz2 ‹_›)))
  · exact hs

theorem chBit_ind {f : Nat → Fld} {c : Nat} {s : Machine.State} (hC : Closed [.regs] P) (hs : P s) :
    P (chBit f c s) := by
  unfold chBit
  exact setBit_ind (hC.mono rfl) hs

theorem roseIgnore_ind {s : Machine.State} {c : Nat} (hC : Closed [.sys, .rose, .queues, .pendg, .tens, .regs] P) (hs : P s) :
    P (State.roseIgnore s c) := by
  unfold State.roseIgnore
  exact raise_ind (hC.mono (by decide)) (chBit_ind (hC.mono (by decide)) (addSat_ind (hC.mono rfl) hs))

theorem roseTaken_ind {s : Machine.State} {c : Nat} (hC : Closed [.regs] P) (hs : P s) :
    P (State.roseTaken s c) := by
  unfold State.roseTaken
  exact chBit_ind (hC.mono (by decide)) hs

theorem flareState_ind {s : Machine.State} {f : Nat} {b : Bool} (hC : Closed [.sys, .rose, .queues, .pendg, .tens, .regs] P)
    (hs : P s) :
    P (State.flareState s f b) := by
  unfold State.flareState
  extract_lets -merge -underBinder z1
  have hz1 : P z1 := by
    exact putOn_ind (hC.mono rfl) hs
  refine ite_ind ?_ ?_
  · exact raise_ind (hC.mono (by decide)) hz1
  · exact hz1

theorem setPulse_ind {s : Machine.State} {f : Nat} {b : Bool} (hC : Closed [.sys] P) (hs : P s) :
    P (State.setPulse s f b) := by
  unfold State.setPulse
  exact modSys_ind (hC.mono (by decide)) rfl rfl hs

theorem flareSet_ind {s : Machine.State} {f : Nat} (hC : Closed [.sys, .rose, .queues, .pendg, .tens, .regs] P) (hs : P s) :
    P (State.flareSet s f) := by
  unfold State.flareSet
  refine flareState_ind (hC.mono (by decide)) ?_
  refine ite_ind ?_ ?_
  · exact setPulse_ind (hC.mono (by decide)) hs
  · exact hs

theorem flareClear_ind {s : Machine.State} {f : Nat} (hC : Closed [.sys, .rose, .queues, .pendg, .tens, .regs] P) (hs : P s) :
    P (State.flareClear s f) := by
  unfold State.flareClear
  exact flareState_ind (hC.mono (by decide)) (setPulse_ind (hC.mono (by decide)) hs)

theorem consume_ind {s : Machine.State} {c : Nat} {d : RoseDest} {edge : Option (Nat × Nat)} (hC : Closed [.regs, .sys, .rose,
    .queues, .pendg, .tens, .descs, .stp, .lanes] P) (hs : P s) :
    P (State.consume s c d edge) := by
  unfold State.consume
  split
  · extract_lets -merge -underBinder n1
    exact roseTaken_ind (hC.mono (by decide)) (lineEvent_ind (hC.mono (by decide)) hs)
  · extract_lets -merge -underBinder n2 z3 n4 z5
    have hz3 : P z3 := by
      exact stampChan_ind (hC.mono (by decide)) hs
    have hz5 : P z5 := by
      exact setFld_ind (hC.mono rfl) (setFld_ind (hC.mono rfl) hz3)
    refine ite_ind ?_ ?_
    · exact roseTaken_ind (hC.mono (by decide)) (edgeStream_ind (hC.mono (by decide)) hz5)
    · exact roseIgnore_ind (hC.mono (by decide)) hs
  · refine ite_ind ?_ ?_
    · exact roseIgnore_ind (hC.mono (by decide)) hs
    · exact roseTaken_ind (hC.mono (by decide)) (wakeHost_ind (hC.mono (by decide)) hs)
  · extract_lets -merge -underBinder n6
    refine ite_ind ?_ ?_
    · exact roseIgnore_ind (hC.mono (by decide)) hs
    · exact roseTaken_ind (hC.mono (by decide)) (askClose_ind (hC.mono (by decide)) hs)
  · exact hs

theorem consumeAll_ind {l : List (Nat × RoseDest × Option (Nat × Nat))} {u : List RoseDest} {s : State}
    (hC : Closed [.sys, .rose, .queues, .pendg, .tens, .regs, .descs, .stp, .lanes] P) (h : P s) : P (consumeAll l u s) := by
  induction l generalizing u s with
  | nil => exact h
  | cons x t ih =>
    unfold consumeAll
    exact ite_ind (ih (roseIgnore_ind (hC.mono (by decide)) h)) (ih (consume_ind (hC.mono (by decide)) h))

theorem flareEvents_ind {s : Machine.State} {f : Nat} {es : List (Nat × Bool)} (hC : Closed [.sys, .rose, .queues, .pendg,
    .tens, .regs] P) (hs : P s) :
    P (State.flareEvents s f es) := by
  unfold State.flareEvents
  extract_lets -merge -underBinder n1 n2 n3 n4 z5 z6
  have hz5 : P z5 := by
    refine forEach_ind (fun _ _ hz8 => ?_) ?_
    · exact roseTaken_ind (hC.mono (by decide)) hz8
    · exact hs
  have hz6 : P z6 := by
    refine ite_ind ?_ ?_
    · exact hz5
    · exact setPulse_ind (hC.mono (by decide)) hz5
  refine ite_ind ?_ ?_
  · exact hs
  · refine ite_ind ?_ ?_
    · refine forEach_ind (fun _ _ hz7 => ?_) ?_
      · exact roseIgnore_ind (hC.mono (by decide)) hz7
      · exact hs
    · refine ite_ind ?_ ?_
      · exact flareClear_ind (hC.mono (by decide)) hz6
      · exact flareSet_ind (hC.mono (by decide)) hz6

theorem execRoseEvent_ind {s : Machine.State} (hC : Closed [.sys, .rose, .queues, .pendg, .tens, .regs, .descs, .stp, .lanes]
    P) (hs : P s) :
    Answers (execRoseEvent s) P := by
  unfold execRoseEvent
  refine answers_next ?_
  refine when_ind (fun _ hz1 => ?_) ?_
  · extract_lets -merge -underBinder n2 z3 n4 z5
    have hz3 : P z3 := by
      unfold z3
      exact upd_rose (hC.mono (by decide)) hz1
    have hz5 : P z5 := by
      exact consumeAll_ind (hC.mono (by decide)) hz3
    refine forEach_ind (fun _ _ hz6 => ?_) ?_
    · exact flareEvents_ind (hC.mono (by decide)) hz6
    · exact hz5
  · exact hs

theorem execFlarePulseEnd_ind {f : Nat} {s : Machine.State} (hC : Closed [.sys, .rose, .queues, .pendg, .tens, .regs] P) (hs :
    P s) :
    Answers (execFlarePulseEnd f s) P := by
  unfold execFlarePulseEnd
  refine answers_next ?_
  refine when_ind (fun _ hz1 => ?_) ?_
  · exact flareClear_ind (hC.mono (by decide)) hz1
  · exact hs

theorem flareReleased_ind {s : Machine.State} {f : Nat} (hC : Closed [.sys, .rose, .queues, .pendg, .tens, .regs] P) (hs : P
    s) :
    P (State.flareReleased s f) := by
  unfold State.flareReleased
  exact flareState_ind (hC.mono (by decide)) (setPulse_ind (hC.mono (by decide)) hs)

theorem roseDetach_ind {s : Machine.State} (hC : Closed [.sys, .rose, .queues, .pendg, .tens, .regs] P) (hs : P s) :
    P (State.roseDetach s) := by
  unfold State.roseDetach
  refine forEach_ind (fun _ _ hz1 => ?_) ?_
  · extract_lets -merge -underBinder n2 n3
    refine ite_ind ?_ ?_
    · exact hz1
    · exact raise_ind (hC.mono (by decide)) (chBit_ind (hC.mono (by decide)) (setReg_ind (hC.mono rfl) hz1))
  · exact hs

theorem fire_ind {s : Machine.State} {c : Nat} (hC : Closed [.rose] P) (hs : P s) :
    P (State.fire s c) := by
  unfold State.fire
  exact presentOn_ind (hC.mono (by decide)) hs

theorem roseReset_ind {s : Machine.State} (hC : Closed [.rose] P) (hs : P s) :
    P (State.roseReset s) := by
  unfold State.roseReset
  exact upd_rose (hC.mono (by decide)) hs

theorem flareWritten_ind {s : Machine.State} {f : Nat} (hC : Closed [.sys, .rose, .queues, .pendg, .tens, .regs] P) (hs : P s)
    :
    P (State.flareWritten s f) := by
  unfold State.flareWritten
  refine ite_ind ?_ ?_
  · exact hs
  · refine ite_ind ?_ ?_
    · exact setPulse_ind (hC.mono (by decide)) hs
    · exact flareClear_ind (hC.mono (by decide)) hs

theorem roseBlockReset_ind {s : Machine.State} (hC : Closed [.regs] P) (hs : P s) :
    P (State.roseBlockReset s) := by
  unfold State.roseBlockReset
  extract_lets -merge -underBinder z1
  have hz1 : P z1 := by
    refine forEach_ind (fun _ _ hz3 => ?_) ?_
    · exact setReg_ind (hC.mono rfl) hz3
    · exact hs
  refine forEach_ind (fun _ _ hz2 => ?_) ?_
  · exact setReg_ind (hC.mono rfl) (setReg_ind (hC.mono rfl) (setReg_ind (hC.mono rfl) hz2))
  · exact hz1

end Sys2Proof.Machine
end

