-- ==== Sys2Proof/Laws/FramesReset.lean ====
section
/-! SUPPORT. What each operation may change: the resets, and the accesses and reads of registers. A property closed under
those parts of the state holds after the operation if it held before. -/

namespace Sys2Proof.Machine

variable {P : State → Prop}

theorem execVstartRise_ind {s : State} (hC : Closed [.mode] P) (h : P s) : Answers (execVstartRise s) P := by
  unfold execVstartRise
  refine answers_next (when_with (fun hu => modMode_ind hC (fun hl => ?_) h) h)
  have hp : s.sys.phase = .unpowered := by simpa using hu
  unfold State.modeWf at hl
  rw [hp] at hl
  show legalMode (if s.sys.nrstLow then .inReset else .booting) s.sys.pstate = true
  revert hl
  split <;> cases s.sys.pstate <;> decide

theorem cutKey_ind {s : Machine.State} {t : Nat} (hC : Closed [.nv] P) (hs : P s) :
    P (State.cutKey s t) := by
  unfold State.cutKey
  split
  · exact hs
  · refine ite_ind ?_ ?_
    · exact modTnv_ind (hC.mono (by decide)) hs
    · exact hs

theorem cutJob_ind {s : Machine.State} {a2 : NvJob} (hC : Closed [.nv] P) (hs : P s) :
    P (State.cutJob s a2) := by
  unfold State.cutJob
  split
  · exact modTnv_ind (hC.mono (by decide)) hs
  · exact modTnv_ind (hC.mono (by decide)) hs
  · extract_lets -merge -underBinder n1
    exact upd_nv (hC.mono (by decide)) hs
  · exact patchStand_ind (hC.mono (by decide)) hs
  · exact hs
  · exact hs
  · exact hs
  · exact hs

theorem cutWrites_ind {s : Machine.State} (hC : Closed [.nv] P) (hs : P s) :
    P (State.cutWrites s) := by
  unfold State.cutWrites
  extract_lets -merge -underBinder z1
  have hz1 : P z1 := by
    refine forEach_ind (fun _ _ hz2 => ?_) ?_
    · exact cutKey_ind (hC.mono (by decide)) hz2
    · exact hs
  refine ite_ind ?_ ?_
  · split
    · exact hz1
    · exact cutJob_ind (hC.mono (by decide)) hz1
  · exact hz1

theorem execBor_ind {s : Machine.State} (hC : Closed [.reset, .nv] P) (hs : P s) :
    Answers (execBor s) P := by
  unfold execBor
  refine answers_next ?_
  refine ite_ind ?_ ?_
  · exact hs
  · exact fullReset_ind (hC.mono (by decide)) (cutWrites_ind (hC.mono (by decide)) hs)

theorem execNrstLow_ind {s : Machine.State} (hC : Closed [.reset, .sys] P) (hs : P s) :
    Answers (execNrstLow s) P := by
  unfold execNrstLow
  extract_lets -merge -underBinder z1
  have hz1 : P z1 := by
    exact modSys_ind (hC.mono (by decide)) rfl rfl hs
  refine answers_next ?_
  refine ite_ind ?_ ?_
  · exact hz1
  · exact fullReset_ind (hC.mono (by decide)) hz1

theorem leaveReset_ind {s : State} (hC : Closed [.mode] P) (h : P s) : P s.leaveReset := by
  unfold State.leaveReset
  refine ite_with (fun hm => modMode_ind hC (fun hl => ?_) h) (fun _ => h)
  have hp : s.sys.phase = .inReset := by
    simp only [State.mayBoot, Bool.and_eq_true, decide_eq_true_eq] at hm
    exact hm.1.1.1.1
  unfold State.modeWf at hl
  rw [hp] at hl
  show legalMode .booting s.sys.pstate = true
  revert hl
  cases s.sys.pstate <;> decide

theorem execNrstRelease_ind {s : Machine.State} (hC : Closed [.mode, .sys] P) (hs : P s) :
    Answers (execNrstRelease s) P := by
  unfold execNrstRelease
  refine answers_next ?_
  exact leaveReset_ind (hC.mono (by decide)) (modSys_ind (hC.mono (by decide)) rfl rfl hs)

theorem execHoldEnd_ind {s : Machine.State} (hC : Closed [.mode, .sys] P) (hs : P s) :
    Answers (execHoldEnd s) P := by
  unfold execHoldEnd
  refine answers_next ?_
  refine when_ind (fun _ hz1 => ?_) ?_
  · exact leaveReset_ind (hC.mono (by decide)) (modSys_ind (hC.mono (by decide)) rfl rfl hz1)
  · exact hs

theorem dropOpen_ind {s : Machine.State} {k : Nat} (hC : Closed [.pendg, .sys, .rose, .queues, .tens, .regs, .lanes] P) (hs :
    P s) :
    P (State.dropOpen s k) := by
  unfold State.dropOpen
  extract_lets -merge -underBinder n1 z2
  have hz2 : P z2 := by
    exact freeGran_ind (hC.mono (by decide)) (modLane_ind (hC.mono (by decide)) hs)
  split
  · exact hz2
  · exact setPend_ind (hC.mono (by decide)) hz2

theorem dropPending_ind {s : Machine.State} {hit : Desc → Bool} (hC : Closed [.reg 0x1818, .reg 0x154, .reg 0x178, .reg
    0x2048, .sys, .rose, .queues, .pendg, .tens, .reg 0x1858, .descs] P) (hs : P s) :
    P (State.dropPending s hit) := by
  unfold State.dropPending
  refine forEach_ind (fun _ _ hz1 => ?_) ?_
  · refine ite_ind ?_ ?_
    · exact psqReset_ind (hC.mono (by decide)) (modDesc_ind (hC.mono (by decide)) hz1)
    · exact hz1
  · exact hs

theorem dropDispatch_ind {s : Machine.State} {hit : Request → Bool} (hC : Closed [.reg 0x1818, .reg 0x154, .reg 0x178, .reg
    0x2048, .sys, .rose, .queues, .pendg, .tens, .reg 0x1858, .descs] P) (hs : P s) :
    P (State.dropDispatch s hit) := by
  unfold State.dropDispatch
  refine forEach_ind (fun _ _ hz1 => ?_) ?_
  · extract_lets -merge -underBinder n2 n3 z4
    have hz4 : P z4 := by
      exact setQueue_ind (hC.mono (by decide)) hz1
    refine forEach_ind (fun _ _ hz5 => ?_) ?_
    · exact psqReset_ind (hC.mono (by decide)) hz5
    · exact hz4
  · exact hs

theorem cutTransfers_ind {s : Machine.State} {hit : Xfer → Bool} (hC : Closed [.ports, .clk, .sys, .rose, .queues, .pendg,
    .tens, .loops, .regs, .charge, .chargeLast, .chainDue] P) (hs : P s) :
    P (State.cutTransfers s hit) := by
  unfold State.cutTransfers
  refine forEach_ind (fun _ _ hz1 => ?_) ?_
  · split
    · exact hz1
    · extract_lets -merge -underBinder z2
      have hz2 : P z2 := by
        refine ite_ind ?_ ?_
        · exact resetSkip_ind (hC.mono (by decide)) hz1
        · exact hz1
      refine ite_ind ?_ ?_
      · exact cutPort_ind (hC.mono (by decide)) hz2
      · exact hz1
  · exact hs

theorem disarm_ind {s : Machine.State} {hit : Desc → Bool} (hC : Closed [.descs] P) (hs : P s) :
    P (State.disarm s hit) := by
  unfold State.disarm
  refine forEach_ind (fun _ _ hz1 => ?_) ?_
  · refine ite_ind ?_ ?_
    · exact modDesc_ind (hC.mono (by decide)) hz1
    · exact hz1
  · exact hs

theorem afeReset_ind {s : Machine.State} (hC : Closed [.regs, .afeCh, .pendg] P) (hs : P s) :
    P (State.afeReset s) := by
  unfold State.afeReset
  extract_lets -merge -underBinder z1
  have hz1 : P z1 := by
    refine forEach_ind (fun _ _ hz2 => ?_) ?_
    · extract_lets -merge -underBinder z3
      have hz3 : P z3 := by
        refine forEach_ind (fun _ _ hz4 => ?_) ?_
        · exact resetSkip_ind (hC.mono (by decide)) hz4
        · exact hz2
      exact filterRestart_ind (hC.mono (by decide)) (modAch_ind (hC.mono (by decide)) hz3)
    · exact hs
  exact afeShow_ind (hC.mono (by decide)) hz1

theorem rstPart_ind {s : Machine.State} {cnt : Fld} {scope : Nat} {t : Nat} {req : Nat} (hC : Closed [.regs] P) (hs : P s) :
    P (State.rstPart s cnt scope t req) := by
  unfold State.rstPart
  exact setFld_ind (hC.mono (by decide)) (setFld_ind (hC.mono (by decide)) (setFld_ind (hC.mono (by decide)) (addSat_ind
      (hC.mono rfl) hs)))

theorem dpReset_ind {s : Machine.State} {req : Nat} (hC : Closed [.rst, .rsm, .pendg, .regs, .asy, .queues, .chainDue, .rose,
    .afeCh, .descs, .ports, .clk, .sys, .tens, .loops, .charge, .chargeLast, .lanes] P) (hs : P s) :
    P (State.dpReset s req) := by
  unfold State.dpReset
  extract_lets -merge -underBinder z1 z2 z3 z4 z5 z6 z7 z8 n9
  have hz1 : P z1 := by
    exact rstPart_ind (hC.mono (by decide)) hs
  have hz2 : P z2 := by
    exact dropDispatch_ind (hC.mono (by decide)) (dropPending_ind (hC.mono (by decide)) hz1)
  have hz3 : P z3 := by
    refine forEach_ind (fun _ _ hz13 => ?_) ?_
    · exact flushQueue_ind (hC.mono (by decide)) hz13
    · exact hz2
  have hz4 : P z4 := by
    refine forEach_ind (fun _ _ hz12 => ?_) ?_
    · exact dropOpen_ind (hC.mono (by decide)) hz12
    · exact hz3
  have hz5 : P z5 := by
    exact roseReset_ind (hC.mono (by decide)) (afeReset_ind (hC.mono (by decide)) (disarm_ind (hC.mono (by decide))
        (cutTransfers_ind (hC.mono (by decide)) hz4)))
  have hz6 : P z6 := by
    unfold z6
    exact upd_chainDue (hC.mono (by decide)) hz5
  have hz7 : P z7 := by
    refine forEach_ind (fun _ _ hz11 => ?_) ?_
    · exact asyRestart_ind (hC.mono (by decide)) (asyLost_ind (hC.mono (by decide)) hz11)
    · exact hz6
  have hz8 : P z8 := by
    refine forEach_ind (fun _ _ hz10 => ?_) ?_
    · exact rsmRestart_ind (hC.mono (by decide)) (rsmLost_ind (hC.mono (by decide)) hz10)
    · exact hz7
  refine ite_ind ?_ ?_
  · exact hs
  · exact upd_rst (hC.mono (by decide)) hz8

theorem breakTenLocks_ind {s : Machine.State} {t : Nat} (hC : Closed [.reg 0x990, .locks] P) (hs : P s) :
    P (State.breakTenLocks s t) := by
  unfold State.breakTenLocks
  refine forEach_ind (fun _ _ hz1 => ?_) ?_
  · split
    · refine ite_ind ?_ ?_
      · exact addSat_ind (hC.mono (by decide)) (setLock_ind (hC.mono (by decide)) hz1)
      · exact hz1
    · exact hz1
  · exact hs

theorem tenReset_ind {s : Machine.State} {t : Nat} {req : Nat} (hC : Closed [.rst, .tens, .locks, .regs, .afeCh, .pendg, .sxt,
    .rose, .sys, .queues, .rsm, .asy, .chainDue, .descs, .ports, .clk, .loops, .charge, .chargeLast, .lanes] P) (hs : P s) :
    P (State.tenReset s t req) := by
  unfold State.tenReset
  extract_lets -merge -underBinder n1 z2 z3 n4 n5 n6 z7 z8 z9 z10 z11 z12 z13 z14 z15 n16
  have hz2 : P z2 := by
    exact rstPart_ind (hC.mono (by decide)) hs
  have hz3 : P z3 := by
    exact dropDispatch_ind (hC.mono (by decide)) (dropPending_ind (hC.mono (by decide)) hz2)
  have hz7 : P z7 := by
    refine forEach_ind (fun _ _ hz21 => ?_) ?_
    · exact flushQueue_ind (hC.mono (by decide)) hz21
    · exact hz3
  have hz8 : P z8 := by
    refine forEach_ind (fun _ _ hz20 => ?_) ?_
    · exact dropOpen_ind (hC.mono (by decide)) hz20
    · exact hz7
  have hz9 : P z9 := by
    exact disarm_ind (hC.mono (by decide)) (cutTransfers_ind (hC.mono (by decide)) hz8)
  have hz10 : P z10 := by
    unfold z10
    have key19 : ∀ e, P e → ∀ v0 v1, P { e with chainDue := v0, rose := v1 } :=
      fun e he v0 _ => upd_rose (s := { e with chainDue := v0 }) (hC.mono (by decide)) (upd_chainDue (s := e) (hC.mono (by
          decide)) he)
    refine key19 _ ?_ _ _
    exact hz9
  have hz11 : P z11 := by
    refine forEach_ind (fun _ _ hz18 => ?_) ?_
    · exact asyRestart_ind (hC.mono (by decide)) (asyLost_ind (hC.mono (by decide)) hz18)
    · exact hz10
  have hz12 : P z12 := by
    refine forEach_ind (fun _ _ hz17 => ?_) ?_
    · exact rsmRestart_ind (hC.mono (by decide)) (rsmLost_ind (hC.mono (by decide)) hz17)
    · exact hz11
  have hz13 : P z13 := by
    refine ite_ind ?_ ?_
    · exact sxtRestart_ind (hC.mono (by decide)) hz12
    · exact hz12
  have hz14 : P z14 := by
    refine ite_ind ?_ ?_
    · exact afeReset_ind (hC.mono (by decide)) hz13
    · exact hz13
  have hz15 : P z15 := by
    exact modTen_ind (hC.mono (by decide)) (breakTenLocks_ind (hC.mono (by decide)) hz14)
  refine ite_ind ?_ ?_
  · exact hs
  · exact upd_rst (hC.mono (by decide)) hz15

theorem cmdReset_ind {s : Machine.State} (hC : Closed [.reset] P) (hs : P s) :
    P (State.cmdReset s) := by
  unfold State.cmdReset
  refine when_ind (fun _ hz1 => ?_) ?_
  · exact fullReset_ind (hC.mono (by decide)) hz1
  · exact hs

theorem locksReset_ind {s : Machine.State} (hC : Closed [.locks] P) (hs : P s) :
    P (State.locksReset s) := by
  unfold State.locksReset
  exact upd_locks (hC.mono (by decide)) hs

theorem blockReset_ind {s : Machine.State} {p : Nat} (hC : Closed [.stp, .sxt, .rose, .sys, .queues, .pendg, .tens, .rsm,
    .asy, .locks, .regs, .ports, .clk, .loops, .charge, .chargeLast, .chainDue, .afe, .descs, .afeCh] P) (hs : P s) :
    P (State.blockReset s p) := by
  unfold State.blockReset
  extract_lets -merge -underBinder n1 z2 z3 z4
  have hz2 : P z2 := by
    exact recall_ind (hC.mono (by decide)) hs
  have hz3 : P z3 := by
    refine forEach_ind (fun _ _ hz9 => ?_) ?_
    · exact filterRestart_ind (hC.mono (by decide)) (modAch_ind (hC.mono (by decide)) hz9)
    · exact recall_ind (hC.mono (by decide)) hs
  have hz4 : P z4 := by
    exact withdrawAll_ind (hC.mono (by decide)) hs
  refine ite_ind ?_ ?_
  · exact hs
  · refine ite_ind ?_ ?_
    · exact setFld_ind (hC.mono (by decide)) (setFld_ind (hC.mono (by decide)) hs)
    · refine ite_ind ?_ ?_
      · exact setReg_ind (hC.mono (by decide)) (setReg_ind (hC.mono (by decide)) hs)
      · refine ite_ind ?_ ?_
        · exact setReg_ind (hC.mono (by decide)) hs
        · refine ite_ind ?_ ?_
          · refine forEach_ind (fun _ _ hz5 => ?_) ?_
            · exact modChan_ind (hC.mono (by decide)) hz5
            · exact hs
          · refine ite_ind ?_ ?_
            · exact sxtRestart_ind (hC.mono (by decide)) hs
            · refine ite_ind ?_ ?_
              · refine forEach_ind (fun _ _ hz6 => ?_) ?_
                · exact rsmRestart_ind (hC.mono (by decide)) (rsmClose_ind (hC.mono (by decide)) (flushQueue_ind (hC.mono (by
                    decide)) hz6))
                · exact hs
              · refine ite_ind ?_ ?_
                · exact locksReset_ind (hC.mono (by decide)) hs
                · refine ite_ind ?_ ?_
                  · exact roseBlockReset_ind (hC.mono (by decide)) hs
                  · refine ite_ind ?_ ?_
                    · split
                      · exact hz2
                      · refine cutPort_ind (hC.mono (by decide)) ?_
                        refine ite_ind ?_ ?_
                        · exact resetSkip_ind (hC.mono (by decide)) hz2
                        · exact hz2
                    · refine ite_ind ?_ ?_
                      · exact afeShow_ind (hC.mono (by decide)) (modAfe_ind (hC.mono (by decide)) hz3)
                      · refine ite_ind ?_ ?_
                        · refine forEach_ind (fun _ _ hz7 => ?_) ?_
                          · exact arm_ind (hC.mono (by decide)) hz7
                          · exact hz4
                        · refine ite_ind ?_ ?_
                          · refine forEach_ind (fun _ _ hz8 => ?_) ?_
                            · exact asyRestart_ind (hC.mono (by decide)) (flushQueue_ind (hC.mono (by decide)) hz8)
                            · exact hs
                          · exact hs

theorem wdogExpire_ind {s : Machine.State} (hC : Closed [.sys, .rose, .queues, .pendg, .tens, .regs, .asm, .streams, .tx,
    .locks] P) (hs : P s) :
    P (State.wdogExpire s) := by
  unfold State.wdogExpire
  exact raise_ind (hC.mono (by decide)) (modSys_ind (hC.mono (by decide)) rfl rfl (addSat_ind (hC.mono (by decide))
      (hostPulse_ind (hC.mono (by decide)) hs)))

theorem execWdogExpire_ind {s : Machine.State} (hC : Closed [.sys, .rose, .queues, .pendg, .tens, .regs, .asm, .streams, .tx,
    .locks] P) (hs : P s) :
    Answers (execWdogExpire s) P := by
  unfold execWdogExpire
  refine answers_next ?_
  refine when_ind (fun _ hz1 => ?_) ?_
  · exact wdogExpire_ind (hC.mono (by decide)) hz1
  · exact hs

theorem execHostPulseEnd_ind {s : Machine.State} (hC : Closed [.reg 0x16c, .sys] P) (hs : P s) :
    Answers (execHostPulseEnd s) P := by
  unfold execHostPulseEnd
  refine answers_next ?_
  refine when_ind (fun _ hz1 => ?_) ?_
  · extract_lets -merge -underBinder z2
    have hz2 : P z2 := by
      exact modSys_ind (hC.mono (by decide)) rfl rfl hz1
    refine ite_ind ?_ ?_
    · exact setFld_ind (hC.mono (by decide)) hz2
    · exact hz2
  · exact hs

theorem wdogTick_ind {s : Machine.State} {n : Nat} (hC : Closed [.sys] P) (hs : P s) :
    P (State.wdogTick s n) := by
  unfold State.wdogTick
  refine when_ind (fun _ hz1 => ?_) ?_
  · exact modSys_ind (hC.mono (by decide)) rfl rfl hz1
  · exact hs

theorem deny_ind {s : Machine.State} {rq : Requester} {a : Nat} {cause : Nat} {write : Bool} (hC : Closed [.reset, .log,
    .queues, .pendg, .tens, .nv, .sys, .rose, .stw, .asm, .env, .regs, .hallmark, .lanes, .closed, .tx, .asy, .tam] P) (hs : P
    s) :
    P (State.deny s rq a cause write) := by
  unfold State.deny
  extract_lets -merge -underBinder n1 z2
  have hz2 : P z2 := by
    exact raise_ind (hC.mono rfl) (addSat_ind (hC.mono rfl) (setFld_ind (hC.mono rfl) hs))
  refine ite_ind ?_ ?_
  · exact hs
  · exact probe_ind (hC.mono (by decide)) hz2

theorem sample_ind {s : Machine.State} {rq : Requester} {a : Nat} (hC : Closed [.samp] P) (hs : P s) :
    P (State.sample s rq a) := by
  unfold State.sample
  refine forEach_ind (fun _ _ hz1 => ?_) ?_
  · exact setSamp_ind (hC.mono (by decide)) hz1
  · exact hs

theorem latch_ind {s : Machine.State} {w : Word} (hC : Closed [.rdata] P) (hs : P s) :
    P (State.latch s w) := by
  unfold State.latch
  exact upd_rdata (hC.mono (by decide)) hs

theorem streamRead_ind {s : Machine.State} {rq : Requester} {a : Nat} {l : List Byte} (hC : Closed [.streams] P) (hs : P s) :
    P (State.streamRead s rq a l).2 := by
  unfold State.streamRead
  extract_lets -merge -underBinder n1 n2
  exact upd_streams (hC.mono (by decide)) hs

theorem logRead_ind {s : Machine.State} {rq : Requester} {a : Nat} {l : List Byte} (hC : Closed [.streams, .reset, .log,
    .queues, .pendg, .tens, .nv, .sys, .rose, .stw, .asm, .env, .regs, .hallmark, .lanes, .closed, .tx, .asy, .tam] P) (hs : P
    s) :
    P (State.logRead s rq a l).2 := by
  unfold State.logRead
  extract_lets -merge -underBinder n1
  split
  · split
    · exact streamRead_ind (hC.mono (by decide)) hs
    · exact logChecked_ind (hC.mono (by decide)) (streamRead_ind (hC.mono (by decide)) hs)
  · exact streamRead_ind (hC.mono (by decide)) hs

theorem acquire_ind {s : Machine.State} {rq : Requester} {k : Nat} (hC : Closed [.reg 0x990, .locks] P) (hs : P s) :
    P (State.acquire s rq k).2 := by
  unfold State.acquire
  extract_lets -merge -underBinder n1 n2
  split
  · exact addSat_ind (hC.mono (by decide)) (setLock_ind (hC.mono (by decide)) hs)
  · split
    · exact hs
    · exact hs

theorem release_ind {s t : State} {rq : Requester} {k : Nat} (hC : Closed [.locks] P) (h : P s)
    (hr : s.release rq k = some t) : P t := by
  unfold State.release at hr
  split at hr
  · cases hr
    exact setLock_ind hC h
  · cases hr

theorem readReg_ind {s : Machine.State} {rq : Requester} {via : Bool} {a : Nat} (hC : Closed [.reset, .log, .queues, .pendg,
    .tens, .nv, .sys, .rose, .stw, .asm, .env, .regs, .hallmark, .lanes, .closed, .tx, .asy, .tam, .locks, .streams, .samp] P)
    (hs : P s) :
    P (State.readReg s rq via a).2 := by
  unfold State.readReg
  split
  · exact deny_ind (hC.mono (by decide)) hs
  · split
    · split
      · exact deny_ind (hC.mono (by decide)) hs
      · exact acquire_ind (hC.mono (by decide)) hs
    · split
      · exact logRead_ind (hC.mono (by decide)) hs
      · exact sample_ind (hC.mono (by decide)) hs

theorem readCmd_ind {s : Machine.State} {rq : Requester} {a : Nat} (hC : Closed [.rdata, .reset, .log, .queues, .pendg, .tens,
    .nv, .sys, .rose, .stw, .asm, .env, .regs, .hallmark, .lanes, .closed, .tx, .asy, .tam, .locks, .streams, .samp] P) (hs :
    P s) :
    P (State.readCmd s rq a) := by
  unfold State.readCmd
  refine when_ind (fun _ hz1 => ?_) ?_
  · extract_lets -merge -underBinder n2
    exact latch_ind (hC.mono (by decide)) (readReg_ind (hC.mono (by decide)) hz1)
  · exact hs

theorem execHtLoSample_ind {rq : Requester} {s : Machine.State} (hC : Closed [.rdata, .reset, .log, .queues, .pendg, .tens,
    .nv, .sys, .rose, .stw, .asm, .env, .regs, .hallmark, .lanes, .closed, .tx, .asy, .tam, .locks, .streams, .samp] P) (hs :
    P s) :
    Answers (execHtLoSample rq s) P := by
  unfold execHtLoSample
  refine answers_next ?_
  exact readCmd_ind (hC.mono (by decide)) hs

theorem execSyncLoSample_ind {rq : Requester} {s : Machine.State} (hC : Closed [.rdata, .reset, .log, .queues, .pendg, .tens,
    .nv, .sys, .rose, .stw, .asm, .env, .regs, .hallmark, .lanes, .closed, .tx, .asy, .tam, .locks, .streams, .samp] P) (hs :
    P s) :
    Answers (execSyncLoSample rq s) P := by
  unfold execSyncLoSample
  refine answers_next ?_
  exact readCmd_ind (hC.mono (by decide)) hs

theorem execStampLoSample_ind {rq : Requester} {ch : Nat} {s : Machine.State} (hC : Closed [.rdata, .reset, .log, .queues,
    .pendg, .tens, .nv, .sys, .rose, .stw, .asm, .env, .regs, .hallmark, .lanes, .closed, .tx, .asy, .tam, .locks, .streams,
    .samp] P) (hs : P s) :
    Answers (execStampLoSample rq ch s) P := by
  unfold execStampLoSample
  refine answers_next ?_
  refine ite_ind ?_ ?_
  · exact readCmd_ind (hC.mono (by decide)) hs
  · exact hs

theorem execOfsLoSample_ind {rq : Requester} {s : Machine.State} (hC : Closed [.rdata, .reset, .log, .queues, .pendg, .tens,
    .nv, .sys, .rose, .stw, .asm, .env, .regs, .hallmark, .lanes, .closed, .tx, .asy, .tam, .locks, .streams, .samp] P) (hs :
    P s) :
    Answers (execOfsLoSample rq s) P := by
  unfold execOfsLoSample
  refine answers_next ?_
  exact readCmd_ind (hC.mono (by decide)) hs

theorem execSxtAngSample_ind {rq : Requester} {s : Machine.State} (hC : Closed [.rdata, .reset, .log, .queues, .pendg, .tens,
    .nv, .sys, .rose, .stw, .asm, .env, .regs, .hallmark, .lanes, .closed, .tx, .asy, .tam, .locks, .streams, .samp] P) (hs :
    P s) :
    Answers (execSxtAngSample rq s) P := by
  unfold execSxtAngSample
  refine answers_next ?_
  exact readCmd_ind (hC.mono (by decide)) hs

theorem execBndSeqSample_ind {rq : Requester} {s : Machine.State} (hC : Closed [.rdata, .reset, .log, .queues, .pendg, .tens,
    .nv, .sys, .rose, .stw, .asm, .env, .regs, .hallmark, .lanes, .closed, .tx, .asy, .tam, .locks, .streams, .samp] P) (hs :
    P s) :
    Answers (execBndSeqSample rq s) P := by
  unfold execBndSeqSample
  refine answers_next ?_
  exact readCmd_ind (hC.mono (by decide)) hs

theorem execKeyCounterSample_ind {rq : Requester} {ceil : Bool} {s : Machine.State} (hC : Closed [.rdata, .reset, .log,
    .queues, .pendg, .tens, .nv, .sys, .rose, .stw, .asm, .env, .regs, .hallmark, .lanes, .closed, .tx, .asy, .tam, .locks,
    .streams, .samp] P) (hs : P s) :
    Answers (execKeyCounterSample rq ceil s) P := by
  unfold execKeyCounterSample
  refine answers_next ?_
  exact readCmd_ind (hC.mono (by decide)) hs

theorem execKeyRspRead_ind {rq : Requester} {addr : Nat} {s : Machine.State} (hC : Closed [.rdata, .reset, .log, .queues,
    .pendg, .tens, .nv, .sys, .rose, .stw, .asm, .env, .regs, .hallmark, .lanes, .closed, .tx, .asy, .tam, .locks, .streams,
    .samp] P) (hs : P s) :
    Answers (execKeyRspRead rq addr s) P := by
  unfold execKeyRspRead
  refine answers_next ?_
  refine ite_ind ?_ ?_
  · exact readCmd_ind (hC.mono (by decide)) hs
  · exact hs

theorem execKeyAttRead_ind {rq : Requester} {addr : Nat} {s : Machine.State} (hC : Closed [.rdata, .reset, .log, .queues,
    .pendg, .tens, .nv, .sys, .rose, .stw, .asm, .env, .regs, .hallmark, .lanes, .closed, .tx, .asy, .tam, .locks, .streams,
    .samp] P) (hs : P s) :
    Answers (execKeyAttRead rq addr s) P := by
  unfold execKeyAttRead
  refine answers_next ?_
  refine ite_ind ?_ ?_
  · exact readCmd_ind (hC.mono (by decide)) hs
  · exact hs

theorem execDeviceKeyRead_ind {rq : Requester} {s : Machine.State} (hC : Closed [.rdata, .reset, .log, .queues, .pendg, .tens,
    .nv, .sys, .rose, .stw, .asm, .env, .regs, .hallmark, .lanes, .closed, .tx, .asy, .tam, .locks, .streams, .samp] P) (hs :
    P s) :
    Answers (execDeviceKeyRead rq s) P := by
  unfold execDeviceKeyRead
  refine answers_next ?_
  exact readCmd_ind (hC.mono (by decide)) hs

theorem execLogDataRead_ind {rq : Requester} {s : Machine.State} (hC : Closed [.rdata, .reset, .log, .queues, .pendg, .tens,
    .nv, .sys, .rose, .stw, .asm, .env, .regs, .hallmark, .lanes, .closed, .tx, .asy, .tam, .locks, .streams, .samp] P) (hs :
    P s) :
    Answers (execLogDataRead rq s) P := by
  unfold execLogDataRead
  refine answers_next ?_
  exact readCmd_ind (hC.mono (by decide)) hs

theorem execLockAcquire_ind {rq : Requester} {k : Nat} {s : Machine.State} (hC : Closed [.rdata, .reset, .log, .queues,
    .pendg, .tens, .nv, .sys, .rose, .stw, .asm, .env, .regs, .hallmark, .lanes, .closed, .tx, .asy, .tam, .locks, .streams,
    .samp] P) (hs : P s) :
    Answers (execLockAcquire rq k s) P := by
  unfold execLockAcquire
  refine answers_next ?_
  refine ite_ind ?_ ?_
  · exact readCmd_ind (hC.mono (by decide)) hs
  · exact hs

theorem execLeaseExpiry_ind {k : Nat} {s : Machine.State} (hC : Closed [.reg 0x918, .reg 0x154, .reg 0x178, .reg 0x2048, .sys,
    .rose, .queues, .pendg, .tens, .reg 0x990, .locks] P) (hs : P s) :
    Answers (execLeaseExpiry k s) P := by
  unfold execLeaseExpiry
  refine answers_next ?_
  refine when_ind (fun _ hz1 => ?_) ?_
  · exact raise_ind (hC.mono (by decide)) (addSat_ind (hC.mono (by decide)) (setLock_ind (hC.mono (by decide)) hz1))
  · exact hs

theorem clear1_ind {s : Machine.State} {a : Nat} {v : Nat} (hC : Closed [.regs] P) (hs : P s) :
    P (State.clear1 s a v) := by
  unfold State.clear1
  extract_lets -merge -underBinder n1
  exact setReg_ind (hC.mono rfl) hs

theorem storeReg_ind {s : Machine.State} {rq : Requester} {a : Nat} {v : Nat} (hC : Closed [.sel, .regs, .descs, .asy,
    .routes] P) (hs : P s) :
    P (State.storeReg s rq a v) := by
  unfold State.storeReg
  extract_lets -merge -underBinder n1 n2 n3 z4
  have hz4 : P z4 := by
    refine ite_ind ?_ ?_
    · exact hs
    · exact setReg_ind (hC.mono rfl) hs
  refine ite_ind ?_ ?_
  · exact setSel_ind (hC.mono (by decide)) hs
  · refine ite_ind ?_ ?_
    · split
      · refine ite_ind ?_ ?_
        · exact setFld_ind (hC.mono rfl) hs
        · exact hs
      · exact hs
    · refine ite_ind ?_ ?_
      · exact modDesc_ind (hC.mono (by decide)) hs
      · refine ite_ind ?_ ?_
        · refine ite_ind ?_ ?_
          · exact hs
          · exact modUnit_ind (hC.mono (by decide)) hs
        · refine ite_ind ?_ ?_
          · exact upd_routes (hC.mono (by decide)) hs
          · refine ite_ind ?_ ?_
            · exact clear1_ind (hC.mono (by decide)) hs
            · exact clear1_ind (hC.mono (by decide)) hz4

theorem storeAll_ind {s : Machine.State} {rq : Requester} {l : List (Nat × Nat)} (hC : Closed [.descs, .sel, .regs, .asy,
    .routes] P) (hs : P s) :
    P (State.storeAll s rq l) := by
  unfold State.storeAll
  extract_lets -merge -underBinder z1
  have hz1 : P z1 := by
    refine forEach_ind (fun _ _ hz2 => ?_) ?_
    · exact storeReg_ind (hC.mono (by decide)) hz2
    · exact hs
  refine ite_ind ?_ ?_
  · exact modDesc_ind (hC.mono (by decide)) hz1
  · exact hz1

end Sys2Proof.Machine
end

