-- ==== Sys2Proof/Laws/FramesCommit.lean ====
section
/-! SUPPORT. What each operation may change: a commit and its effects, the tamper monitor and the Logbook. A property closed under
those parts of the state holds after the operation if it held before. -/

namespace Sys2Proof.Machine

variable {P : State → Prop}

theorem loopAfter_ind {s0 : Machine.State} {g : Nat} {s : Machine.State} (hC : Closed [.loops, .pln, .descs, .regs, .asy,
    .sys, .rose, .queues, .pendg, .tens] P) (hs : P s) :
    P (State.loopAfter s0 g s) := by
  unfold State.loopAfter
  extract_lets -merge -underBinder z1 n2 n3 n4
  have hz1 : P z1 := by
    exact loopCommitted_ind (hC.mono (by decide)) hs
  refine ite_ind ?_ ?_
  · refine ite_ind ?_ ?_
    · exact applyCode_ind (hC.mono (by decide)) hz1
    · refine setFld_ind (hC.mono (by decide)) ?_
      refine ite_ind ?_ ?_
      · exact setLearned_ind (hC.mono (by decide)) hz1
      · exact hz1
  · refine ite_ind ?_ ?_
    · refine ite_ind ?_ ?_
      · exact upd_pln (hC.mono (by decide)) hz1
      · exact hz1
    · refine ite_ind ?_ ?_
      · refine forEach_ind (fun _ _ hz5 => ?_) ?_
        · exact modDesc_ind (hC.mono (by decide)) hz5
        · exact hz1
      · refine ite_ind ?_ ?_
        · refine ite_ind ?_ ?_
          · exact unseed_ind (hC.mono (by decide)) hz1
          · refine ite_ind ?_ ?_
            · exact learnShow_ind (hC.mono (by decide)) hz1
            · exact hz1
        · exact hz1

theorem loopsAfter_ind {s0 : Machine.State} {l : List (Nat × Nat)} {s : Machine.State} (hC : Closed [.loops, .pln, .descs,
    .regs, .asy, .sys, .rose, .queues, .pendg, .tens] P) (hs : P s) :
    P (State.loopsAfter s0 l s) := by
  unfold State.loopsAfter
  refine forEach_ind (fun _ _ hz1 => ?_) ?_
  · exact loopAfter_ind (hC.mono (by decide)) hz1
  · exact hs

theorem kick_ind {s : Machine.State} {rq : Requester} {v : Nat} (hC : Closed [.reg 0x178, .sys] P) (hs : P s) :
    P (State.kick s rq v) := by
  unfold State.kick
  refine ite_ind ?_ ?_
  · exact hs
  · refine ite_ind ?_ ?_
    · exact addSat_ind (hC.mono (by decide)) hs
    · refine ite_ind ?_ ?_
      · exact setFld_ind (hC.mono (by decide)) hs
      · exact modSys_ind (hC.mono (by decide)) rfl rfl hs

theorem sysAfter_ind {s0 : Machine.State} {rq : Requester} {l : List (Nat × Nat)} {s : Machine.State} (hC : Closed [.regs,
    .asm, .sys, .rose, .queues, .pendg, .tens, .streams, .tx, .locks] P) (hs : P s) :
    P (State.sysAfter s0 rq l s) := by
  unfold State.sysAfter
  extract_lets -merge -underBinder z1 z2 z3 z4
  have hz1 : P z1 := by
    refine ite_ind ?_ ?_
    · exact modSys_ind (hC.mono (by decide)) rfl rfl hs
    · exact hs
  have hz2 : P z2 := by
    refine forEach_ind (fun _ _ hz7 => ?_) ?_
    · exact kick_ind (hC.mono (by decide)) hz7
    · exact hz1
  have hz3 : P z3 := by
    refine ite_ind ?_ ?_
    · exact wdogExpire_ind (hC.mono (by decide)) hz2
    · exact hz2
  have hz4 : P z4 := by
    refine forEach_ind (fun _ _ hz6 => ?_) ?_
    · refine ite_ind ?_ ?_
      · exact hostPulse_ind (hC.mono (by decide)) hz6
      · exact hz6
    · exact hz3
  refine forEach_ind (fun _ _ hz5 => ?_) ?_
  · refine ite_ind ?_ ?_
    · exact sessionInc_ind (hC.mono (by decide)) hz5
    · exact hz5
  · exact hz4

theorem vhostAfter_ind {s0 : Machine.State} {rq : Requester} {s : Machine.State} (hC : Closed [.sys, .regs, .asm, .rose,
    .queues, .pendg, .tens, .streams, .tx, .locks] P) (hs : P s) :
    P (State.vhostAfter s0 rq s) := by
  unfold State.vhostAfter
  extract_lets -merge -underBinder z1 z2
  have hz1 : P z1 := by
    refine ite_ind ?_ ?_
    · exact setFld_ind (hC.mono (by decide)) hs
    · exact hs
  have hz2 : P z2 := by
    refine ite_ind ?_ ?_
    · exact modSys_ind (hC.mono (by decide)) rfl rfl hz1
    · exact hz1
  refine ite_ind ?_ ?_
  · refine ite_ind ?_ ?_
    · exact vhostUp_ind (hC.mono (by decide)) hz2
    · exact hz2
  · refine ite_ind ?_ ?_
    · exact vhostDisable_ind (hC.mono (by decide)) hz1
    · exact hz1

theorem railAfter_ind {s0 : Machine.State} {n : Nat} {s : Machine.State} (hC : Closed [.sys, .rose, .queues, .pendg, .tens,
    .descs, .regs, .ports, .clk, .loops, .charge, .chargeLast, .chainDue] P) (hs : P s) :
    P (State.railAfter s0 n s) := by
  unfold State.railAfter
  extract_lets -merge -underBinder z1
  have hz1 : P z1 := by
    refine ite_ind ?_ ?_
    · exact railEnable_ind (hC.mono (by decide)) hs
    · refine ite_ind ?_ ?_
      · exact modSys_ind (hC.mono (by decide)) rfl rfl (railCut_ind (hC.mono (by decide)) hs)
      · exact hs
  refine ite_ind ?_ ?_
  · exact checkPorts_ind (hC.mono (by decide)) hz1
  · exact hz1

theorem pwrAfter_ind {s0 : Machine.State} {rq : Requester} {l : List (Nat × Nat)} {s : Machine.State} (hC : Closed [.pln,
    .sys, .rose, .queues, .pendg, .tens, .descs, .regs, .ports, .clk, .loops, .charge, .chargeLast, .chainDue, .asm, .streams,
    .tx, .locks, .stw] P) (hs : P s) :
    P (State.pwrAfter s0 rq l s) := by
  unfold State.pwrAfter
  extract_lets -merge -underBinder z1 z2 z3
  have hz1 : P z1 := by
    refine forEach_ind (fun _ _ hz5 => ?_) ?_
    · refine supplyShow_ind (hC.mono (by decide)) ?_
      refine ite_ind ?_ ?_
      · exact setFld_ind (hC.mono (by decide)) hz5
      · exact hz5
    · exact hs
  have hz2 : P z2 := by
    refine ite_ind ?_ ?_
    · exact vhostAfter_ind (hC.mono (by decide)) hz1
    · exact hz1
  have hz3 : P z3 := by
    refine forEach_ind (fun _ _ hz4 => ?_) ?_
    · exact railAfter_ind (hC.mono (by decide)) hz4
    · exact hz2
  refine ite_ind ?_ ?_
  · exact harvShow_ind (hC.mono (by decide)) hz3
  · exact hz3

theorem rckAfter_ind {rq : Requester} {l : List (Nat × Nat)} {s : Machine.State} (hC : Closed [.sys, .rose, .queues, .pendg,
    .tens, .rck, .loops, .regs, .shadowBad] P) (hs : P s) :
    P (State.rckAfter rq l s) := by
  unfold State.rckAfter
  extract_lets -merge -underBinder z1 z2
  have hz1 : P z1 := by
    refine ite_ind ?_ ?_
    · exact upd_shadowBad (hC.mono (by decide)) hs
    · exact hs
  have hz2 : P z2 := by
    refine ite_ind ?_ ?_
    · exact slewSet_ind (hC.mono (by decide)) hz1
    · exact hz1
  split
  · exact beacon_ind (hC.mono (by decide)) hz2
  · exact hz2

theorem portsAfter_ind {s0 : Machine.State} {l : List (Nat × Nat)} {s : Machine.State} (hC : Closed [.ports, .reg 0x1818, .reg
    0x154, .reg 0x178, .reg 0x2048, .sys, .rose, .queues, .pendg, .tens, .reg 0x1858, .descs] P) (hs : P s) :
    P (State.portsAfter s0 l s) := by
  unfold State.portsAfter
  extract_lets -merge -underBinder n1 z2
  have hz2 : P z2 := by
    exact checkPorts_ind (hC.mono (by decide)) hs
  refine forEach_ind (fun _ _ hz3 => ?_) ?_
  · refine forEach_ind (fun _ _ hz4 => ?_) ?_
    · exact modPrt_ind (hC.mono (by decide)) hz4
    · exact hz3
  · exact hz2

theorem afeAfter_ind {s0 : Machine.State} {l : List (Nat × Nat)} {s : Machine.State} (hC : Closed [.regs, .sys, .rose,
    .queues, .pendg, .tens, .afeCh, .clk, .loops, .afe] P) (hs : P s) :
    P (State.afeAfter s0 l s) := by
  unfold State.afeAfter
  extract_lets -merge -underBinder z1 z2 z3 z4 n5 z6 n7 z8 z9 z10
  have hz1 : P z1 := by
    exact modAfe_ind (hC.mono (by decide)) hs
  have hz2 : P z2 := by
    refine ite_ind ?_ ?_
    · refine ite_ind ?_ ?_
      · exact hz1
      · exact excSwitchOn_ind (hC.mono (by decide)) hz1
    · exact hs
  have hz3 : P z3 := by
    refine forEach_ind (fun _ _ hz14 => ?_) ?_
    · refine ite_ind ?_ ?_
      · exact modAch_ind (hC.mono (by decide)) hz14
      · exact filterRestart_ind (hC.mono (by decide)) hz14
    · exact hz2
  have hz4 : P z4 := by
    exact modAfe_ind (hC.mono (by decide)) hz3
  have hz6 : P z6 := by
    refine forEach_ind (fun _ _ hz13 => ?_) ?_
    · refine ite_ind ?_ ?_
      · exact modAch_ind (hC.mono (by decide)) hz13
      · exact filterRestart_ind (hC.mono (by decide)) hz13
    · exact hz4
  have hz8 : P z8 := by
    refine ite_ind ?_ ?_
    · exact afeBoundary_ind (hC.mono (by decide)) hz6
    · exact hz6
  have hz9 : P z9 := by
    refine ite_ind ?_ ?_
    · exact hz8
    · exact afeFloor_ind (hC.mono (by decide)) (chopReverse_ind (hC.mono (by decide)) hz8)
  have hz10 : P z10 := by
    refine forEach_ind (fun _ _ hz11 => ?_) ?_
    · refine forEach_ind (fun _ _ hz12 => ?_) ?_
      · refine ite_ind ?_ ?_
        · exact touchStart_ind (hC.mono (by decide)) hz12
        · exact hz12
      · exact hz11
    · exact hz9
  refine ite_ind ?_ ?_
  · exact afeShow_ind (hC.mono (by decide)) hz10
  · exact hz10

theorem sxtInputs_ind {s0 : Machine.State} {s : Machine.State} (hC : Closed [.reg 0x798, .reg 0x794, .reg 0x778, .reg 0x760,
    .rose, .reg 0x1818, .reg 0x154, .reg 0x178, .reg 0x2048, .sys, .queues, .pendg, .tens, .reg 0x718, .sxt, .reg 0x79c, .reg
    0x764] P) (hs : P s) :
    P (State.sxtInputs s0 s) := by
  unfold State.sxtInputs
  extract_lets -merge -underBinder n1 n2 z3
  have hz3 : P z3 := by
    exact raise_ind (hC.mono (by decide)) (setFld_ind (hC.mono (by decide)) hs)
  refine ite_ind ?_ ?_
  · refine ite_ind ?_ ?_
    · exact sxtLose_ind (hC.mono (by decide)) hz3
    · exact hz3
  · exact hs

theorem sxtAfter_ind {s0 : Machine.State} {l : List (Nat × Nat)} {s : Machine.State} (hC : Closed [.reg 0x798, .reg 0x794,
    .reg 0x778, .reg 0x760, .sxt, .reg 0x718, .reg 0x154, .reg 0x178, .reg 0x2048, .sys, .rose, .queues, .pendg, .tens, .reg
    0x1818, .reg 0x79c, .reg 0x764] P) (hs : P s) :
    P (State.sxtAfter s0 l s) := by
  unfold State.sxtAfter
  extract_lets -merge -underBinder z1 z2 z3
  have hz1 : P z1 := by
    refine ite_ind ?_ ?_
    · exact risen_ind (hC.mono (by decide)) (modSxt_ind (hC.mono (by decide)) hs)
    · refine ite_ind ?_ ?_
      · exact sxtLose_ind (hC.mono (by decide)) hs
      · exact hs
  have hz2 : P z2 := by
    refine ite_ind ?_ ?_
    · exact hz1
    · exact modSxt_ind (hC.mono (by decide)) hz1
  have hz3 : P z3 := by
    exact modSxt_ind (hC.mono (by decide)) hz2
  refine ite_ind ?_ ?_
  · exact sxtShow_ind (hC.mono (by decide)) hz3
  · exact hz1

theorem rsmAfter_ind {s0 : Machine.State} {s : Machine.State} (hC : Closed [.rsm, .queues, .pendg, .reg 0x2048] P) (hs : P s) :
    P (State.rsmAfter s0 s) := by
  unfold State.rsmAfter
  extract_lets -merge -underBinder z1
  have hz1 : P z1 := by
    refine forEach_ind (fun _ _ hz3 => ?_) ?_
    · exact modRchan_ind (hC.mono (by decide)) (rsmClose_ind (hC.mono (by decide)) hz3)
    · exact hs
  refine forEach_ind (fun _ _ hz2 => ?_) ?_
  · exact rsmRestart_ind (hC.mono (by decide)) hz2
  · exact hz1

theorem unitAfter_ind {s0 : Machine.State} {rq : Requester} {l : List (Nat × Nat)} {u : Nat} {s : Machine.State} (hC : Closed
    [.regs, .asy, .queues, .pendg] P) (hs : P s) :
    P (State.unitAfter s0 rq l u s) := by
  unfold State.unitAfter
  extract_lets -merge -underBinder n1 z2 z3
  have hz2 : P z2 := by
    refine ite_ind ?_ ?_
    · exact asyRestart_ind (hC.mono (by decide)) hs
    · exact hs
  have hz3 : P z3 := by
    refine ite_ind ?_ ?_
    · exact unseed_ind (hC.mono (by decide)) hz2
    · refine ite_ind ?_ ?_
      · exact learnShow_ind (hC.mono (by decide)) hz2
      · exact hz2
  refine ite_ind ?_ ?_
  · exact setFld_ind (hC.mono rfl) (modUnit_ind (hC.mono (by decide)) hz3)
  · exact hz3

theorem asyAfter_ind {s0 : Machine.State} {rq : Requester} {l : List (Nat × Nat)} {s : Machine.State} (hC : Closed [.regs,
    .asy, .queues, .pendg] P) (hs : P s) :
    P (State.asyAfter s0 rq l s) := by
  unfold State.asyAfter
  refine forEach_ind (fun _ _ hz1 => ?_) ?_
  · exact unitAfter_ind (hC.mono (by decide)) hz1
  · exact hs

theorem dscAfter_ind {s0 : Machine.State} {rq : Requester} {l : List (Nat × Nat)} {s : Machine.State} (hC : Closed [.descs,
    .chainDue, .reg 0x1818, .reg 0x154, .reg 0x178, .reg 0x2048, .sys, .rose, .queues, .pendg, .tens, .reg 0x1858] P) (hs : P
    s) :
    P (State.dscAfter s0 rq l s) := by
  unfold State.dscAfter
  extract_lets -merge -underBinder n1 n2 n3 n4 n5 z6 z7
  have hz6 : P z6 := by
    exact modDesc_ind (hC.mono (by decide)) hs
  have hz7 : P z7 := by
    exact modDesc_ind (hC.mono (by decide)) (withdraw_ind (hC.mono (by decide)) hz6)
  refine ite_ind ?_ ?_
  · refine ite_ind ?_ ?_
    · refine ite_ind ?_ ?_
      · exact arm_ind (hC.mono (by decide)) hz6
      · exact hz6
    · exact upd_chainDue (hC.mono (by decide)) hz7
  · exact hs

theorem regrant_ind {s : Machine.State} (hC : Closed [.pendg] P) (hs : P s) :
    P (State.regrant s) := by
  unfold State.regrant
  refine forEach_ind (fun _ _ hz1 => ?_) ?_
  · extract_lets -merge -underBinder n2
    split
    · exact hz1
    · refine forEach_ind (fun _ _ hz3 => ?_) ?_
      · refine ite_ind ?_ ?_
        · exact hz3
        · exact unrevoke_ind (hC.mono (by decide)) hz3
      · exact hz1
  · exact hs

theorem roseAfter_ind {s0 : Machine.State} {l : List (Nat × Nat)} {s : Machine.State} (hC : Closed [.sys, .rose, .queues,
    .pendg, .tens, .regs] P) (hs : P s) :
    P (State.roseAfter s0 l s) := by
  unfold State.roseAfter
  extract_lets -merge -underBinder z1 z2 z3
  have hz1 : P z1 := by
    refine forEach_ind (fun _ _ hz10 => ?_) ?_
    · refine forEach_ind (fun _ _ hz11 => ?_) ?_
      · refine forEach_ind (fun _ _ hz12 => ?_) ?_
        · refine ite_ind ?_ ?_
          · exact setFld_ind (hC.mono rfl) hz12
          · exact hz12
        · exact hz11
      · exact hz10
    · exact hs
  have hz2 : P z2 := by
    refine forEach_ind (fun _ _ hz7 => ?_) ?_
    · refine forEach_ind (fun _ _ hz8 => ?_) ?_
      · refine forEach_ind (fun _ _ hz9 => ?_) ?_
        · refine ite_ind ?_ ?_
          · exact fire_ind (hC.mono (by decide)) hz9
          · exact hz9
        · exact hz8
      · exact hz7
    · exact hz1
  have hz3 : P z3 := by
    refine forEach_ind (fun _ _ hz6 => ?_) ?_
    · refine ite_ind ?_ ?_
      · exact flareReleased_ind (hC.mono (by decide)) hz6
      · exact hz6
    · exact hz2
  refine forEach_ind (fun _ _ hz4 => ?_) ?_
  · refine forEach_ind (fun _ _ hz5 => ?_) ?_
    · refine ite_ind ?_ ?_
      · exact flareWritten_ind (hC.mono (by decide)) hz5
      · exact hz5
    · exact hz4
  · exact hz3

theorem flushCommand_ind {s : Machine.State} (hC : Closed [.env, .regs, .pendg, .queues] P) (hs : P s) :
    P (State.flushCommand s) := by
  unfold State.flushCommand
  extract_lets -merge -underBinder z1
  have hz1 : P z1 := by
    exact setPend_ind (hC.mono (by decide)) (setQueue_ind (hC.mono (by decide)) hs)
  split
  · exact hz1
  · extract_lets -merge -underBinder n2 z3
    have hz3 : P z3 := by
      exact setFld_ind (hC.mono rfl) hz1
    exact upd_env (hC.mono (by decide)) hz3

theorem queFlush_ind {s : Machine.State} {v : Nat} (hC : Closed [.sys, .rose, .queues, .pendg, .tens, .regs, .hallmark,
    .lanes, .closed, .tx, .env, .asy] P) (hs : P s) :
    P (State.queFlush s v) := by
  unfold State.queFlush
  extract_lets -merge -underBinder n1
  refine ite_ind ?_ ?_
  · exact hs
  · refine ite_ind ?_ ?_
    · refine forEach_ind (fun _ _ hz2 => ?_) ?_
      · exact flushLane_ind (hC.mono (by decide)) hz2
      · exact hs
    · refine ite_ind ?_ ?_
      · exact flushLane_ind (hC.mono (by decide)) hs
      · refine ite_ind ?_ ?_
        · exact flushCommand_ind (hC.mono (by decide)) hs
        · exact flushQueue_ind (hC.mono (by decide)) hs

theorem queAfter_ind {s0 : Machine.State} {l : List (Nat × Nat)} {s : Machine.State} (hC : Closed [.sys, .rose, .queues,
    .pendg, .tens, .regs, .hallmark, .lanes, .closed, .tx, .env, .asy] P) (hs : P s) :
    P (State.queAfter s0 l s) := by
  unfold State.queAfter
  extract_lets -merge -underBinder z1 z2
  have hz1 : P z1 := by
    refine forEach_ind (fun _ _ hz4 => ?_) ?_
    · exact queFlush_ind (hC.mono (by decide)) hz4
    · exact hs
  have hz2 : P z2 := by
    refine forEach_ind (fun _ _ hz3 => ?_) ?_
    · refine ite_ind ?_ ?_
      · exact setFld_ind (hC.mono rfl) hz3
      · exact hz3
    · exact hz1
  refine ite_ind ?_ ?_
  · exact poolMark_ind (hC.mono (by decide)) hz2
  · exact hz2

theorem bndAfter_ind {l : List (Nat × Nat)} {s : Machine.State} (hC : Closed [.reg 0x2118, .reg 0x154, .reg 0x178, .reg
    0x2048, .sys, .rose, .queues, .pendg, .tens, .lanes] P) (hs : P s) :
    P (State.bndAfter l s) := by
  unfold State.bndAfter
  refine forEach_ind (fun _ _ hz1 => ?_) ?_
  · exact askClose_ind (hC.mono (by decide)) hz1
  · exact hs

theorem tamRespond_ind {s : Machine.State} (hC : Closed [.reg 0x21e0, .reg 0x2344] P) (hs : P s) :
    P (State.tamRespond s) := by
  unfold State.tamRespond
  extract_lets -merge -underBinder n1 z2
  have hz2 : P z2 := by
    exact putOn_ind (hC.mono (by decide)) hs
  refine ite_ind ?_ ?_
  · exact hz2
  · exact setFld_ind (hC.mono (by decide)) hz2

theorem tamClear_ind {s : Machine.State} {v : Nat} (hC : Closed [.reg 0x2458, .reg 0x2418, .reg 0x154, .reg 0x178, .reg
    0x2048, .sys, .rose, .queues, .pendg, .tens, .log, .reg 0x158, .stw, .reg 0x2344] P) (hs : P s) :
    P (State.tamClear s v) := by
  unfold State.tamClear
  refine forEach_ind (fun _ _ hz1 => ?_) ?_
  · refine ite_ind ?_ ?_
    · exact logEntry_ind (hC.mono (by decide)) (clrBit_ind (hC.mono (by decide)) hz1)
    · exact hz1
  · exact hs

theorem tamAfter_ind {l : List (Nat × Nat)} {s : Machine.State} (hC : Closed [.reg 0x21e0, .reg 0x2344, .reg 0x2458, .reg
    0x2418, .reg 0x154, .reg 0x178, .reg 0x2048, .sys, .rose, .queues, .pendg, .tens, .log, .reg 0x158, .stw] P) (hs : P s) :
    P (State.tamAfter l s) := by
  unfold State.tamAfter
  extract_lets -merge -underBinder z1
  have hz1 : P z1 := by
    refine forEach_ind (fun _ _ hz2 => ?_) ?_
    · exact tamClear_ind (hC.mono (by decide)) hz2
    · exact hs
  refine ite_ind ?_ ?_
  · exact tamRespond_ind (hC.mono (by decide)) hz1
  · exact hz1

theorem tstAfter_ind {l : List (Nat × Nat)} {s : Machine.State} (hC : Closed [.reg 0x2744] P) (hs : P s) :
    P (State.tstAfter l s) := by
  unfold State.tstAfter
  refine ite_ind ?_ ?_
  · exact setReg_ind (hC.mono (by decide)) hs
  · exact hs

theorem asmDrop_ind {s : Machine.State} {n : Nat} {err : Nat} (hC : Closed [.regs, .asm] P) (hs : P s) :
    P (State.asmDrop s n err) := by
  unfold State.asmDrop
  exact setFld_ind (hC.mono rfl) (setFld_ind (hC.mono rfl) (setFld_ind (hC.mono rfl) (setAsm_ind (hC.mono (by decide)) hs)))

theorem asmFeed_ind {s : Machine.State} {n : Nat} {bytes : List Byte} (hC : Closed [.regs, .asm, .stw] P) (hs : P s) :
    P (State.asmFeed s n bytes) := by
  unfold State.asmFeed
  extract_lets -merge -underBinder n1 z2 n3 n4 z5 n6
  have hz2 : P z2 := by
    refine ite_ind ?_ ?_
    · exact setFld_ind (hC.mono rfl) hs
    · exact hs
  have hz5 : P z5 := by
    exact setFld_ind (hC.mono rfl) (setFld_ind (hC.mono rfl) (setAsm_ind (hC.mono (by decide)) hz2))
  refine ite_ind ?_ ?_
  · exact hs
  · refine ite_ind ?_ ?_
    · exact setFld_ind (hC.mono rfl) hs
    · refine ite_ind ?_ ?_
      · exact asmDrop_ind (hC.mono (by decide)) hz2
      · refine ite_ind ?_ ?_
        · exact asmDrop_ind (hC.mono (by decide)) hz2
        · refine ite_ind ?_ ?_
          · exact asmDrop_ind (hC.mono (by decide)) hz2
          · refine ite_ind ?_ ?_
            · exact upd_stw (hC.mono (by decide)) hz5
            · exact setFld_ind (hC.mono rfl) (setFld_ind (hC.mono rfl) (setAsm_ind (hC.mono (by decide)) hz2))

theorem tnAfter_ind {rq : Requester} {l : List (Nat × Nat)} {s : Machine.State} (hC : Closed [.locks, .regs, .asm, .stw] P)
    (hs : P s) :
    P (State.tnAfter rq l s) := by
  unfold State.tnAfter
  extract_lets -merge -underBinder z1
  have hz1 : P z1 := by
    refine forEach_ind (fun _ _ hz4 => ?_) ?_
    · extract_lets -merge -underBinder z5
      have hz5 : P z5 := by
        exact asmFeed_ind (hC.mono (by decide)) hz4
      refine ite_ind ?_ ?_
      · exact asmDrop_ind (hC.mono (by decide)) hz5
      · exact hz5
    · exact hs
  refine forEach_ind (fun _ _ hz2 => ?_) ?_
  · split
    · exact hz2
    · refine ite_ind ?_ ?_
      · refine getD_ind (fun _ hx3 => ?_) ?_
        · exact release_ind (hC.mono (by decide)) hz2 ‹_›
        · exact hz2
      · exact hz2
  · exact hz1

theorem linesAfter_ind {s0 : Machine.State} {l : List (Nat × Nat)} {s : Machine.State} (hC : Closed [.reg 0x154, .reg 0x178,
    .reg 0x2048, .sys, .rose, .queues, .pendg, .tens] P) (hs : P s) :
    P (State.linesAfter s0 l s) := by
  unfold State.linesAfter
  refine forEach_ind (fun _ _ hz1 => ?_) ?_
  · refine ite_ind ?_ ?_
    · exact routeLine_ind (hC.mono (by decide)) hz1
    · exact hz1
  · exact hs

theorem gearAfter_ind {l : List (Nat × Nat)} {s : Machine.State} (hC : Closed [.reg 0x248, .clk, .reg 0x418, .reg 0x154, .reg
    0x178, .reg 0x2048, .sys, .rose, .queues, .pendg, .tens, .reg 0x478, .reg 0x474, .reg 0x25c, .loops, .reg 0x254, .reg
    0x454] P) (hs : P s) :
    P (State.gearAfter l s) := by
  unfold State.gearAfter
  extract_lets -merge -underBinder n1
  refine ite_ind ?_ ?_
  · exact regear_ind (hC.mono (by decide)) hs
  · exact hs

theorem srstAfter_ind {l : List (Nat × Nat)} {s : Machine.State} (hC : Closed [.stp, .sxt, .rose, .sys, .queues, .pendg,
    .tens, .rsm, .asy, .locks, .regs, .ports, .clk, .loops, .charge, .chargeLast, .chainDue, .afe, .descs, .afeCh] P) (hs : P
    s) :
    P (State.srstAfter l s) := by
  unfold State.srstAfter
  refine forEach_ind (fun _ _ hz1 => ?_) ?_
  · split
    · refine ite_ind ?_ ?_
      · exact blockReset_ind (hC.mono (by decide)) hz1
      · exact hz1
    · exact hz1
  · exact hs

theorem resetsAfter_ind {rq : Requester} {l : List (Nat × Nat)} {s : Machine.State} (hC : Closed [.reset, .rst, .rsm, .pendg,
    .regs, .asy, .queues, .chainDue, .rose, .afeCh, .descs, .ports, .clk, .sys, .tens, .loops, .charge, .chargeLast, .lanes,
    .stp, .sxt, .locks, .afe] P) (hs : P s) :
    P (State.resetsAfter rq l s) := by
  unfold State.resetsAfter
  extract_lets -merge -underBinder n1 n2
  refine ite_ind ?_ ?_
  · exact cmdReset_ind (hC.mono (by decide)) hs
  · refine ite_ind ?_ ?_
    · exact dpReset_ind (hC.mono (by decide)) hs
    · refine ite_ind ?_ ?_
      · exact srstAfter_ind (hC.mono (by decide)) hs
      · refine forEach_ind (fun _ _ hz3 => ?_) ?_
        · exact tenReset_ind (hC.mono (by decide)) hz3
        · exact hs

theorem effects_ind {s0 : Machine.State} {rq : Requester} {l : List (Nat × Nat)} {s : Machine.State} (hC : Closed [.reset,
    .rst, .rsm, .pendg, .regs, .asy, .queues, .chainDue, .rose, .afeCh, .descs, .ports, .clk, .sys, .tens, .loops, .charge,
    .chargeLast, .lanes, .stp, .sxt, .locks, .afe, .asm, .streams, .tx, .stw, .log, .hallmark, .closed, .env, .rck,
    .shadowBad, .pln] P) (hs : P s) :
    P (State.effects s0 rq l s) := by
  unfold State.effects
  extract_lets -merge -underBinder z1 z2 z3 z4 z5 z6 z7 z8
  have hz1 : P z1 := by
    exact pwrAfter_ind (hC.mono (by decide)) (loopsAfter_ind (hC.mono (by decide)) hs)
  have hz2 : P z2 := by
    exact portsAfter_ind (hC.mono (by decide)) (rckAfter_ind (hC.mono (by decide)) hz1)
  have hz3 : P z3 := by
    exact sxtAfter_ind (hC.mono (by decide)) (afeAfter_ind (hC.mono (by decide)) hz2)
  have hz4 : P z4 := by
    exact asyAfter_ind (hC.mono (by decide)) (rsmAfter_ind (hC.mono (by decide)) hz3)
  have hz5 : P z5 := by
    exact roseAfter_ind (hC.mono (by decide)) (dscAfter_ind (hC.mono (by decide)) hz4)
  have hz6 : P z6 := by
    exact tstAfter_ind (hC.mono (by decide)) (tamAfter_ind (hC.mono (by decide)) (bndAfter_ind (hC.mono (by decide))
        (queAfter_ind (hC.mono (by decide)) hz5)))
  have hz7 : P z7 := by
    exact linesAfter_ind (hC.mono (by decide)) (tnAfter_ind (hC.mono (by decide)) hz6)
  have hz8 : P z8 := by
    exact sxtInputs_ind (hC.mono (by decide)) (regrant_ind (hC.mono (by decide)) (roseDetach_ind (hC.mono (by decide)) hz7))
  exact resetsAfter_ind (hC.mono (by decide)) (sysAfter_ind (hC.mono (by decide)) (gearAfter_ind (hC.mono (by decide)) hz8))

theorem selFirst_ind {s : Machine.State} {rq : Requester} {l : List Wr} (hC : Closed [.sel, .regs, .descs, .asy, .routes] P)
    (hs : P s) :
    P (State.selFirst s rq l) := by
  unfold State.selFirst
  refine forEach_ind (fun _ _ hz1 => ?_) ?_
  · refine ite_ind ?_ ?_
    · split
      · exact storeReg_ind (hC.mono (by decide)) hz1
      · exact hz1
    · exact hz1
  · exact hs

theorem denyAll_ind {rq : Requester} {l : List (Nat × Nat)} {s : State} (hC : Closed [.reset, .log, .queues, .pendg, .tens,
    .nv, .sys, .rose, .stw, .asm, .env, .regs, .hallmark, .lanes, .closed, .tx, .asy, .tam] P) (h : P s) :
    P (denyAll rq l s) := by
  induction l generalizing s with
  | nil => exact h
  | cons w t ih =>
    unfold denyAll
    exact ite_ind (ih (deny_ind (hC.mono (by decide)) h)) (deny_ind (hC.mono (by decide)) h)

theorem keepRaised_ind {s1 : Machine.State} {s2 : Machine.State} {rq : Requester} {denied : List (Nat × Nat)} {s :
    Machine.State} (hC : Closed [.regs] P) (hs : P s) :
    P (State.keepRaised s1 s2 rq denied s) := by
  unfold State.keepRaised
  extract_lets -merge -underBinder z1 n2
  have hz1 : P z1 := by
    refine forEach_ind (fun _ _ hz3 => ?_) ?_
    · exact setBit_ind (hC.mono rfl) hz3
    · exact hs
  refine ite_ind ?_ ?_
  · exact hs
  · exact setReg_ind (hC.mono rfl) hz1

theorem commit_ind {s : Machine.State} {rq : Requester} {writes : List Wr} (hC : Closed [.reset, .rst, .rsm, .pendg, .regs,
    .asy, .queues, .chainDue, .rose, .afeCh, .descs, .ports, .clk, .sys, .tens, .loops, .charge, .chargeLast, .lanes, .stp,
    .sxt, .locks, .afe, .asm, .streams, .tx, .stw, .log, .hallmark, .closed, .env, .rck, .shadowBad, .pln, .sel, .routes, .nv,
    .tam] P) (hs : P s) :
    P (State.commit s rq writes).state := by
  unfold State.commit
  extract_lets -merge -underBinder n1 z2 n3 z4
  have hz2 : P z2 := by
    exact selFirst_ind (hC.mono (by decide)) hs
  have hz4 : P z4 := by
    exact denyAll_ind (hC.mono (by decide)) hz2
  split
  · exact effects_ind (hC.mono (by decide)) (keepRaised_ind (hC.mono (by decide)) (storeAll_ind (hC.mono (by decide)) hz4))
  · exact hz4

theorem write_ind {s : Machine.State} {rq : Requester} {l : List (Nat × Nat)} (hC : Closed [.reset, .rst, .rsm, .pendg, .regs,
    .asy, .queues, .chainDue, .rose, .afeCh, .descs, .ports, .clk, .sys, .tens, .loops, .charge, .chargeLast, .lanes, .stp,
    .sxt, .locks, .afe, .asm, .streams, .tx, .stw, .log, .hallmark, .closed, .env, .rck, .shadowBad, .pln, .sel, .routes, .nv,
    .tam] P) (hs : P s) :
    P (State.write s rq l) := by
  unfold State.write
  refine when_ind (fun _ hz1 => ?_) ?_
  · exact commit_ind (hC.mono (by decide)) hz1
  · exact hs

theorem writeVia_ind {s : Machine.State} {rq : Requester} {l : List (Nat × Nat)} (hC : Closed [.reset, .rst, .rsm, .pendg,
    .regs, .asy, .queues, .chainDue, .rose, .afeCh, .descs, .ports, .clk, .sys, .tens, .loops, .charge, .chargeLast, .lanes,
    .stp, .sxt, .locks, .afe, .asm, .streams, .tx, .stw, .log, .hallmark, .closed, .env, .rck, .shadowBad, .pln, .sel,
    .routes, .nv, .tam] P) (hs : P s) :
    P (State.writeVia s rq l) := by
  unfold State.writeVia
  refine when_ind (fun _ hz1 => ?_) ?_
  · extract_lets -merge -underBinder n2
    exact commit_ind (hC.mono (by decide)) hz1
  · exact hs

theorem execRegisterWrite_ind {rq : Requester} {ws : List (Nat × Word)} {s : Machine.State} (hC : Closed [.reset, .rst, .rsm,
    .pendg, .regs, .asy, .queues, .chainDue, .rose, .afeCh, .descs, .ports, .clk, .sys, .tens, .loops, .charge, .chargeLast,
    .lanes, .stp, .sxt, .locks, .afe, .asm, .streams, .tx, .stw, .log, .hallmark, .closed, .env, .rck, .shadowBad, .pln, .sel,
    .routes, .nv, .tam] P) (hs : P s) :
    Answers (execRegisterWrite rq ws s) P := by
  unfold execRegisterWrite
  refine answers_next ?_
  exact write_ind (hC.mono (by decide)) hs

theorem execVhostOff_ind {rq : Requester} {s : Machine.State} (hC : Closed [.reset, .rst, .rsm, .pendg, .regs, .asy, .queues,
    .chainDue, .rose, .afeCh, .descs, .ports, .clk, .sys, .tens, .loops, .charge, .chargeLast, .lanes, .stp, .sxt, .locks,
    .afe, .asm, .streams, .tx, .stw, .log, .hallmark, .closed, .env, .rck, .shadowBad, .pln, .sel, .routes, .nv, .tam] P) (hs
    : P s) :
    Answers (execVhostOff rq s) P := by
  unfold execVhostOff
  refine answers_next ?_
  exact writeVia_ind (hC.mono (by decide)) hs

theorem execVhostOn_ind {rq : Requester} {s : Machine.State} (hC : Closed [.reset, .rst, .rsm, .pendg, .regs, .asy, .queues,
    .chainDue, .rose, .afeCh, .descs, .ports, .clk, .sys, .tens, .loops, .charge, .chargeLast, .lanes, .stp, .sxt, .locks,
    .afe, .asm, .streams, .tx, .stw, .log, .hallmark, .closed, .env, .rck, .shadowBad, .pln, .sel, .routes, .nv, .tam] P) (hs
    : P s) :
    Answers (execVhostOn rq s) P := by
  unfold execVhostOn
  refine answers_next ?_
  exact writeVia_ind (hC.mono (by decide)) hs

theorem execVsensSwitchOn_ind {rq : Requester} {n : Nat} {s : Machine.State} (hC : Closed [.reset, .rst, .rsm, .pendg, .regs,
    .asy, .queues, .chainDue, .rose, .afeCh, .descs, .ports, .clk, .sys, .tens, .loops, .charge, .chargeLast, .lanes, .stp,
    .sxt, .locks, .afe, .asm, .streams, .tx, .stw, .log, .hallmark, .closed, .env, .rck, .shadowBad, .pln, .sel, .routes, .nv,
    .tam] P) (hs : P s) :
    Answers (execVsensSwitchOn rq n s) P := by
  unfold execVsensSwitchOn
  refine answers_next ?_
  refine when_ind (fun _ hz1 => ?_) ?_
  · exact writeVia_ind (hC.mono (by decide)) hz1
  · exact hs

theorem execRstCmdDatapath_ind {rq : Requester} {confirm : Nat} {s : Machine.State} (hC : Closed [.reset, .rst, .rsm, .pendg,
    .regs, .asy, .queues, .chainDue, .rose, .afeCh, .descs, .ports, .clk, .sys, .tens, .loops, .charge, .chargeLast, .lanes,
    .stp, .sxt, .locks, .afe, .asm, .streams, .tx, .stw, .log, .hallmark, .closed, .env, .rck, .shadowBad, .pln, .sel,
    .routes, .nv, .tam] P) (hs : P s) :
    Answers (execRstCmdDatapath rq confirm s) P := by
  unfold execRstCmdDatapath
  refine answers_next ?_
  exact writeVia_ind (hC.mono (by decide)) hs

theorem execRstCmdTenant_ind {rq : Requester} {t : Nat} {confirm : Nat} {s : Machine.State} (hC : Closed [.reset, .rst, .rsm,
    .pendg, .regs, .asy, .queues, .chainDue, .rose, .afeCh, .descs, .ports, .clk, .sys, .tens, .loops, .charge, .chargeLast,
    .lanes, .stp, .sxt, .locks, .afe, .asm, .streams, .tx, .stw, .log, .hallmark, .closed, .env, .rck, .shadowBad, .pln, .sel,
    .routes, .nv, .tam] P) (hs : P s) :
    Answers (execRstCmdTenant rq t confirm s) P := by
  unfold execRstCmdTenant
  refine answers_next ?_
  exact writeVia_ind (hC.mono (by decide)) hs

theorem execRstCmdFull_ind {rq : Requester} {confirm : Nat} {s : Machine.State} (hC : Closed [.reset, .rst, .rsm, .pendg,
    .regs, .asy, .queues, .chainDue, .rose, .afeCh, .descs, .ports, .clk, .sys, .tens, .loops, .charge, .chargeLast, .lanes,
    .stp, .sxt, .locks, .afe, .asm, .streams, .tx, .stw, .log, .hallmark, .closed, .env, .rck, .shadowBad, .pln, .sel,
    .routes, .nv, .tam] P) (hs : P s) :
    Answers (execRstCmdFull rq confirm s) P := by
  unfold execRstCmdFull
  refine answers_next ?_
  exact writeVia_ind (hC.mono (by decide)) hs

theorem execPctlSrst_ind {rq : Requester} {page : Nat} {s : Machine.State} (hC : Closed [.reset, .rst, .rsm, .pendg, .regs,
    .asy, .queues, .chainDue, .rose, .afeCh, .descs, .ports, .clk, .sys, .tens, .loops, .charge, .chargeLast, .lanes, .stp,
    .sxt, .locks, .afe, .asm, .streams, .tx, .stw, .log, .hallmark, .closed, .env, .rck, .shadowBad, .pln, .sel, .routes, .nv,
    .tam] P) (hs : P s) :
    Answers (execPctlSrst rq page s) P := by
  unfold execPctlSrst
  refine answers_next ?_
  exact writeVia_ind (hC.mono (by decide)) hs

theorem execPctlEnWrite_ind {rq : Requester} {page : Nat} {en : Bool} {s : Machine.State} (hC : Closed [.reset, .rst, .rsm,
    .pendg, .regs, .asy, .queues, .chainDue, .rose, .afeCh, .descs, .ports, .clk, .sys, .tens, .loops, .charge, .chargeLast,
    .lanes, .stp, .sxt, .locks, .afe, .asm, .streams, .tx, .stw, .log, .hallmark, .closed, .env, .rck, .shadowBad, .pln, .sel,
    .routes, .nv, .tam] P) (hs : P s) :
    Answers (execPctlEnWrite rq page en s) P := by
  unfold execPctlEnWrite
  refine answers_next ?_
  exact writeVia_ind (hC.mono (by decide)) hs

theorem execWdogKick_ind {rq : Requester} {ses : Nat} {s : Machine.State} (hC : Closed [.reset, .rst, .rsm, .pendg, .regs,
    .asy, .queues, .chainDue, .rose, .afeCh, .descs, .ports, .clk, .sys, .tens, .loops, .charge, .chargeLast, .lanes, .stp,
    .sxt, .locks, .afe, .asm, .streams, .tx, .stw, .log, .hallmark, .closed, .env, .rck, .shadowBad, .pln, .sel, .routes, .nv,
    .tam] P) (hs : P s) :
    Answers (execWdogKick rq ses s) P := by
  unfold execWdogKick
  refine answers_next ?_
  exact writeVia_ind (hC.mono (by decide)) hs

theorem execWdogSleep_ind {rq : Requester} {ses : Nat} {s : Machine.State} (hC : Closed [.reset, .rst, .rsm, .pendg, .regs,
    .asy, .queues, .chainDue, .rose, .afeCh, .descs, .ports, .clk, .sys, .tens, .loops, .charge, .chargeLast, .lanes, .stp,
    .sxt, .locks, .afe, .asm, .streams, .tx, .stw, .log, .hallmark, .closed, .env, .rck, .shadowBad, .pln, .sel, .routes, .nv,
    .tam] P) (hs : P s) :
    Answers (execWdogSleep rq ses s) P := by
  unfold execWdogSleep
  refine answers_next ?_
  exact writeVia_ind (hC.mono (by decide)) hs

theorem execPulseNow_ind {rq : Requester} {s : Machine.State} (hC : Closed [.reset, .rst, .rsm, .pendg, .regs, .asy, .queues,
    .chainDue, .rose, .afeCh, .descs, .ports, .clk, .sys, .tens, .loops, .charge, .chargeLast, .lanes, .stp, .sxt, .locks,
    .afe, .asm, .streams, .tx, .stw, .log, .hallmark, .closed, .env, .rck, .shadowBad, .pln, .sel, .routes, .nv, .tam] P) (hs
    : P s) :
    Answers (execPulseNow rq s) P := by
  unfold execPulseNow
  refine answers_next ?_
  exact writeVia_ind (hC.mono (by decide)) hs

theorem execSessionBump_ind {rq : Requester} {s : Machine.State} (hC : Closed [.reset, .rst, .rsm, .pendg, .regs, .asy,
    .queues, .chainDue, .rose, .afeCh, .descs, .ports, .clk, .sys, .tens, .loops, .charge, .chargeLast, .lanes, .stp, .sxt,
    .locks, .afe, .asm, .streams, .tx, .stw, .log, .hallmark, .closed, .env, .rck, .shadowBad, .pln, .sel, .routes, .nv, .tam]
    P) (hs : P s) :
    Answers (execSessionBump rq s) P := by
  unfold execSessionBump
  refine answers_next ?_
  exact writeVia_ind (hC.mono (by decide)) hs

theorem execLockRelease_ind {rq : Requester} {k : Nat} {s : Machine.State} (hC : Closed [.reset, .rst, .rsm, .pendg, .regs,
    .asy, .queues, .chainDue, .rose, .afeCh, .descs, .ports, .clk, .sys, .tens, .loops, .charge, .chargeLast, .lanes, .stp,
    .sxt, .locks, .afe, .asm, .streams, .tx, .stw, .log, .hallmark, .closed, .env, .rck, .shadowBad, .pln, .sel, .routes, .nv,
    .tam] P) (hs : P s) :
    Answers (execLockRelease rq k s) P := by
  unfold execLockRelease
  refine answers_next ?_
  refine when_ind (fun _ hz1 => ?_) ?_
  · exact write_ind (hC.mono (by decide)) hz1
  · exact hs

theorem execQueFlush_ind {rq : Requester} {target : Nat} {confirm : Nat} {s : Machine.State} (hC : Closed [.reset, .rst, .rsm,
    .pendg, .regs, .asy, .queues, .chainDue, .rose, .afeCh, .descs, .ports, .clk, .sys, .tens, .loops, .charge, .chargeLast,
    .lanes, .stp, .sxt, .locks, .afe, .asm, .streams, .tx, .stw, .log, .hallmark, .closed, .env, .rck, .shadowBad, .pln, .sel,
    .routes, .nv, .tam] P) (hs : P s) :
    Answers (execQueFlush rq target confirm s) P := by
  unfold execQueFlush
  refine answers_next ?_
  exact writeVia_ind (hC.mono (by decide)) hs

theorem execQueFlushAllLanes_ind {rq : Requester} {target : Nat} {confirm : Nat} {s : Machine.State} (hC : Closed [.reset,
    .rst, .rsm, .pendg, .regs, .asy, .queues, .chainDue, .rose, .afeCh, .descs, .ports, .clk, .sys, .tens, .loops, .charge,
    .chargeLast, .lanes, .stp, .sxt, .locks, .afe, .asm, .streams, .tx, .stw, .log, .hallmark, .closed, .env, .rck,
    .shadowBad, .pln, .sel, .routes, .nv, .tam] P) (hs : P s) :
    Answers (execQueFlushAllLanes rq target confirm s) P := by
  unfold execQueFlushAllLanes
  refine answers_next ?_
  exact writeVia_ind (hC.mono (by decide)) hs

theorem execFenceClear_ind {rq : Requester} {p : Nat} {w : Word} {s : Machine.State} (hC : Closed [.reset, .rst, .rsm, .pendg,
    .regs, .asy, .queues, .chainDue, .rose, .afeCh, .descs, .ports, .clk, .sys, .tens, .loops, .charge, .chargeLast, .lanes,
    .stp, .sxt, .locks, .afe, .asm, .streams, .tx, .stw, .log, .hallmark, .closed, .env, .rck, .shadowBad, .pln, .sel,
    .routes, .nv, .tam] P) (hs : P s) :
    Answers (execFenceClear rq p w s) P := by
  unfold execFenceClear
  refine answers_next ?_
  refine when_ind (fun _ hz1 => ?_) ?_
  · exact writeVia_ind (hC.mono (by decide)) hz1
  · exact hs

theorem execTouchstoneNow_ind {rq : Requester} {w : Word} {s : Machine.State} (hC : Closed [.reset, .rst, .rsm, .pendg, .regs,
    .asy, .queues, .chainDue, .rose, .afeCh, .descs, .ports, .clk, .sys, .tens, .loops, .charge, .chargeLast, .lanes, .stp,
    .sxt, .locks, .afe, .asm, .streams, .tx, .stw, .log, .hallmark, .closed, .env, .rck, .shadowBad, .pln, .sel, .routes, .nv,
    .tam] P) (hs : P s) :
    Answers (execTouchstoneNow rq w s) P := by
  unfold execTouchstoneNow
  refine answers_next ?_
  exact writeVia_ind (hC.mono (by decide)) hs

theorem execDescriptorCommit_ind {rq : Requester} {idx : Nat} {mask : Nat} {words : List Word} {s : Machine.State} (hC :
    Closed [.reset, .rst, .rsm, .pendg, .regs, .asy, .queues, .chainDue, .rose, .afeCh, .descs, .ports, .clk, .sys, .tens,
    .loops, .charge, .chargeLast, .lanes, .stp, .sxt, .locks, .afe, .asm, .streams, .tx, .stw, .log, .hallmark, .closed, .env,
    .rck, .shadowBad, .pln, .sel, .routes, .nv, .tam] P) (hs : P s) :
    Answers (execDescriptorCommit rq idx mask words s) P := by
  unfold execDescriptorCommit
  refine answers_next ?_
  exact writeVia_ind (hC.mono (by decide)) hs

theorem execBeaconSubmit_ind {rq : Requester} {seq : Word} {lo : Word} {hi : Word} {s : Machine.State} (hC : Closed [.reset,
    .rst, .rsm, .pendg, .regs, .asy, .queues, .chainDue, .rose, .afeCh, .descs, .ports, .clk, .sys, .tens, .loops, .charge,
    .chargeLast, .lanes, .stp, .sxt, .locks, .afe, .asm, .streams, .tx, .stw, .log, .hallmark, .closed, .env, .rck,
    .shadowBad, .pln, .sel, .routes, .nv, .tam] P) (hs : P s) :
    Answers (execBeaconSubmit rq seq lo hi s) P := by
  unfold execBeaconSubmit
  refine answers_next ?_
  exact writeVia_ind (hC.mono (by decide)) hs

theorem execRoseFire_ind {rq : Requester} {hi : Bool} {w : Word} {s : Machine.State} (hC : Closed [.reset, .rst, .rsm, .pendg,
    .regs, .asy, .queues, .chainDue, .rose, .afeCh, .descs, .ports, .clk, .sys, .tens, .loops, .charge, .chargeLast, .lanes,
    .stp, .sxt, .locks, .afe, .asm, .streams, .tx, .stw, .log, .hallmark, .closed, .env, .rck, .shadowBad, .pln, .sel,
    .routes, .nv, .tam] P) (hs : P s) :
    Answers (execRoseFire rq hi w s) P := by
  unfold execRoseFire
  refine answers_next ?_
  exact writeVia_ind (hC.mono (by decide)) hs

theorem execFlareClear_ind {rq : Requester} {w : Word} {s : Machine.State} (hC : Closed [.reset, .rst, .rsm, .pendg, .regs,
    .asy, .queues, .chainDue, .rose, .afeCh, .descs, .ports, .clk, .sys, .tens, .loops, .charge, .chargeLast, .lanes, .stp,
    .sxt, .locks, .afe, .asm, .streams, .tx, .stw, .log, .hallmark, .closed, .env, .rck, .shadowBad, .pln, .sel, .routes, .nv,
    .tam] P) (hs : P s) :
    Answers (execFlareClear rq w s) P := by
  unfold execFlareClear
  refine answers_next ?_
  exact writeVia_ind (hC.mono (by decide)) hs

theorem execFlareRelease_ind {rq : Requester} {f : Nat} {s : Machine.State} (hC : Closed [.reset, .rst, .rsm, .pendg, .regs,
    .asy, .queues, .chainDue, .rose, .afeCh, .descs, .ports, .clk, .sys, .tens, .loops, .charge, .chargeLast, .lanes, .stp,
    .sxt, .locks, .afe, .asm, .streams, .tx, .stw, .log, .hallmark, .closed, .env, .rck, .shadowBad, .pln, .sel, .routes, .nv,
    .tam] P) (hs : P s) :
    Answers (execFlareRelease rq f s) P := by
  unfold execFlareRelease
  refine answers_next ?_
  refine when_ind (fun _ hz1 => ?_) ?_
  · exact writeVia_ind (hC.mono (by decide)) hz1
  · exact hs

theorem execIflgClear_ind {rq : Requester} {hi : Bool} {w : Word} {s : Machine.State} (hC : Closed [.reset, .rst, .rsm,
    .pendg, .regs, .asy, .queues, .chainDue, .rose, .afeCh, .descs, .ports, .clk, .sys, .tens, .loops, .charge, .chargeLast,
    .lanes, .stp, .sxt, .locks, .afe, .asm, .streams, .tx, .stw, .log, .hallmark, .closed, .env, .rck, .shadowBad, .pln, .sel,
    .routes, .nv, .tam] P) (hs : P s) :
    Answers (execIflgClear rq hi w s) P := by
  unfold execIflgClear
  refine answers_next ?_
  exact writeVia_ind (hC.mono (by decide)) hs

theorem execTamperClear_ind {rq : Requester} {w : Word} {s : Machine.State} (hC : Closed [.reset, .rst, .rsm, .pendg, .regs,
    .asy, .queues, .chainDue, .rose, .afeCh, .descs, .ports, .clk, .sys, .tens, .loops, .charge, .chargeLast, .lanes, .stp,
    .sxt, .locks, .afe, .asm, .streams, .tx, .stw, .log, .hallmark, .closed, .env, .rck, .shadowBad, .pln, .sel, .routes, .nv,
    .tam] P) (hs : P s) :
    Answers (execTamperClear rq w s) P := by
  unfold execTamperClear
  refine answers_next ?_
  exact writeVia_ind (hC.mono (by decide)) hs

theorem execTstNvMarginRead_ind {rq : Requester} {s : Machine.State} (hC : Closed [.reset, .rst, .rsm, .pendg, .regs, .asy,
    .queues, .chainDue, .rose, .afeCh, .descs, .ports, .clk, .sys, .tens, .loops, .charge, .chargeLast, .lanes, .stp, .sxt,
    .locks, .afe, .asm, .streams, .tx, .stw, .log, .hallmark, .closed, .env, .rck, .shadowBad, .pln, .sel, .routes, .nv, .tam]
    P) (hs : P s) :
    Answers (execTstNvMarginRead rq s) P := by
  unfold execTstNvMarginRead
  refine answers_next ?_
  exact writeVia_ind (hC.mono (by decide)) hs

theorem execTstMemorySelfTest_ind {rq : Requester} {s : Machine.State} (hC : Closed [.reset, .rst, .rsm, .pendg, .regs, .asy,
    .queues, .chainDue, .rose, .afeCh, .descs, .ports, .clk, .sys, .tens, .loops, .charge, .chargeLast, .lanes, .stp, .sxt,
    .locks, .afe, .asm, .streams, .tx, .stw, .log, .hallmark, .closed, .env, .rck, .shadowBad, .pln, .sel, .routes, .nv, .tam]
    P) (hs : P s) :
    Answers (execTstMemorySelfTest rq s) P := by
  unfold execTstMemorySelfTest
  refine answers_next ?_
  exact writeVia_ind (hC.mono (by decide)) hs

theorem execCmdAssemblyWrite_ind {rq : Requester} {n : Nat} {bytes : List Byte} {s : Machine.State} (hC : Closed [.reset,
    .rst, .rsm, .pendg, .regs, .asy, .queues, .chainDue, .rose, .afeCh, .descs, .ports, .clk, .sys, .tens, .loops, .charge,
    .chargeLast, .lanes, .stp, .sxt, .locks, .afe, .asm, .streams, .tx, .stw, .log, .hallmark, .closed, .env, .rck,
    .shadowBad, .pln, .sel, .routes, .nv, .tam] P) (hs : P s) :
    Answers (execCmdAssemblyWrite rq n bytes s) P := by
  unfold execCmdAssemblyWrite
  refine answers_next ?_
  refine when_ind (fun _ hz1 => ?_) ?_
  · extract_lets -merge -underBinder n2
    exact commit_ind (hC.mono (by decide)) hz1
  · exact hs

theorem execCmdAssemblyClear_ind {rq : Requester} {n : Nat} {s : Machine.State} (hC : Closed [.reset, .rst, .rsm, .pendg,
    .regs, .asy, .queues, .chainDue, .rose, .afeCh, .descs, .ports, .clk, .sys, .tens, .loops, .charge, .chargeLast, .lanes,
    .stp, .sxt, .locks, .afe, .asm, .streams, .tx, .stw, .log, .hallmark, .closed, .env, .rck, .shadowBad, .pln, .sel,
    .routes, .nv, .tam] P) (hs : P s) :
    Answers (execCmdAssemblyClear rq n s) P := by
  unfold execCmdAssemblyClear
  refine answers_next ?_
  refine when_ind (fun _ hz1 => ?_) ?_
  · exact write_ind (hC.mono (by decide)) hz1
  · exact hs

theorem modTam_ind {s : Machine.State} {f : Tam → Tam} (hC : Closed [.tam] P) (hs : P s) :
    P (State.modTam s f) := by
  unfold State.modTam
  exact upd_tam (hC.mono (by decide)) hs

theorem dscShadow_ind {s : Machine.State} {d : Nat} (hC : Closed [.reset, .log, .queues, .pendg, .tens, .nv, .sys, .rose,
    .stw, .asm, .env, .regs, .hallmark, .lanes, .closed, .tx, .asy, .tam, .shadowBad] P) (hs : P s) :
    P (State.dscShadow s d) := by
  unfold State.dscShadow
  extract_lets -merge -underBinder n1
  exact shadow_ind (hC.mono (by decide)) (upd_shadowBad (hC.mono (by decide)) hs)

theorem markBad_ind {s : Machine.State} {a : Nat} (hC : Closed [.shadowBad] P) (hs : P s) :
    P (State.markBad s a) := by
  unfold State.markBad
  refine ite_ind ?_ ?_
  · exact hs
  · exact upd_shadowBad (hC.mono (by decide)) hs

theorem unitShadow_ind {s : Machine.State} {u : Nat} {a : Nat} {attr : Bool} (hC : Closed [.reset, .log, .queues, .pendg,
    .tens, .nv, .sys, .rose, .stw, .asm, .env, .regs, .hallmark, .lanes, .closed, .tx, .asy, .tam, .shadowBad] P) (hs : P s) :
    P (State.unitShadow s u a attr) := by
  unfold State.unitShadow
  extract_lets -merge -underBinder z1 z2
  have hz1 : P z1 := by
    refine ite_ind ?_ ?_
    · exact markBad_ind (hC.mono (by decide)) hs
    · exact hs
  have hz2 : P z2 := by
    refine ite_ind ?_ ?_
    · exact asyForce_ind (hC.mono (by decide)) hz1
    · exact hz1
  exact shadow_ind (hC.mono (by decide)) hz2

theorem execShadowMismatch_ind {addr : Nat} {idx : Nat} {s : Machine.State} (hC : Closed [.reset, .log, .queues, .pendg,
    .tens, .nv, .sys, .rose, .stw, .asm, .env, .regs, .hallmark, .lanes, .closed, .tx, .asy, .tam, .shadowBad, .pownBad, .clk,
    .loops] P) (hs : P s) :
    Answers (execShadowMismatch addr idx s) P := by
  unfold execShadowMismatch
  refine answers_next ?_
  refine when_ind (fun _ hz1 => ?_) ?_
  · extract_lets -merge -underBinder n2 n3 n4 n5 z6 z7
    have hz6 : P z6 := by
      refine ite_ind ?_ ?_
      · exact markBad_ind (hC.mono (by decide)) hz1
      · exact hz1
    have hz7 : P z7 := by
      exact shadow_ind (hC.mono (by decide)) hz6
    refine ite_ind ?_ ?_
    · refine ite_ind ?_ ?_
      · exact dscShadow_ind (hC.mono (by decide)) hz1
      · exact hz1
    · refine ite_ind ?_ ?_
      · refine ite_ind ?_ ?_
        · exact unitShadow_ind (hC.mono (by decide)) hz1
        · exact hz1
      · refine ite_ind ?_ ?_
        · exact hz1
        · refine ite_ind ?_ ?_
          · exact shadow_ind (hC.mono (by decide)) (upd_pownBad (hC.mono (by decide)) hz1)
          · refine ite_ind ?_ ?_
            · exact unitShadow_ind (hC.mono (by decide)) hz1
            · refine ite_ind ?_ ?_
              · exact regear_ind (hC.mono (by decide)) hz7
              · exact hz7
  · exact hs

theorem warn_ind {s : Machine.State} {f : Fld} {sub : Nat} {out : Bool} {back : Bool} {tj : Int} (hC : Closed [.sys, .rose,
    .queues, .pendg, .tens, .log, .stw, .regs] P) (hs : P s) :
    P (State.warn s f sub out back tj) := by
  unfold State.warn
  refine ite_ind ?_ ?_
  · exact raise_ind (hC.mono (by decide)) (logEntry_ind (hC.mono (by decide)) (setFld_ind (hC.mono rfl) hs))
  · refine ite_ind ?_ ?_
    · exact setFld_ind (hC.mono rfl) hs
    · exact hs

theorem execTempSample_ind {tj : Int} {s : Machine.State} (hC : Closed [.tam, .sys, .rose, .queues, .pendg, .tens, .log, .stw,
    .regs] P) (hs : P s) :
    Answers (execTempSample tj s) P := by
  unfold execTempSample
  refine answers_next ?_
  refine when_ind (fun _ hz1 => ?_) ?_
  · extract_lets -merge -underBinder z2 n3 n4 z5 z6 n7 n8 n9
    have hz2 : P z2 := by
      exact modTam_ind (hC.mono (by decide)) (setFld_ind (hC.mono (by decide)) (modSys_ind (hC.mono (by decide)) rfl rfl hz1))
    have hz5 : P z5 := by
      exact warn_ind (hC.mono (by decide)) hz2
    have hz6 : P z6 := by
      exact warn_ind (hC.mono (by decide)) hz5
    refine ite_ind ?_ ?_
    · refine ite_ind ?_ ?_
      · exact condEnd_ind (hC.mono (by decide)) hz6
      · exact hz6
    · refine ite_ind ?_ ?_
      · exact modTam_ind (hC.mono (by decide)) hz6
      · exact hz6
  · exact hs

theorem execThermalSecondDecision_ind {agree : Bool} {s : Machine.State} (hC : Closed [.reset, .log, .queues, .pendg, .tens,
    .nv, .sys, .rose, .stw, .asm, .env, .regs, .hallmark, .lanes, .closed, .tx, .asy, .tam] P) (hs : P s) :
    Answers (execThermalSecondDecision agree s) P := by
  unfold execThermalSecondDecision
  refine answers_next ?_
  refine when_ind (fun _ hz1 => ?_) ?_
  · extract_lets -merge -underBinder z2
    have hz2 : P z2 := by
      exact occur_ind (hC.mono (by decide)) (modTam_ind (hC.mono (by decide)) hz1)
    refine ite_ind ?_ ?_
    · exact hz2
    · exact occur_ind (hC.mono (by decide)) hz2
  · exact hs

theorem execThermalComparator_ind {beyond : Bool} {s : Machine.State} (hC : Closed [.sys, .mode, .tam] P) (hs : P s) :
    Answers (execThermalComparator beyond s) P := by
  unfold execThermalComparator
  refine answers_next ?_
  refine when_ind (fun _ hz1 => ?_) ?_
  · extract_lets -merge -underBinder z2
    have hz2 : P z2 := by
      exact modTam_ind (hC.mono (by decide)) hz1
    refine ite_ind ?_ ?_
    · refine ite_ind ?_ ?_
      · exact wakeCause_ind (hC.mono (by decide)) hz2
      · exact hz2
    · exact leaveReset_ind (hC.mono (by decide)) hz2
  · exact hs

theorem execSupplyGlitch_ind {storeOver : Bool} {s : Machine.State} (hC : Closed [.reset, .log, .queues, .pendg, .tens, .nv,
    .sys, .rose, .stw, .asm, .env, .regs, .hallmark, .lanes, .closed, .tx, .asy, .tam] P) (hs : P s) :
    Answers (execSupplyGlitch storeOver s) P := by
  unfold execSupplyGlitch
  extract_lets -merge -underBinder z1
  have hz1 : P z1 := by
    exact modTam_ind (hC.mono (by decide)) hs
  refine answers_next ?_
  refine ite_ind ?_ ?_
  · exact hs
  · refine ite_ind ?_ ?_
    · exact hz1
    · exact occur_ind (hC.mono (by decide)) (setFld_ind (hC.mono rfl) hz1)

theorem execSupplyConditionEnd_ind {s : Machine.State} (hC : Closed [.mode, .reg 0x2344, .tam] P) (hs : P s) :
    Answers (execSupplyConditionEnd s) P := by
  unfold execSupplyConditionEnd
  refine answers_next ?_
  exact leaveReset_ind (hC.mono (by decide)) (condEnd_ind (hC.mono (by decide)) (modTam_ind (hC.mono (by decide)) hs))

theorem execProbeWindowEnd_ind {s : Machine.State} (hC : Closed [.reg 0x2344, .tam, .reg 0x236c] P) (hs : P s) :
    Answers (execProbeWindowEnd s) P := by
  unfold execProbeWindowEnd
  refine answers_next ?_
  refine when_ind (fun _ hz1 => ?_) ?_
  · exact condEnd_ind (hC.mono (by decide)) (modTam_ind (hC.mono (by decide)) (setFld_ind (hC.mono (by decide)) hz1))
  · exact hs

theorem execTapInstruction_ind {bypass : Bool} {s : Machine.State} (hC : Closed [.reset, .log, .queues, .pendg, .tens, .nv,
    .sys, .rose, .stw, .asm, .env, .regs, .hallmark, .lanes, .closed, .tx, .asy, .tam] P) (hs : P s) :
    Answers (execTapInstruction bypass s) P := by
  unfold execTapInstruction
  refine answers_next ?_
  refine when_ind (fun _ hz1 => ?_) ?_
  · exact probe_ind (hC.mono (by decide)) hz1
  · exact hs

theorem trngFail_ind {s : Machine.State} {test : Nat} (hC : Closed [.reg 0x2318, .reg 0x154, .reg 0x178, .reg 0x2048, .sys,
    .rose, .queues, .pendg, .tens, .reg 0x2458, .reg 0x2418, .log, .reg 0x158, .stw, .reg 0x2370, .reg 0x1ae8] P) (hs : P s) :
    P (State.trngFail s test) := by
  unfold State.trngFail
  extract_lets -merge -underBinder z1 z2
  have hz1 : P z1 := by
    exact addSat_ind (hC.mono (by decide)) (setFld_ind (hC.mono (by decide)) (setFld_ind (hC.mono (by decide)) hs))
  have hz2 : P z2 := by
    refine ite_ind ?_ ?_
    · exact setFld_ind (hC.mono (by decide)) hz1
    · refine ite_ind ?_ ?_
      · exact setFld_ind (hC.mono (by decide)) hz1
      · exact hz1
  exact raise_ind (hC.mono (by decide)) (logEntry_ind (hC.mono (by decide)) hz2)

theorem execTrngHealthFail_ind {test : Nat} {s : Machine.State} (hC : Closed [.reg 0x2318, .reg 0x154, .reg 0x178, .reg
    0x2048, .sys, .rose, .queues, .pendg, .tens, .reg 0x2458, .reg 0x2418, .log, .reg 0x158, .stw, .reg 0x2370, .reg 0x1ae8]
    P) (hs : P s) :
    Answers (execTrngHealthFail test s) P := by
  unfold execTrngHealthFail
  refine answers_next ?_
  refine when_ind (fun _ hz1 => ?_) ?_
  · exact trngFail_ind (hC.mono (by decide)) hz1
  · exact hs

theorem execTrngRetest_ind {pass : Bool} {s : Machine.State} (hC : Closed [.reg 0x1ae8, .reg 0x2370, .reg 0x2318, .reg 0x154,
    .reg 0x178, .reg 0x2048, .sys, .rose, .queues, .pendg, .tens, .reg 0x2458, .reg 0x2418, .log, .reg 0x158, .stw] P) (hs : P
    s) :
    Answers (execTrngRetest pass s) P := by
  unfold execTrngRetest
  refine answers_next ?_
  refine when_ind (fun _ hz1 => ?_) ?_
  · refine ite_ind ?_ ?_
    · exact setFld_ind (hC.mono (by decide)) (setFld_ind (hC.mono (by decide)) (setFld_ind (hC.mono (by decide)) (setFld_ind
        (hC.mono (by decide)) hz1)))
    · exact trngFail_ind (hC.mono (by decide)) hz1
  · exact hs

theorem flyCopy_ind {s : Machine.State} {e : LogSlot} (hC : Closed [.reg 0x2458, .reg 0x2444, .nv, .reg 0x2618, .reg 0x154,
    .reg 0x178, .reg 0x2048, .sys, .rose, .queues, .pendg, .tens] P) (hs : P s) :
    P (State.flyCopy s e) := by
  unfold State.flyCopy
  extract_lets -merge -underBinder n1 n2 z3 n4
  have hz3 : P z3 := by
    exact logStore_ind (hC.mono (by decide)) hs
  exact addSat_ind (hC.mono (by decide)) (setFld_ind (hC.mono (by decide)) (upd_nv (hC.mono (by decide)) hz3))

theorem logRevive_ind {s : Machine.State} (hC : Closed [.log, .reg 0x2440, .reg 0x2618, .reg 0x154, .reg 0x178, .reg 0x2048,
    .sys, .rose, .queues, .pendg, .tens, .nv, .reg 0x2458, .reg 0x2444] P) (hs : P s) :
    P (State.logRevive s) := by
  unfold State.logRevive
  extract_lets -merge -underBinder z1 n2 z3 z4 n5
  have hz1 : P z1 := by
    refine forEach_ind (fun _ _ hz7 => ?_) ?_
    · exact flyCopy_ind (hC.mono (by decide)) hz7
    · exact hs
  have hz3 : P z3 := by
    refine forEach_ind (fun _ _ hz6 => ?_) ?_
    · exact nvErase_ind (hC.mono (by decide)) hz6
    · exact upd_nv (hC.mono (by decide)) hz1
  have hz4 : P z4 := by
    exact setFld_ind (hC.mono (by decide)) (setFld_ind (hC.mono (by decide)) (setFld_ind (hC.mono (by decide)) hz3))
  exact upd_log (hC.mono (by decide)) hz4

theorem logPut_ind {s : Machine.State} {e : LogPend} {ok : Bool} (hC : Closed [.log, .sys, .rose, .queues, .pendg, .tens, .nv,
    .reset, .stw, .asm, .env, .regs, .hallmark, .lanes, .closed, .tx, .asy, .tam] P) (hs : P s) :
    P (State.logPut s e ok) := by
  unfold State.logPut
  extract_lets -merge -underBinder n1 z2 n3
  have hz2 : P z2 := by
    exact flyWrite_ind (hC.mono (by decide)) (nvFail_ind (hC.mono (by decide)) hs)
  refine ite_ind ?_ ?_
  · refine ite_ind ?_ ?_
    · refine ite_ind ?_ ?_
      · exact logRevive_ind (hC.mono (by decide)) (logWrite_ind (hC.mono (by decide)) hs)
      · exact upd_log (hC.mono (by decide)) hz2
    · exact flyWrite_ind (hC.mono (by decide)) hs
  · refine ite_ind ?_ ?_
    · exact logWrite_ind (hC.mono (by decide)) hs
    · exact logDead_ind (hC.mono (by decide)) (nvFail_ind (hC.mono (by decide)) hs)

theorem execLogEntryWrite_ind {ok : Bool} {s : Machine.State} (hC : Closed [.stw, .tens, .nv, .log, .sys, .rose, .queues,
    .pendg, .reset, .asm, .env, .regs, .hallmark, .lanes, .closed, .tx, .asy, .tam] P) (hs : P s) :
    Answers (execLogEntryWrite ok s) P := by
  unfold execLogEntryWrite
  refine answers_next ?_
  refine when_ind (fun _ hz1 => ?_) ?_
  · split
    · exact nvEnd_ind (hC.mono (by decide)) hz1
    · extract_lets -merge -underBinder n2 z3 z4
      have hz3 : P z3 := by
        unfold z3
        exact upd_log (hC.mono (by decide)) hz1
      have hz4 : P z4 := by
        exact logPut_ind (hC.mono (by decide)) (nvEnd_ind (hC.mono (by decide)) hz3)
      exact hz4
  · exact hs

theorem logLost_ind {s : Machine.State} {lost : List (Nat × LogSlot)} (hC : Closed [.reset, .log, .queues, .pendg, .tens, .nv,
    .sys, .rose, .stw, .asm, .env, .regs, .hallmark, .lanes, .closed, .tx, .asy, .tam] P) (hs : P s) :
    P (State.logLost s lost) := by
  unfold State.logLost
  split
  · exact hs
  · extract_lets -merge -underBinder z1
    have hz1 : P z1 := by
      refine forEach_ind (fun _ _ hz2 => ?_) ?_
      · exact nvUncorr_ind (hC.mono (by decide)) hz2
      · exact hs
    refine ite_ind ?_ ?_
    · exact hz1
    · exact logDead_ind (hC.mono (by decide)) hz1

theorem logBad_ind {s : Machine.State} {bad : List (Nat × LogSlot)} (hC : Closed [.reset, .log, .queues, .pendg, .tens, .nv,
    .sys, .rose, .stw, .asm, .env, .regs, .hallmark, .lanes, .closed, .tx, .asy, .tam] P) (hs : P s) :
    P (State.logBad s bad) := by
  unfold State.logBad
  extract_lets -merge -underBinder z1
  have hz1 : P z1 := by
    refine ite_ind ?_ ?_
    · exact hs
    · refine raise_ind (hC.mono (by decide)) ?_
      refine forEach_ind (fun _ _ hz3 => ?_) ?_
      · exact nvFail_ind (hC.mono (by decide)) hz3
      · exact hs
  refine forEach_ind (fun _ _ hz2 => ?_) ?_
  · refine ite_ind ?_ ?_
    · exact occur_ind (hC.mono (by decide)) hz2
    · exact hz2
  · exact hz1

theorem execLogbookScan_ind {s : Machine.State} (hC : Closed [.reset, .log, .queues, .pendg, .tens, .nv, .sys, .rose, .stw,
    .asm, .env, .regs, .hallmark, .lanes, .closed, .tx, .asy, .tam] P) (hs : P s) :
    Answers (execLogbookScan s) P := by
  unfold execLogbookScan
  refine answers_next ?_
  refine when_ind (fun _ hz1 => ?_) ?_
  · extract_lets -merge -underBinder n2 n3 n4 n5 z6 n7 n8 z9 z10
    have hz6 : P z6 := by
      exact addSat_ind (hC.mono (by decide)) (setFld_ind (hC.mono (by decide)) (setFld_ind (hC.mono (by decide)) hz1))
    have hz9 : P z9 := by
      unfold z9
      have key11 : ∀ e, P e → ∀ v0 v1, P { e with nv := v0, log := v1 } :=
        fun e he v0 _ => upd_log (s := { e with nv := v0 }) (hC.mono (by decide)) (upd_nv (s := e) (hC.mono (by decide)) he)
      refine key11 _ ?_ _ _
      exact hz6
    have hz10 : P z10 := by
      exact logBad_ind (hC.mono (by decide)) hz9
    refine ite_ind ?_ ?_
    · exact hz10
    · exact logLost_ind (hC.mono (by decide)) hz10
  · exact hs

theorem execTstDone_ind {pass : Bool} {failAddr : Nat} {s : Machine.State} (hC : Closed [.reg 0x2744] P) (hs : P s) :
    Answers (execTstDone pass failAddr s) P := by
  unfold execTstDone
  refine answers_next ?_
  refine when_ind (fun _ hz1 => ?_) ?_
  · exact setFld_ind (hC.mono (by decide)) (putOn_ind (hC.mono (by decide)) (setFld_ind (hC.mono (by decide)) hz1))
  · exact hs

end Sys2Proof.Machine
end

