-- ==== Sys2Proof/Laws/FramesSteward.lean ====
section
/-! SUPPORT. What each operation may change: the charts, the Steward and the boot. A property closed under
those parts of the state holds after the operation if it held before. -/

namespace Sys2Proof.Machine

variable {P : State → Prop}

theorem more_ind {a : Applied} {s : Machine.State} {n : Nat} {first : Option (Nat × Nat)} (_hC : Closed [] P) (hs : P s) :
    P (Applied.more a s n first).state := by
  unfold Applied.more
  split
  · exact hs
  · exact hs

theorem applyDesc_ind {s : Machine.State} {rq : Requester} {d : Nat} {mask : Nat} {ws : List Word} (hC : Closed [.sel, .reset,
    .rst, .rsm, .pendg, .regs, .asy, .queues, .chainDue, .rose, .afeCh, .descs, .ports, .clk, .sys, .tens, .loops, .charge,
    .chargeLast, .lanes, .stp, .sxt, .locks, .afe, .asm, .streams, .tx, .stw, .log, .hallmark, .closed, .env, .rck,
    .shadowBad, .pln, .routes, .nv, .tam] P) (hs : P s) :
    P (State.applyDesc s rq d mask ws).state := by
  unfold State.applyDesc
  extract_lets -merge -underBinder n1 n2 n3
  exact setSel_ind (hC.mono (by decide)) (commit_ind (hC.mono (by decide)) (setSel_ind (hC.mono (by decide)) hs))

theorem applyRecs_ind {s : State} {rq : Requester} {l : List Rec} (hC : Closed [.sel, .regs, .descs, .asy, .routes, .sys,
    .rose, .queues, .pendg, .tens, .tam, .log, .stw, .nv, .reset, .tx, .lanes, .closed, .hallmark, .asm, .env, .streams,
    .locks, .ports, .chainDue, .clk, .loops, .charge, .chargeLast, .pln, .shadowBad, .rck, .sxt, .afe, .afeCh, .rsm, .rst,
    .stp] P) (h : P s) :
    P (s.applyRecs rq l).state := by
  unfold State.applyRecs
  extract_lets a
  have step : ∀ (l : List Rec) (b : Applied), P b.state → P (l.foldl (fun (a : Applied) r => match r with
      | .reg _ _ => a
      | .desc d m ws =>
        if s.sameRun a.state then
          let x := a.state.applyDesc rq d m ws
          if x.denied.isEmpty then { a with state := x.state } else a.more x.state 1 x.denied.head?
        else a) b).state := by
    intro l
    induction l with
    | nil => exact fun _ h => h
    | cons r t ih =>
      intro b hb
      refine ih _ ?_
      cases r with
      | reg _ _ => exact hb
      | desc d m ws =>
        have hx := applyDesc_ind (rq := rq) (d := d) (mask := m) (ws := ws) (hC.mono (by decide)) hb
        refine ite_ind (Q := fun a : Applied => P a.state) ?_ hb
        exact ite_ind (Q := fun a : Applied => P a.state) hx (ite_ind (Q := fun a : Applied => P a.state) hx hx)
  have ha : P a.state := step l _ h
  refine ite_ind (Q := fun a : Applied => P a.state) ha ?_
  have hx := fun ws => commit_ind (rq := rq) (writes := ws) (hC.mono (by decide)) ha
  exact ite_ind (Q := fun a : Applied => P a.state) (hx _)
    (ite_ind (Q := fun a : Applied => P a.state) (hx _) (hx _))

theorem chartRecord_ind {s : Machine.State} {t : Nat} {kind : Nat} {l : List Byte} {refused : Nat} {addr : Nat} {cause : Nat}
    (hC : Closed [.queues, .pendg, .reg 0x2048, .tens] P) (hs : P s) :
    P (State.chartRecord s t kind l refused addr cause) := by
  unfold State.chartRecord
  exact record_ind (hC.mono (by decide)) hs

theorem goDormant_ind {s : Machine.State} {t : Nat} (hC : Closed [.reg 0x118, .reg 0x154, .reg 0x178, .reg 0x2048, .sys,
    .rose, .queues, .pendg, .tens, .reg 0x188] P) (hs : P s) :
    P (State.goDormant s t) := by
  unfold State.goDormant
  refine ite_ind ?_ ?_
  · exact hs
  · exact raise_ind (hC.mono (by decide)) (setBit_ind (hC.mono (by decide)) hs)

theorem bootErr_ind {s : Machine.State} {code : Nat} {aud : Nat} {data : Nat} (hC : Closed [.reg 0x2458, .reg 0x2418, .reg
    0x154, .reg 0x178, .reg 0x2048, .sys, .rose, .queues, .pendg, .tens, .log, .reg 0x158, .stw, .reg 0x180] P) (hs : P s) :
    P (State.bootErr s code aud data) := by
  unfold State.bootErr
  refine logEntry_ind (hC.mono (by decide)) ?_
  refine ite_ind ?_ ?_
  · exact setFld_ind (hC.mono (by decide)) hs
  · exact hs

theorem chartInvalid_ind {s : Machine.State} {t : Nat} {l : List Byte} {boot : Bool} (hC : Closed [.queues, .pendg, .reg
    0x2048, .tens, .reg 0x118, .reg 0x154, .reg 0x178, .sys, .rose, .reg 0x188, .reg 0x2458, .reg 0x2418, .log, .reg 0x158,
    .stw, .reg 0x180] P) (hs : P s) :
    P (State.chartInvalid s t l boot) := by
  unfold State.chartInvalid
  refine chartRecord_ind (hC.mono (by decide)) ?_
  refine goDormant_ind (hC.mono (by decide)) ?_
  refine ite_ind ?_ ?_
  · exact bootErr_ind (hC.mono (by decide)) hs
  · exact hs

theorem applyChart_ind {s : Machine.State} {t : Nat} {boot : Bool} (hC : Closed [.queues, .pendg, .tens, .sys, .rose, .log,
    .stw, .sel, .regs, .descs, .asy, .routes, .tam, .nv, .reset, .tx, .lanes, .closed, .hallmark, .asm, .env, .streams,
    .locks, .ports, .chainDue, .clk, .loops, .charge, .chargeLast, .pln, .shadowBad, .rck, .sxt, .afe, .afeCh, .rsm, .rst,
    .stp] P) (hs : P s) :
    P (State.applyChart s t boot) := by
  unfold State.applyChart
  extract_lets -merge -underBinder n1
  refine ite_ind ?_ ?_
  · exact hs
  · refine ite_ind ?_ ?_
    · refine ite_ind ?_ ?_
      · exact chartRecord_ind (hC.mono (by decide)) hs
      · exact hs
    · refine ite_ind ?_ ?_
      · exact chartInvalid_ind (hC.mono (by decide)) hs
      · refine ite_ind ?_ ?_
        · exact chartRecord_ind (hC.mono (by decide)) (goDormant_ind (hC.mono (by decide)) hs)
        · split
          · exact chartInvalid_ind (hC.mono (by decide)) hs
          · extract_lets -merge -underBinder n2 n3
            refine ite_ind ?_ ?_
            · exact chartInvalid_ind (hC.mono (by decide)) hs
            · refine ite_ind ?_ ?_
              · exact chartRecord_ind (hC.mono (by decide)) (applyRecs_ind (hC.mono (by decide)) hs)
              · exact applyRecs_ind (hC.mono (by decide)) hs

theorem descBack_ind {s : Machine.State} {d : Nat} {dst : Nat} (hC : Closed [.sel, .reset, .rst, .rsm, .pendg, .regs, .asy,
    .queues, .chainDue, .rose, .afeCh, .descs, .ports, .clk, .sys, .tens, .loops, .charge, .chargeLast, .lanes, .stp, .sxt,
    .locks, .afe, .asm, .streams, .tx, .stw, .log, .hallmark, .closed, .env, .rck, .shadowBad, .pln, .routes, .nv, .tam] P)
    (hs : P s) :
    P (State.descBack s d dst) := by
  unfold State.descBack
  exact applyDesc_ind (hC.mono (by decide)) hs

theorem returnOwned_ind {s : Machine.State} {t : Nat} {dst : Nat} (hC : Closed [.routes, .regs, .asy, .queues, .pendg, .sel,
    .reset, .rst, .rsm, .chainDue, .rose, .afeCh, .descs, .ports, .clk, .sys, .tens, .loops, .charge, .chargeLast, .lanes,
    .stp, .sxt, .locks, .afe, .asm, .streams, .tx, .stw, .log, .hallmark, .closed, .env, .rck, .shadowBad, .pln, .nv, .tam] P)
    (hs : P s) :
    P (State.returnOwned s t dst) := by
  unfold State.returnOwned
  extract_lets -merge -underBinder n1 n2 n3 n4 z5 z6 z7
  have hz5 : P z5 := by
    exact commit_ind (hC.mono (by decide)) hs
  have hz6 : P z6 := by
    refine forEach_ind (fun _ _ hz9 => ?_) ?_
    · exact descBack_ind (hC.mono (by decide)) hz9
    · exact hz5
  have hz7 : P z7 := by
    refine forEach_ind (fun _ _ hz8 => ?_) ?_
    · exact asyRestart_ind (hC.mono (by decide)) (modUnit_ind (hC.mono (by decide)) hz8)
    · exact hz6
  exact upd_routes (hC.mono (by decide)) hz7

theorem decided_ind {s : Machine.State} {c : Cmd} (hC : Closed [.regs, .sys, .rose, .queues, .pendg, .tens, .env] P) (hs : P
    s) :
    P (State.decided s c) := by
  unfold State.decided
  extract_lets -merge -underBinder z1 z2 z3
  have hz1 : P z1 := by
    exact setQueue_ind (hC.mono (by decide)) hs
  have hz2 : P z2 := by
    unfold z2
    exact upd_env (hC.mono (by decide)) hz1
  have hz3 : P z3 := by
    exact setFld_ind (hC.mono (by decide)) (setFld_ind (hC.mono (by decide)) hz2)
  refine ite_ind ?_ ?_
  · exact hz3
  · exact raise_ind (hC.mono rfl) (modTen_ind (hC.mono (by decide)) (setFld_ind (hC.mono rfl) hz3))

theorem refused_ind {s : Machine.State} {c : Cmd} {st : Nat} {past7 : Bool} (hC : Closed [.reset, .log, .queues, .pendg,
    .tens, .nv, .sys, .rose, .stw, .asm, .env, .regs, .hallmark, .lanes, .closed, .tx, .asy, .tam] P) (hs : P s) :
    P (State.refused s c st past7) := by
  unfold State.refused
  extract_lets -merge -underBinder n1 n2 n3 z4 z5
  have hz4 : P z4 := by
    refine ite_ind ?_ ?_
    · exact hs
    · exact modTen_ind (hC.mono (by decide)) hs
  have hz5 : P z5 := by
    exact countAnswer_ind (hC.mono (by decide)) hz4
  refine ite_ind ?_ ?_
  · exact probe_ind (hC.mono (by decide)) hz5
  · exact hz5

theorem reissued_ind {s : Machine.State} {c : Cmd} (hC : Closed [.sys, .rose, .queues, .pendg, .tens, .regs] P) (hs : P s) :
    P (State.reissued s c) := by
  unfold State.reissued
  extract_lets -merge -underBinder n1 n2 n3 n4
  exact countAnswer_ind (hC.mono (by decide)) (modTen_ind (hC.mono (by decide)) hs)

theorem countUp_ind {s : Machine.State} {c : Cmd} {raise : Bool} (hC : Closed [.tens, .nv] P) (hs : P s) :
    P (State.countUp s c raise) := by
  unfold State.countUp
  extract_lets -merge -underBinder z1
  have hz1 : P z1 := by
    refine ite_ind ?_ ?_
    · exact modTnv_ind (hC.mono (by decide)) hs
    · exact hs
  exact modTen_ind (hC.mono (by decide)) hz1

theorem command_ind {s : State} {mine : Cmd → Bool} {body : Cmd → Ticket → State → State} (hC : Closed [.queues, .env, .regs,
    .sys, .rose, .pendg, .tens, .tam, .log, .stw, .nv, .reset, .tx, .lanes, .closed, .hallmark, .asm, .asy] P)
    (hb : ∀ c k s, P s → P (body c k s)) (h : P s) : P (s.command mine body) := by
  unfold State.command
  refine when_ind (fun s hs => ?_) h
  dsimp only
  split
  · exact hs
  · refine ite_ind hs ?_
    have h1 := fun c => decided_ind (c := c) (hC.mono (by decide)) hs
    split
    · exact refused_ind (hC.mono (by decide)) (h1 _)
    · exact reissued_ind (hC.mono (by decide)) (h1 _)
    · exact hb _ _ _ (countUp_ind (hC.mono (by decide)) (h1 _))

theorem cmdWrite_ind {s : Machine.State} {k : Ticket} {j : Ticket → NvJob} (hC : Closed [.stw, .sys, .rose, .queues, .pendg,
    .tens, .regs] P) (hs : P s) :
    P (State.cmdWrite s k j) := by
  unfold State.cmdWrite
  refine ite_ind ?_ ?_
  · exact nvRequest_ind (hC.mono (by decide)) (pendAnswer_ind (hC.mono (by decide)) hs)
  · exact nvRequest_ind (hC.mono (by decide)) hs

theorem runWrite_ind {s : Machine.State} {c : Cmd} {k : Ticket} (hC : Closed [.sys, .rose, .queues, .pendg, .tens, .regs,
    .sel, .descs, .asy, .routes, .tam, .log, .stw, .nv, .reset, .tx, .lanes, .closed, .hallmark, .asm, .env, .streams, .locks,
    .ports, .chainDue, .clk, .loops, .charge, .chargeLast, .pln, .shadowBad, .rck, .sxt, .afe, .afeCh, .rsm, .rst, .stp] P)
    (hs : P s) :
    P (State.runWrite s c k) := by
  unfold State.runWrite
  refine ite_ind ?_ ?_
  · exact answer_ind (hC.mono (by decide)) hs
  · split
    · exact answer_ind (hC.mono (by decide)) hs
    · extract_lets -merge -underBinder n1
      refine ite_ind ?_ ?_
      · exact answer_ind (hC.mono (by decide)) (applyRecs_ind (hC.mono (by decide)) hs)
      · exact applyRecs_ind (hC.mono (by decide)) hs

theorem execWrite_ind {s : Machine.State} (hC : Closed [.queues, .env, .regs, .sys, .rose, .pendg, .tens, .tam, .log, .stw,
    .nv, .reset, .tx, .lanes, .closed, .hallmark, .asm, .asy, .sel, .descs, .routes, .streams, .locks, .ports, .chainDue,
    .clk, .loops, .charge, .chargeLast, .pln, .shadowBad, .rck, .sxt, .afe, .afeCh, .rsm, .rst, .stp] P) (hs : P s) :
    Answers (execWrite s) P := by
  unfold execWrite
  refine answers_next ?_
  refine command_ind (hC.mono (by decide)) (fun _ _ _ hz1 => ?_) ?_
  · exact runWrite_ind (hC.mono (by decide)) hz1
  · exact hs

theorem execChartBegin_ind {s : Machine.State} (hC : Closed [.queues, .env, .regs, .sys, .rose, .pendg, .tens, .tam, .log,
    .stw, .nv, .reset, .tx, .lanes, .closed, .hallmark, .asm, .asy] P) (hs : P s) :
    Answers (execChartBegin s) P := by
  unfold execChartBegin
  refine answers_next ?_
  refine command_ind (hC.mono (by decide)) (fun _ _ _ hz1 => ?_) ?_
  · extract_lets -merge -underBinder n2
    refine ite_ind ?_ ?_
    · exact answer_ind (hC.mono (by decide)) hz1
    · exact answer_ind (hC.mono (by decide)) (modTen_ind (hC.mono (by decide)) hz1)
  · exact hs

theorem execChartData_ind {s : Machine.State} (hC : Closed [.queues, .env, .regs, .sys, .rose, .pendg, .tens, .tam, .log,
    .stw, .nv, .reset, .tx, .lanes, .closed, .hallmark, .asm, .asy] P) (hs : P s) :
    Answers (execChartData s) P := by
  unfold execChartData
  refine answers_next ?_
  refine command_ind (hC.mono (by decide)) (fun _ _ _ hz1 => ?_) ?_
  · extract_lets -merge -underBinder n2 n3 n4
    refine ite_ind ?_ ?_
    · exact answer_ind (hC.mono (by decide)) hz1
    · exact cmdWrite_ind (hC.mono (by decide)) (modTen_ind (hC.mono (by decide)) hz1)
  · exact hs

theorem execChartCommit_ind {s : Machine.State} (hC : Closed [.queues, .env, .regs, .sys, .rose, .pendg, .tens, .tam, .log,
    .stw, .nv, .reset, .tx, .lanes, .closed, .hallmark, .asm, .asy] P) (hs : P s) :
    Answers (execChartCommit s) P := by
  unfold execChartCommit
  refine answers_next ?_
  refine command_ind (hC.mono (by decide)) (fun _ _ _ hz1 => ?_) ?_
  · extract_lets -merge -underBinder n2
    split
    · exact answer_ind (hC.mono (by decide)) hz1
    · refine ite_ind ?_ ?_
      · exact answer_ind (hC.mono (by decide)) hz1
      · split
        · exact answer_ind (hC.mono (by decide)) hz1
        · extract_lets -merge -underBinder n3 z4
          have hz4 : P z4 := by
            exact modTen_ind (hC.mono (by decide)) (pendAnswer_ind (hC.mono (by decide)) hz1)
          refine ite_ind ?_ ?_
          · exact answer_ind (hC.mono (by decide)) hz1
          · exact nvRequest_ind (hC.mono (by decide)) hz4
  · exact hs

theorem execChartCommitDone_ind {t : Nat} {ok : Bool} {s : Machine.State} (hC : Closed [.rst, .tens, .locks, .regs, .afeCh,
    .pendg, .sxt, .rose, .sys, .queues, .rsm, .asy, .chainDue, .descs, .ports, .clk, .loops, .charge, .chargeLast, .lanes,
    .nv, .stw] P) (hs : P s) :
    Answers (execChartCommitDone t ok s) P := by
  unfold execChartCommitDone
  refine answers_next ?_
  refine when_ind (fun _ hz1 => ?_) ?_
  · split
    · extract_lets -merge -underBinder z2 z3 z4
      have hz2 : P z2 := by
        exact modTen_ind (hC.mono (by decide)) (nvEnd_ind (hC.mono (by decide)) hz1)
      have hz3 : P z3 := by
        exact modTnv_ind (hC.mono (by decide)) hz2
      have hz4 : P z4 := by
        exact clrBit_ind (hC.mono (by decide)) (modTen_ind (hC.mono (by decide)) hz3)
      refine ite_ind ?_ ?_
      · exact hz1
      · refine ite_ind ?_ ?_
        · exact tenReset_ind (hC.mono (by decide)) (answer_ind (hC.mono (by decide)) hz4)
        · exact answer_ind (hC.mono (by decide)) (nvFail_ind (hC.mono (by decide)) hz2)
    · exact hz1
  · exact hs

theorem execConfigStore_ind {s : Machine.State} (hC : Closed [.queues, .env, .regs, .sys, .rose, .pendg, .tens, .tam, .log,
    .stw, .nv, .reset, .tx, .lanes, .closed, .hallmark, .asm, .asy] P) (hs : P s) :
    Answers (execConfigStore s) P := by
  unfold execConfigStore
  refine answers_next ?_
  refine command_ind (hC.mono (by decide)) (fun _ _ _ hz1 => ?_) ?_
  · exact cmdWrite_ind (hC.mono (by decide)) hz1
  · exact hs

theorem keyStart_ind {s : State} {k : Ticket} {t gen : Nat} {key hash : List Byte} {b : Bool} (hC : Closed [.stw, .regs, .sys,
    .rose, .queues, .pendg, .tens] P)
    (h : P s) : P (s.keyStart k t gen key hash b) := by
  unfold State.keyStart
  refine ite_ind (answer_ind (hC.mono (by decide)) h) ?_
  refine deferShow_ind (hC.mono (by decide)) (modTen_ind (hC.mono (by decide)) (upd_stw (hC.mono (by decide)) ?_))
  split
  · exact pendAnswer_ind (hC.mono (by decide)) h
  · exact h

theorem execKeyEstablish_ind {s : Machine.State} (hC : Closed [.queues, .env, .regs, .sys, .rose, .pendg, .tens, .tam, .log,
    .stw, .nv, .reset, .tx, .lanes, .closed, .hallmark, .asm, .asy] P) (hs : P s) :
    Answers (execKeyEstablish s) P := by
  unfold execKeyEstablish
  refine answers_next ?_
  refine command_ind (hC.mono (by decide)) (fun _ _ _ hz1 => ?_) ?_
  · extract_lets -merge -underBinder n2
    exact keyStart_ind (hC.mono (by decide)) hz1
  · exact hs

theorem execKeyRotate_ind {s : Machine.State} (hC : Closed [.queues, .env, .regs, .sys, .rose, .pendg, .tens, .tam, .log,
    .stw, .nv, .reset, .tx, .lanes, .closed, .hallmark, .asm, .asy] P) (hs : P s) :
    Answers (execKeyRotate s) P := by
  unfold execKeyRotate
  refine answers_next ?_
  refine command_ind (hC.mono (by decide)) (fun _ _ _ hz1 => ?_) ?_
  · split
    · exact answer_ind (hC.mono (by decide)) hz1
    · split
      · exact answer_ind (hC.mono (by decide)) hz1
      · exact keyStart_ind (hC.mono (by decide)) hz1
  · exact hs

theorem lifeFirst_ind {s : Machine.State} {k : Ticket} {target : Nat} {byKey : Bool} (hC : Closed [.sys, .rose, .queues,
    .pendg, .tens, .regs, .stw] P) (hs : P s) :
    P (State.lifeFirst s k target byKey) := by
  unfold State.lifeFirst
  extract_lets -merge -underBinder n1
  refine ite_ind ?_ ?_
  · exact answer_ind (hC.mono (by decide)) hs
  · refine ite_ind ?_ ?_
    · exact answer_ind (hC.mono (by decide)) hs
    · exact upd_stw (hC.mono (by decide)) hs

theorem lifeMove_ind {s : Machine.State} {target : Nat} (hC : Closed [.reset, .nv, .reg 0x245c, .queues, .pendg, .reg 0x2048,
    .tens, .reg 0x2644, .reg 0x2440, .reg 0x2444, .log, .reg 0x2458, .reg 0x2618, .reg 0x154, .reg 0x178, .sys, .rose] P) (hs
    : P s) :
    P (State.lifeMove s target) := by
  unfold State.lifeMove
  extract_lets -merge -underBinder n1 z2 n3 n4
  have hz2 : P z2 := by
    refine ite_ind ?_ ?_
    · exact flyWrite_ind (hC.mono (by decide)) hs
    · exact logWrite_ind (hC.mono (by decide)) hs
  exact fullReset_ind (hC.mono (by decide)) (upd_nv (hC.mono (by decide)) hz2)

theorem execLifecycle_ind {s : Machine.State} (hC : Closed [.queues, .env, .regs, .sys, .rose, .pendg, .tens, .tam, .log,
    .stw, .nv, .reset, .tx, .lanes, .closed, .hallmark, .asm, .asy] P) (hs : P s) :
    Answers (execLifecycle s) P := by
  unfold execLifecycle
  refine answers_next ?_
  refine command_ind (hC.mono (by decide)) (fun _ _ _ hz1 => ?_) ?_
  · exact lifeFirst_ind (hC.mono (by decide)) hz1
  · exact hs

theorem execLifecycleSecondDecision_ind {agree : Bool} {s : Machine.State} (hC : Closed [.reset, .log, .queues, .pendg, .tens,
    .nv, .sys, .rose, .stw, .asm, .env, .regs, .hallmark, .lanes, .closed, .tx, .asy, .tam] P) (hs : P s) :
    Answers (execLifecycleSecondDecision agree s) P := by
  unfold execLifecycleSecondDecision
  refine answers_next ?_
  refine when_ind (fun _ hz1 => ?_) ?_
  · split
    · exact hz1
    · extract_lets -merge -underBinder n2 z3
      have hz3 : P z3 := by
        unfold z3
        exact upd_stw (hC.mono (by decide)) hz1
      refine ite_ind ?_ ?_
      · exact occur_ind (hC.mono (by decide)) (answer_ind (hC.mono (by decide)) hz3)
      · refine ite_ind ?_ ?_
        · exact answer_ind (hC.mono (by decide)) hz3
        · exact lifeMove_ind (hC.mono (by decide)) hz3
  · exact hs

theorem execKeyUpdateWrite_ind {t : Nat} {ok : Bool} {s : Machine.State} (hC : Closed [.tens, .stw, .sys, .rose, .queues,
    .pendg, .regs, .nv] P) (hs : P s) :
    Answers (execKeyUpdateWrite t ok s) P := by
  unfold execKeyUpdateWrite
  refine answers_next ?_
  refine when_ind (fun _ hz1 => ?_) ?_
  · split
    · exact hz1
    · extract_lets -merge -underBinder n2 z3 z4 z5
      have hz3 : P z3 := by
        exact deferShow_ind (hC.mono (by decide)) (modTen_ind (hC.mono (by decide)) hz1)
      have hz4 : P z4 := by
        exact modSlot_ind (hC.mono (by decide)) (nvErase_ind (hC.mono (by decide)) hz3)
      have hz5 : P z5 := by
        exact modTen_ind (hC.mono (by decide)) (modSlot_ind (hC.mono (by decide)) hz4)
      refine ite_ind ?_ ?_
      · exact hz1
      · refine ite_ind ?_ ?_
        · exact modTen_ind (hC.mono (by decide)) hz4
        · exact nvStart_ind (hC.mono (by decide)) (answer_ind (hC.mono (by decide)) (nvFail_ind (hC.mono (by decide)) hz5))
  · exact hs

theorem tenBorn_ind {s : Machine.State} {t : Nat} (hC : Closed [.reg 0x158, .stw, .hallmark, .tens, .nv, .reg 0x188] P) (hs :
    P s) :
    P (State.tenBorn s t) := by
  unfold State.tenBorn
  extract_lets -merge -underBinder z1
  have hz1 : P z1 := by
    exact modTnv_ind (hC.mono (by decide)) (setBit_ind (hC.mono (by decide)) hs)
  exact reserveSeq_ind (hC.mono (by decide)) (modTen_ind (hC.mono (by decide)) hz1)

theorem execKeyUpdateCommit_ind {t : Nat} {ok : Bool} {s : Machine.State} (hC : Closed [.stw, .sys, .rose, .queues, .pendg,
    .tens, .regs, .nv, .hallmark] P) (hs : P s) :
    Answers (execKeyUpdateCommit t ok s) P := by
  unfold execKeyUpdateCommit
  refine answers_next ?_
  refine when_ind (fun _ hz1 => ?_) ?_
  · split
    · exact hz1
    · extract_lets -merge -underBinder z2 z3 z4 z5 z6 n7 z8
      have hz2 : P z2 := by
        exact modTen_ind (hC.mono (by decide)) hz1
      have hz3 : P z3 := by
        exact modSlot_ind (hC.mono (by decide)) hz2
      have hz4 : P z4 := by
        exact modTnv_ind (hC.mono (by decide)) hz3
      have hz5 : P z5 := by
        exact raise_ind (hC.mono (by decide)) (modTen_ind (hC.mono (by decide)) hz4)
      have hz6 : P z6 := by
        refine ite_ind ?_ ?_
        · exact tenBorn_ind (hC.mono (by decide)) hz5
        · exact hz5
      have hz8 : P z8 := by
        exact modSlot_ind (hC.mono (by decide)) hz2
      refine ite_ind ?_ ?_
      · exact hz1
      · refine ite_ind ?_ ?_
        · refine ite_ind ?_ ?_
          · exact nvStart_ind (hC.mono (by decide)) (lifeFirst_ind (hC.mono (by decide)) hz6)
          · exact nvStart_ind (hC.mono (by decide)) (answer_ind (hC.mono (by decide)) hz6)
        · exact nvStart_ind (hC.mono (by decide)) (answer_ind (hC.mono (by decide)) (nvFail_ind (hC.mono (by decide)) hz8))
  · exact hs

theorem execTenantCreate_ind {s : Machine.State} (hC : Closed [.queues, .env, .regs, .sys, .rose, .pendg, .tens, .tam, .log,
    .stw, .nv, .reset, .tx, .lanes, .closed, .hallmark, .asm, .asy] P) (hs : P s) :
    Answers (execTenantCreate s) P := by
  unfold execTenantCreate
  refine answers_next ?_
  refine command_ind (hC.mono (by decide)) (fun _ _ _ hz1 => ?_) ?_
  · extract_lets -merge -underBinder n2 n3 z4
    have hz4 : P z4 := by
      exact poolMark_ind (hC.mono (by decide)) (setReg_ind (hC.mono rfl) hz1)
    refine ite_ind ?_ ?_
    · exact answer_ind (hC.mono (by decide)) hz1
    · refine ite_ind ?_ ?_
      · exact answer_ind (hC.mono (by decide)) hz1
      · refine ite_ind ?_ ?_
        · exact answer_ind (hC.mono (by decide)) hz1
        · exact keyStart_ind (hC.mono (by decide)) hz4
  · exact hs

theorem execTenantEnrol_ind {s : Machine.State} (hC : Closed [.queues, .env, .regs, .sys, .rose, .pendg, .tens, .tam, .log,
    .stw, .nv, .reset, .tx, .lanes, .closed, .hallmark, .asm, .asy] P) (hs : P s) :
    Answers (execTenantEnrol s) P := by
  unfold execTenantEnrol
  refine answers_next ?_
  refine command_ind (hC.mono (by decide)) (fun _ _ _ hz1 => ?_) ?_
  · extract_lets -merge -underBinder n2 n3 n4 n5 n6
    refine ite_ind ?_ ?_
    · exact answer_ind (hC.mono (by decide)) hz1
    · exact keyStart_ind (hC.mono (by decide)) hz1
  · exact hs

theorem dropTenant_ind {s : Machine.State} {t : Nat} (hC : Closed [.evicts, .lanes, .sys, .rose, .queues, .pendg, .tens,
    .regs] P) (hs : P s) :
    P (State.dropTenant s t) := by
  unfold State.dropTenant
  extract_lets -merge -underBinder z1
  have hz1 : P z1 := by
    refine forEach_ind (fun _ _ hz2 => ?_) ?_
    · extract_lets -merge -underBinder n3 n4 z5
      have hz5 : P z5 := by
        refine setPend_ind (hC.mono (by decide)) ?_
        refine forEach_ind (fun _ _ hz6 => ?_) ?_
        · exact setPend_ind (hC.mono (by decide)) hz6
        · exact setQueue_ind (hC.mono (by decide)) hz2
      exact modLane_ind (hC.mono (by decide)) (freeGran_ind (hC.mono (by decide)) hz5)
    · exact hs
  exact setEvict_ind (hC.mono (by decide)) hz1

theorem execTenantRemove_ind {s : Machine.State} (hC : Closed [.queues, .env, .regs, .sys, .rose, .pendg, .tens, .tam, .log,
    .stw, .nv, .reset, .tx, .lanes, .closed, .hallmark, .asm, .asy, .routes, .sel, .rst, .rsm, .chainDue, .afeCh, .descs,
    .ports, .clk, .loops, .charge, .chargeLast, .stp, .sxt, .locks, .afe, .streams, .rck, .shadowBad, .pln, .evicts] P) (hs :
    P s) :
    Answers (execTenantRemove s) P := by
  unfold execTenantRemove
  refine answers_next ?_
  refine command_ind (hC.mono (by decide)) (fun _ _ _ hz1 => ?_) ?_
  · extract_lets -merge -underBinder n2 z3 z4 z5 z6 z7
    have hz3 : P z3 := by
      exact modTnv_ind (hC.mono (by decide)) (clrBit_ind (hC.mono (by decide)) (clrBit_ind (hC.mono (by decide)) hz1))
    have hz4 : P z4 := by
      exact returnOwned_ind (hC.mono (by decide)) (dropTenant_ind (hC.mono (by decide)) hz3)
    have hz5 : P z5 := by
      exact setFld_ind (hC.mono rfl) (setFld_ind (hC.mono rfl) hz4)
    have hz6 : P z6 := by
      exact poolMark_ind (hC.mono (by decide)) (setFld_ind (hC.mono rfl) hz5)
    have hz7 : P z7 := by
      exact modTen_ind (hC.mono (by decide)) hz6
    refine ite_ind ?_ ?_
    · exact answer_ind (hC.mono (by decide)) hz1
    · exact cmdWrite_ind (hC.mono (by decide)) (deferShow_ind (hC.mono (by decide)) hz7)
  · exact hs

theorem execTenantReset_ind {s : Machine.State} (hC : Closed [.queues, .env, .regs, .sys, .rose, .pendg, .tens, .tam, .log,
    .stw, .nv, .reset, .tx, .lanes, .closed, .hallmark, .asm, .asy, .rst, .locks, .afeCh, .sxt, .rsm, .chainDue, .descs,
    .ports, .clk, .loops, .charge, .chargeLast] P) (hs : P s) :
    Answers (execTenantReset s) P := by
  unfold execTenantReset
  refine answers_next ?_
  refine command_ind (hC.mono (by decide)) (fun _ _ _ hz1 => ?_) ?_
  · refine ite_ind ?_ ?_
    · exact answer_ind (hC.mono (by decide)) hz1
    · exact answer_ind (hC.mono (by decide)) (tenReset_ind (hC.mono (by decide)) hz1)
  · exact hs

theorem execDatapathReset_ind {s : Machine.State} (hC : Closed [.queues, .env, .regs, .sys, .rose, .pendg, .tens, .tam, .log,
    .stw, .nv, .reset, .tx, .lanes, .closed, .hallmark, .asm, .asy, .rst, .rsm, .chainDue, .afeCh, .descs, .ports, .clk,
    .loops, .charge, .chargeLast] P) (hs : P s) :
    Answers (execDatapathReset s) P := by
  unfold execDatapathReset
  refine answers_next ?_
  refine command_ind (hC.mono (by decide)) (fun _ _ _ hz1 => ?_) ?_
  · exact answer_ind (hC.mono (by decide)) (dpReset_ind (hC.mono (by decide)) hz1)
  · exact hs

theorem execFullResetCmd_ind {s : Machine.State} (hC : Closed [.queues, .env, .regs, .sys, .rose, .pendg, .tens, .tam, .log,
    .stw, .nv, .reset, .tx, .lanes, .closed, .hallmark, .asm, .asy] P) (hs : P s) :
    Answers (execFullResetCmd s) P := by
  unfold execFullResetCmd
  refine answers_next ?_
  refine command_ind (hC.mono (by decide)) (fun _ _ _ hz1 => ?_) ?_
  · exact cmdReset_ind (hC.mono (by decide)) hz1
  · exact hs

theorem execHostReset_ind {s : Machine.State} (hC : Closed [.queues, .env, .regs, .sys, .rose, .pendg, .tens, .tam, .log,
    .stw, .nv, .reset, .tx, .lanes, .closed, .hallmark, .asm, .asy, .streams, .locks] P) (hs : P s) :
    Answers (execHostReset s) P := by
  unfold execHostReset
  refine answers_next ?_
  refine command_ind (hC.mono (by decide)) (fun _ _ _ hz1 => ?_) ?_
  · exact answer_ind (hC.mono (by decide)) (hostPulse_ind (hC.mono (by decide)) hz1)
  · exact hs

theorem execAttest_ind {s : Machine.State} (hC : Closed [.queues, .env, .regs, .sys, .rose, .pendg, .tens, .tam, .log, .stw,
    .nv, .reset, .tx, .lanes, .closed, .hallmark, .asm, .asy] P) (hs : P s) :
    Answers (execAttest s) P := by
  unfold execAttest
  refine answers_next ?_
  refine command_ind (hC.mono (by decide)) (fun _ _ _ hz1 => ?_) ?_
  · exact answer_ind (hC.mono (by decide)) (modTen_ind (hC.mono (by decide)) hz1)
  · exact hs

theorem execAttestSignDone_ind {t : Nat} {s : Machine.State} (hC : Closed [.reg 0x2218, .reg 0x154, .reg 0x178, .reg 0x2048,
    .sys, .rose, .queues, .pendg, .tens] P) (hs : P s) :
    Answers (execAttestSignDone t s) P := by
  unfold execAttestSignDone
  refine answers_next ?_
  refine when_ind (fun _ hz1 => ?_) ?_
  · exact raise_ind (hC.mono (by decide)) (modTen_ind (hC.mono (by decide)) hz1)
  · exact hs

theorem execPatchLoadBegin_ind {s : Machine.State} (hC : Closed [.queues, .env, .regs, .sys, .rose, .pendg, .tens, .tam, .log,
    .stw, .nv, .reset, .tx, .lanes, .closed, .hallmark, .asm, .asy] P) (hs : P s) :
    Answers (execPatchLoadBegin s) P := by
  unfold execPatchLoadBegin
  refine answers_next ?_
  refine command_ind (hC.mono (by decide)) (fun _ _ _ hz1 => ?_) ?_
  · extract_lets -merge -underBinder n2
    exact answer_ind (hC.mono (by decide)) (upd_stw (hC.mono (by decide)) hz1)
  · exact hs

theorem execPatchLoadData_ind {s : Machine.State} (hC : Closed [.queues, .env, .regs, .sys, .rose, .pendg, .tens, .tam, .log,
    .stw, .nv, .reset, .tx, .lanes, .closed, .hallmark, .asm, .asy] P) (hs : P s) :
    Answers (execPatchLoadData s) P := by
  unfold execPatchLoadData
  refine answers_next ?_
  refine command_ind (hC.mono (by decide)) (fun _ _ _ hz1 => ?_) ?_
  · extract_lets -merge -underBinder n2 n3 n4
    refine ite_ind ?_ ?_
    · exact answer_ind (hC.mono (by decide)) hz1
    · refine ite_ind ?_ ?_
      · exact answer_ind (hC.mono (by decide)) hz1
      · exact cmdWrite_ind (hC.mono (by decide)) (upd_stw (hC.mono (by decide)) hz1)
  · exact hs

theorem execPatchLoadCommit_ind {s : Machine.State} (hC : Closed [.queues, .env, .regs, .sys, .rose, .pendg, .tens, .tam,
    .log, .stw, .nv, .reset, .tx, .lanes, .closed, .hallmark, .asm, .asy] P) (hs : P s) :
    Answers (execPatchLoadCommit s) P := by
  unfold execPatchLoadCommit
  refine answers_next ?_
  refine command_ind (hC.mono (by decide)) (fun _ _ _ hz1 => ?_) ?_
  · refine ite_ind ?_ ?_
    · exact answer_ind (hC.mono (by decide)) hz1
    · split
      · exact answer_ind (hC.mono (by decide)) hz1
      · extract_lets -merge -underBinder n2
        refine ite_ind ?_ ?_
        · exact answer_ind (hC.mono (by decide)) hz1
        · exact cmdWrite_ind (hC.mono (by decide)) (upd_stw (hC.mono (by decide)) hz1)
  · exact hs

theorem jobDone_ind {s : Machine.State} {j : NvJob} {ok : Bool} (hC : Closed [.reg 0x2644, .tens, .nv, .stw, .reg 0x2618, .reg
    0x154, .reg 0x178, .reg 0x2048, .sys, .rose, .queues, .pendg] P) (hs : P s) :
    P (State.jobDone s j ok) := by
  unfold State.jobDone
  split
  · refine ite_ind ?_ ?_
    · exact hs
    · exact nvFail_ind (hC.mono (by decide)) (modTen_ind (hC.mono (by decide)) hs)
  · extract_lets -merge -underBinder n1
    refine ite_ind ?_ ?_
    · exact upd_nv (hC.mono (by decide)) hs
    · exact nvFail_ind (hC.mono (by decide)) hs
  · extract_lets -merge -underBinder n2
    refine ite_ind ?_ ?_
    · exact hs
    · exact nvFail_ind (hC.mono (by decide)) (upd_stw (hC.mono (by decide)) hs)
  · refine ite_ind ?_ ?_
    · exact patchStand_ind (hC.mono (by decide)) hs
    · exact nvFail_ind (hC.mono (by decide)) hs
  · extract_lets -merge -underBinder z3 n4
    have hz3 : P z3 := by
      exact nvErase_ind (hC.mono (by decide)) (nvErase_ind (hC.mono (by decide)) hs)
    refine ite_ind ?_ ?_
    · exact modTnv_ind (hC.mono (by decide)) hz3
    · exact nvFail_ind (hC.mono (by decide)) hz3
  · exact hs
  · exact hs
  · exact hs

theorem execNvWriteComplete_ind {ok : Bool} {s : Machine.State} (hC : Closed [.sys, .rose, .queues, .pendg, .tens, .regs, .nv,
    .stw] P) (hs : P s) :
    Answers (execNvWriteComplete ok s) P := by
  unfold execNvWriteComplete
  refine answers_next ?_
  refine when_ind (fun _ hz1 => ?_) ?_
  · split
    · exact hz1
    · split
      · exact hz1
      · exact hz1
      · exact hz1
      · extract_lets -merge -underBinder z2
        have hz2 : P z2 := by
          exact jobDone_ind (hC.mono (by decide)) (nvEnd_ind (hC.mono (by decide)) hz1)
        split
        · exact hz2
        · exact answer_ind (hC.mono (by decide)) hz2
  · exact hs

theorem bootOn_ind {s : State} {n : Nat} {f : State → State} (hf : ∀ s, P s → P (f s)) (h : P s) : P (s.bootOn n f) :=
    when_ind hf h

theorem stage_ind {s : Machine.State} {n : Nat} (hC : Closed [.reg 0x180] P) (hs : P s) :
    P (State.stage s n) := by
  unfold State.stage
  exact setFld_ind (hC.mono (by decide)) hs

theorem bootHalt_ind {s : Machine.State} {err : Nat} (hC : Closed [.reg 0x180] P) (hs : P s) :
    P (State.bootHalt s err) := by
  unfold State.bootHalt
  exact stage_ind (hC.mono (by decide)) (setFld_ind (hC.mono (by decide)) hs)

theorem bootStart_ind {s : Machine.State} {mv : Nat} (hC : Closed [.reg 0x354, .loops, .reg 0x258, .reg 0x244, .sys, .reg
    0x350, .reg 0x160, .reg 0x180, .closed] P) (hs : P s) :
    P (State.bootStart s mv) := by
  unfold State.bootStart
  extract_lets -merge -underBinder n1 z2 z3 z4 z5
  have hz2 : P z2 := by
    refine ite_ind ?_ ?_
    · exact setFld_ind (hC.mono (by decide)) hs
    · exact upd_closed (hC.mono (by decide)) hs
  have hz3 : P z3 := by
    exact setReg_ind (hC.mono (by decide)) hz2
  have hz4 : P z4 := by
    refine ite_ind ?_ ?_
    · exact setFld_ind (hC.mono (by decide)) hz3
    · exact hz3
  have hz5 : P z5 := by
    exact modSys_ind (hC.mono (by decide)) rfl rfl hz4
  exact applyCode_ind (hC.mono (by decide)) (setFld_ind (hC.mono (by decide)) (setFld_ind (hC.mono (by decide)) (setFld_ind
      (hC.mono (by decide)) hz5)))

theorem loadTrim_ind {s : Machine.State} (hC : Closed [.reg 0x5c, .reg 0x58, .reg 0x40] P) (hs : P s) :
    P (State.loadTrim s) := by
  unfold State.loadTrim
  extract_lets -merge -underBinder n1
  exact setFld_ind (hC.mono (by decide)) (setFld_ind (hC.mono (by decide)) (setFld_ind (hC.mono (by decide)) hs))

theorem loadConfig_ind {s : Machine.State} (hC : Closed [.regs] P) (hs : P s) :
    P (State.loadConfig s) := by
  unfold State.loadConfig
  extract_lets -merge -underBinder z1 z2
  have hz1 : P z1 := by
    refine forEach_ind (fun _ _ hz4 => ?_) ?_
    · exact setReg_ind (hC.mono rfl) hz4
    · exact hs
  have hz2 : P z2 := by
    refine ite_ind ?_ ?_
    · exact hz1
    · exact setReg_ind (hC.mono (by decide)) (setFld_ind (hC.mono (by decide)) hz1)
  refine forEach_ind (fun _ _ hz3 => ?_) ?_
  · exact setFld_ind (hC.mono rfl) hz3
  · exact hz2

theorem loadLife_ind {s : Machine.State} (hC : Closed [.reg 0x188, .reg 0x184] P) (hs : P s) :
    P (State.loadLife s) := by
  unfold State.loadLife
  extract_lets -merge -underBinder n1 n2
  exact setFld_ind (hC.mono (by decide)) (setFld_ind (hC.mono (by decide)) hs)

theorem loadRetired_ind {s : Machine.State} (hC : Closed [.regs] P) (hs : P s) :
    P (State.loadRetired s) := by
  unfold State.loadRetired
  extract_lets -merge -underBinder z1 z2 z3
  have hz1 : P z1 := by
    refine forEach_ind (fun _ _ hz7 => ?_) ?_
    · exact setFld_ind (hC.mono rfl) hz7
    · exact hs
  have hz2 : P z2 := by
    refine forEach_ind (fun _ _ hz6 => ?_) ?_
    · exact setFld_ind (hC.mono rfl) hz6
    · exact hz1
  have hz3 : P z3 := by
    refine forEach_ind (fun _ _ hz5 => ?_) ?_
    · exact setFld_ind (hC.mono rfl) hz5
    · exact hz2
  refine forEach_ind (fun _ _ hz4 => ?_) ?_
  · exact setFld_ind (hC.mono rfl) (setFld_ind (hC.mono rfl) hz4)
  · exact hz3

theorem loadLog_ind {s : Machine.State} (hC : Closed [.reg 0x2444, .reg 0x2440] P) (hs : P s) :
    P (State.loadLog s) := by
  unfold State.loadLog
  extract_lets -merge -underBinder n1 z2
  have hz2 : P z2 := by
    exact putOn_ind (hC.mono (by decide)) (putOn_ind (hC.mono (by decide)) hs)
  exact setFld_ind (hC.mono (by decide)) (setFld_ind (hC.mono (by decide)) hz2)

theorem bootConfig_ind {s : Machine.State} (hC : Closed [.reset, .log, .queues, .pendg, .tens, .nv, .sys, .rose, .stw, .asm,
    .env, .regs, .hallmark, .lanes, .closed, .tx, .asy, .tam] P) (hs : P s) :
    P (State.bootConfig s) := by
  unfold State.bootConfig
  extract_lets -merge -underBinder z1 z2 z3
  have hz1 : P z1 := by
    exact loadLog_ind (hC.mono (by decide)) (loadLife_ind (hC.mono (by decide)) (loadConfig_ind (hC.mono (by decide))
        (stage_ind (hC.mono (by decide)) hs)))
  have hz2 : P z2 := by
    refine ite_ind ?_ ?_
    · exact loadRetired_ind (hC.mono (by decide)) hz1
    · exact hz1
  have hz3 : P z3 := by
    refine ite_ind ?_ ?_
    · exact hz2
    · exact occur_ind (hC.mono (by decide)) (nvFail_ind (hC.mono (by decide)) (bootErr_ind (hC.mono (by decide)) hz2))
  refine bootOn_ind (fun _ hz4 => ?_) ?_
  · refine ite_ind ?_ ?_
    · exact hz4
    · exact occur_ind (hC.mono (by decide)) hz4
  · exact hz3

theorem supplyFlags_ind {s : Machine.State} {mv : Nat} {peak : Nat} (hC : Closed [.reg 0x158, .stw, .reg 0x344, .sys] P) (hs :
    P s) :
    P (State.supplyFlags s mv peak) := by
  unfold State.supplyFlags
  extract_lets -merge -underBinder n1
  exact supply_ind (hC.mono (by decide)) (putOn_ind (hC.mono (by decide)) hs)

theorem ringWord_ind {s : Machine.State} {k : Nat} (hC : Closed [.nv] P) (hs : P s) :
    P (State.ringWord s k) := by
  unfold State.ringWord
  extract_lets -merge -underBinder n1 n2
  refine ite_ind ?_ ?_
  · exact upd_nv (hC.mono (by decide)) hs
  · refine ite_ind ?_ ?_
    · exact modTnv_ind (hC.mono (by decide)) hs
    · exact modTnv_ind (hC.mono (by decide)) hs

theorem ringRead_ind {s : Machine.State} (hC : Closed [.tens, .reg 0x2644, .reg 0x2458, .reg 0x2418, .reg 0x154, .reg 0x178,
    .reg 0x2048, .sys, .rose, .queues, .pendg, .log, .reg 0x158, .stw, .reg 0x180] P) (hs : P s) :
    P (State.ringRead s) := by
  unfold State.ringRead
  extract_lets -merge -underBinder z1
  have hz1 : P z1 := by
    refine ite_ind ?_ ?_
    · exact hs
    · exact nvFail_ind (hC.mono (by decide)) (bootErr_ind (hC.mono (by decide)) hs)
  refine forEach_ind (fun _ _ hz2 => ?_) ?_
  · exact modTen_ind (hC.mono (by decide)) hz2
  · exact hz1

theorem showBoot_ind {s : Machine.State} (hC : Closed [.reg 0x550, .reg 0x60] P) (hs : P s) :
    P (State.showBoot s) := by
  unfold State.showBoot
  extract_lets -merge -underBinder n1
  exact setFld_ind (hC.mono (by decide)) (putOn_ind (hC.mono (by decide)) (setFld_ind (hC.mono (by decide)) hs))

theorem relatch_ind {s : Machine.State} (hC : Closed [.sys, .rose, .queues, .pendg, .tens, .tam, .log, .regs] P) (hs : P s) :
    P (State.relatch s) := by
  unfold State.relatch
  split
  · exact hs
  · extract_lets -merge -underBinder z1 z2 n3 n4 n5 z6 z7
    have hz1 : P z1 := by
      exact addSat_ind (hC.mono rfl) (setBit_ind (hC.mono (by decide)) hs)
    have hz2 : P z2 := by
      exact setReg_ind (hC.mono (by decide)) hz1
    have hz6 : P z6 := by
      refine risen_ind (hC.mono (by decide)) ?_
      have key8 : ∀ e, P e → ∀ v0 v1, P { e with tam := v0, log := v1 } :=
        fun e he v0 _ => upd_log (s := { e with tam := v0 }) (hC.mono (by decide)) (upd_tam (s := e) (hC.mono (by decide)) he)
      refine key8 _ ?_ _ _
      exact hz2
    have hz7 : P z7 := by
      exact raise_ind (hC.mono (by decide)) hz6
    refine ite_ind ?_ ?_
    · exact setFld_ind (hC.mono (by decide)) hz7
    · exact hz7

theorem keptEntry_ind {s : Machine.State} (hC : Closed [.reg 0x158, .stw, .log] P) (hs : P s) :
    P (State.keptEntry s) := by
  unfold State.keptEntry
  split
  · exact hs
  · extract_lets -merge -underBinder n1
    exact nvRequest_ind (hC.mono (by decide)) (upd_log (hC.mono (by decide)) hs)

theorem bootRings_ind {s : Machine.State} {words : Nat} (hC : Closed [.stw, .log, .sys, .rose, .queues, .pendg, .tens, .tam,
    .regs, .reset, .nv, .asm, .env, .hallmark, .lanes, .closed, .tx, .asy] P) (hs : P s) :
    P (State.bootRings s words) := by
  unfold State.bootRings
  extract_lets -merge -underBinder n1 z2 z3 z4
  have hz2 : P z2 := by
    exact ringRead_ind (hC.mono (by decide)) (stage_ind (hC.mono (by decide)) hs)
  have hz3 : P z3 := by
    refine forEach_ind (fun _ _ hz6 => ?_) ?_
    · exact ringWord_ind (hC.mono (by decide)) hz6
    · exact hz2
  have hz4 : P z4 := by
    exact showBoot_ind (hC.mono (by decide)) hz3
  refine ite_ind ?_ ?_
  · exact hz3
  · refine bootOn_ind (fun _ hz5 => ?_) ?_
    · exact nvStart_ind (hC.mono (by decide)) (keptEntry_ind (hC.mono (by decide)) (relatch_ind (hC.mono (by decide)) hz5))
    · refine ite_ind ?_ ?_
      · exact hz4
      · exact occur_ind (hC.mono (by decide)) hz4

theorem bootPatch_ind {s : Machine.State} (hC : Closed [.reg 0x180, .reg 0x54, .reg 0x50, .reg 0x4c, .reg 0x118, .reg 0x154,
    .reg 0x178, .reg 0x2048, .sys, .rose, .queues, .pendg, .tens, .reg 0x2458, .reg 0x2418, .log, .reg 0x158, .stw] P) (hs : P
    s) :
    P (State.bootPatch s) := by
  unfold State.bootPatch
  extract_lets -merge -underBinder z1
  have hz1 : P z1 := by
    exact stage_ind (hC.mono (by decide)) hs
  split
  · exact hz1
  · split
    · extract_lets -merge -underBinder z2
      have hz2 : P z2 := by
        exact setFld_ind (hC.mono (by decide)) (setFld_ind (hC.mono (by decide)) hz1)
      exact setFld_ind (hC.mono (by decide)) (setFld_ind (hC.mono (by decide)) (setFld_ind (hC.mono (by decide)) hz2))
    · extract_lets -merge -underBinder z3
      have hz3 : P z3 := by
        exact setFld_ind (hC.mono (by decide)) (setFld_ind (hC.mono (by decide)) hz1)
      exact raise_ind (hC.mono (by decide)) (logEntry_ind (hC.mono (by decide)) hz3)

theorem bootRetained_ind {s : Machine.State} (hC : Closed [.regs, .sys, .rose, .queues, .pendg, .tens] P) (hs : P s) :
    P (State.bootRetained s) := by
  unfold State.bootRetained
  extract_lets -merge -underBinder z1
  have hz1 : P z1 := by
    refine poolMark_ind (hC.mono (by decide)) ?_
    refine forEach_ind (fun _ _ hz3 => ?_) ?_
    · refine forEach_ind (fun _ _ hz4 => ?_) ?_
      · exact takeGran_ind (hC.mono (by decide)) hz4
      · exact hz3
    · exact hs
  refine forEach_ind (fun _ _ hz2 => ?_) ?_
  · exact setFld_ind (hC.mono rfl) hz2
  · exact hz1

theorem keysShown_ind {s : Machine.State} (hC : Closed [.reg 0x2118, .reg 0x154, .reg 0x178, .reg 0x2048, .sys, .rose,
    .queues, .pendg, .tens] P) (hs : P s) :
    P (State.keysShown s) := by
  unfold State.keysShown
  refine ite_ind ?_ ?_
  · exact raise_ind (hC.mono (by decide)) hs
  · exact hs

theorem bootKeys_ind {s : Machine.State} (hC : Closed [.sys, .rose, .queues, .pendg, .tens, .regs, .log, .stw] P) (hs : P s) :
    P (State.bootKeys s) := by
  unfold State.bootKeys
  refine keysShown_ind (hC.mono (by decide)) ?_
  refine bootRetained_ind (hC.mono (by decide)) ?_
  refine forEach_ind (fun _ _ hz1 => ?_) ?_
  · refine ite_ind ?_ ?_
    · exact hz1
    · split
      · exact modTen_ind (hC.mono (by decide)) hz1
      · refine ite_ind ?_ ?_
        · exact goDormant_ind (hC.mono (by decide)) (bootErr_ind (hC.mono (by decide)) hz1)
        · exact hz1
  · exact stage_ind (hC.mono (by decide)) hs

theorem bootCharts_ind {s : Machine.State} (hC : Closed [.sys, .rose, .queues, .pendg, .tens, .regs, .log, .stw, .sel, .descs,
    .asy, .routes, .tam, .nv, .reset, .tx, .lanes, .closed, .hallmark, .asm, .env, .streams, .locks, .ports, .chainDue, .clk,
    .loops, .charge, .chargeLast, .pln, .shadowBad, .rck, .sxt, .afe, .afeCh, .rsm, .rst, .stp] P) (hs : P s) :
    P (State.bootCharts s) := by
  unfold State.bootCharts
  extract_lets -merge -underBinder z1 z2
  have hz1 : P z1 := by
    exact raise_ind (hC.mono (by decide)) (addSat_ind (hC.mono (by decide)) (stage_ind (hC.mono (by decide)) hs))
  have hz2 : P z2 := by
    refine forEach_ind (fun _ _ hz5 => ?_) ?_
    · refine bootOn_ind (fun _ hz6 => ?_) ?_
      · refine ite_ind ?_ ?_
        · exact applyChart_ind (hC.mono (by decide)) hz6
        · exact hz6
      · exact hz5
    · exact hz1
  refine bootOn_ind (fun _ hz3 => ?_) ?_
  · refine forEach_ind (fun _ _ hz4 => ?_) ?_
    · refine ite_ind ?_ ?_
      · exact flareReleased_ind (hC.mono (by decide)) (setFld_ind (hC.mono rfl) hz4)
      · exact hz4
    · exact hz3
  · exact hz2

theorem bootHost_ind {s : Machine.State} {oscLock : Bool} (hC : Closed [.reset, .log, .queues, .pendg, .tens, .nv, .sys,
    .rose, .stw, .asm, .env, .regs, .hallmark, .lanes, .closed, .tx, .asy, .tam, .clk] P) (hs : P s) :
    P (State.bootHost s oscLock) := by
  unfold State.bootHost
  extract_lets -merge -underBinder z1 z2 n3 n4 z5
  have hz1 : P z1 := by
    exact stage_ind (hC.mono (by decide)) hs
  have hz2 : P z2 := by
    refine ite_ind ?_ ?_
    · exact vhostUp_ind (hC.mono (by decide)) hz1
    · exact hz1
  have hz5 : P z5 := by
    unfold z5
    exact upd_clk (hC.mono (by decide)) hz2
  refine ite_ind ?_ ?_
  · exact hz2
  · refine ite_ind ?_ ?_
    · exact hz5
    · exact holdover_ind (hC.mono (by decide)) (raise_ind (hC.mono (by decide)) (setFld_ind (hC.mono (by decide)) (unlock_ind
        (hC.mono (by decide)) hz5)))

theorem bootRest_ind {s : Machine.State} {oscLock : Bool} (hC : Closed [.reset, .log, .queues, .pendg, .tens, .nv, .sys,
    .rose, .stw, .asm, .env, .regs, .hallmark, .lanes, .closed, .tx, .asy, .tam, .clk, .sel, .descs, .routes, .streams,
    .locks, .ports, .chainDue, .loops, .charge, .chargeLast, .pln, .shadowBad, .rck, .sxt, .afe, .afeCh, .rsm, .rst, .stp] P)
    (hs : P s) :
    P (State.bootRest s oscLock) := by
  unfold State.bootRest
  refine bootOn_ind (fun _ hz1 => ?_) ?_
  · exact bootHost_ind (hC.mono (by decide)) hz1
  · refine bootOn_ind (fun _ hz2 => ?_) ?_
    · exact bootCharts_ind (hC.mono (by decide)) hz2
    · refine bootOn_ind (fun _ hz3 => ?_) ?_
      · exact bootKeys_ind (hC.mono (by decide)) hz3
      · refine bootOn_ind (fun _ hz4 => ?_) ?_
        · exact bootPatch_ind (hC.mono (by decide)) hz4
        · exact hs

theorem bootSupply_ind {s : Machine.State} {supply : BootSupply} {oscLock : Bool} (hC : Closed [.reset, .log, .queues, .pendg,
    .tens, .nv, .sys, .rose, .stw, .asm, .env, .regs, .hallmark, .lanes, .closed, .tx, .asy, .tam, .clk, .sel, .descs,
    .routes, .streams, .locks, .ports, .chainDue, .loops, .charge, .chargeLast, .pln, .shadowBad, .rck, .sxt, .afe, .afeCh,
    .rsm, .rst, .stp] P) (hs : P s) :
    P (State.bootSupply s supply oscLock) := by
  unfold State.bootSupply
  extract_lets -merge -underBinder z1
  have hz1 : P z1 := by
    exact supplyFlags_ind (hC.mono (by decide)) hs
  refine ite_ind ?_ ?_
  · refine when_ind (fun _ hz2 => ?_) ?_
    · exact bootRest_ind (hC.mono (by decide)) hz2
    · exact bootRings_ind (hC.mono (by decide)) hz1
  · exact stage_ind (hC.mono (by decide)) hz1

theorem oscFailed_ind {s : Machine.State} (hC : Closed [.reg 0x218, .reg 0x154, .reg 0x178, .reg 0x2048, .sys, .rose, .queues,
    .pendg, .tens, .reg 0x25c] P) (hs : P s) :
    P (State.oscFailed s) := by
  unfold State.oscFailed
  exact raise_ind (hC.mono (by decide)) (setFld_ind (hC.mono (by decide)) hs)

theorem execBoot_ind {supply : BootSupply} {start : BootStart} {oscLock : Bool} {s : Machine.State} (hC : Closed [.sys, .rose,
    .queues, .pendg, .tens, .reset, .log, .nv, .stw, .asm, .env, .regs, .hallmark, .lanes, .closed, .tx, .asy, .tam, .clk,
    .sel, .descs, .routes, .streams, .locks, .ports, .chainDue, .loops, .charge, .chargeLast, .pln, .shadowBad, .rck, .sxt,
    .afe, .afeCh, .rsm, .rst, .stp] P) (hs : P s) :
    Answers (execBoot supply start oscLock s) P := by
  unfold execBoot
  refine answers_next ?_
  refine when_ind (fun _ hz1 => ?_) ?_
  · extract_lets -merge -underBinder z2
    have hz2 : P z2 := by
      exact bootStart_ind (hC.mono (by decide)) hz1
    refine ite_ind ?_ ?_
    · exact oscFailed_ind (hC.mono (by decide)) hz1
    · refine ite_ind ?_ ?_
      · exact bootHalt_ind (hC.mono (by decide)) hz2
      · refine ite_ind ?_ ?_
        · exact bootHalt_ind (hC.mono (by decide)) hz2
        · refine bootOn_ind (fun _ hz3 => ?_) ?_
          · exact bootSupply_ind (hC.mono (by decide)) (harvShow_ind (hC.mono (by decide)) hz3)
          · exact bootConfig_ind (hC.mono (by decide)) (loadTrim_ind (hC.mono (by decide)) hz2)
  · exact hs

theorem execBootEnergyResume_ind {supply : BootSupply} {oscLock : Bool} {s : Machine.State} (hC : Closed [.reset, .log,
    .queues, .pendg, .tens, .nv, .sys, .rose, .stw, .asm, .env, .regs, .hallmark, .lanes, .closed, .tx, .asy, .tam, .clk,
    .sel, .descs, .routes, .streams, .locks, .ports, .chainDue, .loops, .charge, .chargeLast, .pln, .shadowBad, .rck, .sxt,
    .afe, .afeCh, .rsm, .rst, .stp] P) (hs : P s) :
    Answers (execBootEnergyResume supply oscLock s) P := by
  unfold execBootEnergyResume
  refine answers_next ?_
  refine when_ind (fun _ hz1 => ?_) ?_
  · exact bootSupply_ind (hC.mono (by decide)) hz1
  · exact hs

theorem execHostRelease_ind {time : Nat} {s : Machine.State} (hC : Closed [.clk, .sys, .rose, .queues, .pendg, .tens, .loops,
    .regs, .mode] P) (hs : P s) :
    Answers (execHostRelease time s) P := by
  unfold execHostRelease
  refine answers_next ?_
  refine when_ind (fun _ hz1 => ?_) ?_
  · extract_lets -merge -underBinder z2 z3 z4 z5
    have hz2 : P z2 := by
      exact setFld_ind (hC.mono (by decide)) (stage_ind (hC.mono (by decide)) hz1)
    have hz3 : P z3 := by
      exact modMode_ind (hC.mono (by decide)) (by intro; first | rfl | (dsimp only; split <;> rfl)) (putOn_ind (hC.mono (by
          decide)) hz2)
    have hz4 : P z4 := by
      exact setFld_ind (hC.mono (by decide)) (setFld_ind (hC.mono (by decide)) hz3)
    have hz5 : P z5 := by
      refine forEach_ind (fun _ _ hz6 => ?_) ?_
      · refine ite_ind ?_ ?_
        · exact railEnable_ind (hC.mono (by decide)) hz6
        · exact hz6
      · exact hz4
    exact regear_ind (hC.mono (by decide)) hz5
  · exact hs

theorem countMissed_ind {s : Machine.State} {d : Nat} (hC : Closed [.reg 0x1818, .reg 0x154, .reg 0x178, .reg 0x2048, .sys,
    .rose, .queues, .pendg, .tens, .reg 0x1858, .descs] P) (hs : P s) :
    P (State.countMissed s d) := by
  unfold State.countMissed
  extract_lets -merge -underBinder n1
  refine ite_ind ?_ ?_
  · exact hs
  · exact psqReset_ind (hC.mono (by decide)) (modDesc_ind (hC.mono (by decide)) hs)

theorem execResetRestart_ind {s : Machine.State} (hC : Closed [.clk, .sys, .rose, .queues, .pendg, .tens, .loops, .descs,
    .rst, .log, .stw, .sel, .regs, .asy, .routes, .tam, .nv, .reset, .tx, .lanes, .closed, .hallmark, .asm, .env, .streams,
    .locks, .ports, .chainDue, .charge, .chargeLast, .pln, .shadowBad, .rck, .sxt, .afe, .afeCh, .rsm, .stp] P) (hs : P s) :
    Answers (execResetRestart s) P := by
  unfold execResetRestart
  refine answers_next ?_
  refine when_ind (fun _ hz1 => ?_) ?_
  · extract_lets -merge -underBinder n2 n3 n4 z5 z6
    have hz5 : P z5 := by
      refine forEach_ind (fun _ _ hz15 => ?_) ?_
      · exact countMissed_ind (hC.mono (by decide)) hz15
      · exact hz1
    have hz6 : P z6 := by
      refine forEach_ind (fun _ _ hz11 => ?_) ?_
      · refine when_ind (fun _ hz12 => ?_) ?_
        · extract_lets -merge -underBinder z13
          have hz13 : P z13 := by
            exact returnOwned_ind (hC.mono (by decide)) hz12
          refine when_ind (fun _ hz14 => ?_) ?_
          · exact applyChart_ind (hC.mono (by decide)) hz14
          · exact hz13
        · exact hz11
      · exact hz5
    refine when_ind (fun _ hz7 => ?_) ?_
    · extract_lets -merge -underBinder n8 z9
      have hz9 : P z9 := by
        unfold z9
        exact upd_rst (hC.mono (by decide)) hz7
      refine regear_ind (hC.mono (by decide)) ?_
      refine forEach_ind (fun _ _ hz10 => ?_) ?_
      · exact arm_ind (hC.mono (by decide)) hz10
      · exact hz9
    · exact hz6
  · exact hs

end Sys2Proof.Machine
end

