-- ==== Sys2Proof/Laws/FramesHost.lean ====
section
/-! SUPPORT. What each operation may change: the host ports and the idle step. A property closed under
those parts of the state holds after the operation if it held before. -/

namespace Sys2Proof.Machine

variable {P : State → Prop}

theorem modTx_ind {s : Machine.State} {p : Nat} {f : Tx → Tx} (hC : Closed [.tx] P) (hs : P s) :
    P (State.modTx s p f) := by
  unfold State.modTx
  exact setTx_ind (hC.mono (by decide)) hs

theorem putPtr_ind {s : Machine.State} {p : Nat} {x : Tx} {a : Nat} (hC : Closed [.ptrs, .reg 0xd48, .tx] P) (hs : P s) :
    P (State.putPtr s p x a) := by
  unfold State.putPtr
  extract_lets -merge -underBinder z1 z2
  have hz1 : P z1 := by
    exact modTx_ind (hC.mono (by decide)) hs
  have hz2 : P z2 := by
    exact setFld_ind (hC.mono (by decide)) hz1
  refine ite_ind ?_ ?_
  · exact upd_ptrs (hC.mono (by decide)) hz2
  · exact hz1

theorem popWord_ind {s u : State} {p t e : Nat} {w : Word} (hC : Closed [.tx, .regs] P) (h : P s)
    (hr : s.popWord p t e = some (w, u)) : P u := by
  have fin := fun (f : Tx → Tx) (s : State) (h : P s) => modTx_ind (p := p) (f := f) (hC.mono (by decide)) h
  unfold State.popWord at hr
  split at hr
  · cases hr
    exact h
  · split at hr
    · cases hr
      exact h
    · split at hr
      · cases hr
        exact fin _ _ h
      · split at hr
        · cases hr
          exact fin _ _ h
        · split at hr
          · cases hr
          · cases hr
            exact fin _ _ (setFld_ind (hC.mono rfl) h)

theorem retireOne_ind {s : Machine.State} {k : Nat} {b : Bundle} (hC : Closed [.sys, .rose, .queues, .pendg, .tens, .regs,
    .closed] P) (hs : P s) :
    P (State.retireOne s k b) := by
  unfold State.retireOne
  exact freeGran_ind (hC.mono (by decide)) (setClosed_ind (hC.mono (by decide)) hs)

theorem popAlone_ind {s : Machine.State} {rq : Requester} {t : Nat} (hC : Closed [.regs, .tx, .sys, .rose, .queues, .pendg,
    .tens, .closed] P) (hs : P s) :
    P (State.popAlone s rq t).2 := by
  unfold State.popAlone
  extract_lets -merge -underBinder n1
  split
  · exact setFld_ind (hC.mono rfl) hs
  · extract_lets -merge -underBinder n2
    refine ite_ind ?_ ?_
    · exact setTx_ind (hC.mono (by decide)) (retireOne_ind (hC.mono (by decide)) hs)
    · exact setTx_ind (hC.mono (by decide)) hs

theorem freshRead_ind {s u : State} {p : Nat} {x : Tx} {a e : Nat} {w : Word} (hC : Closed [.samp, .streams, .locks, .regs,
    .sys, .rose, .queues, .pendg, .tens, .tam, .log, .stw, .nv, .reset, .tx, .lanes, .closed, .hallmark, .asm, .env, .asy] P)
    (h : P s)
    (hr : s.freshRead p x a e = some (w, u)) : P u := by
  unfold State.freshRead at hr
  dsimp only at hr
  split at hr
  · cases hr
    exact modTx_ind (hC.mono (by decide)) (readReg_ind (hC.mono (by decide)) h)
  · split at hr
    · exact popWord_ind (hC.mono (by decide)) h hr
    · have h1 := readReg_ind (rq := x.req) (via := (s.target x.req a).1) (a := (s.target x.req a).2) (hC.mono (by decide)) h
      injection hr with hr
      rw [hr] at h1
      exact h1

theorem popMore_ind {s : Machine.State} {p : Nat} {x : Tx} {a : Nat} {o : Nat} {k : Nat} {w : Word} (hC : Closed [.tx] P) (hs
    : P s) :
    P (State.popMore s p x a o k w) := by
  unfold State.popMore
  exact modTx_ind (hC.mono (by decide)) hs

theorem portRead_ind {s u : State} {p : Nat} {x : Tx} {a o k : Nat} {w : Word} (hC : Closed [.samp, .streams, .locks, .regs,
    .sys, .rose, .queues, .pendg, .tens, .tam, .log, .stw, .nv, .reset, .tx, .lanes, .closed, .hallmark, .asm, .env, .asy] P)
    (h : P s)
    (hr : s.portRead p x a o k = some (w, u)) : P u := by
  unfold State.portRead at hr
  split at hr
  · cases hr
    exact modTx_ind (hC.mono (by decide)) h
  · split at hr
    · cases hr
    · have h1 := freshRead_ind (hC.mono (by decide)) h ‹_›
      cases hr
      exact modTx_ind (hC.mono (by decide)) h1

theorem sendBytes_ind {p n l : Nat} {s : State} (hC : Closed [.samp, .streams, .locks, .regs, .sys, .rose, .queues, .pendg,
    .tens, .tam, .log, .stw, .nv, .reset, .tx, .lanes, .closed, .hallmark, .asm, .env, .asy, .port, .ptrs] P) (h : P s) :
    P (State.sendBytes p n l s) := by
  induction n generalizing l s with
  | zero => exact h
  | succ n ih =>
    unfold State.sendBytes
    refine ite_ind h ?_
    split
    · exact h
    · refine ite_ind (sent_ind (hC.mono (by decide)) h) ?_
      dsimp only
      split
      · have h1 := fun f => modTx_ind (p := p) (f := f) (hC.mono (by decide)) h
        refine ite_ind (setFld_ind (hC.mono (by decide)) (h1 _)) (h1 _)
      · have h1 := portRead_ind (hC.mono (by decide)) h ‹_›
        exact ih (ite_ind (putPtr_ind (hC.mono (by decide)) (sent_ind (hC.mono (by decide)) h1)) h1)

theorem stageByte_ind {s : Machine.State} {p : Nat} {b : Byte} (hC : Closed [.ptrs, .reg 0xd48, .tx] P) (hs : P s) :
    P (State.stageByte s p b) := by
  unfold State.stageByte
  split
  · exact hs
  · extract_lets -merge -underBinder z1
    have hz1 : P z1 := by
      exact modTx_ind (hC.mono (by decide)) hs
    exact putPtr_ind (hC.mono (by decide)) hz1

theorem retire_ind {s : Machine.State} {x : Tx} (hC : Closed [.sys, .rose, .queues, .pendg, .tens, .regs, .closed] P) (hs : P
    s) :
    P (State.retire s x) := by
  unfold State.retire
  refine forEach_ind (fun _ _ hz1 => ?_) ?_
  · split
    · exact hz1
    · refine ite_ind ?_ ?_
      · exact retireOne_ind (hC.mono (by decide)) hz1
      · exact hz1
  · exact hs

theorem properEnd_ind {s : Machine.State} {p : Nat} (hC : Closed [.regs, .sys, .rose, .queues, .pendg, .tens, .reset, .rst,
    .rsm, .asy, .chainDue, .afeCh, .descs, .ports, .clk, .loops, .charge, .chargeLast, .lanes, .stp, .sxt, .locks, .afe, .asm,
    .streams, .tx, .stw, .log, .hallmark, .closed, .env, .rck, .shadowBad, .pln, .sel, .routes, .nv, .tam] P) (hs : P s) :
    P (State.properEnd s p) := by
  unfold State.properEnd
  split
  · exact hs
  · extract_lets -merge -underBinder z1 n2 n3 n4 n5 z6
    have hz1 : P z1 := by
      exact dropTx_ind (hC.mono (by decide)) (retire_ind (hC.mono (by decide)) hs)
    have hz6 : P z6 := by
      exact showEnd_ind (hC.mono (by decide)) (commit_ind (hC.mono (by decide)) hz1)
    refine ite_ind ?_ ?_
    · refine ite_ind ?_ ?_
      · exact raise_ind (hC.mono rfl) hz6
      · exact hz6
    · exact commit_ind (hC.mono (by decide)) hz1

theorem openTx_ind {s : Machine.State} {p : Nat} {rq : Requester} {addr7 : Nat} {ptr : Nat} (hC : Closed [.port, .tx] P) (hs :
    P s) :
    P (State.openTx s p rq addr7 ptr) := by
  unfold State.openTx
  extract_lets -merge -underBinder z1
  have hz1 : P z1 := by
    exact setTx_ind (hC.mono (by decide)) hs
  exact upd_port (hC.mono (by decide)) hz1

theorem htwBytes_ind {s : Machine.State} {rq : Requester} {data : List Byte} (hC : Closed [.ptrs, .reg 0xd48, .tx] P) (hs : P
    s) :
    P (State.htwBytes s rq data) := by
  unfold State.htwBytes
  split
  · exact hs
  · split
    · refine forEach_ind (fun _ _ hz1 => ?_) ?_
      · exact stageByte_ind (hC.mono (by decide)) hz1
      · exact putPtr_ind (hC.mono (by decide)) hs
    · refine forEach_ind (fun _ _ hz2 => ?_) ?_
      · exact stageByte_ind (hC.mono (by decide)) hz2
      · exact putPtr_ind (hC.mono (by decide)) hs
    · exact hs

theorem execHtwStart_ind {addr : Nat} {read : Bool} {data : List Byte} {n : Nat} {s : Machine.State} (hC : Closed [.samp,
    .streams, .locks, .regs, .sys, .rose, .queues, .pendg, .tens, .tam, .log, .stw, .nv, .reset, .tx, .lanes, .closed,
    .hallmark, .asm, .env, .asy, .port, .ptrs] P) (hs : P s) :
    Answers (execHtwStart addr read data n s) P := by
  unfold execHtwStart
  refine answers_next ?_
  refine when_ind (fun _ hz1 => ?_) ?_
  · extract_lets -merge -underBinder n2 z3
    have hz3 : P z3 := by
      refine ite_ind ?_ ?_
      · exact hz1
      · exact abortTx_ind (hC.mono (by decide)) hz1
    split
    · exact addSat_ind (hC.mono (by decide)) hz3
    · extract_lets -merge -underBinder z4 z5
      have hz4 : P z4 := by
        refine ite_ind ?_ ?_
        · exact hz3
        · exact openTx_ind (hC.mono (by decide)) hz3
      have hz5 : P z5 := by
        exact setFld_ind (hC.mono (by decide)) (setFld_ind (hC.mono (by decide)) (modTx_ind (hC.mono (by decide)) hz4))
      refine ite_ind ?_ ?_
      · exact sendBytes_ind (hC.mono (by decide)) (setFld_ind (hC.mono (by decide)) hz5)
      · exact htwBytes_ind (hC.mono (by decide)) (setFld_ind (hC.mono (by decide)) hz5)
  · exact hs

theorem execHtwStop_ind {s : Machine.State} (hC : Closed [.regs, .sys, .rose, .queues, .pendg, .tens, .reset, .rst, .rsm,
    .asy, .chainDue, .afeCh, .descs, .ports, .clk, .loops, .charge, .chargeLast, .lanes, .stp, .sxt, .locks, .afe, .asm,
    .streams, .tx, .stw, .log, .hallmark, .closed, .env, .rck, .shadowBad, .pln, .sel, .routes, .nv, .tam] P) (hs : P s) :
    Answers (execHtwStop s) P := by
  unfold execHtwStop
  refine answers_next ?_
  refine when_ind (fun _ hz1 => ?_) ?_
  · exact properEnd_ind (hC.mono (by decide)) hz1
  · exact hs

theorem execHtwIdleAbort_ind {s : Machine.State} (hC : Closed [.regs, .sys, .rose, .queues, .pendg, .tens, .streams, .tx] P)
    (hs : P s) :
    Answers (execHtwIdleAbort s) P := by
  unfold execHtwIdleAbort
  refine answers_next ?_
  refine when_ind (fun _ hz1 => ?_) ?_
  · exact abortTx_ind (hC.mono (by decide)) hz1
  · exact hs

theorem execSpiCsFall_ind {s : Machine.State} (hC : Closed [.sys, .reg 0xe4c, .reg 0xe48, .reg 0x248, .clk, .reg 0x418, .reg
    0x154, .reg 0x178, .reg 0x2048, .rose, .queues, .pendg, .tens, .reg 0x478, .reg 0x474, .reg 0x25c, .loops, .reg 0x254,
    .reg 0x454, .reg 0x250, .reg 0xe44, .port, .tx] P) (hs : P s) :
    Answers (execSpiCsFall s) P := by
  unfold execSpiCsFall
  refine answers_next ?_
  refine ite_ind ?_ ?_
  · refine when_ind (fun _ hz1 => ?_) ?_
    · extract_lets -merge -underBinder z2 z3
      have hz2 : P z2 := by
        exact setFld_ind (hC.mono (by decide)) (setFld_ind (hC.mono (by decide)) (setFld_ind (hC.mono (by decide)) hz1))
      have hz3 : P z3 := by
        exact modSys_ind (hC.mono (by decide)) rfl rfl (addSat_ind (hC.mono (by decide)) hz2)
      refine ite_ind ?_ ?_
      · exact wakeCause_ind (hC.mono (by decide)) hz3
      · exact hz3
    · exact hs
  · refine when_ind (fun _ hz4 => ?_) ?_
    · exact setFloor_ind (hC.mono (by decide)) (modSys_ind (hC.mono (by decide)) rfl rfl (setFld_ind (hC.mono (by decide))
        (openTx_ind (hC.mono (by decide)) hz4)))
    · exact hs

theorem spiHeader_ind {s : Machine.State} {opc : Nat} {addr : Nat} (hC : Closed [.tx, .reg 0xe44, .port] P) (hs : P s) :
    P (State.spiHeader s opc addr) := by
  unfold State.spiHeader
  extract_lets -merge -underBinder z1
  have hz1 : P z1 := by
    exact sent_ind (hC.mono (by decide)) hs
  exact modTx_ind (hC.mono (by decide)) (setFld_ind (hC.mono (by decide)) (setFld_ind (hC.mono (by decide)) hz1))

theorem execSpiWrite_ind {addr : Nat} {len : Nat} {data : List Byte} {s : Machine.State} (hC : Closed [.tx, .ptrs, .reg 0xd48,
    .port, .reg 0xe44] P) (hs : P s) :
    Answers (execSpiWrite addr len data s) P := by
  unfold execSpiWrite
  refine answers_next ?_
  refine when_ind (fun _ hz1 => ?_) ?_
  · extract_lets -merge -underBinder z2
    have hz2 : P z2 := by
      exact sent_ind (hC.mono (by decide)) (spiHeader_ind (hC.mono (by decide)) hz1)
    refine ite_ind ?_ ?_
    · exact modTx_ind (hC.mono (by decide)) hz2
    · refine forEach_ind (fun _ _ hz3 => ?_) ?_
      · exact stageByte_ind (hC.mono (by decide)) hz3
      · exact hz2
  · exact hs

theorem spiData_ind {s : Machine.State} {len : Nat} (hC : Closed [.samp, .streams, .locks, .regs, .sys, .rose, .queues,
    .pendg, .tens, .tam, .log, .stw, .nv, .reset, .tx, .lanes, .closed, .hallmark, .asm, .env, .asy, .port, .ptrs] P) (hs : P
    s) :
    P (State.spiData s len) := by
  unfold State.spiData
  exact sendBytes_ind (hC.mono (by decide)) (modTx_ind (hC.mono (by decide)) (sent_ind (hC.mono (by decide)) hs))

theorem execSpiRead_ind {addr : Nat} {len : Nat} {s : Machine.State} (hC : Closed [.tx, .samp, .streams, .locks, .regs, .sys,
    .rose, .queues, .pendg, .tens, .tam, .log, .stw, .nv, .reset, .lanes, .closed, .hallmark, .asm, .env, .asy, .port, .ptrs]
    P) (hs : P s) :
    Answers (execSpiRead addr len s) P := by
  unfold execSpiRead
  refine answers_next ?_
  refine when_ind (fun _ hz1 => ?_) ?_
  · extract_lets -merge -underBinder z2
    have hz2 : P z2 := by
      exact spiHeader_ind (hC.mono (by decide)) hz1
    refine ite_ind ?_ ?_
    · exact modTx_ind (hC.mono (by decide)) hz2
    · split
      · exact hz2
      · extract_lets -merge -underBinder n3
        split
        · exact spiData_ind (hC.mono (by decide)) (sent_ind (hC.mono (by decide)) hz2)
        · refine ite_ind ?_ ?_
          · exact modTx_ind (hC.mono (by decide)) hz2
          · exact spiData_ind (hC.mono (by decide)) hz2
  · exact hs

theorem execSpiCsRise_ind {whole : Bool} {s : Machine.State} (hC : Closed [.regs, .sys, .rose, .queues, .pendg, .tens, .reset,
    .rst, .rsm, .asy, .chainDue, .afeCh, .descs, .ports, .clk, .loops, .charge, .chargeLast, .lanes, .stp, .sxt, .locks, .afe,
    .asm, .streams, .tx, .stw, .log, .hallmark, .closed, .env, .rck, .shadowBad, .pln, .sel, .routes, .nv, .tam] P) (hs : P s)
    :
    Answers (execSpiCsRise whole s) P := by
  unfold execSpiCsRise
  extract_lets -merge -underBinder z1
  have hz1 : P z1 := by
    exact modSys_ind (hC.mono (by decide)) rfl rfl hs
  refine answers_next ?_
  refine when_ind (fun _ hz2 => ?_) ?_
  · extract_lets -merge -underBinder z3
    have hz3 : P z3 := by
      exact spiFree_ind (hC.mono (by decide)) hz2
    refine ite_ind ?_ ?_
    · exact properEnd_ind (hC.mono (by decide)) hz3
    · exact abortTx_ind (hC.mono (by decide)) hz3
  · exact hz1

theorem execSpiOverrun_ind {s : Machine.State} (hC : Closed [.sys, .rose, .queues, .pendg, .tens, .regs, .streams, .tx] P) (hs
    : P s) :
    Answers (execSpiOverrun s) P := by
  unfold execSpiOverrun
  refine answers_next ?_
  refine when_ind (fun _ hz1 => ?_) ?_
  · exact raise_ind (hC.mono (by decide)) (addSat_ind (hC.mono (by decide)) (abortTx_ind (hC.mono (by decide)) hz1))
  · exact hs

theorem execPopRead_ind {p : Nat} {t : Nat} {s : Machine.State} (hC : Closed [.samp, .streams, .locks, .regs, .sys, .rose,
    .queues, .pendg, .tens, .tam, .log, .stw, .nv, .reset, .tx, .lanes, .closed, .hallmark, .asm, .env, .asy, .port, .ptrs] P)
    (hs : P s) :
    Answers (execPopRead p t s) P := by
  unfold execPopRead
  refine answers_next ?_
  refine when_ind (fun _ hz1 => ?_) ?_
  · split
    · exact hz1
    · refine ite_ind ?_ ?_
      · exact hz1
      · exact sendBytes_ind (hC.mono (by decide)) (putPtr_ind (hC.mono (by decide)) hz1)
  · exact hs

theorem popResume_ind {s : Machine.State} {p : Nat} {x : Tx} (hC : Closed [.samp, .streams, .locks, .regs, .sys, .rose,
    .queues, .pendg, .tens, .tam, .log, .stw, .nv, .reset, .tx, .lanes, .closed, .hallmark, .asm, .env, .asy, .port, .ptrs] P)
    (hs : P s) :
    P (State.popResume s p x) := by
  unfold State.popResume
  refine ite_ind ?_ ?_
  · exact spiData_ind (hC.mono (by decide)) hs
  · exact sendBytes_ind (hC.mono (by decide)) (setFld_ind (hC.mono (by decide)) (modTx_ind (hC.mono (by decide)) hs))

theorem execPopStallResume_ind {p : Nat} {s : Machine.State} (hC : Closed [.samp, .streams, .locks, .regs, .sys, .rose,
    .queues, .pendg, .tens, .tam, .log, .stw, .nv, .reset, .tx, .lanes, .closed, .hallmark, .asm, .env, .asy, .port, .ptrs] P)
    (hs : P s) :
    Answers (execPopStallResume p s) P := by
  unfold execPopStallResume
  refine answers_next ?_
  refine when_ind (fun _ hz1 => ?_) ?_
  · split
    · exact hz1
    · split
      · exact hz1
      · refine ite_ind ?_ ?_
        · exact hz1
        · exact popResume_ind (hC.mono (by decide)) hz1
  · exact hs

theorem execPopStallTimeout_ind {p : Nat} {s : Machine.State} (hC : Closed [.samp, .streams, .locks, .regs, .sys, .rose,
    .queues, .pendg, .tens, .tam, .log, .stw, .nv, .reset, .tx, .lanes, .closed, .hallmark, .asm, .env, .asy, .port, .ptrs] P)
    (hs : P s) :
    Answers (execPopStallTimeout p s) P := by
  unfold execPopStallTimeout
  refine answers_next ?_
  refine when_ind (fun _ hz1 => ?_) ?_
  · split
    · exact hz1
    · split
      · exact hz1
      · extract_lets -merge -underBinder z2
        have hz2 : P z2 := by
          exact modTx_ind (hC.mono (by decide)) (setFld_ind (hC.mono rfl) hz1)
        refine ite_ind ?_ ?_
        · exact popResume_ind (hC.mono (by decide)) hz1
        · refine ite_ind ?_ ?_
          · exact sent_ind (hC.mono (by decide)) hz2
          · exact setFld_ind (hC.mono (by decide)) (sent_ind (hC.mono (by decide)) hz2)
  · exact hs

theorem execXdatAccess_ind {rq : Requester} {n : Nat} {w : Option Word} {s : Machine.State} (hC : Closed [.reset, .rst, .rsm,
    .pendg, .regs, .asy, .queues, .chainDue, .rose, .afeCh, .descs, .ports, .clk, .sys, .tens, .loops, .charge, .chargeLast,
    .lanes, .stp, .sxt, .locks, .afe, .asm, .streams, .tx, .stw, .log, .hallmark, .closed, .env, .rck, .shadowBad, .pln, .sel,
    .routes, .nv, .tam, .rdata, .samp] P) (hs : P s) :
    Answers (execXdatAccess rq n w s) P := by
  unfold execXdatAccess
  refine answers_next ?_
  refine when_ind (fun _ hz1 => ?_) ?_
  · split
    · exact commit_ind (hC.mono (by decide)) hz1
    · extract_lets -merge -underBinder n2
      split
      · extract_lets -merge -underBinder n3
        exact latch_ind (hC.mono (by decide)) (readReg_ind (hC.mono (by decide)) hz1)
      · extract_lets -merge -underBinder n4
        refine ite_ind ?_ ?_
        · exact latch_ind (hC.mono (by decide)) (readReg_ind (hC.mono (by decide)) hz1)
        · split
          · extract_lets -merge -underBinder n5
            exact latch_ind (hC.mono (by decide)) (popAlone_ind (hC.mono (by decide)) hz1)
          · split
            · exact latch_ind (hC.mono (by decide)) (popWord_ind (hC.mono (by decide)) hz1 ‹_›)
            · exact modTx_ind (hC.mono (by decide)) hz1
  · exact hs

theorem execCommandEnqueue_ind {s : Machine.State} (hC : Closed [.queues, .regs, .asm, .env] P) (hs : P s) :
    Answers (execCommandEnqueue s) P := by
  unfold execCommandEnqueue
  refine answers_next ?_
  refine when_ind (fun _ hz1 => ?_) ?_
  · split
    · exact hz1
    · extract_lets -merge -underBinder n2 n3 n4 n5 z6
      have hz6 : P z6 := by
        exact setFld_ind (hC.mono rfl) (setAsm_ind (hC.mono (by decide)) (upd_env (hC.mono (by decide)) hz1))
      refine ite_ind ?_ ?_
      · exact hz6
      · exact setQueue_ind (hC.mono (by decide)) hz6
  · exact hs

theorem idle_ind {s : Machine.State} (hC : Closed [.sys, .sxt, .rck] P) (hs : P s) :
    P (State.idle s) := by
  unfold State.idle
  refine when_ind (fun _ hz1 => ?_) ?_
  · extract_lets -merge -underBinder z2 z3
    have hz2 : P z2 := by
      exact advance_ind (hC.mono (by decide)) hz1
    have hz3 : P z3 := by
      exact wdogTick_ind (hC.mono (by decide)) (predict_ind (hC.mono (by decide)) hz2)
    refine when_ind (fun _ hz4 => ?_) ?_
    · exact modSys_ind (hC.mono (by decide)) rfl rfl hz4
    · exact hz3
  · exact hs

end Sys2Proof.Machine
end

