-- ==== Sys2Proof/Laws/State.lean ====
section
/-! SUPPORT. One lemma per field per update of the state: what each named update leaves as it is. -/

namespace Sys2Proof.Machine

variable (s : State)

/-! ## setReg -/

@[simp] theorem sys_setReg (a : Nat) (w : Word) : (s.setReg a w).sys = s.sys := rfl
@[simp] theorem rst_setReg (a : Nat) (w : Word) : (s.setReg a w).rst = s.rst := rfl
@[simp] theorem clk_setReg (a : Nat) (w : Word) : (s.setReg a w).clk = s.clk := rfl
@[simp] theorem pln_setReg (a : Nat) (w : Word) : (s.setReg a w).pln = s.pln := rfl
@[simp] theorem locks_setReg (a : Nat) (w : Word) : (s.setReg a w).locks = s.locks := rfl
@[simp] theorem shadowBad_setReg (a : Nat) (w : Word) : (s.setReg a w).shadowBad = s.shadowBad := rfl
@[simp] theorem pownBad_setReg (a : Nat) (w : Word) : (s.setReg a w).pownBad = s.pownBad := rfl
@[simp] theorem sel_setReg (a : Nat) (w : Word) : (s.setReg a w).sel = s.sel := rfl
@[simp] theorem samp_setReg (a : Nat) (w : Word) : (s.setReg a w).samp = s.samp := rfl
@[simp] theorem streams_setReg (a : Nat) (w : Word) : (s.setReg a w).streams = s.streams := rfl
@[simp] theorem queues_setReg (a : Nat) (w : Word) : (s.setReg a w).queues = s.queues := rfl
@[simp] theorem pendg_setReg (a : Nat) (w : Word) : (s.setReg a w).pendg = s.pendg := rfl
@[simp] theorem capped_setReg (a : Nat) (w : Word) : (s.setReg a w).capped = s.capped := rfl
@[simp] theorem loops_setReg (a : Nat) (w : Word) : (s.setReg a w).loops = s.loops := rfl
@[simp] theorem descs_setReg (a : Nat) (w : Word) : (s.setReg a w).descs = s.descs := rfl
@[simp] theorem chainDue_setReg (a : Nat) (w : Word) : (s.setReg a w).chainDue = s.chainDue := rfl
@[simp] theorem charge_setReg (a : Nat) (w : Word) : (s.setReg a w).charge = s.charge := rfl
@[simp] theorem chargeLast_setReg (a : Nat) (w : Word) : (s.setReg a w).chargeLast = s.chargeLast := rfl
@[simp] theorem ports_setReg (a : Nat) (w : Word) : (s.setReg a w).ports = s.ports := rfl
@[simp] theorem afe_setReg (a : Nat) (w : Word) : (s.setReg a w).afe = s.afe := rfl
@[simp] theorem afeCh_setReg (a : Nat) (w : Word) : (s.setReg a w).afeCh = s.afeCh := rfl
@[simp] theorem stp_setReg (a : Nat) (w : Word) : (s.setReg a w).stp = s.stp := rfl
@[simp] theorem lines_setReg (a : Nat) (w : Word) : (s.setReg a w).lines = s.lines := rfl
@[simp] theorem icalRun_setReg (a : Nat) (w : Word) : (s.setReg a w).icalRun = s.icalRun := rfl
@[simp] theorem rck_setReg (a : Nat) (w : Word) : (s.setReg a w).rck = s.rck := rfl
@[simp] theorem sxt_setReg (a : Nat) (w : Word) : (s.setReg a w).sxt = s.sxt := rfl
@[simp] theorem rsm_setReg (a : Nat) (w : Word) : (s.setReg a w).rsm = s.rsm := rfl
@[simp] theorem asy_setReg (a : Nat) (w : Word) : (s.setReg a w).asy = s.asy := rfl
@[simp] theorem asyLast_setReg (a : Nat) (w : Word) : (s.setReg a w).asyLast = s.asyLast := rfl
@[simp] theorem rose_setReg (a : Nat) (w : Word) : (s.setReg a w).rose = s.rose := rfl
@[simp] theorem lanes_setReg (a : Nat) (w : Word) : (s.setReg a w).lanes = s.lanes := rfl
@[simp] theorem closed_setReg (a : Nat) (w : Word) : (s.setReg a w).closed = s.closed := rfl
@[simp] theorem evicts_setReg (a : Nat) (w : Word) : (s.setReg a w).evicts = s.evicts := rfl
@[simp] theorem hallmark_setReg (a : Nat) (w : Word) : (s.setReg a w).hallmark = s.hallmark := rfl
@[simp] theorem routes_setReg (a : Nat) (w : Word) : (s.setReg a w).routes = s.routes := rfl
@[simp] theorem tens_setReg (a : Nat) (w : Word) : (s.setReg a w).tens = s.tens := rfl
@[simp] theorem stw_setReg (a : Nat) (w : Word) : (s.setReg a w).stw = s.stw := rfl
@[simp] theorem nv_setReg (a : Nat) (w : Word) : (s.setReg a w).nv = s.nv := rfl
@[simp] theorem tx_setReg (a : Nat) (w : Word) : (s.setReg a w).tx = s.tx := rfl
@[simp] theorem ptrs_setReg (a : Nat) (w : Word) : (s.setReg a w).ptrs = s.ptrs := rfl
@[simp] theorem asm_setReg (a : Nat) (w : Word) : (s.setReg a w).asm = s.asm := rfl
@[simp] theorem env_setReg (a : Nat) (w : Word) : (s.setReg a w).env = s.env := rfl
@[simp] theorem port_setReg (a : Nat) (w : Word) : (s.setReg a w).port = s.port := rfl
@[simp] theorem tam_setReg (a : Nat) (w : Word) : (s.setReg a w).tam = s.tam := rfl
@[simp] theorem log_setReg (a : Nat) (w : Word) : (s.setReg a w).log = s.log := rfl
@[simp] theorem rdata_setReg (a : Nat) (w : Word) : (s.setReg a w).rdata = s.rdata := rfl
@[simp] theorem pending_setReg (a : Nat) (w : Word) : (s.setReg a w).pending = s.pending := rfl

/-! ## setFld -/

@[simp] theorem sys_setFld (f : Fld) (v : Nat) : (s.setFld f v).sys = s.sys := rfl
@[simp] theorem rst_setFld (f : Fld) (v : Nat) : (s.setFld f v).rst = s.rst := rfl
@[simp] theorem clk_setFld (f : Fld) (v : Nat) : (s.setFld f v).clk = s.clk := rfl
@[simp] theorem pln_setFld (f : Fld) (v : Nat) : (s.setFld f v).pln = s.pln := rfl
@[simp] theorem locks_setFld (f : Fld) (v : Nat) : (s.setFld f v).locks = s.locks := rfl
@[simp] theorem shadowBad_setFld (f : Fld) (v : Nat) : (s.setFld f v).shadowBad = s.shadowBad := rfl
@[simp] theorem pownBad_setFld (f : Fld) (v : Nat) : (s.setFld f v).pownBad = s.pownBad := rfl
@[simp] theorem sel_setFld (f : Fld) (v : Nat) : (s.setFld f v).sel = s.sel := rfl
@[simp] theorem samp_setFld (f : Fld) (v : Nat) : (s.setFld f v).samp = s.samp := rfl
@[simp] theorem streams_setFld (f : Fld) (v : Nat) : (s.setFld f v).streams = s.streams := rfl
@[simp] theorem queues_setFld (f : Fld) (v : Nat) : (s.setFld f v).queues = s.queues := rfl
@[simp] theorem pendg_setFld (f : Fld) (v : Nat) : (s.setFld f v).pendg = s.pendg := rfl
@[simp] theorem capped_setFld (f : Fld) (v : Nat) : (s.setFld f v).capped = s.capped := rfl
@[simp] theorem loops_setFld (f : Fld) (v : Nat) : (s.setFld f v).loops = s.loops := rfl
@[simp] theorem descs_setFld (f : Fld) (v : Nat) : (s.setFld f v).descs = s.descs := rfl
@[simp] theorem chainDue_setFld (f : Fld) (v : Nat) : (s.setFld f v).chainDue = s.chainDue := rfl
@[simp] theorem charge_setFld (f : Fld) (v : Nat) : (s.setFld f v).charge = s.charge := rfl
@[simp] theorem chargeLast_setFld (f : Fld) (v : Nat) : (s.setFld f v).chargeLast = s.chargeLast := rfl
@[simp] theorem ports_setFld (f : Fld) (v : Nat) : (s.setFld f v).ports = s.ports := rfl
@[simp] theorem afe_setFld (f : Fld) (v : Nat) : (s.setFld f v).afe = s.afe := rfl
@[simp] theorem afeCh_setFld (f : Fld) (v : Nat) : (s.setFld f v).afeCh = s.afeCh := rfl
@[simp] theorem stp_setFld (f : Fld) (v : Nat) : (s.setFld f v).stp = s.stp := rfl
@[simp] theorem lines_setFld (f : Fld) (v : Nat) : (s.setFld f v).lines = s.lines := rfl
@[simp] theorem icalRun_setFld (f : Fld) (v : Nat) : (s.setFld f v).icalRun = s.icalRun := rfl
@[simp] theorem rck_setFld (f : Fld) (v : Nat) : (s.setFld f v).rck = s.rck := rfl
@[simp] theorem sxt_setFld (f : Fld) (v : Nat) : (s.setFld f v).sxt = s.sxt := rfl
@[simp] theorem rsm_setFld (f : Fld) (v : Nat) : (s.setFld f v).rsm = s.rsm := rfl
@[simp] theorem asy_setFld (f : Fld) (v : Nat) : (s.setFld f v).asy = s.asy := rfl
@[simp] theorem asyLast_setFld (f : Fld) (v : Nat) : (s.setFld f v).asyLast = s.asyLast := rfl
@[simp] theorem rose_setFld (f : Fld) (v : Nat) : (s.setFld f v).rose = s.rose := rfl
@[simp] theorem lanes_setFld (f : Fld) (v : Nat) : (s.setFld f v).lanes = s.lanes := rfl
@[simp] theorem closed_setFld (f : Fld) (v : Nat) : (s.setFld f v).closed = s.closed := rfl
@[simp] theorem evicts_setFld (f : Fld) (v : Nat) : (s.setFld f v).evicts = s.evicts := rfl
@[simp] theorem hallmark_setFld (f : Fld) (v : Nat) : (s.setFld f v).hallmark = s.hallmark := rfl
@[simp] theorem routes_setFld (f : Fld) (v : Nat) : (s.setFld f v).routes = s.routes := rfl
@[simp] theorem tens_setFld (f : Fld) (v : Nat) : (s.setFld f v).tens = s.tens := rfl
@[simp] theorem stw_setFld (f : Fld) (v : Nat) : (s.setFld f v).stw = s.stw := rfl
@[simp] theorem nv_setFld (f : Fld) (v : Nat) : (s.setFld f v).nv = s.nv := rfl
@[simp] theorem tx_setFld (f : Fld) (v : Nat) : (s.setFld f v).tx = s.tx := rfl
@[simp] theorem ptrs_setFld (f : Fld) (v : Nat) : (s.setFld f v).ptrs = s.ptrs := rfl
@[simp] theorem asm_setFld (f : Fld) (v : Nat) : (s.setFld f v).asm = s.asm := rfl
@[simp] theorem env_setFld (f : Fld) (v : Nat) : (s.setFld f v).env = s.env := rfl
@[simp] theorem port_setFld (f : Fld) (v : Nat) : (s.setFld f v).port = s.port := rfl
@[simp] theorem tam_setFld (f : Fld) (v : Nat) : (s.setFld f v).tam = s.tam := rfl
@[simp] theorem log_setFld (f : Fld) (v : Nat) : (s.setFld f v).log = s.log := rfl
@[simp] theorem rdata_setFld (f : Fld) (v : Nat) : (s.setFld f v).rdata = s.rdata := rfl
@[simp] theorem pending_setFld (f : Fld) (v : Nat) : (s.setFld f v).pending = s.pending := rfl

/-! ## setBit -/

@[simp] theorem sys_setBit (f : Fld) (k : Nat) : (s.setBit f k).sys = s.sys := rfl
@[simp] theorem rst_setBit (f : Fld) (k : Nat) : (s.setBit f k).rst = s.rst := rfl
@[simp] theorem clk_setBit (f : Fld) (k : Nat) : (s.setBit f k).clk = s.clk := rfl
@[simp] theorem pln_setBit (f : Fld) (k : Nat) : (s.setBit f k).pln = s.pln := rfl
@[simp] theorem locks_setBit (f : Fld) (k : Nat) : (s.setBit f k).locks = s.locks := rfl
@[simp] theorem shadowBad_setBit (f : Fld) (k : Nat) : (s.setBit f k).shadowBad = s.shadowBad := rfl
@[simp] theorem pownBad_setBit (f : Fld) (k : Nat) : (s.setBit f k).pownBad = s.pownBad := rfl
@[simp] theorem sel_setBit (f : Fld) (k : Nat) : (s.setBit f k).sel = s.sel := rfl
@[simp] theorem samp_setBit (f : Fld) (k : Nat) : (s.setBit f k).samp = s.samp := rfl
@[simp] theorem streams_setBit (f : Fld) (k : Nat) : (s.setBit f k).streams = s.streams := rfl
@[simp] theorem queues_setBit (f : Fld) (k : Nat) : (s.setBit f k).queues = s.queues := rfl
@[simp] theorem pendg_setBit (f : Fld) (k : Nat) : (s.setBit f k).pendg = s.pendg := rfl
@[simp] theorem capped_setBit (f : Fld) (k : Nat) : (s.setBit f k).capped = s.capped := rfl
@[simp] theorem loops_setBit (f : Fld) (k : Nat) : (s.setBit f k).loops = s.loops := rfl
@[simp] theorem descs_setBit (f : Fld) (k : Nat) : (s.setBit f k).descs = s.descs := rfl
@[simp] theorem chainDue_setBit (f : Fld) (k : Nat) : (s.setBit f k).chainDue = s.chainDue := rfl
@[simp] theorem charge_setBit (f : Fld) (k : Nat) : (s.setBit f k).charge = s.charge := rfl
@[simp] theorem chargeLast_setBit (f : Fld) (k : Nat) : (s.setBit f k).chargeLast = s.chargeLast := rfl
@[simp] theorem ports_setBit (f : Fld) (k : Nat) : (s.setBit f k).ports = s.ports := rfl
@[simp] theorem afe_setBit (f : Fld) (k : Nat) : (s.setBit f k).afe = s.afe := rfl
@[simp] theorem afeCh_setBit (f : Fld) (k : Nat) : (s.setBit f k).afeCh = s.afeCh := rfl
@[simp] theorem stp_setBit (f : Fld) (k : Nat) : (s.setBit f k).stp = s.stp := rfl
@[simp] theorem lines_setBit (f : Fld) (k : Nat) : (s.setBit f k).lines = s.lines := rfl
@[simp] theorem icalRun_setBit (f : Fld) (k : Nat) : (s.setBit f k).icalRun = s.icalRun := rfl
@[simp] theorem rck_setBit (f : Fld) (k : Nat) : (s.setBit f k).rck = s.rck := rfl
@[simp] theorem sxt_setBit (f : Fld) (k : Nat) : (s.setBit f k).sxt = s.sxt := rfl
@[simp] theorem rsm_setBit (f : Fld) (k : Nat) : (s.setBit f k).rsm = s.rsm := rfl
@[simp] theorem asy_setBit (f : Fld) (k : Nat) : (s.setBit f k).asy = s.asy := rfl
@[simp] theorem asyLast_setBit (f : Fld) (k : Nat) : (s.setBit f k).asyLast = s.asyLast := rfl
@[simp] theorem rose_setBit (f : Fld) (k : Nat) : (s.setBit f k).rose = s.rose := rfl
@[simp] theorem lanes_setBit (f : Fld) (k : Nat) : (s.setBit f k).lanes = s.lanes := rfl
@[simp] theorem closed_setBit (f : Fld) (k : Nat) : (s.setBit f k).closed = s.closed := rfl
@[simp] theorem evicts_setBit (f : Fld) (k : Nat) : (s.setBit f k).evicts = s.evicts := rfl
@[simp] theorem hallmark_setBit (f : Fld) (k : Nat) : (s.setBit f k).hallmark = s.hallmark := rfl
@[simp] theorem routes_setBit (f : Fld) (k : Nat) : (s.setBit f k).routes = s.routes := rfl
@[simp] theorem tens_setBit (f : Fld) (k : Nat) : (s.setBit f k).tens = s.tens := rfl
@[simp] theorem stw_setBit (f : Fld) (k : Nat) : (s.setBit f k).stw = s.stw := rfl
@[simp] theorem nv_setBit (f : Fld) (k : Nat) : (s.setBit f k).nv = s.nv := rfl
@[simp] theorem tx_setBit (f : Fld) (k : Nat) : (s.setBit f k).tx = s.tx := rfl
@[simp] theorem ptrs_setBit (f : Fld) (k : Nat) : (s.setBit f k).ptrs = s.ptrs := rfl
@[simp] theorem asm_setBit (f : Fld) (k : Nat) : (s.setBit f k).asm = s.asm := rfl
@[simp] theorem env_setBit (f : Fld) (k : Nat) : (s.setBit f k).env = s.env := rfl
@[simp] theorem port_setBit (f : Fld) (k : Nat) : (s.setBit f k).port = s.port := rfl
@[simp] theorem tam_setBit (f : Fld) (k : Nat) : (s.setBit f k).tam = s.tam := rfl
@[simp] theorem log_setBit (f : Fld) (k : Nat) : (s.setBit f k).log = s.log := rfl
@[simp] theorem rdata_setBit (f : Fld) (k : Nat) : (s.setBit f k).rdata = s.rdata := rfl
@[simp] theorem pending_setBit (f : Fld) (k : Nat) : (s.setBit f k).pending = s.pending := rfl

/-! ## putOn -/

@[simp] theorem sys_putOn (f : Fld) (b : Bool) : (s.putOn f b).sys = s.sys := rfl
@[simp] theorem rst_putOn (f : Fld) (b : Bool) : (s.putOn f b).rst = s.rst := rfl
@[simp] theorem clk_putOn (f : Fld) (b : Bool) : (s.putOn f b).clk = s.clk := rfl
@[simp] theorem pln_putOn (f : Fld) (b : Bool) : (s.putOn f b).pln = s.pln := rfl
@[simp] theorem locks_putOn (f : Fld) (b : Bool) : (s.putOn f b).locks = s.locks := rfl
@[simp] theorem shadowBad_putOn (f : Fld) (b : Bool) : (s.putOn f b).shadowBad = s.shadowBad := rfl
@[simp] theorem pownBad_putOn (f : Fld) (b : Bool) : (s.putOn f b).pownBad = s.pownBad := rfl
@[simp] theorem sel_putOn (f : Fld) (b : Bool) : (s.putOn f b).sel = s.sel := rfl
@[simp] theorem samp_putOn (f : Fld) (b : Bool) : (s.putOn f b).samp = s.samp := rfl
@[simp] theorem streams_putOn (f : Fld) (b : Bool) : (s.putOn f b).streams = s.streams := rfl
@[simp] theorem queues_putOn (f : Fld) (b : Bool) : (s.putOn f b).queues = s.queues := rfl
@[simp] theorem pendg_putOn (f : Fld) (b : Bool) : (s.putOn f b).pendg = s.pendg := rfl
@[simp] theorem capped_putOn (f : Fld) (b : Bool) : (s.putOn f b).capped = s.capped := rfl
@[simp] theorem loops_putOn (f : Fld) (b : Bool) : (s.putOn f b).loops = s.loops := rfl
@[simp] theorem descs_putOn (f : Fld) (b : Bool) : (s.putOn f b).descs = s.descs := rfl
@[simp] theorem chainDue_putOn (f : Fld) (b : Bool) : (s.putOn f b).chainDue = s.chainDue := rfl
@[simp] theorem charge_putOn (f : Fld) (b : Bool) : (s.putOn f b).charge = s.charge := rfl
@[simp] theorem chargeLast_putOn (f : Fld) (b : Bool) : (s.putOn f b).chargeLast = s.chargeLast := rfl
@[simp] theorem ports_putOn (f : Fld) (b : Bool) : (s.putOn f b).ports = s.ports := rfl
@[simp] theorem afe_putOn (f : Fld) (b : Bool) : (s.putOn f b).afe = s.afe := rfl
@[simp] theorem afeCh_putOn (f : Fld) (b : Bool) : (s.putOn f b).afeCh = s.afeCh := rfl
@[simp] theorem stp_putOn (f : Fld) (b : Bool) : (s.putOn f b).stp = s.stp := rfl
@[simp] theorem lines_putOn (f : Fld) (b : Bool) : (s.putOn f b).lines = s.lines := rfl
@[simp] theorem icalRun_putOn (f : Fld) (b : Bool) : (s.putOn f b).icalRun = s.icalRun := rfl
@[simp] theorem rck_putOn (f : Fld) (b : Bool) : (s.putOn f b).rck = s.rck := rfl
@[simp] theorem sxt_putOn (f : Fld) (b : Bool) : (s.putOn f b).sxt = s.sxt := rfl
@[simp] theorem rsm_putOn (f : Fld) (b : Bool) : (s.putOn f b).rsm = s.rsm := rfl
@[simp] theorem asy_putOn (f : Fld) (b : Bool) : (s.putOn f b).asy = s.asy := rfl
@[simp] theorem asyLast_putOn (f : Fld) (b : Bool) : (s.putOn f b).asyLast = s.asyLast := rfl
@[simp] theorem rose_putOn (f : Fld) (b : Bool) : (s.putOn f b).rose = s.rose := rfl
@[simp] theorem lanes_putOn (f : Fld) (b : Bool) : (s.putOn f b).lanes = s.lanes := rfl
@[simp] theorem closed_putOn (f : Fld) (b : Bool) : (s.putOn f b).closed = s.closed := rfl
@[simp] theorem evicts_putOn (f : Fld) (b : Bool) : (s.putOn f b).evicts = s.evicts := rfl
@[simp] theorem hallmark_putOn (f : Fld) (b : Bool) : (s.putOn f b).hallmark = s.hallmark := rfl
@[simp] theorem routes_putOn (f : Fld) (b : Bool) : (s.putOn f b).routes = s.routes := rfl
@[simp] theorem tens_putOn (f : Fld) (b : Bool) : (s.putOn f b).tens = s.tens := rfl
@[simp] theorem stw_putOn (f : Fld) (b : Bool) : (s.putOn f b).stw = s.stw := rfl
@[simp] theorem nv_putOn (f : Fld) (b : Bool) : (s.putOn f b).nv = s.nv := rfl
@[simp] theorem tx_putOn (f : Fld) (b : Bool) : (s.putOn f b).tx = s.tx := rfl
@[simp] theorem ptrs_putOn (f : Fld) (b : Bool) : (s.putOn f b).ptrs = s.ptrs := rfl
@[simp] theorem asm_putOn (f : Fld) (b : Bool) : (s.putOn f b).asm = s.asm := rfl
@[simp] theorem env_putOn (f : Fld) (b : Bool) : (s.putOn f b).env = s.env := rfl
@[simp] theorem port_putOn (f : Fld) (b : Bool) : (s.putOn f b).port = s.port := rfl
@[simp] theorem tam_putOn (f : Fld) (b : Bool) : (s.putOn f b).tam = s.tam := rfl
@[simp] theorem log_putOn (f : Fld) (b : Bool) : (s.putOn f b).log = s.log := rfl
@[simp] theorem rdata_putOn (f : Fld) (b : Bool) : (s.putOn f b).rdata = s.rdata := rfl
@[simp] theorem pending_putOn (f : Fld) (b : Bool) : (s.putOn f b).pending = s.pending := rfl

/-! ## addSat -/

@[simp] theorem sys_addSat (f : Fld) (n : Nat) : (s.addSat f n).sys = s.sys := rfl
@[simp] theorem rst_addSat (f : Fld) (n : Nat) : (s.addSat f n).rst = s.rst := rfl
@[simp] theorem clk_addSat (f : Fld) (n : Nat) : (s.addSat f n).clk = s.clk := rfl
@[simp] theorem pln_addSat (f : Fld) (n : Nat) : (s.addSat f n).pln = s.pln := rfl
@[simp] theorem locks_addSat (f : Fld) (n : Nat) : (s.addSat f n).locks = s.locks := rfl
@[simp] theorem shadowBad_addSat (f : Fld) (n : Nat) : (s.addSat f n).shadowBad = s.shadowBad := rfl
@[simp] theorem pownBad_addSat (f : Fld) (n : Nat) : (s.addSat f n).pownBad = s.pownBad := rfl
@[simp] theorem sel_addSat (f : Fld) (n : Nat) : (s.addSat f n).sel = s.sel := rfl
@[simp] theorem samp_addSat (f : Fld) (n : Nat) : (s.addSat f n).samp = s.samp := rfl
@[simp] theorem streams_addSat (f : Fld) (n : Nat) : (s.addSat f n).streams = s.streams := rfl
@[simp] theorem queues_addSat (f : Fld) (n : Nat) : (s.addSat f n).queues = s.queues := rfl
@[simp] theorem pendg_addSat (f : Fld) (n : Nat) : (s.addSat f n).pendg = s.pendg := rfl
@[simp] theorem capped_addSat (f : Fld) (n : Nat) : (s.addSat f n).capped = s.capped := rfl
@[simp] theorem loops_addSat (f : Fld) (n : Nat) : (s.addSat f n).loops = s.loops := rfl
@[simp] theorem descs_addSat (f : Fld) (n : Nat) : (s.addSat f n).descs = s.descs := rfl
@[simp] theorem chainDue_addSat (f : Fld) (n : Nat) : (s.addSat f n).chainDue = s.chainDue := rfl
@[simp] theorem charge_addSat (f : Fld) (n : Nat) : (s.addSat f n).charge = s.charge := rfl
@[simp] theorem chargeLast_addSat (f : Fld) (n : Nat) : (s.addSat f n).chargeLast = s.chargeLast := rfl
@[simp] theorem ports_addSat (f : Fld) (n : Nat) : (s.addSat f n).ports = s.ports := rfl
@[simp] theorem afe_addSat (f : Fld) (n : Nat) : (s.addSat f n).afe = s.afe := rfl
@[simp] theorem afeCh_addSat (f : Fld) (n : Nat) : (s.addSat f n).afeCh = s.afeCh := rfl
@[simp] theorem stp_addSat (f : Fld) (n : Nat) : (s.addSat f n).stp = s.stp := rfl
@[simp] theorem lines_addSat (f : Fld) (n : Nat) : (s.addSat f n).lines = s.lines := rfl
@[simp] theorem icalRun_addSat (f : Fld) (n : Nat) : (s.addSat f n).icalRun = s.icalRun := rfl
@[simp] theorem rck_addSat (f : Fld) (n : Nat) : (s.addSat f n).rck = s.rck := rfl
@[simp] theorem sxt_addSat (f : Fld) (n : Nat) : (s.addSat f n).sxt = s.sxt := rfl
@[simp] theorem rsm_addSat (f : Fld) (n : Nat) : (s.addSat f n).rsm = s.rsm := rfl
@[simp] theorem asy_addSat (f : Fld) (n : Nat) : (s.addSat f n).asy = s.asy := rfl
@[simp] theorem asyLast_addSat (f : Fld) (n : Nat) : (s.addSat f n).asyLast = s.asyLast := rfl
@[simp] theorem rose_addSat (f : Fld) (n : Nat) : (s.addSat f n).rose = s.rose := rfl
@[simp] theorem lanes_addSat (f : Fld) (n : Nat) : (s.addSat f n).lanes = s.lanes := rfl
@[simp] theorem closed_addSat (f : Fld) (n : Nat) : (s.addSat f n).closed = s.closed := rfl
@[simp] theorem evicts_addSat (f : Fld) (n : Nat) : (s.addSat f n).evicts = s.evicts := rfl
@[simp] theorem hallmark_addSat (f : Fld) (n : Nat) : (s.addSat f n).hallmark = s.hallmark := rfl
@[simp] theorem routes_addSat (f : Fld) (n : Nat) : (s.addSat f n).routes = s.routes := rfl
@[simp] theorem tens_addSat (f : Fld) (n : Nat) : (s.addSat f n).tens = s.tens := rfl
@[simp] theorem stw_addSat (f : Fld) (n : Nat) : (s.addSat f n).stw = s.stw := rfl
@[simp] theorem nv_addSat (f : Fld) (n : Nat) : (s.addSat f n).nv = s.nv := rfl
@[simp] theorem tx_addSat (f : Fld) (n : Nat) : (s.addSat f n).tx = s.tx := rfl
@[simp] theorem ptrs_addSat (f : Fld) (n : Nat) : (s.addSat f n).ptrs = s.ptrs := rfl
@[simp] theorem asm_addSat (f : Fld) (n : Nat) : (s.addSat f n).asm = s.asm := rfl
@[simp] theorem env_addSat (f : Fld) (n : Nat) : (s.addSat f n).env = s.env := rfl
@[simp] theorem port_addSat (f : Fld) (n : Nat) : (s.addSat f n).port = s.port := rfl
@[simp] theorem tam_addSat (f : Fld) (n : Nat) : (s.addSat f n).tam = s.tam := rfl
@[simp] theorem log_addSat (f : Fld) (n : Nat) : (s.addSat f n).log = s.log := rfl
@[simp] theorem rdata_addSat (f : Fld) (n : Nat) : (s.addSat f n).rdata = s.rdata := rfl
@[simp] theorem pending_addSat (f : Fld) (n : Nat) : (s.addSat f n).pending = s.pending := rfl

/-! ## addWrap -/

@[simp] theorem sys_addWrap (f : Fld) (n : Nat) : (s.addWrap f n).sys = s.sys := rfl
@[simp] theorem rst_addWrap (f : Fld) (n : Nat) : (s.addWrap f n).rst = s.rst := rfl
@[simp] theorem clk_addWrap (f : Fld) (n : Nat) : (s.addWrap f n).clk = s.clk := rfl
@[simp] theorem pln_addWrap (f : Fld) (n : Nat) : (s.addWrap f n).pln = s.pln := rfl
@[simp] theorem locks_addWrap (f : Fld) (n : Nat) : (s.addWrap f n).locks = s.locks := rfl
@[simp] theorem shadowBad_addWrap (f : Fld) (n : Nat) : (s.addWrap f n).shadowBad = s.shadowBad := rfl
@[simp] theorem pownBad_addWrap (f : Fld) (n : Nat) : (s.addWrap f n).pownBad = s.pownBad := rfl
@[simp] theorem sel_addWrap (f : Fld) (n : Nat) : (s.addWrap f n).sel = s.sel := rfl
@[simp] theorem samp_addWrap (f : Fld) (n : Nat) : (s.addWrap f n).samp = s.samp := rfl
@[simp] theorem streams_addWrap (f : Fld) (n : Nat) : (s.addWrap f n).streams = s.streams := rfl
@[simp] theorem queues_addWrap (f : Fld) (n : Nat) : (s.addWrap f n).queues = s.queues := rfl
@[simp] theorem pendg_addWrap (f : Fld) (n : Nat) : (s.addWrap f n).pendg = s.pendg := rfl
@[simp] theorem capped_addWrap (f : Fld) (n : Nat) : (s.addWrap f n).capped = s.capped := rfl
@[simp] theorem loops_addWrap (f : Fld) (n : Nat) : (s.addWrap f n).loops = s.loops := rfl
@[simp] theorem descs_addWrap (f : Fld) (n : Nat) : (s.addWrap f n).descs = s.descs := rfl
@[simp] theorem chainDue_addWrap (f : Fld) (n : Nat) : (s.addWrap f n).chainDue = s.chainDue := rfl
@[simp] theorem charge_addWrap (f : Fld) (n : Nat) : (s.addWrap f n).charge = s.charge := rfl
@[simp] theorem chargeLast_addWrap (f : Fld) (n : Nat) : (s.addWrap f n).chargeLast = s.chargeLast := rfl
@[simp] theorem ports_addWrap (f : Fld) (n : Nat) : (s.addWrap f n).ports = s.ports := rfl
@[simp] theorem afe_addWrap (f : Fld) (n : Nat) : (s.addWrap f n).afe = s.afe := rfl
@[simp] theorem afeCh_addWrap (f : Fld) (n : Nat) : (s.addWrap f n).afeCh = s.afeCh := rfl
@[simp] theorem stp_addWrap (f : Fld) (n : Nat) : (s.addWrap f n).stp = s.stp := rfl
@[simp] theorem lines_addWrap (f : Fld) (n : Nat) : (s.addWrap f n).lines = s.lines := rfl
@[simp] theorem icalRun_addWrap (f : Fld) (n : Nat) : (s.addWrap f n).icalRun = s.icalRun := rfl
@[simp] theorem rck_addWrap (f : Fld) (n : Nat) : (s.addWrap f n).rck = s.rck := rfl
@[simp] theorem sxt_addWrap (f : Fld) (n : Nat) : (s.addWrap f n).sxt = s.sxt := rfl
@[simp] theorem rsm_addWrap (f : Fld) (n : Nat) : (s.addWrap f n).rsm = s.rsm := rfl
@[simp] theorem asy_addWrap (f : Fld) (n : Nat) : (s.addWrap f n).asy = s.asy := rfl
@[simp] theorem asyLast_addWrap (f : Fld) (n : Nat) : (s.addWrap f n).asyLast = s.asyLast := rfl
@[simp] theorem rose_addWrap (f : Fld) (n : Nat) : (s.addWrap f n).rose = s.rose := rfl
@[simp] theorem lanes_addWrap (f : Fld) (n : Nat) : (s.addWrap f n).lanes = s.lanes := rfl
@[simp] theorem closed_addWrap (f : Fld) (n : Nat) : (s.addWrap f n).closed = s.closed := rfl
@[simp] theorem evicts_addWrap (f : Fld) (n : Nat) : (s.addWrap f n).evicts = s.evicts := rfl
@[simp] theorem hallmark_addWrap (f : Fld) (n : Nat) : (s.addWrap f n).hallmark = s.hallmark := rfl
@[simp] theorem routes_addWrap (f : Fld) (n : Nat) : (s.addWrap f n).routes = s.routes := rfl
@[simp] theorem tens_addWrap (f : Fld) (n : Nat) : (s.addWrap f n).tens = s.tens := rfl
@[simp] theorem stw_addWrap (f : Fld) (n : Nat) : (s.addWrap f n).stw = s.stw := rfl
@[simp] theorem nv_addWrap (f : Fld) (n : Nat) : (s.addWrap f n).nv = s.nv := rfl
@[simp] theorem tx_addWrap (f : Fld) (n : Nat) : (s.addWrap f n).tx = s.tx := rfl
@[simp] theorem ptrs_addWrap (f : Fld) (n : Nat) : (s.addWrap f n).ptrs = s.ptrs := rfl
@[simp] theorem asm_addWrap (f : Fld) (n : Nat) : (s.addWrap f n).asm = s.asm := rfl
@[simp] theorem env_addWrap (f : Fld) (n : Nat) : (s.addWrap f n).env = s.env := rfl
@[simp] theorem port_addWrap (f : Fld) (n : Nat) : (s.addWrap f n).port = s.port := rfl
@[simp] theorem tam_addWrap (f : Fld) (n : Nat) : (s.addWrap f n).tam = s.tam := rfl
@[simp] theorem log_addWrap (f : Fld) (n : Nat) : (s.addWrap f n).log = s.log := rfl
@[simp] theorem rdata_addWrap (f : Fld) (n : Nat) : (s.addWrap f n).rdata = s.rdata := rfl
@[simp] theorem pending_addWrap (f : Fld) (n : Nat) : (s.addWrap f n).pending = s.pending := rfl

/-! ## clrBit -/

@[simp] theorem sys_clrBit (f : Fld) (k : Nat) : (s.clrBit f k).sys = s.sys := by
  unfold State.clrBit; split <;> rfl
@[simp] theorem rst_clrBit (f : Fld) (k : Nat) : (s.clrBit f k).rst = s.rst := by
  unfold State.clrBit; split <;> rfl
@[simp] theorem clk_clrBit (f : Fld) (k : Nat) : (s.clrBit f k).clk = s.clk := by
  unfold State.clrBit; split <;> rfl
@[simp] theorem pln_clrBit (f : Fld) (k : Nat) : (s.clrBit f k).pln = s.pln := by
  unfold State.clrBit; split <;> rfl
@[simp] theorem locks_clrBit (f : Fld) (k : Nat) : (s.clrBit f k).locks = s.locks := by
  unfold State.clrBit; split <;> rfl
@[simp] theorem shadowBad_clrBit (f : Fld) (k : Nat) : (s.clrBit f k).shadowBad = s.shadowBad := by
  unfold State.clrBit; split <;> rfl
@[simp] theorem pownBad_clrBit (f : Fld) (k : Nat) : (s.clrBit f k).pownBad = s.pownBad := by
  unfold State.clrBit; split <;> rfl
@[simp] theorem sel_clrBit (f : Fld) (k : Nat) : (s.clrBit f k).sel = s.sel := by
  unfold State.clrBit; split <;> rfl
@[simp] theorem samp_clrBit (f : Fld) (k : Nat) : (s.clrBit f k).samp = s.samp := by
  unfold State.clrBit; split <;> rfl
@[simp] theorem streams_clrBit (f : Fld) (k : Nat) : (s.clrBit f k).streams = s.streams := by
  unfold State.clrBit; split <;> rfl
@[simp] theorem queues_clrBit (f : Fld) (k : Nat) : (s.clrBit f k).queues = s.queues := by
  unfold State.clrBit; split <;> rfl
@[simp] theorem pendg_clrBit (f : Fld) (k : Nat) : (s.clrBit f k).pendg = s.pendg := by
  unfold State.clrBit; split <;> rfl
@[simp] theorem capped_clrBit (f : Fld) (k : Nat) : (s.clrBit f k).capped = s.capped := by
  unfold State.clrBit; split <;> rfl
@[simp] theorem loops_clrBit (f : Fld) (k : Nat) : (s.clrBit f k).loops = s.loops := by
  unfold State.clrBit; split <;> rfl
@[simp] theorem descs_clrBit (f : Fld) (k : Nat) : (s.clrBit f k).descs = s.descs := by
  unfold State.clrBit; split <;> rfl
@[simp] theorem chainDue_clrBit (f : Fld) (k : Nat) : (s.clrBit f k).chainDue = s.chainDue := by
  unfold State.clrBit; split <;> rfl
@[simp] theorem charge_clrBit (f : Fld) (k : Nat) : (s.clrBit f k).charge = s.charge := by
  unfold State.clrBit; split <;> rfl
@[simp] theorem chargeLast_clrBit (f : Fld) (k : Nat) : (s.clrBit f k).chargeLast = s.chargeLast := by
  unfold State.clrBit; split <;> rfl
@[simp] theorem ports_clrBit (f : Fld) (k : Nat) : (s.clrBit f k).ports = s.ports := by
  unfold State.clrBit; split <;> rfl
@[simp] theorem afe_clrBit (f : Fld) (k : Nat) : (s.clrBit f k).afe = s.afe := by
  unfold State.clrBit; split <;> rfl
@[simp] theorem afeCh_clrBit (f : Fld) (k : Nat) : (s.clrBit f k).afeCh = s.afeCh := by
  unfold State.clrBit; split <;> rfl
@[simp] theorem stp_clrBit (f : Fld) (k : Nat) : (s.clrBit f k).stp = s.stp := by
  unfold State.clrBit; split <;> rfl
@[simp] theorem lines_clrBit (f : Fld) (k : Nat) : (s.clrBit f k).lines = s.lines := by
  unfold State.clrBit; split <;> rfl
@[simp] theorem icalRun_clrBit (f : Fld) (k : Nat) : (s.clrBit f k).icalRun = s.icalRun := by
  unfold State.clrBit; split <;> rfl
@[simp] theorem rck_clrBit (f : Fld) (k : Nat) : (s.clrBit f k).rck = s.rck := by
  unfold State.clrBit; split <;> rfl
@[simp] theorem sxt_clrBit (f : Fld) (k : Nat) : (s.clrBit f k).sxt = s.sxt := by
  unfold State.clrBit; split <;> rfl
@[simp] theorem rsm_clrBit (f : Fld) (k : Nat) : (s.clrBit f k).rsm = s.rsm := by
  unfold State.clrBit; split <;> rfl
@[simp] theorem asy_clrBit (f : Fld) (k : Nat) : (s.clrBit f k).asy = s.asy := by
  unfold State.clrBit; split <;> rfl
@[simp] theorem asyLast_clrBit (f : Fld) (k : Nat) : (s.clrBit f k).asyLast = s.asyLast := by
  unfold State.clrBit; split <;> rfl
@[simp] theorem rose_clrBit (f : Fld) (k : Nat) : (s.clrBit f k).rose = s.rose := by
  unfold State.clrBit; split <;> rfl
@[simp] theorem lanes_clrBit (f : Fld) (k : Nat) : (s.clrBit f k).lanes = s.lanes := by
  unfold State.clrBit; split <;> rfl
@[simp] theorem closed_clrBit (f : Fld) (k : Nat) : (s.clrBit f k).closed = s.closed := by
  unfold State.clrBit; split <;> rfl
@[simp] theorem evicts_clrBit (f : Fld) (k : Nat) : (s.clrBit f k).evicts = s.evicts := by
  unfold State.clrBit; split <;> rfl
@[simp] theorem hallmark_clrBit (f : Fld) (k : Nat) : (s.clrBit f k).hallmark = s.hallmark := by
  unfold State.clrBit; split <;> rfl
@[simp] theorem routes_clrBit (f : Fld) (k : Nat) : (s.clrBit f k).routes = s.routes := by
  unfold State.clrBit; split <;> rfl
@[simp] theorem tens_clrBit (f : Fld) (k : Nat) : (s.clrBit f k).tens = s.tens := by
  unfold State.clrBit; split <;> rfl
@[simp] theorem stw_clrBit (f : Fld) (k : Nat) : (s.clrBit f k).stw = s.stw := by
  unfold State.clrBit; split <;> rfl
@[simp] theorem nv_clrBit (f : Fld) (k : Nat) : (s.clrBit f k).nv = s.nv := by
  unfold State.clrBit; split <;> rfl
@[simp] theorem tx_clrBit (f : Fld) (k : Nat) : (s.clrBit f k).tx = s.tx := by
  unfold State.clrBit; split <;> rfl
@[simp] theorem ptrs_clrBit (f : Fld) (k : Nat) : (s.clrBit f k).ptrs = s.ptrs := by
  unfold State.clrBit; split <;> rfl
@[simp] theorem asm_clrBit (f : Fld) (k : Nat) : (s.clrBit f k).asm = s.asm := by
  unfold State.clrBit; split <;> rfl
@[simp] theorem env_clrBit (f : Fld) (k : Nat) : (s.clrBit f k).env = s.env := by
  unfold State.clrBit; split <;> rfl
@[simp] theorem port_clrBit (f : Fld) (k : Nat) : (s.clrBit f k).port = s.port := by
  unfold State.clrBit; split <;> rfl
@[simp] theorem tam_clrBit (f : Fld) (k : Nat) : (s.clrBit f k).tam = s.tam := by
  unfold State.clrBit; split <;> rfl
@[simp] theorem log_clrBit (f : Fld) (k : Nat) : (s.clrBit f k).log = s.log := by
  unfold State.clrBit; split <;> rfl
@[simp] theorem rdata_clrBit (f : Fld) (k : Nat) : (s.clrBit f k).rdata = s.rdata := by
  unfold State.clrBit; split <;> rfl
@[simp] theorem pending_clrBit (f : Fld) (k : Nat) : (s.clrBit f k).pending = s.pending := by
  unfold State.clrBit; split <;> rfl

/-! ## putBit -/

@[simp] theorem sys_putBit (f : Fld) (k : Nat) (b : Bool) : (s.putBit f k b).sys = s.sys := by
  unfold State.putBit; split <;> simp
@[simp] theorem rst_putBit (f : Fld) (k : Nat) (b : Bool) : (s.putBit f k b).rst = s.rst := by
  unfold State.putBit; split <;> simp
@[simp] theorem clk_putBit (f : Fld) (k : Nat) (b : Bool) : (s.putBit f k b).clk = s.clk := by
  unfold State.putBit; split <;> simp
@[simp] theorem pln_putBit (f : Fld) (k : Nat) (b : Bool) : (s.putBit f k b).pln = s.pln := by
  unfold State.putBit; split <;> simp
@[simp] theorem locks_putBit (f : Fld) (k : Nat) (b : Bool) : (s.putBit f k b).locks = s.locks := by
  unfold State.putBit; split <;> simp
@[simp] theorem shadowBad_putBit (f : Fld) (k : Nat) (b : Bool) : (s.putBit f k b).shadowBad = s.shadowBad := by
  unfold State.putBit; split <;> simp
@[simp] theorem pownBad_putBit (f : Fld) (k : Nat) (b : Bool) : (s.putBit f k b).pownBad = s.pownBad := by
  unfold State.putBit; split <;> simp
@[simp] theorem sel_putBit (f : Fld) (k : Nat) (b : Bool) : (s.putBit f k b).sel = s.sel := by
  unfold State.putBit; split <;> simp
@[simp] theorem samp_putBit (f : Fld) (k : Nat) (b : Bool) : (s.putBit f k b).samp = s.samp := by
  unfold State.putBit; split <;> simp
@[simp] theorem streams_putBit (f : Fld) (k : Nat) (b : Bool) : (s.putBit f k b).streams = s.streams := by
  unfold State.putBit; split <;> simp
@[simp] theorem queues_putBit (f : Fld) (k : Nat) (b : Bool) : (s.putBit f k b).queues = s.queues := by
  unfold State.putBit; split <;> simp
@[simp] theorem pendg_putBit (f : Fld) (k : Nat) (b : Bool) : (s.putBit f k b).pendg = s.pendg := by
  unfold State.putBit; split <;> simp
@[simp] theorem capped_putBit (f : Fld) (k : Nat) (b : Bool) : (s.putBit f k b).capped = s.capped := by
  unfold State.putBit; split <;> simp
@[simp] theorem loops_putBit (f : Fld) (k : Nat) (b : Bool) : (s.putBit f k b).loops = s.loops := by
  unfold State.putBit; split <;> simp
@[simp] theorem descs_putBit (f : Fld) (k : Nat) (b : Bool) : (s.putBit f k b).descs = s.descs := by
  unfold State.putBit; split <;> simp
@[simp] theorem chainDue_putBit (f : Fld) (k : Nat) (b : Bool) : (s.putBit f k b).chainDue = s.chainDue := by
  unfold State.putBit; split <;> simp
@[simp] theorem charge_putBit (f : Fld) (k : Nat) (b : Bool) : (s.putBit f k b).charge = s.charge := by
  unfold State.putBit; split <;> simp
@[simp] theorem chargeLast_putBit (f : Fld) (k : Nat) (b : Bool) : (s.putBit f k b).chargeLast = s.chargeLast := by
  unfold State.putBit; split <;> simp
@[simp] theorem ports_putBit (f : Fld) (k : Nat) (b : Bool) : (s.putBit f k b).ports = s.ports := by
  unfold State.putBit; split <;> simp
@[simp] theorem afe_putBit (f : Fld) (k : Nat) (b : Bool) : (s.putBit f k b).afe = s.afe := by
  unfold State.putBit; split <;> simp
@[simp] theorem afeCh_putBit (f : Fld) (k : Nat) (b : Bool) : (s.putBit f k b).afeCh = s.afeCh := by
  unfold State.putBit; split <;> simp
@[simp] theorem stp_putBit (f : Fld) (k : Nat) (b : Bool) : (s.putBit f k b).stp = s.stp := by
  unfold State.putBit; split <;> simp
@[simp] theorem lines_putBit (f : Fld) (k : Nat) (b : Bool) : (s.putBit f k b).lines = s.lines := by
  unfold State.putBit; split <;> simp
@[simp] theorem icalRun_putBit (f : Fld) (k : Nat) (b : Bool) : (s.putBit f k b).icalRun = s.icalRun := by
  unfold State.putBit; split <;> simp
@[simp] theorem rck_putBit (f : Fld) (k : Nat) (b : Bool) : (s.putBit f k b).rck = s.rck := by
  unfold State.putBit; split <;> simp
@[simp] theorem sxt_putBit (f : Fld) (k : Nat) (b : Bool) : (s.putBit f k b).sxt = s.sxt := by
  unfold State.putBit; split <;> simp
@[simp] theorem rsm_putBit (f : Fld) (k : Nat) (b : Bool) : (s.putBit f k b).rsm = s.rsm := by
  unfold State.putBit; split <;> simp
@[simp] theorem asy_putBit (f : Fld) (k : Nat) (b : Bool) : (s.putBit f k b).asy = s.asy := by
  unfold State.putBit; split <;> simp
@[simp] theorem asyLast_putBit (f : Fld) (k : Nat) (b : Bool) : (s.putBit f k b).asyLast = s.asyLast := by
  unfold State.putBit; split <;> simp
@[simp] theorem rose_putBit (f : Fld) (k : Nat) (b : Bool) : (s.putBit f k b).rose = s.rose := by
  unfold State.putBit; split <;> simp
@[simp] theorem lanes_putBit (f : Fld) (k : Nat) (b : Bool) : (s.putBit f k b).lanes = s.lanes := by
  unfold State.putBit; split <;> simp
@[simp] theorem closed_putBit (f : Fld) (k : Nat) (b : Bool) : (s.putBit f k b).closed = s.closed := by
  unfold State.putBit; split <;> simp
@[simp] theorem evicts_putBit (f : Fld) (k : Nat) (b : Bool) : (s.putBit f k b).evicts = s.evicts := by
  unfold State.putBit; split <;> simp
@[simp] theorem hallmark_putBit (f : Fld) (k : Nat) (b : Bool) : (s.putBit f k b).hallmark = s.hallmark := by
  unfold State.putBit; split <;> simp
@[simp] theorem routes_putBit (f : Fld) (k : Nat) (b : Bool) : (s.putBit f k b).routes = s.routes := by
  unfold State.putBit; split <;> simp
@[simp] theorem tens_putBit (f : Fld) (k : Nat) (b : Bool) : (s.putBit f k b).tens = s.tens := by
  unfold State.putBit; split <;> simp
@[simp] theorem stw_putBit (f : Fld) (k : Nat) (b : Bool) : (s.putBit f k b).stw = s.stw := by
  unfold State.putBit; split <;> simp
@[simp] theorem nv_putBit (f : Fld) (k : Nat) (b : Bool) : (s.putBit f k b).nv = s.nv := by
  unfold State.putBit; split <;> simp
@[simp] theorem tx_putBit (f : Fld) (k : Nat) (b : Bool) : (s.putBit f k b).tx = s.tx := by
  unfold State.putBit; split <;> simp
@[simp] theorem ptrs_putBit (f : Fld) (k : Nat) (b : Bool) : (s.putBit f k b).ptrs = s.ptrs := by
  unfold State.putBit; split <;> simp
@[simp] theorem asm_putBit (f : Fld) (k : Nat) (b : Bool) : (s.putBit f k b).asm = s.asm := by
  unfold State.putBit; split <;> simp
@[simp] theorem env_putBit (f : Fld) (k : Nat) (b : Bool) : (s.putBit f k b).env = s.env := by
  unfold State.putBit; split <;> simp
@[simp] theorem port_putBit (f : Fld) (k : Nat) (b : Bool) : (s.putBit f k b).port = s.port := by
  unfold State.putBit; split <;> simp
@[simp] theorem tam_putBit (f : Fld) (k : Nat) (b : Bool) : (s.putBit f k b).tam = s.tam := by
  unfold State.putBit; split <;> simp
@[simp] theorem log_putBit (f : Fld) (k : Nat) (b : Bool) : (s.putBit f k b).log = s.log := by
  unfold State.putBit; split <;> simp
@[simp] theorem rdata_putBit (f : Fld) (k : Nat) (b : Bool) : (s.putBit f k b).rdata = s.rdata := by
  unfold State.putBit; split <;> simp
@[simp] theorem pending_putBit (f : Fld) (k : Nat) (b : Bool) : (s.putBit f k b).pending = s.pending := by
  unfold State.putBit; split <;> simp

/-! ## setSel -/

theorem sel_setSel (a : Nat) (rq : Requester) (v : Nat) : (s.setSel a rq v).sel = mapSet (fun _ => 0) s.sel (selKey a rq) v :=
  rfl
@[simp] theorem regs_setSel (a : Nat) (rq : Requester) (v : Nat) : (s.setSel a rq v).regs = s.regs := rfl
@[simp] theorem sys_setSel (a : Nat) (rq : Requester) (v : Nat) : (s.setSel a rq v).sys = s.sys := rfl
@[simp] theorem rst_setSel (a : Nat) (rq : Requester) (v : Nat) : (s.setSel a rq v).rst = s.rst := rfl
@[simp] theorem clk_setSel (a : Nat) (rq : Requester) (v : Nat) : (s.setSel a rq v).clk = s.clk := rfl
@[simp] theorem pln_setSel (a : Nat) (rq : Requester) (v : Nat) : (s.setSel a rq v).pln = s.pln := rfl
@[simp] theorem locks_setSel (a : Nat) (rq : Requester) (v : Nat) : (s.setSel a rq v).locks = s.locks := rfl
@[simp] theorem shadowBad_setSel (a : Nat) (rq : Requester) (v : Nat) : (s.setSel a rq v).shadowBad = s.shadowBad := rfl
@[simp] theorem pownBad_setSel (a : Nat) (rq : Requester) (v : Nat) : (s.setSel a rq v).pownBad = s.pownBad := rfl
@[simp] theorem samp_setSel (a : Nat) (rq : Requester) (v : Nat) : (s.setSel a rq v).samp = s.samp := rfl
@[simp] theorem streams_setSel (a : Nat) (rq : Requester) (v : Nat) : (s.setSel a rq v).streams = s.streams := rfl
@[simp] theorem queues_setSel (a : Nat) (rq : Requester) (v : Nat) : (s.setSel a rq v).queues = s.queues := rfl
@[simp] theorem pendg_setSel (a : Nat) (rq : Requester) (v : Nat) : (s.setSel a rq v).pendg = s.pendg := rfl
@[simp] theorem capped_setSel (a : Nat) (rq : Requester) (v : Nat) : (s.setSel a rq v).capped = s.capped := rfl
@[simp] theorem loops_setSel (a : Nat) (rq : Requester) (v : Nat) : (s.setSel a rq v).loops = s.loops := rfl
@[simp] theorem descs_setSel (a : Nat) (rq : Requester) (v : Nat) : (s.setSel a rq v).descs = s.descs := rfl
@[simp] theorem chainDue_setSel (a : Nat) (rq : Requester) (v : Nat) : (s.setSel a rq v).chainDue = s.chainDue := rfl
@[simp] theorem charge_setSel (a : Nat) (rq : Requester) (v : Nat) : (s.setSel a rq v).charge = s.charge := rfl
@[simp] theorem chargeLast_setSel (a : Nat) (rq : Requester) (v : Nat) : (s.setSel a rq v).chargeLast = s.chargeLast := rfl
@[simp] theorem ports_setSel (a : Nat) (rq : Requester) (v : Nat) : (s.setSel a rq v).ports = s.ports := rfl
@[simp] theorem afe_setSel (a : Nat) (rq : Requester) (v : Nat) : (s.setSel a rq v).afe = s.afe := rfl
@[simp] theorem afeCh_setSel (a : Nat) (rq : Requester) (v : Nat) : (s.setSel a rq v).afeCh = s.afeCh := rfl
@[simp] theorem stp_setSel (a : Nat) (rq : Requester) (v : Nat) : (s.setSel a rq v).stp = s.stp := rfl
@[simp] theorem lines_setSel (a : Nat) (rq : Requester) (v : Nat) : (s.setSel a rq v).lines = s.lines := rfl
@[simp] theorem icalRun_setSel (a : Nat) (rq : Requester) (v : Nat) : (s.setSel a rq v).icalRun = s.icalRun := rfl
@[simp] theorem rck_setSel (a : Nat) (rq : Requester) (v : Nat) : (s.setSel a rq v).rck = s.rck := rfl
@[simp] theorem sxt_setSel (a : Nat) (rq : Requester) (v : Nat) : (s.setSel a rq v).sxt = s.sxt := rfl
@[simp] theorem rsm_setSel (a : Nat) (rq : Requester) (v : Nat) : (s.setSel a rq v).rsm = s.rsm := rfl
@[simp] theorem asy_setSel (a : Nat) (rq : Requester) (v : Nat) : (s.setSel a rq v).asy = s.asy := rfl
@[simp] theorem asyLast_setSel (a : Nat) (rq : Requester) (v : Nat) : (s.setSel a rq v).asyLast = s.asyLast := rfl
@[simp] theorem rose_setSel (a : Nat) (rq : Requester) (v : Nat) : (s.setSel a rq v).rose = s.rose := rfl
@[simp] theorem lanes_setSel (a : Nat) (rq : Requester) (v : Nat) : (s.setSel a rq v).lanes = s.lanes := rfl
@[simp] theorem closed_setSel (a : Nat) (rq : Requester) (v : Nat) : (s.setSel a rq v).closed = s.closed := rfl
@[simp] theorem evicts_setSel (a : Nat) (rq : Requester) (v : Nat) : (s.setSel a rq v).evicts = s.evicts := rfl
@[simp] theorem hallmark_setSel (a : Nat) (rq : Requester) (v : Nat) : (s.setSel a rq v).hallmark = s.hallmark := rfl
@[simp] theorem routes_setSel (a : Nat) (rq : Requester) (v : Nat) : (s.setSel a rq v).routes = s.routes := rfl
@[simp] theorem tens_setSel (a : Nat) (rq : Requester) (v : Nat) : (s.setSel a rq v).tens = s.tens := rfl
@[simp] theorem stw_setSel (a : Nat) (rq : Requester) (v : Nat) : (s.setSel a rq v).stw = s.stw := rfl
@[simp] theorem nv_setSel (a : Nat) (rq : Requester) (v : Nat) : (s.setSel a rq v).nv = s.nv := rfl
@[simp] theorem tx_setSel (a : Nat) (rq : Requester) (v : Nat) : (s.setSel a rq v).tx = s.tx := rfl
@[simp] theorem ptrs_setSel (a : Nat) (rq : Requester) (v : Nat) : (s.setSel a rq v).ptrs = s.ptrs := rfl
@[simp] theorem asm_setSel (a : Nat) (rq : Requester) (v : Nat) : (s.setSel a rq v).asm = s.asm := rfl
@[simp] theorem env_setSel (a : Nat) (rq : Requester) (v : Nat) : (s.setSel a rq v).env = s.env := rfl
@[simp] theorem port_setSel (a : Nat) (rq : Requester) (v : Nat) : (s.setSel a rq v).port = s.port := rfl
@[simp] theorem tam_setSel (a : Nat) (rq : Requester) (v : Nat) : (s.setSel a rq v).tam = s.tam := rfl
@[simp] theorem log_setSel (a : Nat) (rq : Requester) (v : Nat) : (s.setSel a rq v).log = s.log := rfl
@[simp] theorem rdata_setSel (a : Nat) (rq : Requester) (v : Nat) : (s.setSel a rq v).rdata = s.rdata := rfl
@[simp] theorem pending_setSel (a : Nat) (rq : Requester) (v : Nat) : (s.setSel a rq v).pending = s.pending := rfl
@[simp] theorem reg_setSel (a : Nat) (rq : Requester) (v : Nat) (r : Nat) : (s.setSel a rq v).reg r = s.reg r := rfl
@[simp] theorem fld_setSel (a : Nat) (rq : Requester) (v : Nat) (g : Fld) : (s.setSel a rq v).fld g = s.fld g := rfl
@[simp] theorem on_setSel (a : Nat) (rq : Requester) (v : Nat) (g : Fld) : (s.setSel a rq v).on g = s.on g := rfl

/-! ## setSamp -/

theorem samp_setSamp (a : Nat) (rq : Requester) (v : Nat) : (s.setSamp a rq v).samp = mapSet (fun _ => 0) s.samp (selKey a rq) v :=
  rfl
@[simp] theorem regs_setSamp (a : Nat) (rq : Requester) (v : Nat) : (s.setSamp a rq v).regs = s.regs := rfl
@[simp] theorem sys_setSamp (a : Nat) (rq : Requester) (v : Nat) : (s.setSamp a rq v).sys = s.sys := rfl
@[simp] theorem rst_setSamp (a : Nat) (rq : Requester) (v : Nat) : (s.setSamp a rq v).rst = s.rst := rfl
@[simp] theorem clk_setSamp (a : Nat) (rq : Requester) (v : Nat) : (s.setSamp a rq v).clk = s.clk := rfl
@[simp] theorem pln_setSamp (a : Nat) (rq : Requester) (v : Nat) : (s.setSamp a rq v).pln = s.pln := rfl
@[simp] theorem locks_setSamp (a : Nat) (rq : Requester) (v : Nat) : (s.setSamp a rq v).locks = s.locks := rfl
@[simp] theorem shadowBad_setSamp (a : Nat) (rq : Requester) (v : Nat) : (s.setSamp a rq v).shadowBad = s.shadowBad := rfl
@[simp] theorem pownBad_setSamp (a : Nat) (rq : Requester) (v : Nat) : (s.setSamp a rq v).pownBad = s.pownBad := rfl
@[simp] theorem sel_setSamp (a : Nat) (rq : Requester) (v : Nat) : (s.setSamp a rq v).sel = s.sel := rfl
@[simp] theorem streams_setSamp (a : Nat) (rq : Requester) (v : Nat) : (s.setSamp a rq v).streams = s.streams := rfl
@[simp] theorem queues_setSamp (a : Nat) (rq : Requester) (v : Nat) : (s.setSamp a rq v).queues = s.queues := rfl
@[simp] theorem pendg_setSamp (a : Nat) (rq : Requester) (v : Nat) : (s.setSamp a rq v).pendg = s.pendg := rfl
@[simp] theorem capped_setSamp (a : Nat) (rq : Requester) (v : Nat) : (s.setSamp a rq v).capped = s.capped := rfl
@[simp] theorem loops_setSamp (a : Nat) (rq : Requester) (v : Nat) : (s.setSamp a rq v).loops = s.loops := rfl
@[simp] theorem descs_setSamp (a : Nat) (rq : Requester) (v : Nat) : (s.setSamp a rq v).descs = s.descs := rfl
@[simp] theorem chainDue_setSamp (a : Nat) (rq : Requester) (v : Nat) : (s.setSamp a rq v).chainDue = s.chainDue := rfl
@[simp] theorem charge_setSamp (a : Nat) (rq : Requester) (v : Nat) : (s.setSamp a rq v).charge = s.charge := rfl
@[simp] theorem chargeLast_setSamp (a : Nat) (rq : Requester) (v : Nat) : (s.setSamp a rq v).chargeLast = s.chargeLast := rfl
@[simp] theorem ports_setSamp (a : Nat) (rq : Requester) (v : Nat) : (s.setSamp a rq v).ports = s.ports := rfl
@[simp] theorem afe_setSamp (a : Nat) (rq : Requester) (v : Nat) : (s.setSamp a rq v).afe = s.afe := rfl
@[simp] theorem afeCh_setSamp (a : Nat) (rq : Requester) (v : Nat) : (s.setSamp a rq v).afeCh = s.afeCh := rfl
@[simp] theorem stp_setSamp (a : Nat) (rq : Requester) (v : Nat) : (s.setSamp a rq v).stp = s.stp := rfl
@[simp] theorem lines_setSamp (a : Nat) (rq : Requester) (v : Nat) : (s.setSamp a rq v).lines = s.lines := rfl
@[simp] theorem icalRun_setSamp (a : Nat) (rq : Requester) (v : Nat) : (s.setSamp a rq v).icalRun = s.icalRun := rfl
@[simp] theorem rck_setSamp (a : Nat) (rq : Requester) (v : Nat) : (s.setSamp a rq v).rck = s.rck := rfl
@[simp] theorem sxt_setSamp (a : Nat) (rq : Requester) (v : Nat) : (s.setSamp a rq v).sxt = s.sxt := rfl
@[simp] theorem rsm_setSamp (a : Nat) (rq : Requester) (v : Nat) : (s.setSamp a rq v).rsm = s.rsm := rfl
@[simp] theorem asy_setSamp (a : Nat) (rq : Requester) (v : Nat) : (s.setSamp a rq v).asy = s.asy := rfl
@[simp] theorem asyLast_setSamp (a : Nat) (rq : Requester) (v : Nat) : (s.setSamp a rq v).asyLast = s.asyLast := rfl
@[simp] theorem rose_setSamp (a : Nat) (rq : Requester) (v : Nat) : (s.setSamp a rq v).rose = s.rose := rfl
@[simp] theorem lanes_setSamp (a : Nat) (rq : Requester) (v : Nat) : (s.setSamp a rq v).lanes = s.lanes := rfl
@[simp] theorem closed_setSamp (a : Nat) (rq : Requester) (v : Nat) : (s.setSamp a rq v).closed = s.closed := rfl
@[simp] theorem evicts_setSamp (a : Nat) (rq : Requester) (v : Nat) : (s.setSamp a rq v).evicts = s.evicts := rfl
@[simp] theorem hallmark_setSamp (a : Nat) (rq : Requester) (v : Nat) : (s.setSamp a rq v).hallmark = s.hallmark := rfl
@[simp] theorem routes_setSamp (a : Nat) (rq : Requester) (v : Nat) : (s.setSamp a rq v).routes = s.routes := rfl
@[simp] theorem tens_setSamp (a : Nat) (rq : Requester) (v : Nat) : (s.setSamp a rq v).tens = s.tens := rfl
@[simp] theorem stw_setSamp (a : Nat) (rq : Requester) (v : Nat) : (s.setSamp a rq v).stw = s.stw := rfl
@[simp] theorem nv_setSamp (a : Nat) (rq : Requester) (v : Nat) : (s.setSamp a rq v).nv = s.nv := rfl
@[simp] theorem tx_setSamp (a : Nat) (rq : Requester) (v : Nat) : (s.setSamp a rq v).tx = s.tx := rfl
@[simp] theorem ptrs_setSamp (a : Nat) (rq : Requester) (v : Nat) : (s.setSamp a rq v).ptrs = s.ptrs := rfl
@[simp] theorem asm_setSamp (a : Nat) (rq : Requester) (v : Nat) : (s.setSamp a rq v).asm = s.asm := rfl
@[simp] theorem env_setSamp (a : Nat) (rq : Requester) (v : Nat) : (s.setSamp a rq v).env = s.env := rfl
@[simp] theorem port_setSamp (a : Nat) (rq : Requester) (v : Nat) : (s.setSamp a rq v).port = s.port := rfl
@[simp] theorem tam_setSamp (a : Nat) (rq : Requester) (v : Nat) : (s.setSamp a rq v).tam = s.tam := rfl
@[simp] theorem log_setSamp (a : Nat) (rq : Requester) (v : Nat) : (s.setSamp a rq v).log = s.log := rfl
@[simp] theorem rdata_setSamp (a : Nat) (rq : Requester) (v : Nat) : (s.setSamp a rq v).rdata = s.rdata := rfl
@[simp] theorem pending_setSamp (a : Nat) (rq : Requester) (v : Nat) : (s.setSamp a rq v).pending = s.pending := rfl
@[simp] theorem reg_setSamp (a : Nat) (rq : Requester) (v : Nat) (r : Nat) : (s.setSamp a rq v).reg r = s.reg r := rfl
@[simp] theorem fld_setSamp (a : Nat) (rq : Requester) (v : Nat) (g : Fld) : (s.setSamp a rq v).fld g = s.fld g := rfl
@[simp] theorem on_setSamp (a : Nat) (rq : Requester) (v : Nat) (g : Fld) : (s.setSamp a rq v).on g = s.on g := rfl

/-! ## modTen -/

theorem tens_modTen (t : Nat) (f : Ten → Ten) : (s.modTen t f).tens = mapMod (fun _ => ten0) s.tens t f := rfl
@[simp] theorem regs_modTen (t : Nat) (f : Ten → Ten) : (s.modTen t f).regs = s.regs := rfl
@[simp] theorem sys_modTen (t : Nat) (f : Ten → Ten) : (s.modTen t f).sys = s.sys := rfl
@[simp] theorem rst_modTen (t : Nat) (f : Ten → Ten) : (s.modTen t f).rst = s.rst := rfl
@[simp] theorem clk_modTen (t : Nat) (f : Ten → Ten) : (s.modTen t f).clk = s.clk := rfl
@[simp] theorem pln_modTen (t : Nat) (f : Ten → Ten) : (s.modTen t f).pln = s.pln := rfl
@[simp] theorem locks_modTen (t : Nat) (f : Ten → Ten) : (s.modTen t f).locks = s.locks := rfl
@[simp] theorem shadowBad_modTen (t : Nat) (f : Ten → Ten) : (s.modTen t f).shadowBad = s.shadowBad := rfl
@[simp] theorem pownBad_modTen (t : Nat) (f : Ten → Ten) : (s.modTen t f).pownBad = s.pownBad := rfl
@[simp] theorem sel_modTen (t : Nat) (f : Ten → Ten) : (s.modTen t f).sel = s.sel := rfl
@[simp] theorem samp_modTen (t : Nat) (f : Ten → Ten) : (s.modTen t f).samp = s.samp := rfl
@[simp] theorem streams_modTen (t : Nat) (f : Ten → Ten) : (s.modTen t f).streams = s.streams := rfl
@[simp] theorem queues_modTen (t : Nat) (f : Ten → Ten) : (s.modTen t f).queues = s.queues := rfl
@[simp] theorem pendg_modTen (t : Nat) (f : Ten → Ten) : (s.modTen t f).pendg = s.pendg := rfl
@[simp] theorem capped_modTen (t : Nat) (f : Ten → Ten) : (s.modTen t f).capped = s.capped := rfl
@[simp] theorem loops_modTen (t : Nat) (f : Ten → Ten) : (s.modTen t f).loops = s.loops := rfl
@[simp] theorem descs_modTen (t : Nat) (f : Ten → Ten) : (s.modTen t f).descs = s.descs := rfl
@[simp] theorem chainDue_modTen (t : Nat) (f : Ten → Ten) : (s.modTen t f).chainDue = s.chainDue := rfl
@[simp] theorem charge_modTen (t : Nat) (f : Ten → Ten) : (s.modTen t f).charge = s.charge := rfl
@[simp] theorem chargeLast_modTen (t : Nat) (f : Ten → Ten) : (s.modTen t f).chargeLast = s.chargeLast := rfl
@[simp] theorem ports_modTen (t : Nat) (f : Ten → Ten) : (s.modTen t f).ports = s.ports := rfl
@[simp] theorem afe_modTen (t : Nat) (f : Ten → Ten) : (s.modTen t f).afe = s.afe := rfl
@[simp] theorem afeCh_modTen (t : Nat) (f : Ten → Ten) : (s.modTen t f).afeCh = s.afeCh := rfl
@[simp] theorem stp_modTen (t : Nat) (f : Ten → Ten) : (s.modTen t f).stp = s.stp := rfl
@[simp] theorem lines_modTen (t : Nat) (f : Ten → Ten) : (s.modTen t f).lines = s.lines := rfl
@[simp] theorem icalRun_modTen (t : Nat) (f : Ten → Ten) : (s.modTen t f).icalRun = s.icalRun := rfl
@[simp] theorem rck_modTen (t : Nat) (f : Ten → Ten) : (s.modTen t f).rck = s.rck := rfl
@[simp] theorem sxt_modTen (t : Nat) (f : Ten → Ten) : (s.modTen t f).sxt = s.sxt := rfl
@[simp] theorem rsm_modTen (t : Nat) (f : Ten → Ten) : (s.modTen t f).rsm = s.rsm := rfl
@[simp] theorem asy_modTen (t : Nat) (f : Ten → Ten) : (s.modTen t f).asy = s.asy := rfl
@[simp] theorem asyLast_modTen (t : Nat) (f : Ten → Ten) : (s.modTen t f).asyLast = s.asyLast := rfl
@[simp] theorem rose_modTen (t : Nat) (f : Ten → Ten) : (s.modTen t f).rose = s.rose := rfl
@[simp] theorem lanes_modTen (t : Nat) (f : Ten → Ten) : (s.modTen t f).lanes = s.lanes := rfl
@[simp] theorem closed_modTen (t : Nat) (f : Ten → Ten) : (s.modTen t f).closed = s.closed := rfl
@[simp] theorem evicts_modTen (t : Nat) (f : Ten → Ten) : (s.modTen t f).evicts = s.evicts := rfl
@[simp] theorem hallmark_modTen (t : Nat) (f : Ten → Ten) : (s.modTen t f).hallmark = s.hallmark := rfl
@[simp] theorem routes_modTen (t : Nat) (f : Ten → Ten) : (s.modTen t f).routes = s.routes := rfl
@[simp] theorem stw_modTen (t : Nat) (f : Ten → Ten) : (s.modTen t f).stw = s.stw := rfl
@[simp] theorem nv_modTen (t : Nat) (f : Ten → Ten) : (s.modTen t f).nv = s.nv := rfl
@[simp] theorem tx_modTen (t : Nat) (f : Ten → Ten) : (s.modTen t f).tx = s.tx := rfl
@[simp] theorem ptrs_modTen (t : Nat) (f : Ten → Ten) : (s.modTen t f).ptrs = s.ptrs := rfl
@[simp] theorem asm_modTen (t : Nat) (f : Ten → Ten) : (s.modTen t f).asm = s.asm := rfl
@[simp] theorem env_modTen (t : Nat) (f : Ten → Ten) : (s.modTen t f).env = s.env := rfl
@[simp] theorem port_modTen (t : Nat) (f : Ten → Ten) : (s.modTen t f).port = s.port := rfl
@[simp] theorem tam_modTen (t : Nat) (f : Ten → Ten) : (s.modTen t f).tam = s.tam := rfl
@[simp] theorem log_modTen (t : Nat) (f : Ten → Ten) : (s.modTen t f).log = s.log := rfl
@[simp] theorem rdata_modTen (t : Nat) (f : Ten → Ten) : (s.modTen t f).rdata = s.rdata := rfl
@[simp] theorem pending_modTen (t : Nat) (f : Ten → Ten) : (s.modTen t f).pending = s.pending := rfl
@[simp] theorem reg_modTen (t : Nat) (f : Ten → Ten) (r : Nat) : (s.modTen t f).reg r = s.reg r := rfl
@[simp] theorem fld_modTen (t : Nat) (f : Ten → Ten) (g : Fld) : (s.modTen t f).fld g = s.fld g := rfl
@[simp] theorem on_modTen (t : Nat) (f : Ten → Ten) (g : Fld) : (s.modTen t f).on g = s.on g := rfl

/-! ## modPrt -/

theorem ports_modPrt (p : Nat) (f : Port → Port) : (s.modPrt p f).ports = mapMod (fun _ => port0) s.ports p f := rfl
@[simp] theorem regs_modPrt (p : Nat) (f : Port → Port) : (s.modPrt p f).regs = s.regs := rfl
@[simp] theorem sys_modPrt (p : Nat) (f : Port → Port) : (s.modPrt p f).sys = s.sys := rfl
@[simp] theorem rst_modPrt (p : Nat) (f : Port → Port) : (s.modPrt p f).rst = s.rst := rfl
@[simp] theorem clk_modPrt (p : Nat) (f : Port → Port) : (s.modPrt p f).clk = s.clk := rfl
@[simp] theorem pln_modPrt (p : Nat) (f : Port → Port) : (s.modPrt p f).pln = s.pln := rfl
@[simp] theorem locks_modPrt (p : Nat) (f : Port → Port) : (s.modPrt p f).locks = s.locks := rfl
@[simp] theorem shadowBad_modPrt (p : Nat) (f : Port → Port) : (s.modPrt p f).shadowBad = s.shadowBad := rfl
@[simp] theorem pownBad_modPrt (p : Nat) (f : Port → Port) : (s.modPrt p f).pownBad = s.pownBad := rfl
@[simp] theorem sel_modPrt (p : Nat) (f : Port → Port) : (s.modPrt p f).sel = s.sel := rfl
@[simp] theorem samp_modPrt (p : Nat) (f : Port → Port) : (s.modPrt p f).samp = s.samp := rfl
@[simp] theorem streams_modPrt (p : Nat) (f : Port → Port) : (s.modPrt p f).streams = s.streams := rfl
@[simp] theorem queues_modPrt (p : Nat) (f : Port → Port) : (s.modPrt p f).queues = s.queues := rfl
@[simp] theorem pendg_modPrt (p : Nat) (f : Port → Port) : (s.modPrt p f).pendg = s.pendg := rfl
@[simp] theorem capped_modPrt (p : Nat) (f : Port → Port) : (s.modPrt p f).capped = s.capped := rfl
@[simp] theorem loops_modPrt (p : Nat) (f : Port → Port) : (s.modPrt p f).loops = s.loops := rfl
@[simp] theorem descs_modPrt (p : Nat) (f : Port → Port) : (s.modPrt p f).descs = s.descs := rfl
@[simp] theorem chainDue_modPrt (p : Nat) (f : Port → Port) : (s.modPrt p f).chainDue = s.chainDue := rfl
@[simp] theorem charge_modPrt (p : Nat) (f : Port → Port) : (s.modPrt p f).charge = s.charge := rfl
@[simp] theorem chargeLast_modPrt (p : Nat) (f : Port → Port) : (s.modPrt p f).chargeLast = s.chargeLast := rfl
@[simp] theorem afe_modPrt (p : Nat) (f : Port → Port) : (s.modPrt p f).afe = s.afe := rfl
@[simp] theorem afeCh_modPrt (p : Nat) (f : Port → Port) : (s.modPrt p f).afeCh = s.afeCh := rfl
@[simp] theorem stp_modPrt (p : Nat) (f : Port → Port) : (s.modPrt p f).stp = s.stp := rfl
@[simp] theorem lines_modPrt (p : Nat) (f : Port → Port) : (s.modPrt p f).lines = s.lines := rfl
@[simp] theorem icalRun_modPrt (p : Nat) (f : Port → Port) : (s.modPrt p f).icalRun = s.icalRun := rfl
@[simp] theorem rck_modPrt (p : Nat) (f : Port → Port) : (s.modPrt p f).rck = s.rck := rfl
@[simp] theorem sxt_modPrt (p : Nat) (f : Port → Port) : (s.modPrt p f).sxt = s.sxt := rfl
@[simp] theorem rsm_modPrt (p : Nat) (f : Port → Port) : (s.modPrt p f).rsm = s.rsm := rfl
@[simp] theorem asy_modPrt (p : Nat) (f : Port → Port) : (s.modPrt p f).asy = s.asy := rfl
@[simp] theorem asyLast_modPrt (p : Nat) (f : Port → Port) : (s.modPrt p f).asyLast = s.asyLast := rfl
@[simp] theorem rose_modPrt (p : Nat) (f : Port → Port) : (s.modPrt p f).rose = s.rose := rfl
@[simp] theorem lanes_modPrt (p : Nat) (f : Port → Port) : (s.modPrt p f).lanes = s.lanes := rfl
@[simp] theorem closed_modPrt (p : Nat) (f : Port → Port) : (s.modPrt p f).closed = s.closed := rfl
@[simp] theorem evicts_modPrt (p : Nat) (f : Port → Port) : (s.modPrt p f).evicts = s.evicts := rfl
@[simp] theorem hallmark_modPrt (p : Nat) (f : Port → Port) : (s.modPrt p f).hallmark = s.hallmark := rfl
@[simp] theorem routes_modPrt (p : Nat) (f : Port → Port) : (s.modPrt p f).routes = s.routes := rfl
@[simp] theorem tens_modPrt (p : Nat) (f : Port → Port) : (s.modPrt p f).tens = s.tens := rfl
@[simp] theorem stw_modPrt (p : Nat) (f : Port → Port) : (s.modPrt p f).stw = s.stw := rfl
@[simp] theorem nv_modPrt (p : Nat) (f : Port → Port) : (s.modPrt p f).nv = s.nv := rfl
@[simp] theorem tx_modPrt (p : Nat) (f : Port → Port) : (s.modPrt p f).tx = s.tx := rfl
@[simp] theorem ptrs_modPrt (p : Nat) (f : Port → Port) : (s.modPrt p f).ptrs = s.ptrs := rfl
@[simp] theorem asm_modPrt (p : Nat) (f : Port → Port) : (s.modPrt p f).asm = s.asm := rfl
@[simp] theorem env_modPrt (p : Nat) (f : Port → Port) : (s.modPrt p f).env = s.env := rfl
@[simp] theorem port_modPrt (p : Nat) (f : Port → Port) : (s.modPrt p f).port = s.port := rfl
@[simp] theorem tam_modPrt (p : Nat) (f : Port → Port) : (s.modPrt p f).tam = s.tam := rfl
@[simp] theorem log_modPrt (p : Nat) (f : Port → Port) : (s.modPrt p f).log = s.log := rfl
@[simp] theorem rdata_modPrt (p : Nat) (f : Port → Port) : (s.modPrt p f).rdata = s.rdata := rfl
@[simp] theorem pending_modPrt (p : Nat) (f : Port → Port) : (s.modPrt p f).pending = s.pending := rfl
@[simp] theorem reg_modPrt (p : Nat) (f : Port → Port) (r : Nat) : (s.modPrt p f).reg r = s.reg r := rfl
@[simp] theorem fld_modPrt (p : Nat) (f : Port → Port) (g : Fld) : (s.modPrt p f).fld g = s.fld g := rfl
@[simp] theorem on_modPrt (p : Nat) (f : Port → Port) (g : Fld) : (s.modPrt p f).on g = s.on g := rfl

/-! ## modDesc -/

theorem descs_modDesc (d : Nat) (f : Desc → Desc) : (s.modDesc d f).descs = mapMod (fun _ => desc0) s.descs d f := rfl
@[simp] theorem regs_modDesc (d : Nat) (f : Desc → Desc) : (s.modDesc d f).regs = s.regs := rfl
@[simp] theorem sys_modDesc (d : Nat) (f : Desc → Desc) : (s.modDesc d f).sys = s.sys := rfl
@[simp] theorem rst_modDesc (d : Nat) (f : Desc → Desc) : (s.modDesc d f).rst = s.rst := rfl
@[simp] theorem clk_modDesc (d : Nat) (f : Desc → Desc) : (s.modDesc d f).clk = s.clk := rfl
@[simp] theorem pln_modDesc (d : Nat) (f : Desc → Desc) : (s.modDesc d f).pln = s.pln := rfl
@[simp] theorem locks_modDesc (d : Nat) (f : Desc → Desc) : (s.modDesc d f).locks = s.locks := rfl
@[simp] theorem shadowBad_modDesc (d : Nat) (f : Desc → Desc) : (s.modDesc d f).shadowBad = s.shadowBad := rfl
@[simp] theorem pownBad_modDesc (d : Nat) (f : Desc → Desc) : (s.modDesc d f).pownBad = s.pownBad := rfl
@[simp] theorem sel_modDesc (d : Nat) (f : Desc → Desc) : (s.modDesc d f).sel = s.sel := rfl
@[simp] theorem samp_modDesc (d : Nat) (f : Desc → Desc) : (s.modDesc d f).samp = s.samp := rfl
@[simp] theorem streams_modDesc (d : Nat) (f : Desc → Desc) : (s.modDesc d f).streams = s.streams := rfl
@[simp] theorem queues_modDesc (d : Nat) (f : Desc → Desc) : (s.modDesc d f).queues = s.queues := rfl
@[simp] theorem pendg_modDesc (d : Nat) (f : Desc → Desc) : (s.modDesc d f).pendg = s.pendg := rfl
@[simp] theorem capped_modDesc (d : Nat) (f : Desc → Desc) : (s.modDesc d f).capped = s.capped := rfl
@[simp] theorem loops_modDesc (d : Nat) (f : Desc → Desc) : (s.modDesc d f).loops = s.loops := rfl
@[simp] theorem chainDue_modDesc (d : Nat) (f : Desc → Desc) : (s.modDesc d f).chainDue = s.chainDue := rfl
@[simp] theorem charge_modDesc (d : Nat) (f : Desc → Desc) : (s.modDesc d f).charge = s.charge := rfl
@[simp] theorem chargeLast_modDesc (d : Nat) (f : Desc → Desc) : (s.modDesc d f).chargeLast = s.chargeLast := rfl
@[simp] theorem ports_modDesc (d : Nat) (f : Desc → Desc) : (s.modDesc d f).ports = s.ports := rfl
@[simp] theorem afe_modDesc (d : Nat) (f : Desc → Desc) : (s.modDesc d f).afe = s.afe := rfl
@[simp] theorem afeCh_modDesc (d : Nat) (f : Desc → Desc) : (s.modDesc d f).afeCh = s.afeCh := rfl
@[simp] theorem stp_modDesc (d : Nat) (f : Desc → Desc) : (s.modDesc d f).stp = s.stp := rfl
@[simp] theorem lines_modDesc (d : Nat) (f : Desc → Desc) : (s.modDesc d f).lines = s.lines := rfl
@[simp] theorem icalRun_modDesc (d : Nat) (f : Desc → Desc) : (s.modDesc d f).icalRun = s.icalRun := rfl
@[simp] theorem rck_modDesc (d : Nat) (f : Desc → Desc) : (s.modDesc d f).rck = s.rck := rfl
@[simp] theorem sxt_modDesc (d : Nat) (f : Desc → Desc) : (s.modDesc d f).sxt = s.sxt := rfl
@[simp] theorem rsm_modDesc (d : Nat) (f : Desc → Desc) : (s.modDesc d f).rsm = s.rsm := rfl
@[simp] theorem asy_modDesc (d : Nat) (f : Desc → Desc) : (s.modDesc d f).asy = s.asy := rfl
@[simp] theorem asyLast_modDesc (d : Nat) (f : Desc → Desc) : (s.modDesc d f).asyLast = s.asyLast := rfl
@[simp] theorem rose_modDesc (d : Nat) (f : Desc → Desc) : (s.modDesc d f).rose = s.rose := rfl
@[simp] theorem lanes_modDesc (d : Nat) (f : Desc → Desc) : (s.modDesc d f).lanes = s.lanes := rfl
@[simp] theorem closed_modDesc (d : Nat) (f : Desc → Desc) : (s.modDesc d f).closed = s.closed := rfl
@[simp] theorem evicts_modDesc (d : Nat) (f : Desc → Desc) : (s.modDesc d f).evicts = s.evicts := rfl
@[simp] theorem hallmark_modDesc (d : Nat) (f : Desc → Desc) : (s.modDesc d f).hallmark = s.hallmark := rfl
@[simp] theorem routes_modDesc (d : Nat) (f : Desc → Desc) : (s.modDesc d f).routes = s.routes := rfl
@[simp] theorem tens_modDesc (d : Nat) (f : Desc → Desc) : (s.modDesc d f).tens = s.tens := rfl
@[simp] theorem stw_modDesc (d : Nat) (f : Desc → Desc) : (s.modDesc d f).stw = s.stw := rfl
@[simp] theorem nv_modDesc (d : Nat) (f : Desc → Desc) : (s.modDesc d f).nv = s.nv := rfl
@[simp] theorem tx_modDesc (d : Nat) (f : Desc → Desc) : (s.modDesc d f).tx = s.tx := rfl
@[simp] theorem ptrs_modDesc (d : Nat) (f : Desc → Desc) : (s.modDesc d f).ptrs = s.ptrs := rfl
@[simp] theorem asm_modDesc (d : Nat) (f : Desc → Desc) : (s.modDesc d f).asm = s.asm := rfl
@[simp] theorem env_modDesc (d : Nat) (f : Desc → Desc) : (s.modDesc d f).env = s.env := rfl
@[simp] theorem port_modDesc (d : Nat) (f : Desc → Desc) : (s.modDesc d f).port = s.port := rfl
@[simp] theorem tam_modDesc (d : Nat) (f : Desc → Desc) : (s.modDesc d f).tam = s.tam := rfl
@[simp] theorem log_modDesc (d : Nat) (f : Desc → Desc) : (s.modDesc d f).log = s.log := rfl
@[simp] theorem rdata_modDesc (d : Nat) (f : Desc → Desc) : (s.modDesc d f).rdata = s.rdata := rfl
@[simp] theorem pending_modDesc (d : Nat) (f : Desc → Desc) : (s.modDesc d f).pending = s.pending := rfl
@[simp] theorem reg_modDesc (d : Nat) (f : Desc → Desc) (r : Nat) : (s.modDesc d f).reg r = s.reg r := rfl
@[simp] theorem fld_modDesc (d : Nat) (f : Desc → Desc) (g : Fld) : (s.modDesc d f).fld g = s.fld g := rfl
@[simp] theorem on_modDesc (d : Nat) (f : Desc → Desc) (g : Fld) : (s.modDesc d f).on g = s.on g := rfl

/-! ## modUnit -/

theorem asy_modUnit (u : Nat) (f : Asy → Asy) : (s.modUnit u f).asy = mapMod (fun _ => asy0) s.asy u f := rfl
@[simp] theorem regs_modUnit (u : Nat) (f : Asy → Asy) : (s.modUnit u f).regs = s.regs := rfl
@[simp] theorem sys_modUnit (u : Nat) (f : Asy → Asy) : (s.modUnit u f).sys = s.sys := rfl
@[simp] theorem rst_modUnit (u : Nat) (f : Asy → Asy) : (s.modUnit u f).rst = s.rst := rfl
@[simp] theorem clk_modUnit (u : Nat) (f : Asy → Asy) : (s.modUnit u f).clk = s.clk := rfl
@[simp] theorem pln_modUnit (u : Nat) (f : Asy → Asy) : (s.modUnit u f).pln = s.pln := rfl
@[simp] theorem locks_modUnit (u : Nat) (f : Asy → Asy) : (s.modUnit u f).locks = s.locks := rfl
@[simp] theorem shadowBad_modUnit (u : Nat) (f : Asy → Asy) : (s.modUnit u f).shadowBad = s.shadowBad := rfl
@[simp] theorem pownBad_modUnit (u : Nat) (f : Asy → Asy) : (s.modUnit u f).pownBad = s.pownBad := rfl
@[simp] theorem sel_modUnit (u : Nat) (f : Asy → Asy) : (s.modUnit u f).sel = s.sel := rfl
@[simp] theorem samp_modUnit (u : Nat) (f : Asy → Asy) : (s.modUnit u f).samp = s.samp := rfl
@[simp] theorem streams_modUnit (u : Nat) (f : Asy → Asy) : (s.modUnit u f).streams = s.streams := rfl
@[simp] theorem queues_modUnit (u : Nat) (f : Asy → Asy) : (s.modUnit u f).queues = s.queues := rfl
@[simp] theorem pendg_modUnit (u : Nat) (f : Asy → Asy) : (s.modUnit u f).pendg = s.pendg := rfl
@[simp] theorem capped_modUnit (u : Nat) (f : Asy → Asy) : (s.modUnit u f).capped = s.capped := rfl
@[simp] theorem loops_modUnit (u : Nat) (f : Asy → Asy) : (s.modUnit u f).loops = s.loops := rfl
@[simp] theorem descs_modUnit (u : Nat) (f : Asy → Asy) : (s.modUnit u f).descs = s.descs := rfl
@[simp] theorem chainDue_modUnit (u : Nat) (f : Asy → Asy) : (s.modUnit u f).chainDue = s.chainDue := rfl
@[simp] theorem charge_modUnit (u : Nat) (f : Asy → Asy) : (s.modUnit u f).charge = s.charge := rfl
@[simp] theorem chargeLast_modUnit (u : Nat) (f : Asy → Asy) : (s.modUnit u f).chargeLast = s.chargeLast := rfl
@[simp] theorem ports_modUnit (u : Nat) (f : Asy → Asy) : (s.modUnit u f).ports = s.ports := rfl
@[simp] theorem afe_modUnit (u : Nat) (f : Asy → Asy) : (s.modUnit u f).afe = s.afe := rfl
@[simp] theorem afeCh_modUnit (u : Nat) (f : Asy → Asy) : (s.modUnit u f).afeCh = s.afeCh := rfl
@[simp] theorem stp_modUnit (u : Nat) (f : Asy → Asy) : (s.modUnit u f).stp = s.stp := rfl
@[simp] theorem lines_modUnit (u : Nat) (f : Asy → Asy) : (s.modUnit u f).lines = s.lines := rfl
@[simp] theorem icalRun_modUnit (u : Nat) (f : Asy → Asy) : (s.modUnit u f).icalRun = s.icalRun := rfl
@[simp] theorem rck_modUnit (u : Nat) (f : Asy → Asy) : (s.modUnit u f).rck = s.rck := rfl
@[simp] theorem sxt_modUnit (u : Nat) (f : Asy → Asy) : (s.modUnit u f).sxt = s.sxt := rfl
@[simp] theorem rsm_modUnit (u : Nat) (f : Asy → Asy) : (s.modUnit u f).rsm = s.rsm := rfl
@[simp] theorem asyLast_modUnit (u : Nat) (f : Asy → Asy) : (s.modUnit u f).asyLast = s.asyLast := rfl
@[simp] theorem rose_modUnit (u : Nat) (f : Asy → Asy) : (s.modUnit u f).rose = s.rose := rfl
@[simp] theorem lanes_modUnit (u : Nat) (f : Asy → Asy) : (s.modUnit u f).lanes = s.lanes := rfl
@[simp] theorem closed_modUnit (u : Nat) (f : Asy → Asy) : (s.modUnit u f).closed = s.closed := rfl
@[simp] theorem evicts_modUnit (u : Nat) (f : Asy → Asy) : (s.modUnit u f).evicts = s.evicts := rfl
@[simp] theorem hallmark_modUnit (u : Nat) (f : Asy → Asy) : (s.modUnit u f).hallmark = s.hallmark := rfl
@[simp] theorem routes_modUnit (u : Nat) (f : Asy → Asy) : (s.modUnit u f).routes = s.routes := rfl
@[simp] theorem tens_modUnit (u : Nat) (f : Asy → Asy) : (s.modUnit u f).tens = s.tens := rfl
@[simp] theorem stw_modUnit (u : Nat) (f : Asy → Asy) : (s.modUnit u f).stw = s.stw := rfl
@[simp] theorem nv_modUnit (u : Nat) (f : Asy → Asy) : (s.modUnit u f).nv = s.nv := rfl
@[simp] theorem tx_modUnit (u : Nat) (f : Asy → Asy) : (s.modUnit u f).tx = s.tx := rfl
@[simp] theorem ptrs_modUnit (u : Nat) (f : Asy → Asy) : (s.modUnit u f).ptrs = s.ptrs := rfl
@[simp] theorem asm_modUnit (u : Nat) (f : Asy → Asy) : (s.modUnit u f).asm = s.asm := rfl
@[simp] theorem env_modUnit (u : Nat) (f : Asy → Asy) : (s.modUnit u f).env = s.env := rfl
@[simp] theorem port_modUnit (u : Nat) (f : Asy → Asy) : (s.modUnit u f).port = s.port := rfl
@[simp] theorem tam_modUnit (u : Nat) (f : Asy → Asy) : (s.modUnit u f).tam = s.tam := rfl
@[simp] theorem log_modUnit (u : Nat) (f : Asy → Asy) : (s.modUnit u f).log = s.log := rfl
@[simp] theorem rdata_modUnit (u : Nat) (f : Asy → Asy) : (s.modUnit u f).rdata = s.rdata := rfl
@[simp] theorem pending_modUnit (u : Nat) (f : Asy → Asy) : (s.modUnit u f).pending = s.pending := rfl
@[simp] theorem reg_modUnit (u : Nat) (f : Asy → Asy) (r : Nat) : (s.modUnit u f).reg r = s.reg r := rfl
@[simp] theorem fld_modUnit (u : Nat) (f : Asy → Asy) (g : Fld) : (s.modUnit u f).fld g = s.fld g := rfl
@[simp] theorem on_modUnit (u : Nat) (f : Asy → Asy) (g : Fld) : (s.modUnit u f).on g = s.on g := rfl

/-! ## modChan -/

theorem stp_modChan (c : Nat) (f : StpCh → StpCh) : (s.modChan c f).stp = mapMod (fun _ => stpCh0) s.stp c f := rfl
@[simp] theorem regs_modChan (c : Nat) (f : StpCh → StpCh) : (s.modChan c f).regs = s.regs := rfl
@[simp] theorem sys_modChan (c : Nat) (f : StpCh → StpCh) : (s.modChan c f).sys = s.sys := rfl
@[simp] theorem rst_modChan (c : Nat) (f : StpCh → StpCh) : (s.modChan c f).rst = s.rst := rfl
@[simp] theorem clk_modChan (c : Nat) (f : StpCh → StpCh) : (s.modChan c f).clk = s.clk := rfl
@[simp] theorem pln_modChan (c : Nat) (f : StpCh → StpCh) : (s.modChan c f).pln = s.pln := rfl
@[simp] theorem locks_modChan (c : Nat) (f : StpCh → StpCh) : (s.modChan c f).locks = s.locks := rfl
@[simp] theorem shadowBad_modChan (c : Nat) (f : StpCh → StpCh) : (s.modChan c f).shadowBad = s.shadowBad := rfl
@[simp] theorem pownBad_modChan (c : Nat) (f : StpCh → StpCh) : (s.modChan c f).pownBad = s.pownBad := rfl
@[simp] theorem sel_modChan (c : Nat) (f : StpCh → StpCh) : (s.modChan c f).sel = s.sel := rfl
@[simp] theorem samp_modChan (c : Nat) (f : StpCh → StpCh) : (s.modChan c f).samp = s.samp := rfl
@[simp] theorem streams_modChan (c : Nat) (f : StpCh → StpCh) : (s.modChan c f).streams = s.streams := rfl
@[simp] theorem queues_modChan (c : Nat) (f : StpCh → StpCh) : (s.modChan c f).queues = s.queues := rfl
@[simp] theorem pendg_modChan (c : Nat) (f : StpCh → StpCh) : (s.modChan c f).pendg = s.pendg := rfl
@[simp] theorem capped_modChan (c : Nat) (f : StpCh → StpCh) : (s.modChan c f).capped = s.capped := rfl
@[simp] theorem loops_modChan (c : Nat) (f : StpCh → StpCh) : (s.modChan c f).loops = s.loops := rfl
@[simp] theorem descs_modChan (c : Nat) (f : StpCh → StpCh) : (s.modChan c f).descs = s.descs := rfl
@[simp] theorem chainDue_modChan (c : Nat) (f : StpCh → StpCh) : (s.modChan c f).chainDue = s.chainDue := rfl
@[simp] theorem charge_modChan (c : Nat) (f : StpCh → StpCh) : (s.modChan c f).charge = s.charge := rfl
@[simp] theorem chargeLast_modChan (c : Nat) (f : StpCh → StpCh) : (s.modChan c f).chargeLast = s.chargeLast := rfl
@[simp] theorem ports_modChan (c : Nat) (f : StpCh → StpCh) : (s.modChan c f).ports = s.ports := rfl
@[simp] theorem afe_modChan (c : Nat) (f : StpCh → StpCh) : (s.modChan c f).afe = s.afe := rfl
@[simp] theorem afeCh_modChan (c : Nat) (f : StpCh → StpCh) : (s.modChan c f).afeCh = s.afeCh := rfl
@[simp] theorem lines_modChan (c : Nat) (f : StpCh → StpCh) : (s.modChan c f).lines = s.lines := rfl
@[simp] theorem icalRun_modChan (c : Nat) (f : StpCh → StpCh) : (s.modChan c f).icalRun = s.icalRun := rfl
@[simp] theorem rck_modChan (c : Nat) (f : StpCh → StpCh) : (s.modChan c f).rck = s.rck := rfl
@[simp] theorem sxt_modChan (c : Nat) (f : StpCh → StpCh) : (s.modChan c f).sxt = s.sxt := rfl
@[simp] theorem rsm_modChan (c : Nat) (f : StpCh → StpCh) : (s.modChan c f).rsm = s.rsm := rfl
@[simp] theorem asy_modChan (c : Nat) (f : StpCh → StpCh) : (s.modChan c f).asy = s.asy := rfl
@[simp] theorem asyLast_modChan (c : Nat) (f : StpCh → StpCh) : (s.modChan c f).asyLast = s.asyLast := rfl
@[simp] theorem rose_modChan (c : Nat) (f : StpCh → StpCh) : (s.modChan c f).rose = s.rose := rfl
@[simp] theorem lanes_modChan (c : Nat) (f : StpCh → StpCh) : (s.modChan c f).lanes = s.lanes := rfl
@[simp] theorem closed_modChan (c : Nat) (f : StpCh → StpCh) : (s.modChan c f).closed = s.closed := rfl
@[simp] theorem evicts_modChan (c : Nat) (f : StpCh → StpCh) : (s.modChan c f).evicts = s.evicts := rfl
@[simp] theorem hallmark_modChan (c : Nat) (f : StpCh → StpCh) : (s.modChan c f).hallmark = s.hallmark := rfl
@[simp] theorem routes_modChan (c : Nat) (f : StpCh → StpCh) : (s.modChan c f).routes = s.routes := rfl
@[simp] theorem tens_modChan (c : Nat) (f : StpCh → StpCh) : (s.modChan c f).tens = s.tens := rfl
@[simp] theorem stw_modChan (c : Nat) (f : StpCh → StpCh) : (s.modChan c f).stw = s.stw := rfl
@[simp] theorem nv_modChan (c : Nat) (f : StpCh → StpCh) : (s.modChan c f).nv = s.nv := rfl
@[simp] theorem tx_modChan (c : Nat) (f : StpCh → StpCh) : (s.modChan c f).tx = s.tx := rfl
@[simp] theorem ptrs_modChan (c : Nat) (f : StpCh → StpCh) : (s.modChan c f).ptrs = s.ptrs := rfl
@[simp] theorem asm_modChan (c : Nat) (f : StpCh → StpCh) : (s.modChan c f).asm = s.asm := rfl
@[simp] theorem env_modChan (c : Nat) (f : StpCh → StpCh) : (s.modChan c f).env = s.env := rfl
@[simp] theorem port_modChan (c : Nat) (f : StpCh → StpCh) : (s.modChan c f).port = s.port := rfl
@[simp] theorem tam_modChan (c : Nat) (f : StpCh → StpCh) : (s.modChan c f).tam = s.tam := rfl
@[simp] theorem log_modChan (c : Nat) (f : StpCh → StpCh) : (s.modChan c f).log = s.log := rfl
@[simp] theorem rdata_modChan (c : Nat) (f : StpCh → StpCh) : (s.modChan c f).rdata = s.rdata := rfl
@[simp] theorem pending_modChan (c : Nat) (f : StpCh → StpCh) : (s.modChan c f).pending = s.pending := rfl
@[simp] theorem reg_modChan (c : Nat) (f : StpCh → StpCh) (r : Nat) : (s.modChan c f).reg r = s.reg r := rfl
@[simp] theorem fld_modChan (c : Nat) (f : StpCh → StpCh) (g : Fld) : (s.modChan c f).fld g = s.fld g := rfl
@[simp] theorem on_modChan (c : Nat) (f : StpCh → StpCh) (g : Fld) : (s.modChan c f).on g = s.on g := rfl

/-! ## modRchan -/

theorem rsm_modRchan (c : Nat) (f : Rsm → Rsm) : (s.modRchan c f).rsm = mapMod (fun _ => rsm0) s.rsm c f := rfl
@[simp] theorem regs_modRchan (c : Nat) (f : Rsm → Rsm) : (s.modRchan c f).regs = s.regs := rfl
@[simp] theorem sys_modRchan (c : Nat) (f : Rsm → Rsm) : (s.modRchan c f).sys = s.sys := rfl
@[simp] theorem rst_modRchan (c : Nat) (f : Rsm → Rsm) : (s.modRchan c f).rst = s.rst := rfl
@[simp] theorem clk_modRchan (c : Nat) (f : Rsm → Rsm) : (s.modRchan c f).clk = s.clk := rfl
@[simp] theorem pln_modRchan (c : Nat) (f : Rsm → Rsm) : (s.modRchan c f).pln = s.pln := rfl
@[simp] theorem locks_modRchan (c : Nat) (f : Rsm → Rsm) : (s.modRchan c f).locks = s.locks := rfl
@[simp] theorem shadowBad_modRchan (c : Nat) (f : Rsm → Rsm) : (s.modRchan c f).shadowBad = s.shadowBad := rfl
@[simp] theorem pownBad_modRchan (c : Nat) (f : Rsm → Rsm) : (s.modRchan c f).pownBad = s.pownBad := rfl
@[simp] theorem sel_modRchan (c : Nat) (f : Rsm → Rsm) : (s.modRchan c f).sel = s.sel := rfl
@[simp] theorem samp_modRchan (c : Nat) (f : Rsm → Rsm) : (s.modRchan c f).samp = s.samp := rfl
@[simp] theorem streams_modRchan (c : Nat) (f : Rsm → Rsm) : (s.modRchan c f).streams = s.streams := rfl
@[simp] theorem queues_modRchan (c : Nat) (f : Rsm → Rsm) : (s.modRchan c f).queues = s.queues := rfl
@[simp] theorem pendg_modRchan (c : Nat) (f : Rsm → Rsm) : (s.modRchan c f).pendg = s.pendg := rfl
@[simp] theorem capped_modRchan (c : Nat) (f : Rsm → Rsm) : (s.modRchan c f).capped = s.capped := rfl
@[simp] theorem loops_modRchan (c : Nat) (f : Rsm → Rsm) : (s.modRchan c f).loops = s.loops := rfl
@[simp] theorem descs_modRchan (c : Nat) (f : Rsm → Rsm) : (s.modRchan c f).descs = s.descs := rfl
@[simp] theorem chainDue_modRchan (c : Nat) (f : Rsm → Rsm) : (s.modRchan c f).chainDue = s.chainDue := rfl
@[simp] theorem charge_modRchan (c : Nat) (f : Rsm → Rsm) : (s.modRchan c f).charge = s.charge := rfl
@[simp] theorem chargeLast_modRchan (c : Nat) (f : Rsm → Rsm) : (s.modRchan c f).chargeLast = s.chargeLast := rfl
@[simp] theorem ports_modRchan (c : Nat) (f : Rsm → Rsm) : (s.modRchan c f).ports = s.ports := rfl
@[simp] theorem afe_modRchan (c : Nat) (f : Rsm → Rsm) : (s.modRchan c f).afe = s.afe := rfl
@[simp] theorem afeCh_modRchan (c : Nat) (f : Rsm → Rsm) : (s.modRchan c f).afeCh = s.afeCh := rfl
@[simp] theorem stp_modRchan (c : Nat) (f : Rsm → Rsm) : (s.modRchan c f).stp = s.stp := rfl
@[simp] theorem lines_modRchan (c : Nat) (f : Rsm → Rsm) : (s.modRchan c f).lines = s.lines := rfl
@[simp] theorem icalRun_modRchan (c : Nat) (f : Rsm → Rsm) : (s.modRchan c f).icalRun = s.icalRun := rfl
@[simp] theorem rck_modRchan (c : Nat) (f : Rsm → Rsm) : (s.modRchan c f).rck = s.rck := rfl
@[simp] theorem sxt_modRchan (c : Nat) (f : Rsm → Rsm) : (s.modRchan c f).sxt = s.sxt := rfl
@[simp] theorem asy_modRchan (c : Nat) (f : Rsm → Rsm) : (s.modRchan c f).asy = s.asy := rfl
@[simp] theorem asyLast_modRchan (c : Nat) (f : Rsm → Rsm) : (s.modRchan c f).asyLast = s.asyLast := rfl
@[simp] theorem rose_modRchan (c : Nat) (f : Rsm → Rsm) : (s.modRchan c f).rose = s.rose := rfl
@[simp] theorem lanes_modRchan (c : Nat) (f : Rsm → Rsm) : (s.modRchan c f).lanes = s.lanes := rfl
@[simp] theorem closed_modRchan (c : Nat) (f : Rsm → Rsm) : (s.modRchan c f).closed = s.closed := rfl
@[simp] theorem evicts_modRchan (c : Nat) (f : Rsm → Rsm) : (s.modRchan c f).evicts = s.evicts := rfl
@[simp] theorem hallmark_modRchan (c : Nat) (f : Rsm → Rsm) : (s.modRchan c f).hallmark = s.hallmark := rfl
@[simp] theorem routes_modRchan (c : Nat) (f : Rsm → Rsm) : (s.modRchan c f).routes = s.routes := rfl
@[simp] theorem tens_modRchan (c : Nat) (f : Rsm → Rsm) : (s.modRchan c f).tens = s.tens := rfl
@[simp] theorem stw_modRchan (c : Nat) (f : Rsm → Rsm) : (s.modRchan c f).stw = s.stw := rfl
@[simp] theorem nv_modRchan (c : Nat) (f : Rsm → Rsm) : (s.modRchan c f).nv = s.nv := rfl
@[simp] theorem tx_modRchan (c : Nat) (f : Rsm → Rsm) : (s.modRchan c f).tx = s.tx := rfl
@[simp] theorem ptrs_modRchan (c : Nat) (f : Rsm → Rsm) : (s.modRchan c f).ptrs = s.ptrs := rfl
@[simp] theorem asm_modRchan (c : Nat) (f : Rsm → Rsm) : (s.modRchan c f).asm = s.asm := rfl
@[simp] theorem env_modRchan (c : Nat) (f : Rsm → Rsm) : (s.modRchan c f).env = s.env := rfl
@[simp] theorem port_modRchan (c : Nat) (f : Rsm → Rsm) : (s.modRchan c f).port = s.port := rfl
@[simp] theorem tam_modRchan (c : Nat) (f : Rsm → Rsm) : (s.modRchan c f).tam = s.tam := rfl
@[simp] theorem log_modRchan (c : Nat) (f : Rsm → Rsm) : (s.modRchan c f).log = s.log := rfl
@[simp] theorem rdata_modRchan (c : Nat) (f : Rsm → Rsm) : (s.modRchan c f).rdata = s.rdata := rfl
@[simp] theorem pending_modRchan (c : Nat) (f : Rsm → Rsm) : (s.modRchan c f).pending = s.pending := rfl
@[simp] theorem reg_modRchan (c : Nat) (f : Rsm → Rsm) (r : Nat) : (s.modRchan c f).reg r = s.reg r := rfl
@[simp] theorem fld_modRchan (c : Nat) (f : Rsm → Rsm) (g : Fld) : (s.modRchan c f).fld g = s.fld g := rfl
@[simp] theorem on_modRchan (c : Nat) (f : Rsm → Rsm) (g : Fld) : (s.modRchan c f).on g = s.on g := rfl

/-! ## modAch -/

theorem afeCh_modAch (c : Nat) (f : AfeCh → AfeCh) : (s.modAch c f).afeCh = mapMod (fun _ => afeCh0) s.afeCh c f := rfl
@[simp] theorem regs_modAch (c : Nat) (f : AfeCh → AfeCh) : (s.modAch c f).regs = s.regs := rfl
@[simp] theorem sys_modAch (c : Nat) (f : AfeCh → AfeCh) : (s.modAch c f).sys = s.sys := rfl
@[simp] theorem rst_modAch (c : Nat) (f : AfeCh → AfeCh) : (s.modAch c f).rst = s.rst := rfl
@[simp] theorem clk_modAch (c : Nat) (f : AfeCh → AfeCh) : (s.modAch c f).clk = s.clk := rfl
@[simp] theorem pln_modAch (c : Nat) (f : AfeCh → AfeCh) : (s.modAch c f).pln = s.pln := rfl
@[simp] theorem locks_modAch (c : Nat) (f : AfeCh → AfeCh) : (s.modAch c f).locks = s.locks := rfl
@[simp] theorem shadowBad_modAch (c : Nat) (f : AfeCh → AfeCh) : (s.modAch c f).shadowBad = s.shadowBad := rfl
@[simp] theorem pownBad_modAch (c : Nat) (f : AfeCh → AfeCh) : (s.modAch c f).pownBad = s.pownBad := rfl
@[simp] theorem sel_modAch (c : Nat) (f : AfeCh → AfeCh) : (s.modAch c f).sel = s.sel := rfl
@[simp] theorem samp_modAch (c : Nat) (f : AfeCh → AfeCh) : (s.modAch c f).samp = s.samp := rfl
@[simp] theorem streams_modAch (c : Nat) (f : AfeCh → AfeCh) : (s.modAch c f).streams = s.streams := rfl
@[simp] theorem queues_modAch (c : Nat) (f : AfeCh → AfeCh) : (s.modAch c f).queues = s.queues := rfl
@[simp] theorem pendg_modAch (c : Nat) (f : AfeCh → AfeCh) : (s.modAch c f).pendg = s.pendg := rfl
@[simp] theorem capped_modAch (c : Nat) (f : AfeCh → AfeCh) : (s.modAch c f).capped = s.capped := rfl
@[simp] theorem loops_modAch (c : Nat) (f : AfeCh → AfeCh) : (s.modAch c f).loops = s.loops := rfl
@[simp] theorem descs_modAch (c : Nat) (f : AfeCh → AfeCh) : (s.modAch c f).descs = s.descs := rfl
@[simp] theorem chainDue_modAch (c : Nat) (f : AfeCh → AfeCh) : (s.modAch c f).chainDue = s.chainDue := rfl
@[simp] theorem charge_modAch (c : Nat) (f : AfeCh → AfeCh) : (s.modAch c f).charge = s.charge := rfl
@[simp] theorem chargeLast_modAch (c : Nat) (f : AfeCh → AfeCh) : (s.modAch c f).chargeLast = s.chargeLast := rfl
@[simp] theorem ports_modAch (c : Nat) (f : AfeCh → AfeCh) : (s.modAch c f).ports = s.ports := rfl
@[simp] theorem afe_modAch (c : Nat) (f : AfeCh → AfeCh) : (s.modAch c f).afe = s.afe := rfl
@[simp] theorem stp_modAch (c : Nat) (f : AfeCh → AfeCh) : (s.modAch c f).stp = s.stp := rfl
@[simp] theorem lines_modAch (c : Nat) (f : AfeCh → AfeCh) : (s.modAch c f).lines = s.lines := rfl
@[simp] theorem icalRun_modAch (c : Nat) (f : AfeCh → AfeCh) : (s.modAch c f).icalRun = s.icalRun := rfl
@[simp] theorem rck_modAch (c : Nat) (f : AfeCh → AfeCh) : (s.modAch c f).rck = s.rck := rfl
@[simp] theorem sxt_modAch (c : Nat) (f : AfeCh → AfeCh) : (s.modAch c f).sxt = s.sxt := rfl
@[simp] theorem rsm_modAch (c : Nat) (f : AfeCh → AfeCh) : (s.modAch c f).rsm = s.rsm := rfl
@[simp] theorem asy_modAch (c : Nat) (f : AfeCh → AfeCh) : (s.modAch c f).asy = s.asy := rfl
@[simp] theorem asyLast_modAch (c : Nat) (f : AfeCh → AfeCh) : (s.modAch c f).asyLast = s.asyLast := rfl
@[simp] theorem rose_modAch (c : Nat) (f : AfeCh → AfeCh) : (s.modAch c f).rose = s.rose := rfl
@[simp] theorem lanes_modAch (c : Nat) (f : AfeCh → AfeCh) : (s.modAch c f).lanes = s.lanes := rfl
@[simp] theorem closed_modAch (c : Nat) (f : AfeCh → AfeCh) : (s.modAch c f).closed = s.closed := rfl
@[simp] theorem evicts_modAch (c : Nat) (f : AfeCh → AfeCh) : (s.modAch c f).evicts = s.evicts := rfl
@[simp] theorem hallmark_modAch (c : Nat) (f : AfeCh → AfeCh) : (s.modAch c f).hallmark = s.hallmark := rfl
@[simp] theorem routes_modAch (c : Nat) (f : AfeCh → AfeCh) : (s.modAch c f).routes = s.routes := rfl
@[simp] theorem tens_modAch (c : Nat) (f : AfeCh → AfeCh) : (s.modAch c f).tens = s.tens := rfl
@[simp] theorem stw_modAch (c : Nat) (f : AfeCh → AfeCh) : (s.modAch c f).stw = s.stw := rfl
@[simp] theorem nv_modAch (c : Nat) (f : AfeCh → AfeCh) : (s.modAch c f).nv = s.nv := rfl
@[simp] theorem tx_modAch (c : Nat) (f : AfeCh → AfeCh) : (s.modAch c f).tx = s.tx := rfl
@[simp] theorem ptrs_modAch (c : Nat) (f : AfeCh → AfeCh) : (s.modAch c f).ptrs = s.ptrs := rfl
@[simp] theorem asm_modAch (c : Nat) (f : AfeCh → AfeCh) : (s.modAch c f).asm = s.asm := rfl
@[simp] theorem env_modAch (c : Nat) (f : AfeCh → AfeCh) : (s.modAch c f).env = s.env := rfl
@[simp] theorem port_modAch (c : Nat) (f : AfeCh → AfeCh) : (s.modAch c f).port = s.port := rfl
@[simp] theorem tam_modAch (c : Nat) (f : AfeCh → AfeCh) : (s.modAch c f).tam = s.tam := rfl
@[simp] theorem log_modAch (c : Nat) (f : AfeCh → AfeCh) : (s.modAch c f).log = s.log := rfl
@[simp] theorem rdata_modAch (c : Nat) (f : AfeCh → AfeCh) : (s.modAch c f).rdata = s.rdata := rfl
@[simp] theorem pending_modAch (c : Nat) (f : AfeCh → AfeCh) : (s.modAch c f).pending = s.pending := rfl
@[simp] theorem reg_modAch (c : Nat) (f : AfeCh → AfeCh) (r : Nat) : (s.modAch c f).reg r = s.reg r := rfl
@[simp] theorem fld_modAch (c : Nat) (f : AfeCh → AfeCh) (g : Fld) : (s.modAch c f).fld g = s.fld g := rfl
@[simp] theorem on_modAch (c : Nat) (f : AfeCh → AfeCh) (g : Fld) : (s.modAch c f).on g = s.on g := rfl

/-! ## modLane -/

theorem lanes_modLane (l : Nat) (f : Lane → Lane) : (s.modLane l f).lanes = mapMod (fun _ => lane0) s.lanes l f := rfl
@[simp] theorem regs_modLane (l : Nat) (f : Lane → Lane) : (s.modLane l f).regs = s.regs := rfl
@[simp] theorem sys_modLane (l : Nat) (f : Lane → Lane) : (s.modLane l f).sys = s.sys := rfl
@[simp] theorem rst_modLane (l : Nat) (f : Lane → Lane) : (s.modLane l f).rst = s.rst := rfl
@[simp] theorem clk_modLane (l : Nat) (f : Lane → Lane) : (s.modLane l f).clk = s.clk := rfl
@[simp] theorem pln_modLane (l : Nat) (f : Lane → Lane) : (s.modLane l f).pln = s.pln := rfl
@[simp] theorem locks_modLane (l : Nat) (f : Lane → Lane) : (s.modLane l f).locks = s.locks := rfl
@[simp] theorem shadowBad_modLane (l : Nat) (f : Lane → Lane) : (s.modLane l f).shadowBad = s.shadowBad := rfl
@[simp] theorem pownBad_modLane (l : Nat) (f : Lane → Lane) : (s.modLane l f).pownBad = s.pownBad := rfl
@[simp] theorem sel_modLane (l : Nat) (f : Lane → Lane) : (s.modLane l f).sel = s.sel := rfl
@[simp] theorem samp_modLane (l : Nat) (f : Lane → Lane) : (s.modLane l f).samp = s.samp := rfl
@[simp] theorem streams_modLane (l : Nat) (f : Lane → Lane) : (s.modLane l f).streams = s.streams := rfl
@[simp] theorem queues_modLane (l : Nat) (f : Lane → Lane) : (s.modLane l f).queues = s.queues := rfl
@[simp] theorem pendg_modLane (l : Nat) (f : Lane → Lane) : (s.modLane l f).pendg = s.pendg := rfl
@[simp] theorem capped_modLane (l : Nat) (f : Lane → Lane) : (s.modLane l f).capped = s.capped := rfl
@[simp] theorem loops_modLane (l : Nat) (f : Lane → Lane) : (s.modLane l f).loops = s.loops := rfl
@[simp] theorem descs_modLane (l : Nat) (f : Lane → Lane) : (s.modLane l f).descs = s.descs := rfl
@[simp] theorem chainDue_modLane (l : Nat) (f : Lane → Lane) : (s.modLane l f).chainDue = s.chainDue := rfl
@[simp] theorem charge_modLane (l : Nat) (f : Lane → Lane) : (s.modLane l f).charge = s.charge := rfl
@[simp] theorem chargeLast_modLane (l : Nat) (f : Lane → Lane) : (s.modLane l f).chargeLast = s.chargeLast := rfl
@[simp] theorem ports_modLane (l : Nat) (f : Lane → Lane) : (s.modLane l f).ports = s.ports := rfl
@[simp] theorem afe_modLane (l : Nat) (f : Lane → Lane) : (s.modLane l f).afe = s.afe := rfl
@[simp] theorem afeCh_modLane (l : Nat) (f : Lane → Lane) : (s.modLane l f).afeCh = s.afeCh := rfl
@[simp] theorem stp_modLane (l : Nat) (f : Lane → Lane) : (s.modLane l f).stp = s.stp := rfl
@[simp] theorem lines_modLane (l : Nat) (f : Lane → Lane) : (s.modLane l f).lines = s.lines := rfl
@[simp] theorem icalRun_modLane (l : Nat) (f : Lane → Lane) : (s.modLane l f).icalRun = s.icalRun := rfl
@[simp] theorem rck_modLane (l : Nat) (f : Lane → Lane) : (s.modLane l f).rck = s.rck := rfl
@[simp] theorem sxt_modLane (l : Nat) (f : Lane → Lane) : (s.modLane l f).sxt = s.sxt := rfl
@[simp] theorem rsm_modLane (l : Nat) (f : Lane → Lane) : (s.modLane l f).rsm = s.rsm := rfl
@[simp] theorem asy_modLane (l : Nat) (f : Lane → Lane) : (s.modLane l f).asy = s.asy := rfl
@[simp] theorem asyLast_modLane (l : Nat) (f : Lane → Lane) : (s.modLane l f).asyLast = s.asyLast := rfl
@[simp] theorem rose_modLane (l : Nat) (f : Lane → Lane) : (s.modLane l f).rose = s.rose := rfl
@[simp] theorem closed_modLane (l : Nat) (f : Lane → Lane) : (s.modLane l f).closed = s.closed := rfl
@[simp] theorem evicts_modLane (l : Nat) (f : Lane → Lane) : (s.modLane l f).evicts = s.evicts := rfl
@[simp] theorem hallmark_modLane (l : Nat) (f : Lane → Lane) : (s.modLane l f).hallmark = s.hallmark := rfl
@[simp] theorem routes_modLane (l : Nat) (f : Lane → Lane) : (s.modLane l f).routes = s.routes := rfl
@[simp] theorem tens_modLane (l : Nat) (f : Lane → Lane) : (s.modLane l f).tens = s.tens := rfl
@[simp] theorem stw_modLane (l : Nat) (f : Lane → Lane) : (s.modLane l f).stw = s.stw := rfl
@[simp] theorem nv_modLane (l : Nat) (f : Lane → Lane) : (s.modLane l f).nv = s.nv := rfl
@[simp] theorem tx_modLane (l : Nat) (f : Lane → Lane) : (s.modLane l f).tx = s.tx := rfl
@[simp] theorem ptrs_modLane (l : Nat) (f : Lane → Lane) : (s.modLane l f).ptrs = s.ptrs := rfl
@[simp] theorem asm_modLane (l : Nat) (f : Lane → Lane) : (s.modLane l f).asm = s.asm := rfl
@[simp] theorem env_modLane (l : Nat) (f : Lane → Lane) : (s.modLane l f).env = s.env := rfl
@[simp] theorem port_modLane (l : Nat) (f : Lane → Lane) : (s.modLane l f).port = s.port := rfl
@[simp] theorem tam_modLane (l : Nat) (f : Lane → Lane) : (s.modLane l f).tam = s.tam := rfl
@[simp] theorem log_modLane (l : Nat) (f : Lane → Lane) : (s.modLane l f).log = s.log := rfl
@[simp] theorem rdata_modLane (l : Nat) (f : Lane → Lane) : (s.modLane l f).rdata = s.rdata := rfl
@[simp] theorem pending_modLane (l : Nat) (f : Lane → Lane) : (s.modLane l f).pending = s.pending := rfl
@[simp] theorem reg_modLane (l : Nat) (f : Lane → Lane) (r : Nat) : (s.modLane l f).reg r = s.reg r := rfl
@[simp] theorem fld_modLane (l : Nat) (f : Lane → Lane) (g : Fld) : (s.modLane l f).fld g = s.fld g := rfl
@[simp] theorem on_modLane (l : Nat) (f : Lane → Lane) (g : Fld) : (s.modLane l f).on g = s.on g := rfl

/-! ## setClosed -/

theorem closed_setClosed (l : Nat) (b : List Bundle) : (s.setClosed l b).closed = mapSet (fun _ => []) s.closed l b := rfl
@[simp] theorem regs_setClosed (l : Nat) (b : List Bundle) : (s.setClosed l b).regs = s.regs := rfl
@[simp] theorem sys_setClosed (l : Nat) (b : List Bundle) : (s.setClosed l b).sys = s.sys := rfl
@[simp] theorem rst_setClosed (l : Nat) (b : List Bundle) : (s.setClosed l b).rst = s.rst := rfl
@[simp] theorem clk_setClosed (l : Nat) (b : List Bundle) : (s.setClosed l b).clk = s.clk := rfl
@[simp] theorem pln_setClosed (l : Nat) (b : List Bundle) : (s.setClosed l b).pln = s.pln := rfl
@[simp] theorem locks_setClosed (l : Nat) (b : List Bundle) : (s.setClosed l b).locks = s.locks := rfl
@[simp] theorem shadowBad_setClosed (l : Nat) (b : List Bundle) : (s.setClosed l b).shadowBad = s.shadowBad := rfl
@[simp] theorem pownBad_setClosed (l : Nat) (b : List Bundle) : (s.setClosed l b).pownBad = s.pownBad := rfl
@[simp] theorem sel_setClosed (l : Nat) (b : List Bundle) : (s.setClosed l b).sel = s.sel := rfl
@[simp] theorem samp_setClosed (l : Nat) (b : List Bundle) : (s.setClosed l b).samp = s.samp := rfl
@[simp] theorem streams_setClosed (l : Nat) (b : List Bundle) : (s.setClosed l b).streams = s.streams := rfl
@[simp] theorem queues_setClosed (l : Nat) (b : List Bundle) : (s.setClosed l b).queues = s.queues := rfl
@[simp] theorem pendg_setClosed (l : Nat) (b : List Bundle) : (s.setClosed l b).pendg = s.pendg := rfl
@[simp] theorem capped_setClosed (l : Nat) (b : List Bundle) : (s.setClosed l b).capped = s.capped := rfl
@[simp] theorem loops_setClosed (l : Nat) (b : List Bundle) : (s.setClosed l b).loops = s.loops := rfl
@[simp] theorem descs_setClosed (l : Nat) (b : List Bundle) : (s.setClosed l b).descs = s.descs := rfl
@[simp] theorem chainDue_setClosed (l : Nat) (b : List Bundle) : (s.setClosed l b).chainDue = s.chainDue := rfl
@[simp] theorem charge_setClosed (l : Nat) (b : List Bundle) : (s.setClosed l b).charge = s.charge := rfl
@[simp] theorem chargeLast_setClosed (l : Nat) (b : List Bundle) : (s.setClosed l b).chargeLast = s.chargeLast := rfl
@[simp] theorem ports_setClosed (l : Nat) (b : List Bundle) : (s.setClosed l b).ports = s.ports := rfl
@[simp] theorem afe_setClosed (l : Nat) (b : List Bundle) : (s.setClosed l b).afe = s.afe := rfl
@[simp] theorem afeCh_setClosed (l : Nat) (b : List Bundle) : (s.setClosed l b).afeCh = s.afeCh := rfl
@[simp] theorem stp_setClosed (l : Nat) (b : List Bundle) : (s.setClosed l b).stp = s.stp := rfl
@[simp] theorem lines_setClosed (l : Nat) (b : List Bundle) : (s.setClosed l b).lines = s.lines := rfl
@[simp] theorem icalRun_setClosed (l : Nat) (b : List Bundle) : (s.setClosed l b).icalRun = s.icalRun := rfl
@[simp] theorem rck_setClosed (l : Nat) (b : List Bundle) : (s.setClosed l b).rck = s.rck := rfl
@[simp] theorem sxt_setClosed (l : Nat) (b : List Bundle) : (s.setClosed l b).sxt = s.sxt := rfl
@[simp] theorem rsm_setClosed (l : Nat) (b : List Bundle) : (s.setClosed l b).rsm = s.rsm := rfl
@[simp] theorem asy_setClosed (l : Nat) (b : List Bundle) : (s.setClosed l b).asy = s.asy := rfl
@[simp] theorem asyLast_setClosed (l : Nat) (b : List Bundle) : (s.setClosed l b).asyLast = s.asyLast := rfl
@[simp] theorem rose_setClosed (l : Nat) (b : List Bundle) : (s.setClosed l b).rose = s.rose := rfl
@[simp] theorem lanes_setClosed (l : Nat) (b : List Bundle) : (s.setClosed l b).lanes = s.lanes := rfl
@[simp] theorem evicts_setClosed (l : Nat) (b : List Bundle) : (s.setClosed l b).evicts = s.evicts := rfl
@[simp] theorem hallmark_setClosed (l : Nat) (b : List Bundle) : (s.setClosed l b).hallmark = s.hallmark := rfl
@[simp] theorem routes_setClosed (l : Nat) (b : List Bundle) : (s.setClosed l b).routes = s.routes := rfl
@[simp] theorem tens_setClosed (l : Nat) (b : List Bundle) : (s.setClosed l b).tens = s.tens := rfl
@[simp] theorem stw_setClosed (l : Nat) (b : List Bundle) : (s.setClosed l b).stw = s.stw := rfl
@[simp] theorem nv_setClosed (l : Nat) (b : List Bundle) : (s.setClosed l b).nv = s.nv := rfl
@[simp] theorem tx_setClosed (l : Nat) (b : List Bundle) : (s.setClosed l b).tx = s.tx := rfl
@[simp] theorem ptrs_setClosed (l : Nat) (b : List Bundle) : (s.setClosed l b).ptrs = s.ptrs := rfl
@[simp] theorem asm_setClosed (l : Nat) (b : List Bundle) : (s.setClosed l b).asm = s.asm := rfl
@[simp] theorem env_setClosed (l : Nat) (b : List Bundle) : (s.setClosed l b).env = s.env := rfl
@[simp] theorem port_setClosed (l : Nat) (b : List Bundle) : (s.setClosed l b).port = s.port := rfl
@[simp] theorem tam_setClosed (l : Nat) (b : List Bundle) : (s.setClosed l b).tam = s.tam := rfl
@[simp] theorem log_setClosed (l : Nat) (b : List Bundle) : (s.setClosed l b).log = s.log := rfl
@[simp] theorem rdata_setClosed (l : Nat) (b : List Bundle) : (s.setClosed l b).rdata = s.rdata := rfl
@[simp] theorem pending_setClosed (l : Nat) (b : List Bundle) : (s.setClosed l b).pending = s.pending := rfl
@[simp] theorem reg_setClosed (l : Nat) (b : List Bundle) (r : Nat) : (s.setClosed l b).reg r = s.reg r := rfl
@[simp] theorem fld_setClosed (l : Nat) (b : List Bundle) (g : Fld) : (s.setClosed l b).fld g = s.fld g := rfl
@[simp] theorem on_setClosed (l : Nat) (b : List Bundle) (g : Fld) : (s.setClosed l b).on g = s.on g := rfl

/-! ## setLock -/

theorem locks_setLock (k : Nat) (l : Lock) : (s.setLock k l).locks = mapSet (fun _ => lock0) s.locks k l := rfl
@[simp] theorem regs_setLock (k : Nat) (l : Lock) : (s.setLock k l).regs = s.regs := rfl
@[simp] theorem sys_setLock (k : Nat) (l : Lock) : (s.setLock k l).sys = s.sys := rfl
@[simp] theorem rst_setLock (k : Nat) (l : Lock) : (s.setLock k l).rst = s.rst := rfl
@[simp] theorem clk_setLock (k : Nat) (l : Lock) : (s.setLock k l).clk = s.clk := rfl
@[simp] theorem pln_setLock (k : Nat) (l : Lock) : (s.setLock k l).pln = s.pln := rfl
@[simp] theorem shadowBad_setLock (k : Nat) (l : Lock) : (s.setLock k l).shadowBad = s.shadowBad := rfl
@[simp] theorem pownBad_setLock (k : Nat) (l : Lock) : (s.setLock k l).pownBad = s.pownBad := rfl
@[simp] theorem sel_setLock (k : Nat) (l : Lock) : (s.setLock k l).sel = s.sel := rfl
@[simp] theorem samp_setLock (k : Nat) (l : Lock) : (s.setLock k l).samp = s.samp := rfl
@[simp] theorem streams_setLock (k : Nat) (l : Lock) : (s.setLock k l).streams = s.streams := rfl
@[simp] theorem queues_setLock (k : Nat) (l : Lock) : (s.setLock k l).queues = s.queues := rfl
@[simp] theorem pendg_setLock (k : Nat) (l : Lock) : (s.setLock k l).pendg = s.pendg := rfl
@[simp] theorem capped_setLock (k : Nat) (l : Lock) : (s.setLock k l).capped = s.capped := rfl
@[simp] theorem loops_setLock (k : Nat) (l : Lock) : (s.setLock k l).loops = s.loops := rfl
@[simp] theorem descs_setLock (k : Nat) (l : Lock) : (s.setLock k l).descs = s.descs := rfl
@[simp] theorem chainDue_setLock (k : Nat) (l : Lock) : (s.setLock k l).chainDue = s.chainDue := rfl
@[simp] theorem charge_setLock (k : Nat) (l : Lock) : (s.setLock k l).charge = s.charge := rfl
@[simp] theorem chargeLast_setLock (k : Nat) (l : Lock) : (s.setLock k l).chargeLast = s.chargeLast := rfl
@[simp] theorem ports_setLock (k : Nat) (l : Lock) : (s.setLock k l).ports = s.ports := rfl
@[simp] theorem afe_setLock (k : Nat) (l : Lock) : (s.setLock k l).afe = s.afe := rfl
@[simp] theorem afeCh_setLock (k : Nat) (l : Lock) : (s.setLock k l).afeCh = s.afeCh := rfl
@[simp] theorem stp_setLock (k : Nat) (l : Lock) : (s.setLock k l).stp = s.stp := rfl
@[simp] theorem lines_setLock (k : Nat) (l : Lock) : (s.setLock k l).lines = s.lines := rfl
@[simp] theorem icalRun_setLock (k : Nat) (l : Lock) : (s.setLock k l).icalRun = s.icalRun := rfl
@[simp] theorem rck_setLock (k : Nat) (l : Lock) : (s.setLock k l).rck = s.rck := rfl
@[simp] theorem sxt_setLock (k : Nat) (l : Lock) : (s.setLock k l).sxt = s.sxt := rfl
@[simp] theorem rsm_setLock (k : Nat) (l : Lock) : (s.setLock k l).rsm = s.rsm := rfl
@[simp] theorem asy_setLock (k : Nat) (l : Lock) : (s.setLock k l).asy = s.asy := rfl
@[simp] theorem asyLast_setLock (k : Nat) (l : Lock) : (s.setLock k l).asyLast = s.asyLast := rfl
@[simp] theorem rose_setLock (k : Nat) (l : Lock) : (s.setLock k l).rose = s.rose := rfl
@[simp] theorem lanes_setLock (k : Nat) (l : Lock) : (s.setLock k l).lanes = s.lanes := rfl
@[simp] theorem closed_setLock (k : Nat) (l : Lock) : (s.setLock k l).closed = s.closed := rfl
@[simp] theorem evicts_setLock (k : Nat) (l : Lock) : (s.setLock k l).evicts = s.evicts := rfl
@[simp] theorem hallmark_setLock (k : Nat) (l : Lock) : (s.setLock k l).hallmark = s.hallmark := rfl
@[simp] theorem routes_setLock (k : Nat) (l : Lock) : (s.setLock k l).routes = s.routes := rfl
@[simp] theorem tens_setLock (k : Nat) (l : Lock) : (s.setLock k l).tens = s.tens := rfl
@[simp] theorem stw_setLock (k : Nat) (l : Lock) : (s.setLock k l).stw = s.stw := rfl
@[simp] theorem nv_setLock (k : Nat) (l : Lock) : (s.setLock k l).nv = s.nv := rfl
@[simp] theorem tx_setLock (k : Nat) (l : Lock) : (s.setLock k l).tx = s.tx := rfl
@[simp] theorem ptrs_setLock (k : Nat) (l : Lock) : (s.setLock k l).ptrs = s.ptrs := rfl
@[simp] theorem asm_setLock (k : Nat) (l : Lock) : (s.setLock k l).asm = s.asm := rfl
@[simp] theorem env_setLock (k : Nat) (l : Lock) : (s.setLock k l).env = s.env := rfl
@[simp] theorem port_setLock (k : Nat) (l : Lock) : (s.setLock k l).port = s.port := rfl
@[simp] theorem tam_setLock (k : Nat) (l : Lock) : (s.setLock k l).tam = s.tam := rfl
@[simp] theorem log_setLock (k : Nat) (l : Lock) : (s.setLock k l).log = s.log := rfl
@[simp] theorem rdata_setLock (k : Nat) (l : Lock) : (s.setLock k l).rdata = s.rdata := rfl
@[simp] theorem pending_setLock (k : Nat) (l : Lock) : (s.setLock k l).pending = s.pending := rfl
@[simp] theorem reg_setLock (k : Nat) (l : Lock) (r : Nat) : (s.setLock k l).reg r = s.reg r := rfl
@[simp] theorem fld_setLock (k : Nat) (l : Lock) (g : Fld) : (s.setLock k l).fld g = s.fld g := rfl
@[simp] theorem on_setLock (k : Nat) (l : Lock) (g : Fld) : (s.setLock k l).on g = s.on g := rfl

/-! ## setTx -/

theorem tx_setTx (p : Nat) (t : Option Tx) : (s.setTx p t).tx = mapSet (fun _ => none) s.tx p t := rfl
@[simp] theorem regs_setTx (p : Nat) (t : Option Tx) : (s.setTx p t).regs = s.regs := rfl
@[simp] theorem sys_setTx (p : Nat) (t : Option Tx) : (s.setTx p t).sys = s.sys := rfl
@[simp] theorem rst_setTx (p : Nat) (t : Option Tx) : (s.setTx p t).rst = s.rst := rfl
@[simp] theorem clk_setTx (p : Nat) (t : Option Tx) : (s.setTx p t).clk = s.clk := rfl
@[simp] theorem pln_setTx (p : Nat) (t : Option Tx) : (s.setTx p t).pln = s.pln := rfl
@[simp] theorem locks_setTx (p : Nat) (t : Option Tx) : (s.setTx p t).locks = s.locks := rfl
@[simp] theorem shadowBad_setTx (p : Nat) (t : Option Tx) : (s.setTx p t).shadowBad = s.shadowBad := rfl
@[simp] theorem pownBad_setTx (p : Nat) (t : Option Tx) : (s.setTx p t).pownBad = s.pownBad := rfl
@[simp] theorem sel_setTx (p : Nat) (t : Option Tx) : (s.setTx p t).sel = s.sel := rfl
@[simp] theorem samp_setTx (p : Nat) (t : Option Tx) : (s.setTx p t).samp = s.samp := rfl
@[simp] theorem streams_setTx (p : Nat) (t : Option Tx) : (s.setTx p t).streams = s.streams := rfl
@[simp] theorem queues_setTx (p : Nat) (t : Option Tx) : (s.setTx p t).queues = s.queues := rfl
@[simp] theorem pendg_setTx (p : Nat) (t : Option Tx) : (s.setTx p t).pendg = s.pendg := rfl
@[simp] theorem capped_setTx (p : Nat) (t : Option Tx) : (s.setTx p t).capped = s.capped := rfl
@[simp] theorem loops_setTx (p : Nat) (t : Option Tx) : (s.setTx p t).loops = s.loops := rfl
@[simp] theorem descs_setTx (p : Nat) (t : Option Tx) : (s.setTx p t).descs = s.descs := rfl
@[simp] theorem chainDue_setTx (p : Nat) (t : Option Tx) : (s.setTx p t).chainDue = s.chainDue := rfl
@[simp] theorem charge_setTx (p : Nat) (t : Option Tx) : (s.setTx p t).charge = s.charge := rfl
@[simp] theorem chargeLast_setTx (p : Nat) (t : Option Tx) : (s.setTx p t).chargeLast = s.chargeLast := rfl
@[simp] theorem ports_setTx (p : Nat) (t : Option Tx) : (s.setTx p t).ports = s.ports := rfl
@[simp] theorem afe_setTx (p : Nat) (t : Option Tx) : (s.setTx p t).afe = s.afe := rfl
@[simp] theorem afeCh_setTx (p : Nat) (t : Option Tx) : (s.setTx p t).afeCh = s.afeCh := rfl
@[simp] theorem stp_setTx (p : Nat) (t : Option Tx) : (s.setTx p t).stp = s.stp := rfl
@[simp] theorem lines_setTx (p : Nat) (t : Option Tx) : (s.setTx p t).lines = s.lines := rfl
@[simp] theorem icalRun_setTx (p : Nat) (t : Option Tx) : (s.setTx p t).icalRun = s.icalRun := rfl
@[simp] theorem rck_setTx (p : Nat) (t : Option Tx) : (s.setTx p t).rck = s.rck := rfl
@[simp] theorem sxt_setTx (p : Nat) (t : Option Tx) : (s.setTx p t).sxt = s.sxt := rfl
@[simp] theorem rsm_setTx (p : Nat) (t : Option Tx) : (s.setTx p t).rsm = s.rsm := rfl
@[simp] theorem asy_setTx (p : Nat) (t : Option Tx) : (s.setTx p t).asy = s.asy := rfl
@[simp] theorem asyLast_setTx (p : Nat) (t : Option Tx) : (s.setTx p t).asyLast = s.asyLast := rfl
@[simp] theorem rose_setTx (p : Nat) (t : Option Tx) : (s.setTx p t).rose = s.rose := rfl
@[simp] theorem lanes_setTx (p : Nat) (t : Option Tx) : (s.setTx p t).lanes = s.lanes := rfl
@[simp] theorem closed_setTx (p : Nat) (t : Option Tx) : (s.setTx p t).closed = s.closed := rfl
@[simp] theorem evicts_setTx (p : Nat) (t : Option Tx) : (s.setTx p t).evicts = s.evicts := rfl
@[simp] theorem hallmark_setTx (p : Nat) (t : Option Tx) : (s.setTx p t).hallmark = s.hallmark := rfl
@[simp] theorem routes_setTx (p : Nat) (t : Option Tx) : (s.setTx p t).routes = s.routes := rfl
@[simp] theorem tens_setTx (p : Nat) (t : Option Tx) : (s.setTx p t).tens = s.tens := rfl
@[simp] theorem stw_setTx (p : Nat) (t : Option Tx) : (s.setTx p t).stw = s.stw := rfl
@[simp] theorem nv_setTx (p : Nat) (t : Option Tx) : (s.setTx p t).nv = s.nv := rfl
@[simp] theorem ptrs_setTx (p : Nat) (t : Option Tx) : (s.setTx p t).ptrs = s.ptrs := rfl
@[simp] theorem asm_setTx (p : Nat) (t : Option Tx) : (s.setTx p t).asm = s.asm := rfl
@[simp] theorem env_setTx (p : Nat) (t : Option Tx) : (s.setTx p t).env = s.env := rfl
@[simp] theorem port_setTx (p : Nat) (t : Option Tx) : (s.setTx p t).port = s.port := rfl
@[simp] theorem tam_setTx (p : Nat) (t : Option Tx) : (s.setTx p t).tam = s.tam := rfl
@[simp] theorem log_setTx (p : Nat) (t : Option Tx) : (s.setTx p t).log = s.log := rfl
@[simp] theorem rdata_setTx (p : Nat) (t : Option Tx) : (s.setTx p t).rdata = s.rdata := rfl
@[simp] theorem pending_setTx (p : Nat) (t : Option Tx) : (s.setTx p t).pending = s.pending := rfl
@[simp] theorem reg_setTx (p : Nat) (t : Option Tx) (r : Nat) : (s.setTx p t).reg r = s.reg r := rfl
@[simp] theorem fld_setTx (p : Nat) (t : Option Tx) (g : Fld) : (s.setTx p t).fld g = s.fld g := rfl
@[simp] theorem on_setTx (p : Nat) (t : Option Tx) (g : Fld) : (s.setTx p t).on g = s.on g := rfl

/-! ## setAsm -/

theorem asm_setAsm (n : Nat) (a : Assembly) : (s.setAsm n a).asm = mapSet (fun _ => asm0) s.asm n a := rfl
@[simp] theorem regs_setAsm (n : Nat) (a : Assembly) : (s.setAsm n a).regs = s.regs := rfl
@[simp] theorem sys_setAsm (n : Nat) (a : Assembly) : (s.setAsm n a).sys = s.sys := rfl
@[simp] theorem rst_setAsm (n : Nat) (a : Assembly) : (s.setAsm n a).rst = s.rst := rfl
@[simp] theorem clk_setAsm (n : Nat) (a : Assembly) : (s.setAsm n a).clk = s.clk := rfl
@[simp] theorem pln_setAsm (n : Nat) (a : Assembly) : (s.setAsm n a).pln = s.pln := rfl
@[simp] theorem locks_setAsm (n : Nat) (a : Assembly) : (s.setAsm n a).locks = s.locks := rfl
@[simp] theorem shadowBad_setAsm (n : Nat) (a : Assembly) : (s.setAsm n a).shadowBad = s.shadowBad := rfl
@[simp] theorem pownBad_setAsm (n : Nat) (a : Assembly) : (s.setAsm n a).pownBad = s.pownBad := rfl
@[simp] theorem sel_setAsm (n : Nat) (a : Assembly) : (s.setAsm n a).sel = s.sel := rfl
@[simp] theorem samp_setAsm (n : Nat) (a : Assembly) : (s.setAsm n a).samp = s.samp := rfl
@[simp] theorem streams_setAsm (n : Nat) (a : Assembly) : (s.setAsm n a).streams = s.streams := rfl
@[simp] theorem queues_setAsm (n : Nat) (a : Assembly) : (s.setAsm n a).queues = s.queues := rfl
@[simp] theorem pendg_setAsm (n : Nat) (a : Assembly) : (s.setAsm n a).pendg = s.pendg := rfl
@[simp] theorem capped_setAsm (n : Nat) (a : Assembly) : (s.setAsm n a).capped = s.capped := rfl
@[simp] theorem loops_setAsm (n : Nat) (a : Assembly) : (s.setAsm n a).loops = s.loops := rfl
@[simp] theorem descs_setAsm (n : Nat) (a : Assembly) : (s.setAsm n a).descs = s.descs := rfl
@[simp] theorem chainDue_setAsm (n : Nat) (a : Assembly) : (s.setAsm n a).chainDue = s.chainDue := rfl
@[simp] theorem charge_setAsm (n : Nat) (a : Assembly) : (s.setAsm n a).charge = s.charge := rfl
@[simp] theorem chargeLast_setAsm (n : Nat) (a : Assembly) : (s.setAsm n a).chargeLast = s.chargeLast := rfl
@[simp] theorem ports_setAsm (n : Nat) (a : Assembly) : (s.setAsm n a).ports = s.ports := rfl
@[simp] theorem afe_setAsm (n : Nat) (a : Assembly) : (s.setAsm n a).afe = s.afe := rfl
@[simp] theorem afeCh_setAsm (n : Nat) (a : Assembly) : (s.setAsm n a).afeCh = s.afeCh := rfl
@[simp] theorem stp_setAsm (n : Nat) (a : Assembly) : (s.setAsm n a).stp = s.stp := rfl
@[simp] theorem lines_setAsm (n : Nat) (a : Assembly) : (s.setAsm n a).lines = s.lines := rfl
@[simp] theorem icalRun_setAsm (n : Nat) (a : Assembly) : (s.setAsm n a).icalRun = s.icalRun := rfl
@[simp] theorem rck_setAsm (n : Nat) (a : Assembly) : (s.setAsm n a).rck = s.rck := rfl
@[simp] theorem sxt_setAsm (n : Nat) (a : Assembly) : (s.setAsm n a).sxt = s.sxt := rfl
@[simp] theorem rsm_setAsm (n : Nat) (a : Assembly) : (s.setAsm n a).rsm = s.rsm := rfl
@[simp] theorem asy_setAsm (n : Nat) (a : Assembly) : (s.setAsm n a).asy = s.asy := rfl
@[simp] theorem asyLast_setAsm (n : Nat) (a : Assembly) : (s.setAsm n a).asyLast = s.asyLast := rfl
@[simp] theorem rose_setAsm (n : Nat) (a : Assembly) : (s.setAsm n a).rose = s.rose := rfl
@[simp] theorem lanes_setAsm (n : Nat) (a : Assembly) : (s.setAsm n a).lanes = s.lanes := rfl
@[simp] theorem closed_setAsm (n : Nat) (a : Assembly) : (s.setAsm n a).closed = s.closed := rfl
@[simp] theorem evicts_setAsm (n : Nat) (a : Assembly) : (s.setAsm n a).evicts = s.evicts := rfl
@[simp] theorem hallmark_setAsm (n : Nat) (a : Assembly) : (s.setAsm n a).hallmark = s.hallmark := rfl
@[simp] theorem routes_setAsm (n : Nat) (a : Assembly) : (s.setAsm n a).routes = s.routes := rfl
@[simp] theorem tens_setAsm (n : Nat) (a : Assembly) : (s.setAsm n a).tens = s.tens := rfl
@[simp] theorem stw_setAsm (n : Nat) (a : Assembly) : (s.setAsm n a).stw = s.stw := rfl
@[simp] theorem nv_setAsm (n : Nat) (a : Assembly) : (s.setAsm n a).nv = s.nv := rfl
@[simp] theorem tx_setAsm (n : Nat) (a : Assembly) : (s.setAsm n a).tx = s.tx := rfl
@[simp] theorem ptrs_setAsm (n : Nat) (a : Assembly) : (s.setAsm n a).ptrs = s.ptrs := rfl
@[simp] theorem env_setAsm (n : Nat) (a : Assembly) : (s.setAsm n a).env = s.env := rfl
@[simp] theorem port_setAsm (n : Nat) (a : Assembly) : (s.setAsm n a).port = s.port := rfl
@[simp] theorem tam_setAsm (n : Nat) (a : Assembly) : (s.setAsm n a).tam = s.tam := rfl
@[simp] theorem log_setAsm (n : Nat) (a : Assembly) : (s.setAsm n a).log = s.log := rfl
@[simp] theorem rdata_setAsm (n : Nat) (a : Assembly) : (s.setAsm n a).rdata = s.rdata := rfl
@[simp] theorem pending_setAsm (n : Nat) (a : Assembly) : (s.setAsm n a).pending = s.pending := rfl
@[simp] theorem reg_setAsm (n : Nat) (a : Assembly) (r : Nat) : (s.setAsm n a).reg r = s.reg r := rfl
@[simp] theorem fld_setAsm (n : Nat) (a : Assembly) (g : Fld) : (s.setAsm n a).fld g = s.fld g := rfl
@[simp] theorem on_setAsm (n : Nat) (a : Assembly) (g : Fld) : (s.setAsm n a).on g = s.on g := rfl

/-! ## sent -/

theorem port_sent (p : Nat) (bs : List Byte) : (s.sent p bs).port = mapMod (fun _ => []) s.port p (fun l => l ++ bs) := rfl
@[simp] theorem regs_sent (p : Nat) (bs : List Byte) : (s.sent p bs).regs = s.regs := rfl
@[simp] theorem sys_sent (p : Nat) (bs : List Byte) : (s.sent p bs).sys = s.sys := rfl
@[simp] theorem rst_sent (p : Nat) (bs : List Byte) : (s.sent p bs).rst = s.rst := rfl
@[simp] theorem clk_sent (p : Nat) (bs : List Byte) : (s.sent p bs).clk = s.clk := rfl
@[simp] theorem pln_sent (p : Nat) (bs : List Byte) : (s.sent p bs).pln = s.pln := rfl
@[simp] theorem locks_sent (p : Nat) (bs : List Byte) : (s.sent p bs).locks = s.locks := rfl
@[simp] theorem shadowBad_sent (p : Nat) (bs : List Byte) : (s.sent p bs).shadowBad = s.shadowBad := rfl
@[simp] theorem pownBad_sent (p : Nat) (bs : List Byte) : (s.sent p bs).pownBad = s.pownBad := rfl
@[simp] theorem sel_sent (p : Nat) (bs : List Byte) : (s.sent p bs).sel = s.sel := rfl
@[simp] theorem samp_sent (p : Nat) (bs : List Byte) : (s.sent p bs).samp = s.samp := rfl
@[simp] theorem streams_sent (p : Nat) (bs : List Byte) : (s.sent p bs).streams = s.streams := rfl
@[simp] theorem queues_sent (p : Nat) (bs : List Byte) : (s.sent p bs).queues = s.queues := rfl
@[simp] theorem pendg_sent (p : Nat) (bs : List Byte) : (s.sent p bs).pendg = s.pendg := rfl
@[simp] theorem capped_sent (p : Nat) (bs : List Byte) : (s.sent p bs).capped = s.capped := rfl
@[simp] theorem loops_sent (p : Nat) (bs : List Byte) : (s.sent p bs).loops = s.loops := rfl
@[simp] theorem descs_sent (p : Nat) (bs : List Byte) : (s.sent p bs).descs = s.descs := rfl
@[simp] theorem chainDue_sent (p : Nat) (bs : List Byte) : (s.sent p bs).chainDue = s.chainDue := rfl
@[simp] theorem charge_sent (p : Nat) (bs : List Byte) : (s.sent p bs).charge = s.charge := rfl
@[simp] theorem chargeLast_sent (p : Nat) (bs : List Byte) : (s.sent p bs).chargeLast = s.chargeLast := rfl
@[simp] theorem ports_sent (p : Nat) (bs : List Byte) : (s.sent p bs).ports = s.ports := rfl
@[simp] theorem afe_sent (p : Nat) (bs : List Byte) : (s.sent p bs).afe = s.afe := rfl
@[simp] theorem afeCh_sent (p : Nat) (bs : List Byte) : (s.sent p bs).afeCh = s.afeCh := rfl
@[simp] theorem stp_sent (p : Nat) (bs : List Byte) : (s.sent p bs).stp = s.stp := rfl
@[simp] theorem lines_sent (p : Nat) (bs : List Byte) : (s.sent p bs).lines = s.lines := rfl
@[simp] theorem icalRun_sent (p : Nat) (bs : List Byte) : (s.sent p bs).icalRun = s.icalRun := rfl
@[simp] theorem rck_sent (p : Nat) (bs : List Byte) : (s.sent p bs).rck = s.rck := rfl
@[simp] theorem sxt_sent (p : Nat) (bs : List Byte) : (s.sent p bs).sxt = s.sxt := rfl
@[simp] theorem rsm_sent (p : Nat) (bs : List Byte) : (s.sent p bs).rsm = s.rsm := rfl
@[simp] theorem asy_sent (p : Nat) (bs : List Byte) : (s.sent p bs).asy = s.asy := rfl
@[simp] theorem asyLast_sent (p : Nat) (bs : List Byte) : (s.sent p bs).asyLast = s.asyLast := rfl
@[simp] theorem rose_sent (p : Nat) (bs : List Byte) : (s.sent p bs).rose = s.rose := rfl
@[simp] theorem lanes_sent (p : Nat) (bs : List Byte) : (s.sent p bs).lanes = s.lanes := rfl
@[simp] theorem closed_sent (p : Nat) (bs : List Byte) : (s.sent p bs).closed = s.closed := rfl
@[simp] theorem evicts_sent (p : Nat) (bs : List Byte) : (s.sent p bs).evicts = s.evicts := rfl
@[simp] theorem hallmark_sent (p : Nat) (bs : List Byte) : (s.sent p bs).hallmark = s.hallmark := rfl
@[simp] theorem routes_sent (p : Nat) (bs : List Byte) : (s.sent p bs).routes = s.routes := rfl
@[simp] theorem tens_sent (p : Nat) (bs : List Byte) : (s.sent p bs).tens = s.tens := rfl
@[simp] theorem stw_sent (p : Nat) (bs : List Byte) : (s.sent p bs).stw = s.stw := rfl
@[simp] theorem nv_sent (p : Nat) (bs : List Byte) : (s.sent p bs).nv = s.nv := rfl
@[simp] theorem tx_sent (p : Nat) (bs : List Byte) : (s.sent p bs).tx = s.tx := rfl
@[simp] theorem ptrs_sent (p : Nat) (bs : List Byte) : (s.sent p bs).ptrs = s.ptrs := rfl
@[simp] theorem asm_sent (p : Nat) (bs : List Byte) : (s.sent p bs).asm = s.asm := rfl
@[simp] theorem env_sent (p : Nat) (bs : List Byte) : (s.sent p bs).env = s.env := rfl
@[simp] theorem tam_sent (p : Nat) (bs : List Byte) : (s.sent p bs).tam = s.tam := rfl
@[simp] theorem log_sent (p : Nat) (bs : List Byte) : (s.sent p bs).log = s.log := rfl
@[simp] theorem rdata_sent (p : Nat) (bs : List Byte) : (s.sent p bs).rdata = s.rdata := rfl
@[simp] theorem pending_sent (p : Nat) (bs : List Byte) : (s.sent p bs).pending = s.pending := rfl
@[simp] theorem reg_sent (p : Nat) (bs : List Byte) (r : Nat) : (s.sent p bs).reg r = s.reg r := rfl
@[simp] theorem fld_sent (p : Nat) (bs : List Byte) (g : Fld) : (s.sent p bs).fld g = s.fld g := rfl
@[simp] theorem on_sent (p : Nat) (bs : List Byte) (g : Fld) : (s.sent p bs).on g = s.on g := rfl

end Sys2Proof.Machine
end

