-- ==== Sys2Proof/Laws/Fields.lean ====
section
/-! SUPPORT. Registers and fields: a read after a write, and the closed properties that frames and invariants are. -/

namespace Sys2Proof.Machine

variable {s t : State} {a b : Nat} {w : Word} {f g : Fld} {v : Nat}

/-! ## Bits of a word -/

theorem getBits_eq (w : Word) (lo n : Nat) (k : Nat) :
    (getBits w lo n).testBit k = (decide (k < n) && w.getLsbD (lo + k)) := by
  simp only [getBits, Nat.testBit_mod_two_pow, Nat.testBit_div_two_pow, BitVec.getLsbD]
  rw [Nat.add_comm]

theorem putBits_getLsbD (w : Word) (lo n v k : Nat) (hk : k < 32) :
    (putBits w lo n v).getLsbD k = if lo ≤ k ∧ k < lo + n then v.testBit (k - lo) else w.getLsbD k := by
  simp only [putBits, BitVec.getLsbD_or, BitVec.getLsbD_and, BitVec.getLsbD_not, BitVec.getLsbD_ofNat, hk, decide_true,
    Bool.true_and, Nat.testBit_mul_two_pow, Nat.testBit_two_pow_sub_one, Nat.testBit_mod_two_pow]
  by_cases h1 : lo ≤ k
  · by_cases h2 : k < lo + n
    · have h3 : k - lo < n := by omega
      simp [h1, h2, h3]
    · have h3 : ¬k - lo < n := by omega
      simp [h1, h2, h3]
  · simp [h1]

theorem getBits_putBits (w : Word) {lo n : Nat} (h : lo + n ≤ 32) (v : Nat) :
    getBits (putBits w lo n v) lo n = v % 2 ^ n := by
  apply Nat.eq_of_testBit_eq
  intro k
  rw [getBits_eq, Nat.testBit_mod_two_pow]
  by_cases hk : k < n
  · rw [putBits_getLsbD _ _ _ _ _ (by omega), if_pos (by omega)]
    simp [hk]
  · simp [hk]

theorem getBits_putBits_apart (w : Word) {lo n lo' n' : Nat} (h : lo + n ≤ lo' ∨ lo' + n' ≤ lo) (h' : lo' + n' ≤ 32) (v : Nat) :
    getBits (putBits w lo n v) lo' n' = getBits w lo' n' := by
  apply Nat.eq_of_testBit_eq
  intro k
  rw [getBits_eq, getBits_eq]
  by_cases hk : k < n'
  · rw [putBits_getLsbD _ _ _ _ _ (by omega), if_neg (by omega)]
  · simp [hk]

theorem getBits_lt (w : Word) (lo n : Nat) : getBits w lo n < 2 ^ n := Nat.mod_lt _ (Nat.two_pow_pos n)

/-! ## Registers -/

theorem reg_setReg (h : s.regsWf = true) : (s.setReg a w).reg a = w := mapGet_mapSet h

theorem reg_setReg_ne (h : b ≠ a) : (s.setReg a w).reg b = s.reg b := mapGet_mapSet_ne h

theorem regsWf_setReg (h : s.regsWf = true) : (s.setReg a w).regsWf = true := mapWf_mapSet h

theorem regsWf_setFld (h : s.regsWf = true) : (s.setFld f v).regsWf = true := mapWf_mapSet h

theorem reg_setFld (h : s.regsWf = true) : (s.setFld f v).reg f.addr = putBits (s.reg f.addr) f.lo f.w v := reg_setReg h

theorem reg_setFld_ne (h : b ≠ f.addr) : (s.setFld f v).reg b = s.reg b := reg_setReg_ne h

/-- A read of the field just written. -/
theorem fld_setFld (h : s.regsWf = true) (hf : f.lo + f.w ≤ 32) : (s.setFld f v).fld f = v % 2 ^ f.w := by
  unfold State.fld
  rw [reg_setFld h, getBits_putBits _ hf]

/-- A field of another register. -/
theorem fld_setFld_ne (h : g.addr ≠ f.addr) : (s.setFld f v).fld g = s.fld g := by
  unfold State.fld
  rw [reg_setFld_ne h]

/-- Another field of the same register. -/
theorem fld_setFld_apart (hs : s.regsWf = true) (h : g.addr = f.addr) (ha : f.lo + f.w ≤ g.lo ∨ g.lo + g.w ≤ f.lo)
    (hg : g.lo + g.w ≤ 32) : (s.setFld f v).fld g = s.fld g := by
  unfold State.fld
  rw [h, reg_setFld hs, getBits_putBits_apart _ ha hg]

theorem fld_setReg_ne (h : g.addr ≠ a) : (s.setReg a w).fld g = s.fld g := by
  unfold State.fld
  rw [reg_setReg_ne h]

theorem fld_setReg (h : s.regsWf = true) : (s.setReg g.addr w).fld g = getBits w g.lo g.w := by
  unfold State.fld
  rw [reg_setReg h]

theorem fld_lt : s.fld g < 2 ^ g.w := getBits_lt _ _ _

/-! ## Closed properties -/

/-- The parts that a run may change: all but the queue of waiting commands. -/
def runParts : List Part :=
  [.regs, .reset, .mode, .sys, .nv, .rst, .clk, .pln, .locks, .shadowBad, .pownBad, .sel, .samp, .streams, .queues, .pendg,
   .capped, .loops, .descs, .chainDue, .charge, .chargeLast, .ports, .afe, .afeCh, .stp, .lines, .icalRun, .rck, .sxt, .rsm,
   .asy, .asyLast, .rose, .lanes, .closed, .evicts, .hallmark, .routes, .tens, .stw, .tx, .ptrs, .asm, .env, .port, .tam,
   .log, .rdata]

theorem closed_regsWf : Closed runParts (fun s => s.regsWf = true) := by
  refine ⟨fun p hp => ?_⟩
  cases p
  case reg => exact fun _ _ h => mapWf_mapSet h
  case regs => exact fun _ _ _ h => mapWf_mapSet h
  case reset => exact fun _ _ _ _ => rfl
  case mode => exact fun _ _ _ h => h
  case sys => exact fun _ _ _ _ h => h
  case pending => exact absurd hp (by decide)
  all_goals first | exact fun _ _ h => h | exact fun _ _ _ h => h

theorem mapsWf_regs (h : s.mapsWf = true) : s.regsWf = true := by
  simp only [State.mapsWf, Bool.and_eq_true] at h
  simp only [h]

theorem mapWfFrom_keep {α β : Type} [DecidableEq α] [DecidableEq β] {d : Nat → α} {e : Nat → β} {m : Map α} {lo : Nat}
    {f : α → β} {p : Nat × β → Bool} (h : mapWfFrom d lo m = true) (hp : ∀ x, p x = true → x.2 ≠ e x.1) :
    mapWfFrom e lo ((m.map (fun x => (x.1, f x.2))).filter p) = true := by
  induction m generalizing lo with
  | nil => rfl
  | cons x t ih =>
    simp only [mapWfFrom, Bool.and_eq_true, decide_eq_true_eq] at h
    rw [List.map_cons, List.filter_cons]
    split
    · simp only [mapWfFrom, Bool.and_eq_true, decide_eq_true_eq]
      exact ⟨⟨h.1.1, hp _ ‹_›⟩, ih h.2⟩
    · exact mapWfFrom_le (ih h.2) (by omega)

theorem mapsWf_reset : State.reset.mapsWf = true := by decide

theorem mapsWf_fullReset {c : Cause} {n : Nat} (h : s.mapsWf = true) : (fullReset c n s).mapsWf = true := by
  have hr := mapsWf_reset
  simp only [State.mapsWf, Bool.and_eq_true] at hr ⊢
  refine ⟨⟨⟨⟨⟨⟨⟨⟨hr.1.1.1.1.1.1.1.1, ?_⟩, ?_⟩, ?_⟩, ?_⟩, ?_⟩, ?_⟩, ?_⟩, ?_⟩
  case refine_1 =>
    show mapWf _ (if s.keptDomain then _ else []) = true
    split
    · exact mapWfFrom_keep (mapsWf_closed h) (fun x hx => by simpa using hx)
    · rfl
  all_goals rfl

theorem closed_mapsWf : Closed runParts (fun s => s.mapsWf = true) := by
  refine ⟨fun p hp => ?_⟩
  cases p
  case pending => exact absurd hp (by decide)
  case reset => exact fun _ _ _ h => mapsWf_fullReset h
  case mode => exact fun _ _ _ h => h
  case sys => exact fun _ _ _ _ h => h
  case regs =>
    intro s a w h
    simp only [State.mapsWf, Bool.and_eq_true] at h ⊢
    simp only [regsWf_setReg, locks_setReg, sel_setReg, samp_setReg, streams_setReg, queues_setReg, pendg_setReg, loops_setReg,
      descs_setReg, charge_setReg, chargeLast_setReg, ports_setReg, afeCh_setReg, stp_setReg, lines_setReg, rsm_setReg, asy_setReg,
      lanes_setReg, closed_setReg, evicts_setReg, routes_setReg, tens_setReg, tx_setReg, ptrs_setReg, asm_setReg, port_setReg, h,
      and_self]
  case reg a =>
    intro s w h
    simp only [State.mapsWf, Bool.and_eq_true] at h ⊢
    simp only [regsWf_setReg, locks_setReg, sel_setReg, samp_setReg, streams_setReg, queues_setReg, pendg_setReg, loops_setReg,
      descs_setReg, charge_setReg, chargeLast_setReg, ports_setReg, afeCh_setReg, stp_setReg, lines_setReg, rsm_setReg, asy_setReg,
      lanes_setReg, closed_setReg, evicts_setReg, routes_setReg, tens_setReg, tx_setReg, ptrs_setReg, asm_setReg, port_setReg, h,
      and_self]
  all_goals first
    | exact fun _ _ h => h
    | (intro s v hv h
       have h' := hv h
       simp only [State.mapsWf, Bool.and_eq_true] at h ⊢
       simp only [State.regsWf] at h ⊢
       simp only [h, h', and_self])

/-- A frame survives every change of the parts it allows. -/
theorem closed_changesOnly {l : List Part} {s : State} (hp : Part.pending ∉ l) : Closed l (changesOnly l s) := by
  refine ⟨fun p hl => ?_⟩
  have cov : ∀ {q}, l.any (fun x => x.covers q) = false → p.covers q = false := fun h => by
    simpa using List.any_eq_false.mp h p hl
  cases p
  case pending => exact hp hl
  case reg a =>
    intro t w h q hq
    have h1 := h q hq
    have h2 := cov hq
    cases q <;> first | exact h1 | skip
    case reg b =>
      have hb : b ≠ a := fun e => by simp [Part.covers, e] at h2
      exact (reg_setReg_ne hb).trans h1
    case regs => simp [Part.covers] at h2
  case regs =>
    intro t a w h q hq
    have h1 := h q hq
    have h2 := cov hq
    cases q <;> first | exact h1 | (simp [Part.covers] at h2)
  case reset =>
    intro c n t h q hq
    have h1 := h q hq
    have h2 := cov hq
    cases q <;> first | (simp [Part.covers] at h2; done) | exact h1
  case mode =>
    intro t y _ h q hq
    have h1 := h q hq
    have h2 := cov hq
    cases q <;> first | exact h1 | (simp [Part.covers] at h2)
  case sys =>
    intro t y hp hq' h q hq
    have h1 := h q hq
    have h2 := cov hq
    cases q <;> first | exact h1 | (simp [Part.covers] at h2; done) | exact ⟨hp.trans h1.1, hq'.trans h1.2⟩
  all_goals
    first
      | (intro t y h q hq
         have h1 := h q hq
         have h2 := cov hq
         cases q <;> first | exact h1 | (simp [Part.covers] at h2; done))
      | (intro t y _ h q hq
         have h1 := h q hq
         have h2 := cov hq
         cases q <;> first | exact h1 | (simp [Part.covers] at h2; done))

theorem changesOnly_refl {l : List Part} (s : State) : changesOnly l s s := by
  intro p _
  cases p <;> first | rfl | exact trivial | exact ⟨rfl, rfl⟩

/-- A frame of an outcome from its footprint. -/
theorem frame_of {l : List Part} {o : Host.Outcome State Fault Refusal} {s t : State}
    (h : Closed l (changesOnly l s) → changesOnly l s s → Answers o (changesOnly l s)) (hp : Part.pending ∉ l)
    (ht : o = .next t) : changesOnly l s t := by
  obtain ⟨u, hu, hc⟩ := h (closed_changesOnly hp) (changesOnly_refl s)
  cases hu.symm.trans ht
  exact hc

/-- No part of `l` covers the part, and `l` leaves the queue of waiting commands alone. -/
def avoids (l : List Part) (p : Part) : Bool := !(l.any (fun q => q.covers p)) && !(l.contains .pending)

theorem Part.same_refl (p : Part) (s : State) : p.same s s := by
  cases p <;> first | rfl | exact trivial | exact ⟨rfl, rfl⟩

/-- What depends on a part alone survives every change that avoids the part. -/
theorem closed_of {l : List Part} {p : Part} {Q : State → Prop} (h : avoids l p = true)
    (hQ : ∀ s t, p.same s t → Q s → Q t) : Closed l Q := by
  simp only [avoids, Bool.and_eq_true, Bool.not_eq_true', List.contains_eq_mem, decide_eq_false_iff_not] at h
  have step : ∀ s : State, Closed l (changesOnly l s) := fun s => closed_changesOnly h.2
  refine ⟨fun q hq => ?_⟩
  have hc := fun s => (step s).part q hq
  cases q
  case mode =>
    intro s y hl hs
    exact hQ s _ (hc s s y hl (changesOnly_refl s) p h.1) hs
  case sys =>
    intro s y h1 h2 hs
    exact hQ s _ (hc s s y h1 h2 (changesOnly_refl s) p h.1) hs
  case reg => exact fun s w hs => hQ s _ (hc s s w (changesOnly_refl s) p h.1) hs
  case regs => exact fun s a w hs => hQ s _ (hc s s a w (changesOnly_refl s) p h.1) hs
  case reset => exact fun c n s hs => hQ s _ (hc s c n s (changesOnly_refl s) p h.1) hs
  case pending => exact absurd hq h.2
  all_goals first
    | exact fun s v hs => hQ s _ (hc s s v (changesOnly_refl s) p h.1) hs
    | exact fun s v hw hs => hQ s _ (hc s s v hw (changesOnly_refl s) p h.1) hs

theorem closed_fld {l : List Part} (h : avoids l (.reg f.addr) = true) : Closed l (fun t => t.fld f = v) :=
  closed_of h (fun _ _ he hs => by
    unfold State.fld at hs ⊢
    exact (show _ = _ from he) ▸ hs)

theorem closed_reg {l : List Part} (h : avoids l (.reg a) = true) : Closed l (fun t => t.reg a = w) :=
  closed_of h (fun _ _ he hs => Eq.trans (show _ = _ from he) hs)

theorem closed_and {l : List Part} {Q R : State → Prop} (hQ : Closed l Q) (hR : Closed l R) :
    Closed l (fun t => Q t ∧ R t) := by
  refine ⟨fun p hp => ?_⟩
  have h1 := hQ.part p hp
  have h2 := hR.part p hp
  cases p
  case mode => exact fun s y hl h => ⟨h1 s y hl h.1, h2 s y hl h.2⟩
  case sys => exact fun s y hl hm h => ⟨h1 s y hl hm h.1, h2 s y hl hm h.2⟩
  case reg => exact fun s w h => ⟨h1 s w h.1, h2 s w h.2⟩
  case regs => exact fun s a w h => ⟨h1 s a w h.1, h2 s a w h.2⟩
  case reset => exact fun c n s h => ⟨h1 c n s h.1, h2 c n s h.2⟩
  case pending => exact h1.elim
  all_goals first
    | exact fun s v h => ⟨h1 s v h.1, h2 s v h.2⟩
    | exact fun s v hw h => ⟨h1 s v hw h.1, h2 s v hw h.2⟩

/-- A frame may be widened. -/
theorem changesOnly_mono {l m : List Part} (h : changesOnly l s t) (hl : ∀ p, m.any (fun q => q.covers p) = false →
    l.any (fun q => q.covers p) = false) : changesOnly m s t := fun p hp => h p (hl p hp)

end Sys2Proof.Machine
end

