-- ==== Sys2Proof/Tests/Slice0.lean ====
section
/-! SUPPORT. Tests of the meanings on small states, one command each, and for every statement with hypotheses a state that
meets them; the expected values are computed by hand from the rules cited. -/
open Sys2Proof Sys2Proof.Machine
namespace Sys2Proof.Tests

-- One theorem at a time: a thread that waits for the kernel takes a stack of its own.
set_option Elab.async false

/-! ## Small states -/

/-- A hub that runs in WATCH, with VSTORE at 3.6 V, VHOST on and both I/O banks good. -/
def up : State :=
  (({ State.reset with sys := { State.reset.sys with
      phase := .running, pstate := .watch, vstore := 3600, aboveVstart := true, vhostOn := true, retained := true } }).setFld
    F.PWR_BANK_VSENSIO_OK 1).setFld F.PWR_BANK_VIOH_OK 1

/-- VSTORE is above VWARN. -/
def aboveWarn : State := up.setFld F.PWR_THR_STAT_ABOVE_VWARN 1

/-- A hub in Stow with its oscillator on. -/
def stowed : State := { up with sys := { up.sys with phase := .stow, pstate := .stowWarm } }

/-- A hub at the start of its boot. -/
def booting : State := { State.reset with sys := { State.reset.sys with phase := .booting, vstore := 3600 } }

/-- A hub held in reset by a tamper class. -/
def heldBy (cls : Nat) : State := { up with sys := { up.sys with phase := .inReset, pstate := .off, holding := cls } }

/-- The command answers a next state that satisfies `p`. -/
def runs (c : Instr) (s : State) (p : State → Bool) : Bool :=
  match exec c s with
  | .next t => p t
  | .fault _ => false
  | .refused _ => false

/-- The command waits at the front of the queue. -/
def asked (c : Instr) (s : State) : State := { s with pending := [c] }

/-- A read of the register at `a` would show its value. -/
def shown (s : State) (rq : Requester) (a : Nat) : Bool :=
  s.mapsWf && s.reachable rq && (s.readDenied rq false a).isNone && (lockNo a).isNone && (s.streamBytes rq a).isNone

/-- A commit of the one write `v` to `a` acts with the value `x`. -/
def acts (s : State) (rq : Requester) (a v x : Nat) : Bool :=
  s.mapsWf && s.reachable rq &&
    decide (s.decideWrites rq [⟨a, v, false, match rq with | .window _ => true | _ => false⟩] = ([(a, x)], []))

/-- A hub whose tenant 0 has a stored response of five bytes and a report of one. -/
def answered : State := { up with tens := [(0, { ten0 with response := [1, 2, 3, 4, 5], report := [9] })] }

/-- A hub whose lock `k` the host holds. -/
def held (k : Nat) : State := { up with locks := [(k, ⟨some (up.lockId .host), false⟩)] }

/-- A hub in FIELDED. -/
def fieldedUp : State := up.setFld F.SYS_LIFE_STATE 9

/-- A hub in FIELDED whose page 0x04 is hidden. -/
def hiddenUp : State := fieldedUp.setFld (F.POWN_HP 0x04) 1

/-- An item, an entry with it, and a closed bundle that the Hallmark engine has finished. -/
def item1 : Item := ⟨0x08, 0, 0x1021, 0, 0, [1, 2, 3, 4]⟩
def healthEntry : Entry := ⟨.record, 1, .item item1⟩
def sealedBundle : Bundle := ⟨0, 0, 0, [0xB7], [1, 2, 3], [], 1, true, 0, 0, 0⟩

/-- The envelope of a command of tenant 0 with counter 1, generation 0 and a tag of zeros. -/
def envelope (op : Nat) (payload : List Byte) : Envelope :=
  ⟨[0xC5, 1, 0, BitVec.ofNat 8 op] ++ bytesLE 2 payload.length ++ bytesLE 2 0 ++ bytesLE 8 1, payload, List.replicate 16 0⟩

/-- The hub `s`, in BLANK, with that command in its envelope. -/
def sent (op : Nat) (payload : List Byte) (s : State) : State := { s with env := some (envelope op payload) }

def cmd (op : Nat) (payload : List Byte) : Cmd := cmdOf (envelope op payload)

/-- The Steward takes the command. -/
def takesIt (op : Nat) (payload : List Byte) (s : State) : Bool :=
  s.mapsWf && s.cclk && !(s.stewardBusy) && decide ((cmd op payload).opcode = op)

/-- The Steward takes the command and runs it. -/
def passes (op : Nat) (payload : List Byte) (s : State) : Bool :=
  s.mapsWf && s.cclk && !(s.stewardBusy) && decide ((cmd op payload).opcode = op) &&
    (match (sent op payload s).check (cmd op payload) with | .run _ => true | _ => false)

def zeros (n : Nat) : List Byte := List.replicate n 0

/-- The header of an empty chart of tenant 0. -/
def chartHead : List Byte := [0x7A, 0x43, 0, 0, 0, 0] ++ zeros 42

/-- Tenant 0 with a chart of four bytes under upload, one byte of it staged at most. -/
def uploading (staged : List (Option Byte)) : State := { up with tens := [(0, { ten0 with upload := some (zeros 48), staged := staged })] }

/-- Tenant 0 with key A active in generation 1. -/
def keyed : State := { up with
  nv := { up.nv with tens := [(0, { tenNv0 with slotA := ⟨1, zeros 16, true, 1⟩, exist := true })] }
  tens := [(0, { ten0 with activeB := some false })] }

def ticket1 : Ticket := ⟨0, 0, 0x10, 1, 0, false⟩

/-- A hub in OPEN with an active key and the energy that R117 asks for. -/
def lifeReady : State :=
  (((({ keyed with nv := { keyed.nv with life := 5, lifeInv := 10 } }).setFld F.SYS_LIFE_STATE 5).setFld
    F.PWR_THR_STAT_ABOVE_VWARN 1).setFld F.PWR_THR_STAT_ABOVE_KEYW 1).setFld F.PWR_HSTAT_CHARGING 1

/-- A patch upload is open. -/
def patching : State := { up with stw := { up.stw with patchOpen := true } }

/-- Tenant 0 with a key update to generation 1 under way, and with its slot written. -/
def update1 (written : Bool) : KeyUpdate := ⟨1, zeros 16, zeros 32, false, written, ticket1, 0, 0, false⟩
def updating : State := { up.setFld F.PWR_THR_STAT_ABOVE_KEYW 1 with tens := [(0, { ten0 with update := some (update1 false) })] }
def updatingLast : State := { fieldedUp with tens := [(0, { ten0 with update := some (update1 true) })] }

/-- The NV job `j` runs. -/
def writing (j : NvJob) : State := { up with stw := { up.stw with nvq := [j], nvActive := true } }

/-- The words of a TIME read descriptor of 4 bytes on port 0 with a period of 1 ms, with its trigger kind as given. -/
def wordsOf (trig : Nat) : List Word := [BitVec.ofNat 32 (0x00040001 + 4 * trig), 0, 0, 1000, 0, 0, 0, 0]

/-- A hub whose descriptor 255 has these words and is armed, with pages 0x10 and 0x18 on. -/
def withDesc (ws : List Word) : State :=
  { (up.setFld (F.PCTL_EN 0x10) 1).setFld (F.PCTL_EN 0x18) 1 with descs := [(255, { desc0 with words := ws, armed := true })] }

def request (ws : List Word) : Request := ⟨255, ws, 0, 1, 0, none⟩

/-- The descriptor's request pends. -/
def pendingReq (ws : List Word) : State :=
  { withDesc ws with
      descs := [(255, { desc0 with words := ws, armed := true, pend := some (request ws), lockSeen := true })]
      ports := [(0, { port0 with busFree := true })] }

/-- The request stands at the head of port 0's dispatch queue, and the bus is free. -/
def dispatched : State :=
  { withDesc (wordsOf 0) with
      queues := [(qDisp 0, [⟨.psq, 1, .request (request (wordsOf 0))⟩])]
      ports := [(0, { port0 with busFree := true })] }

/-- A transfer of the request is in progress on port 0, which may be repeated as often as its latched registers allow. -/
def transferringWith (cfg : List Word) : State :=
  { withDesc (wordsOf 0) with ports := [(0, { port0 with xfer := some ⟨request (wordsOf 0), 0, 0, false, 0, false, false, cfg⟩ })] }
def transferring : State := transferringWith []

/-- The Sextant's page is on, and it is locked. -/
def lockedUp : State := (up.setFld (F.PCTL_EN 0x07) 1).setFld F.SXT_STAT_LOCK 1

/-- The AFE's page is on and both channels convert, with the excitation on. -/
def afeUp : State :=
  { (up.setFld (F.PCTL_EN 0x17) 1).setFld F.AFE_CFG_CH_EN 3 with afe := ⟨true, false, false, false, false, false, 0, 0, false⟩ }

/-- Capture entry, and it at the head of port 0's capture queue. -/
def capture1 : Capture := ⟨255, false, false, false, 0, 1, [1, 2, 3, 4], none, 1, 0⟩
def captured : State := { withDesc (wordsOf 0) with queues := [(qCap 0, [⟨.port, 1, .capture capture1⟩])] }

/-- Unit 0 selects the stream of the entry's descriptor. -/
def copied : State :=
  { (((up.setFld (F.ASY_CFG_EN 0) 1).setFld (F.ASY_IN_SRC 0) 0).setFld (F.ASY_IN_SRCIDX 0) 255) with
      queues := [(qCap 0, [⟨.port, 1, .capture capture1⟩])] }

/-- Resampler channel 7 has two points, a quarter of a revolution apart, with the first target on the first of them. -/
def bracketed : State :=
  { (up.setFld (F.PCTL_EN 0x08) 1).setFld (F.RSM_CH_CFG_EN 7) 1 with
      rsm := [(7, { rsm0 with points := [⟨some 0, 5, [10], none⟩, ⟨some (2 ^ 62), 9, [20], none⟩] })] }

/-- A GAP record of the capture-queue producer waits. -/
def gapWaits : State := { up with pendg := [(pendKey 32 .port, [⟨3, some (part1 gcCREDIT none 7), none, false, false, false⟩])] }

/-- Unit 0 takes a descriptor's samples, with an entry of one sample at the head of its queue. -/
def assaying : State :=
  { ((up.setFld (F.PCTL_EN 0x1A) 1).setFld (F.ASY_CFG_EN 0) 1) with
      queues := [(qUnit 0, [⟨.stamp, 1, .item ⟨0x01, 0, 255, 0, 0, zeros 16 ++ [1, 0]⟩⟩])] }

/-- A Rose channel whose event is presented, with consumer tap `k`. -/
def consumingAt (k : Nat) : State := { up with rose := [⟨0, BitVec.ofNat 32 (2 ^ (4 + k)), none⟩] }
def consuming : State := consumingAt 0
def flaring : State := (consumingAt 1).setFld (F.ROS_FLR_REL 0) 1

/-- An item for lane 2 of tenant 0, which has memory. -/
def taking : State := { (up.setFld (F.QUE_TQ_MIN 0) 100).setFld (F.QUE_TQ_MAX 0) 100 with queues := [(qIntake 0 2, [healthEntry])] }

/-- Lane 3 of tenant 0 can close, with sequence 7 next. -/
def closing : State :=
  { taking with
      lanes := [(3, { lane0 with items := [item1], len := 12, closeReq := true })]
      nv := { up.nv with tens := [(0, { tenNv0 with seqHw := 65536 })] }
      tens := [(0, { ten0 with seqNext := 7 })] }

/-- A bundle to seal waits. -/
def sealing : State :=
  { up with closed := [(3, [{ sealedBundle with mode := 2, done := false }])], hallmark := { up.hallmark with queue := [(3, 0)] } }

/-- The harvester loop runs. -/
def harvesting : State := (up.setFld F.PWR_HARV_EN 1).setFld ⟨loopMPPT, 0, 1⟩ 1

/-- The watchdog is at its limit. -/
def kicking : State :=
  { (up.setFld F.SYS_WDOG_EN 1).setFld F.SYS_HREL_RELEASED 1 with sys := { up.sys with wdog := 2 ^ 40 } }

/-- Windows 0 to 7 answer on the two-wire target. -/
def windowed : State := up.setFld F.HTW_ADDR_WEN 255

/-- A transaction of the host at its start, and a hub with one open on port `p`. -/
def tx0 : Tx := ⟨.host, 0, false, 0, [], 0, none, [], 0, 0, none, 0, false, false, 0, []⟩
def opened (p : Nat) (x : Tx) : State := { up with tx := [(p, some x)] }

/-- A stalled pop of tenant 0. -/
def stalled : State := (opened 0 { tx0 with stall := some 0, left := 4 }).setFld (F.QUE_TCFG_STALL 0) 1

/-- The stalled pop, with a bundle that it can now deliver. -/
def popping : State :=
  { (opened 0 { tx0 with stall := some 0, left := 4, ptr := A.QUE_POP 0 }).setFld (F.QUE_TCFG_STALL 0) 1 with closed := [(3, [sealedBundle])] }

/-- TN0_XADR names the pop register of tenant 0, and a longer bundle is under delivery without a transaction. -/
def popsAlone : State :=
  { up.setFld (F.TN_XADR_ADR 0) (A.QUE_POP 0) with
      closed := [(3, [{ sealedBundle with payload := [1, 2, 3, 4, 5] }])], tx := [(alone, some { tx0 with bundles := [(3, 0, 0)], popT := some 0 })] }

/-- A complete assembly of tenant 7. -/
def assembled : State := { up with asm := [(7, ⟨(envelope 0x05 []).header ++ zeros 16, true, 1⟩)] }


/-! ## Steps, reset and boot -/

theorem test_step_takes_the_front :
    step { up with pending := [.harvOvp, .stowEntry] } = exec .harvOvp { up with pending := [.stowEntry] } := by rfl

theorem witness_StepRunsTheFrontCommand :
    (asked .harvOvp up).pending = .harvOvp :: [] := by
  decide +kernel

theorem witness_EmptyQueueRunsOneCycle :
    up.pending = [] ∧
    up.cclk = true ∧
    State.reset.pending = [] ∧
    State.reset.cclk = false := by
  refine ⟨?_, ?_, ?_, ?_⟩ <;> decide +kernel

theorem test_idle_cycle_counts_64_ticks :
    (match step up with | .next t => t.rck.acc == 64 * tickUnits | _ => false) = true := by
  decide +kernel

theorem witness_StepKeepsMapsCanonical :
    (asked .harvOvp up).mapsWf = true ∧
    (match step (asked .harvOvp up) with | .next t => t.mapsWf | _ => false) = true := by
  refine ⟨?_, ?_⟩ <;> decide +kernel

theorem witness_StepKeepsLegalPowerState :
    (asked .stowTimeWake stowed).modeWf = true ∧
    (match step (asked .stowTimeWake stowed) with | .next t => t.modeWf | _ => false) = true := by
  refine ⟨?_, ?_⟩ <;> decide +kernel

theorem witness_RegistersReadBack :
    up.mapsWf = true ∧
    F.SYS_PSTATE_STATE.addr = F.SYS_PSTATE_LAST_STOW.addr ∧
    F.SYS_PSTATE_STATE.lo + F.SYS_PSTATE_STATE.w ≤ F.SYS_PSTATE_LAST_STOW.lo ∧
    (up.setFld F.SYS_PSTATE_STATE 13).fld F.SYS_PSTATE_STATE = 5 := by
  refine ⟨?_, ?_, ?_, ?_⟩ <;> decide +kernel

theorem witness_FullResetLeaves :
    up.keptDomain = true ∧
    State.reset.keptDomain = false := by
  refine ⟨?_, ?_⟩ <;> decide +kernel

theorem witness_ResetSourcesAct :
    runs .vstartRise State.reset (fun t => decide (t.sys.phase = .booting)) = true ∧
    runs .bor up (fun t => decide (t.sys.phase = .unpowered)) = true ∧
    runs .nrstLow up (fun t => decide (t.sys.phase = .inReset)) = true ∧
    runs .retentionLoss { State.reset with sys := { State.reset.sys with retained := true } } (fun t => !t.sys.retained) = true := by
  refine ⟨?_, ?_, ?_, ?_⟩ <;> decide +kernel

theorem witness_ResetEndsWhenItsSourcesEnd :
    runs .nrstRelease (heldBy 0) (fun t => decide (t.sys.phase = .booting)) = true ∧
    runs .nrstRelease { heldBy 2 with sys := { (heldBy 2).sys with holdTime := true } } (fun t => decide (t.sys.phase = .inReset)) = true ∧
    runs .holdEnd { heldBy 4 with sys := { (heldBy 4).sys with holdTime := true } } (fun t => decide (t.sys.phase = .booting)) = true ∧
    runs (.thermalComparator false) (heldBy 2) (fun t => decide (t.sys.phase = .booting)) = true ∧
    runs (.thermalComparator true) (heldBy 2) (fun t => decide (t.sys.phase = .inReset)) = true ∧
    runs (.thermalComparator true) stowed (fun t => t.sys.wakes == 65536) = true ∧
    runs .supplyConditionEnd (heldBy 5) (fun t => decide (t.sys.phase = .booting)) = true ∧
    up.mapsWf = true := by
  refine ⟨?_, ?_, ?_, ?_, ?_, ?_, ?_, ?_⟩ <;> decide +kernel

theorem witness_BootStopsOrGoesOn :
    booting.mapsWf = true ∧
    booting.fld F.SYS_BOOT_STAGE = 1 ∧
    booting.nv.trim.good = true ∧
    booting.configReads = true ∧
    booting.nv.ringGood = true ∧
    (List.range 8).all (fun t => (booting.tnv t).chart.isNone) = true ∧
    lifeWordGood booting.nv = true ∧
    runs (.boot ⟨3600, 3600, 17⟩ .romFailed true) booting (fun t => t.fld F.SYS_BOOT_ERR == 1) = true ∧
    runs (.boot ⟨3600, 3600, 17⟩ .good true) { booting with nv := { booting.nv with trim := { booting.nv.trim with good := false } } }
            (fun t => t.fld F.SYS_BOOT_ERR == 2) = true ∧
    runs (.boot ⟨3600, 3600, 17⟩ .oscFailed true) booting (fun t => t.fld F.SYS_BOOT_STAGE == 1 && t.on F.CLK_EVT_AMP_LOST) = true ∧
    runs (.boot ⟨2199, 2199, 17⟩ .good true) booting (fun t => t.fld F.SYS_BOOT_STAGE == 14) = true ∧
    runs (.bootEnergyResume ⟨2199, 2199, 17⟩ true) (booting.setFld F.SYS_BOOT_STAGE 14) (fun t => t.fld F.SYS_BOOT_STAGE == 14) = true ∧
    decide (((booting.bootStart 3600).loadTrim.bootConfig).vwarn + 60 < 3600 ∧ ((booting.bootStart 3600).loadTrim.bootConfig).keyw ≤ 3600) = true ∧
    runs (.boot ⟨3600, 3600, 17⟩ .good true) booting (fun t => t.fld F.SYS_BOOT_STAGE == 7 && t.fld F.IDN_BOOTNUM_NUM == 1) = true ∧
    decide ((booting.setFld F.SYS_BOOT_STAGE 14).vwarn + 60 < 3600 ∧ (booting.setFld F.SYS_BOOT_STAGE 14).keyw ≤ 3600) = true ∧
    runs (.bootEnergyResume ⟨3600, 3600, 17⟩ true) (booting.setFld F.SYS_BOOT_STAGE 14) (fun t => t.fld F.SYS_BOOT_STAGE == 7) = true ∧
    runs (.hostRelease 7) (booting.setFld F.SYS_BOOT_STAGE 7) (fun t => decide (t.sys.pstate = .watch)) = true := by
  refine ⟨?_, ?_, ?_, ?_, ?_, ?_, ?_, ?_, ?_, ?_, ?_, ?_, ?_, ?_, ?_, ?_, ?_⟩ <;> decide +kernel

/-! ## Power -/

theorem witness_StowEntryAndWake :
    up.running = true ∧
    up.gear = 0 ∧
    up.changing = false ∧
    (up.setFld F.SYS_STOW_EN 1).mayStow = true ∧
    runs .stowEntry (up.setFld F.SYS_STOW_EN 1) (fun t => decide (t.sys.phase = .stow)) = true ∧
    (stowed.timeAhead && stowed.ageAhead) = true ∧
    runs .stowTimeWake { stowed with descs := (withDesc (wordsOf 0)).descs } (fun t => t.sys.wakes == 8192) = true ∧
    runs (.wakeEdge 9 false) (up.setFld F.SYS_WAKE_EN_WAKE 0x200) (fun t => t.sys.wakes == 512) = true ∧
    runs (.wakeEdge 9 false) (stowed.setFld F.SYS_WAKE_EN_WAKE 0x200) (fun t => t.sys.wakes == 512) = true ∧
    runs (.wakeEdge 0 false) (stowed.setFld F.SYS_WAKE_EN_WAKE 1) (fun t => t.sys.wakes == 1) = true ∧
    runs (.wakeEdge 10 true) (stowed.setFld F.SYS_WAKE_EN_WAKE 0x400) (fun t => t.sys.wakes == 1024) = true ∧
    (stowed.addrOf (stowed.fld F.HTW_ADDR_CHART)).isSome = true ∧
    runs (.lookoutMatch (stowed.fld F.HTW_ADDR_CHART) false) stowed (fun t => t.sys.wakes == 4096) = true ∧
    runs .stowWake { stowed with sys := { stowed.sys with wakes := 1 } } (fun t => decide (t.sys.phase = .running)) = true := by
  refine ⟨?_, ?_, ?_, ?_, ?_, ?_, ?_, ?_, ?_, ?_, ?_, ?_, ?_, ?_⟩ <;> decide +kernel

theorem witness_RailsAndVhost :
    runs .vhostSettleEnd { up with sys := { up.sys with vhostSettle := true } } (fun t => t.on F.SYS_HREL_RELEASED) = true ∧
    runs .vhostTrip up (fun t => t.on F.PWR_RAILEVT_VHOST_TRIP && !t.sys.lockout) = true ∧
    runs .vhostTrip { up with sys := { up.sys with trips := [0, 0] } } (fun t => t.fld F.PWR_VHOST_EN == 0) = true ∧
    runs .vhostCycleOffEnd { up with sys := { up.sys with vhostOn := false, vhostCycle := true } } (fun t => t.sys.vhostOn) = true ∧
    runs (.vsensRampDone 2) (up.setFld (F.PWR_VSENS_STATE 2) 1) (fun t => t.fld (F.PWR_VSENS_STATE 2) == 2) = true ∧
    runs (.vsensSettleDone 0) (up.setFld (F.PWR_VSENS_STATE 0) 2) (fun t => t.fld (F.PWR_VSENS_STATE 0) == 3) = true ∧
    runs (.vsensTrip 1) ((up.setFld (F.PWR_VSENS_STATE 1) 3).setFld (F.PWR_VSENS_EN 1) 1)
            (fun t => t.bit F.PWR_RAILEVT_VSENS_TRIP 1 && !t.on (F.PWR_VSENS_EN 1)) = true := by
  refine ⟨?_, ?_, ?_, ?_, ?_, ?_, ?_⟩ <;> decide +kernel

theorem witness_SupplyDipRunsItsCourse :
    aboveWarn.dipHold = false ∧
    runs (.dipBegin 2400) aboveWarn (fun t => t.on F.SYS_DIP_ACTIVE) = true ∧
    runs (.dipBegin 2400) (stowed.setFld F.PWR_THR_STAT_ABOVE_VWARN 1) (fun t => t.sys.wakes == 16384) = true ∧
    runs (.dipContinue 2400) (up.setFld F.SYS_DIP_SETTLING 1) (fun t => t.on F.SYS_DIP_ACTIVE) = true ∧
    runs (.dipEnd 2600) (up.setFld F.SYS_DIP_ACTIVE 1) (fun t => t.bit (F.PIRQ 0x03) 9) = true ∧
    (up.setFld F.SYS_DIP_SETTLING 1).railsBack = [] ∧
    runs .dipSettled (up.setFld F.SYS_DIP_SETTLING 1) (fun t => !t.on F.SYS_DIP_SETTLING) = true := by
  refine ⟨?_, ?_, ?_, ?_, ?_, ?_, ?_⟩ <;> decide +kernel

theorem witness_HarvesterMeterAndBanks :
    runs .harvOvp up (fun t => t.on F.PWR_HSTAT_OVP && t.bit (F.PIRQ 0x03) 11) = true ∧
    runs .harvUvlo up (fun t => t.on F.PWR_HSTAT_UVLO) = true ∧
    runs .harvCeiling up (fun t => (t.loop loopMPPT).satHi) = true ∧
    runs (.harvResume .ceiling) (up.setFld F.PWR_HSTAT_OVP 1) (fun t => t.on F.PWR_HSTAT_OVP) = true ∧
    up.loopEn loopMPPT = true ∧
    runs .vchgRise (up.setFld F.SYS_WAKE_EN_WAKE 0x800) (fun t => t.on F.PWR_THR_STAT_ABOVE_VCHG && t.sys.wakes == 2048) = true ∧
    runs (.pwrMeasUpdate 3600 5000 200) up (fun t => t.fld F.PWR_MEAS_VSTORE == 360 && t.fld F.PWR_MEAS_VHARV == 250
            && t.fld F.PWR_MEAS_IHARV == 200) = true ∧
    runs (.bankLost true) up (fun t => !t.on F.PWR_BANK_VSENSIO_OK && t.bit (F.PIRQ 0x03) 12) = true ∧
    runs (.bankLost false) up (fun t => !t.on F.PWR_BANK_VIOH_OK) = true ∧
    runs (.bankRestored true 0) (up.setFld F.PWR_BANK_VSENSIO_OK 0) (fun t => t.on F.PWR_BANK_VSENSIO_OK) = true ∧
    runs (.bankRestored false 0) (up.setFld F.PWR_BANK_VIOH_OK 0) (fun t => t.on F.PWR_BANK_VIOH_OK) = true := by
  refine ⟨?_, ?_, ?_, ?_, ?_, ?_, ?_, ?_, ?_, ?_, ?_⟩ <;> decide +kernel

theorem witness_GearsAndReference :
    runs .vcoreRampDone { up.setFld F.CLK_GEAR_VRAMP 1 with clk := { up.clk with ramp := some 3 } }
            (fun t => t.fld F.CLK_GEAR_TGT == 3 && t.on F.CLK_GEAR_SWITCHING) = true ∧
    runs .gearSwitchDone ((up.setFld F.CLK_GEAR_SWITCHING 1).setFld F.CLK_GEAR_TGT 7)
            (fun t => t.fld F.CLK_PERIOD_TICKS == 640) = true ∧
    runs .gearSwitchDone { (up.setFld F.CLK_GEAR_SWITCHING 1).setFld F.CLK_GEAR_TGT 5 with clk := { up.clk with floors := [(0, 6)] } }
            (fun t => t.fld F.CLK_PERIOD_TICKS == 2 && t.fld F.CLK_GEAR_CUR == 5) = true ∧
    runs .synthLock { stowed.setFld F.CLK_GEAR_CUR 7 with sys := { stowed.sys with wakes := 1 } }
            (fun t => t.on F.CLK_SYN_LOCK) = true ∧
    runs .lockLost (up.setFld F.CLK_SYN_ON 1) (fun t => t.on F.CLK_SYN_HOLDOVER && t.on F.CLK_EVT_LOCK_LOST) = true ∧
    up.respOf tcCLOCK < 4 ∧
    runs (.ampLost false) (up.setFld F.CLK_MON_AMP_OK 1) (fun t => t.on F.CLK_EVT_AMP_LOST && t.on F.CLK_SYN_HOLDOVER) = true ∧
    runs (.ampLost false) (stowed.setFld F.CLK_MON_AMP_OK 1) (fun t => t.on F.CLK_SYN_FREERUN && decide (t.sys.pstate = .watch)) = true ∧
    runs (.ampLost true) { stowed with sys := { stowed.sys with pstate := .stowCold, wakes := 1 } }
            (fun t => t.on F.CLK_SYN_FREERUN) = true ∧
    runs .lockRegained ((up.setFld F.CLK_SYN_ON 1).setFld F.CLK_SYN_HOLDOVER 1) (fun t => t.on F.CLK_SYN_LOCK) = true := by
  refine ⟨?_, ?_, ?_, ?_, ?_, ?_, ?_, ?_, ?_, ?_⟩ <;> decide +kernel

/-! ## Reads, locks and streams -/

/-- Hub Time 2 s and 3 units in: HT_LO shows 3 and keeps 2 for HT_HI (R263) -/
theorem witness_SampledReadsShowAndSample :
    shown up .host A.RCK_HT_LO = true ∧
    runs (.htLoSample .host) { up with rck := { up.rck with acc := (2 * 2 ^ 32 + 3) * 2 ^ 64 } }
        (fun t => t.rdata == 3#32 && t.view .host A.RCK_HT_HI == 2#32 && t.view (.window 1) A.RCK_HT_HI == 0#32) = true ∧
    shown up .host A.RCK_SYNC_LO = true ∧
    shown up .host (A.STP_CH_LO 0) = true ∧
    shown up .host (A.STP_CH_LO 9) = true ∧
    shown up .host A.RCK_OFS_LO = true ∧
    shown up .host A.SXT_ANG = true ∧
    shown up .host A.BND_SEQ_LO = true ∧
    shown up .host A.KEY_HW_LO = true ∧
    shown up .host A.KEY_CEIL_LO = true ∧
    runs (.keyCounterSample .host false) { up with tens := [(0, { ten0 with hw := 2 ^ 32 + 7 })] } (fun t => t.rdata == 7#32) = true ∧
    runs (.stampLoSample .host 9) { up with stp := [(9, { stpCh0 with newest := 77 })] } (fun t => t.rdata == 77#32) = true := by
  refine ⟨?_, ?_, ?_, ?_, ?_, ?_, ?_, ?_, ?_, ?_, ?_, ?_⟩ <;> decide +kernel

/-- a response of five bytes is read in two words, and the position returns to its start (R397) -/
theorem witness_StreamReadsMoveOn :
    (answered.streamBytes .host A.KEY_RSP).isSome = true ∧
    answered.readDenied .host false A.KEY_RSP = none ∧
    runs (.keyRspRead .host A.KEY_RSP) answered (fun t => t.rdata == 0x04030201#32 && t.streamPos .host A.KEY_RSP == 4) = true ∧
    runs (.keyRspRead (.window 0) 0x3054) answered (fun t => t.rdata == 0x04030201#32) = true ∧
    runs (.keyAttRead .host A.KEY_ATT) answered (fun t => t.rdata == 0x00000009#32 && t.streamPos .host A.KEY_ATT == 4) = true ∧
    runs (.keyAttRead (.window 0) 0x3058) answered (fun t => t.rdata == 0x00000009#32) = true ∧
    (up.streamBytes .host A.IDN_DPK).isSome = true ∧
    runs (.deviceKeyRead .host) up (fun t => t.streamPos .host A.IDN_DPK == 4) = true ∧
    (up.streamBytes .host A.LOG_DATA).isSome = true ∧
    runs (.logDataRead .host) up (fun t => t.streamPos .host A.LOG_DATA == 4) = true := by
  refine ⟨?_, ?_, ?_, ?_, ?_, ?_, ?_, ?_, ?_, ?_⟩ <;> decide +kernel

/-- a free lock, one that the requester holds, one that another holds; the last lock through a window (R153) -/
theorem witness_LockIsAcquired :
    lockNo (A.LCK_L 0) = some 0 ∧
    lockNo 0x30BC = some 15 ∧
    up.readDenied .host false (A.LCK_L 0) = none ∧
    up.readDenied (.window 0) false 0x30BC = none ∧
    up.lockBars .host 0 = false ∧
    runs (.lockAcquire .host 0) up (fun t => decide ((t.lock 0).holder = some (up.lockId .host)) && t.fld F.LCK_CNT_ACQ == 1) = true ∧
    runs (.lockAcquire (.window 0) 15) up (fun t => decide ((t.lock 15).holder = some (up.lockId (.window 0)))) = true ∧
    runs (.lockAcquire .host 0) (held 0) (fun t => t.rdata == lockWord 3 (up.lockId .host) && t.fld F.LCK_CNT_ACQ == 0) = true ∧
    runs (.lockAcquire (.window 0) 0) (held 0) (fun t => t.rdata == lockWord 8 (up.lockId .host)) = true ∧
    runs (.leaseExpiry 0) (held 0) (fun t => decide (t.lock 0 = ⟨none, true⟩) && t.bit (F.PIRQ 0x09) 8) = true := by
  refine ⟨?_, ?_, ?_, ?_, ?_, ?_, ?_, ?_, ?_, ?_⟩ <;> decide +kernel

/-- the holder's write is a release; another's is denied HOLDER (R154) -/
theorem witness_LockIsReleasedByItsHolder :
    ((held 15).lock 15).holder = some ((held 15).lockId .host) ∧
    ((held 15).release .host 15).isSome = true ∧
    ((held 15).lock 15).holder ≠ some ((held 15).lockId (.window 0)) ∧
    (held 15).permitAt (.window 0) 0x30BC 1 = ⟨none, some 9⟩ ∧
    lockNo (A.LCK_L 15) = some 15 ∧
    acts (held 15) .host (A.LCK_L 15) 1 1 = true ∧
    runs (.lockRelease .host 15) (held 15) (fun t => decide (t.lock 15 = ⟨none, false⟩)) = true := by
  refine ⟨?_, ?_, ?_, ?_, ?_, ?_, ?_⟩ <;> decide +kernel

/-! ## Commits -/

/-- every commit that is a command can act -/
theorem witness_CommitsThatAreCommands :
    acts up .host A.PWR_VHOST (up.withField F.PWR_VHOST_EN 0).2 (up.withField F.PWR_VHOST_EN 0).2 = true ∧
    acts up .host A.PWR_VHOST (up.withField F.PWR_VHOST_EN 1).2 (up.withField F.PWR_VHOST_EN 1).2 = true ∧
    acts up .host (A.PWR_VSENS 2) (up.withField (F.PWR_VSENS_EN 2) 1).2 (up.withField (F.PWR_VSENS_EN 2) 1).2 = true ∧
    acts up .host (256 * 0x16 + 8) (up.fld (F.PCTL_EN 0x16) + 2) (up.fld (F.PCTL_EN 0x16) + 2) = true ∧
    runs (.pctlEnWrite .host 0x16 true) up (fun t => t.pageOn 0x16) = true ∧
    acts up .host A.SYS_WDOG_KICK 0 0 = true ∧
    runs (.wdogKick .host 0) { up with sys := { up.sys with wdog := 9 } } (fun t => t.sys.wdog == 0) = true ∧
    acts up .host A.SYS_WDOG_KICK 65536 65536 = true ∧
    runs (.wdogSleep .host 0) up (fun t => t.on F.SYS_WDOG_STAT_SUSPENDED) = true ∧
    acts up .host A.SYS_HREL (up.withField F.SYS_HREL_PULSE_NOW 1).2 (up.withField F.SYS_HREL_PULSE_NOW 1).2 = true ∧
    runs (.pulseNow .host) (up.setFld F.SYS_HREL_RELEASED 1) (fun t => t.sys.pulse && t.fld F.SYS_SESSION_NUM == 1) = true ∧
    acts up .host A.SYS_SESSION (2 ^ 31) (2 ^ 31) = true ∧
    acts up .host A.QUE_FLUSH (0x48 + 2 ^ 24 * 0xF1) (0x48 + 2 ^ 24 * 0xF1) = true ∧
    runs (.queFlush .host 0x48 0xF1) { up with queues := [(0x48, [healthEntry])] } (fun t => (t.queue 0x48).isEmpty) = true ∧
    acts up .host A.QUE_FLUSH (128 + 2 ^ 24 * 0xF1) (128 + 2 ^ 24 * 0xF1) = true ∧
    acts up .host (A.ROS_FIRE 1) (2 ^ 31) (2 ^ 31) = true ∧
    runs (.roseFire .host false 1#32) (up.setFld (F.ROS_CH_CEN 0) 1) (fun t => t.rose.length == 1) = true ∧
    acts up .host (A.ROS_IFLG 0) 1 1 = true := by
  refine ⟨?_, ?_, ?_, ?_, ?_, ?_, ?_, ?_, ?_, ?_, ?_, ?_, ?_, ?_, ?_, ?_, ?_, ?_⟩ <;> decide +kernel

/-- SYS_RST_CMD with CONFIRM 0x5EED acts, with another it does nothing (R123) -/
theorem witness_ResetCommandsByRegister :
    acts up .host A.SYS_RST_CMD 0x5EED0001 0x5EED0001 = true ∧
    runs (.rstCmdDatapath .host 0x5EED) up (fun t => t.rst.dp.isSome) = true ∧
    acts up .host A.SYS_RST_CMD 0x5EED0002 0x5EED0002 = true ∧
    runs (.rstCmdTenant .host 0 0x5EED) up (fun t => t.resetting 0) = true ∧
    acts up .host A.SYS_RST_CMD 0x5EED0003 0x5EED0003 = true ∧
    runs (.rstCmdFull .host 0x5EED) up (fun t => decide (t.sys.phase = .booting)) = true := by
  refine ⟨?_, ?_, ?_, ?_, ?_, ?_⟩ <;> decide +kernel

/-- every commit that is a command can act -/
theorem witness_MoreCommitsThatAreCommands :
    acts up .host (A.TWC_FCLR 0) 0 0 = true ∧
    acts up .host (A.SPC_FCLR 2) 0 0 = true ∧
    acts up .host A.AFE_TS 0 0 = true ∧
    runs (.touchstoneNow .host 0x01000000#32) ((up.setFld (F.PCTL_EN 0x17) 1).setFld F.AFE_CFG_CH_EN 1) (fun t => t.on (F.AFE_TSRES_DONE 0)) = true ∧
    acts up .host A.ROS_FCLR 3 3 = true ∧
    runs (.flareClear .host 3#32) ((up.setFld (F.ROS_FLR_REL 1) 1).setFld (F.ROS_FLR_STATE 1) 1) (fun t => !t.on (F.ROS_FLR_STATE 1)) = true ∧
    acts up .host (A.ROS_FLR 1) (up.withField (F.ROS_FLR_REL 1) 1).2 (up.withField (F.ROS_FLR_REL 1) 1).2 = true ∧
    acts up .host A.TAM_CLR 1 1 = true ∧
    acts up .host A.TST_MODE 1 1 = true ∧
    acts up .host A.TST_MODE 2 2 = true ∧
    runs (.registerWrite .host [(A.CLK_GREQ, 3#32)]) up (fun t => t.fld F.CLK_GREQ_GEAR == 3) = true ∧
    runs (.descriptorCommit .host 255 9 [0x00040001#32, 0, 0, 1000, 0, 0, 0, 0]) up (fun t => dEn (t.desc 255).words) = true ∧
    runs (.cmdAssemblyWrite (.window 0) 0 [0xC5#8, 1, 0, 0x2B]) up (fun t => (t.asmOf 0).bytes.length == 4) = true := by
  refine ⟨?_, ?_, ?_, ?_, ?_, ?_, ?_, ?_, ?_, ?_, ?_, ?_, ?_⟩ <;> decide +kernel

/-- a write outside a window's page is denied REACH, recorded and counted (R136, R145) -/
theorem witness_CommitActsAndDenies :
    isSel A.CLK_GREQ = false ∧
    (isTn A.CLK_GREQ && A.CLK_GREQ % 256 == 0x68) = false ∧
    up.decideWrites .host [⟨A.CLK_GREQ, 3, false, false⟩] = ([(A.CLK_GREQ, 3)], []) ∧
    up.decideWrites (.window 1) [⟨A.CLK_GREQ, 3, false, false⟩] = ([], [(A.CLK_GREQ, dcREACH)]) ∧
    (up.deny (.window 1) A.CLK_GREQ dcREACH true).sys.phase = up.sys.phase ∧
    (up.deny (.window 1) A.CLK_GREQ dcREACH true).fld (F.PDEN_COUNT 0x02) = 1 := by
  refine ⟨?_, ?_, ?_, ?_, ?_, ?_⟩ <;> decide +kernel

/-- each cause of R145 that a page or requester decides -/
theorem witness_AccessIsDeniedInOrder :
    writable 0x0244 = false ∧
    writable A.CLK_GREQ = true ∧
    up.permit .host ⟨A.CLK_GREQ, 0, true, false⟩ = .no dcPARTIAL ∧
    (fieldedUp.lifeDenies .jtag 0x02) = true ∧
    (fieldedUp.lifeDenies .host 0x27) = true ∧
    (fieldedUp.lifeDenies (.window 1) 0x02) = false ∧
    reaches (.window 1) false 0x02 = false ∧
    masksAt A.CLK_GREQ ≠ none ∧
    (fieldedUp.seat (.window 1) (A.BND_LCFG 0)).free = false ∧
    ownerDenies (fieldedUp.seat (.window 1) (A.BND_LCFG 0)) (.window 1) = true ∧
    reaches (.window 1) true 0x21 = true ∧
    woOnly (A.BND_LCFG 0) = false ∧
    masksAt (A.BND_LCFG 0) = some ⟨(masksAt (A.BND_LCFG 0)).map (fun m => m.rw) |>.getD 0, (masksAt (A.BND_LCFG 0)).map (fun m => m.wo) |>.getD 0,
        (masksAt (A.BND_LCFG 0)).map (fun m => m.w1c) |>.getD 0, .plain⟩ ∧
    (hiddenUp.seat .host (A.PLN_AVS_STAT)).hp = true ∧
    hiddenUp.fielded = true ∧
    (hiddenUp.readReg .host false A.PLN_AVS_STAT).1 = 0#32 ∧
    { up with tam := { up.tam with probeRaised := true } }.tam.probeRaised = true := by
  refine ⟨?_, ?_, ?_, ?_, ?_, ?_, ?_, ?_, ?_, ?_, ?_, ?_, ?_, ?_, ?_, ?_, ?_⟩ <;> decide +kernel

/-- kicks of the session, with SLEEP, of another session; a wake that ends SLEEP (R104) -/
theorem witness_WatchdogKicks :
    reqHostSide .host = true ∧
    0 % 65536 = up.fld F.SYS_SESSION_NUM ∧
    (65536).testBit 16 = true ∧
    (1 : Nat) % 65536 ≠ up.fld F.SYS_SESSION_NUM ∧
    (up.kick .host 1).fld F.SYS_WDOG_STAT_BAD_KICK = 1 ∧
    up.hwake = false ∧
    (up.setFld F.SYS_WDOG_STAT_SUSPENDED 1).on F.SYS_WDOG_STAT_SUSPENDED = true ∧
    F.SYS_HWAKE_ROSE.addr = A.SYS_HWAKE := by
  refine ⟨?_, ?_, ?_, ?_, ?_, ?_, ?_, ?_⟩ <;> decide +kernel

/-- the first and last reserved pages (R8) -/
theorem witness_ReservedPagesReadZero :
    (0x0F00 : Nat) / 256 = 0x0F ∧
    (0x2800 : Nat) / 256 = 0x28 ∧
    (0x2FFC : Nat) / 256 = 0x2F ∧
    (0x3800 : Nat) / 256 = 0x38 ∧
    (0xFFFC : Nat) / 256 = 0xFF ∧
    (up.readReg .host false 0x2FFC).1 = 0#32 := by
  refine ⟨?_, ?_, ?_, ?_, ?_, ?_⟩ <;> decide +kernel

/-- 2,500 ns are 960 ticks, and 1 ns is one (R49) -/
theorem test_nanoseconds_round_up :
    nsTicks 2500 = 960 ∧
    nsTicks 1 = 1 ∧
    nsTicks 0 = 0 := by
  refine ⟨?_, ?_, ?_⟩ <;> decide +kernel

/-! ## The Steward -/

/-- refused for its format, taken, and another row's opcode -/
theorem witness_StewardDecidesBeforeItRuns :
    (sent 0x02 [] up).env.map cmdOf = some (cmd 0x02 []) ∧
    up.stewardBusy = false ∧
    (sent 0x05 [1] up).check (cmd 0x05 [1]) = .refuse stPARAM true ∧
    (opRule 0x03).isSome = true ∧
    (cmd 0x02 []).opcode = 0x02 ∧
    runs .chartData (sent 0x02 [] up) (fun t => t.env.isSome) = true := by
  refine ⟨?_, ?_, ?_, ?_, ?_, ?_⟩ <;> decide +kernel

theorem witness_ChartAndConfigCommandsRun :
    passes 0x02 chartHead up = true ∧
    48 + fieldLE (cmd 0x02 chartHead).payload 8 4 ≤ chartMax (cmd 0x02 chartHead).tenant ∧
    runs .chartBegin (sent 0x02 chartHead up) (fun t => (t.ten 0).upload.isSome && t.lastStatus 0 == 0) = true ∧
    passes 0x03 [3, 0, 0, 0, 7] (uploading (List.replicate 4 none)) = true ∧
    up.dipHold = false ∧
    (∀ r : Bool, (((uploading (List.replicate 4 none)).begun (cmd 0x03 [3, 0, 0, 0, 7]) r).ten 0).upload.isSome = true) ∧
    (∀ r : Bool, 3 + 1 ≤ (((uploading (List.replicate 4 none)).begun (cmd 0x03 [3, 0, 0, 0, 7]) r).ten 0).staged.length) ∧
    runs .chartData (sent 0x03 [3, 0, 0, 0, 7] (uploading (List.replicate 4 none)))
        (fun t => (t.ten 0).staged == [none, none, none, some 7] && t.stw.nvq.length == 1) = true ∧
    passes 0x04 [] up = true ∧
    (∀ r : Bool, ((up.begun (cmd 0x04 []) r).ten 0).upload = none) ∧
    runs .chartCommit (sent 0x04 [] up) (fun t => t.lastStatus 0 == stSTATE) = true ∧
    passes 0x04 [] (uploading [some 1]) = true ∧
    (∀ r : Bool, ((((uploading [some 1]).begun (cmd 0x04 []) r).ten 0).upload).isSome = true) ∧
    (∀ r : Bool, stagedBytes (((uploading [some 1]).begun (cmd 0x04 []) r).ten 0).staged = some [1]) ∧
    passes 0x05 [] up = true ∧
    runs .configStore (sent 0x05 [] up) (fun t => t.stw.nvq.length == 1) = true := by
  refine ⟨?_, ?_, ?_, ?_, ?_, ?_, ?_, ?_, ?_, ?_, ?_, ?_, ?_, ?_, ?_, ?_⟩ <;> decide +kernel

theorem witness_KeyAndTenantCommandsRun :
    takesIt 0x10 (zeros 64) up = true ∧
    passes 0x11 (zeros 40) keyed = true ∧
    (∀ r : Bool, ((keyed.begun (cmd 0x11 (zeros 40)) r).activeSlot 0).isSome = true) ∧
    takesIt 0x20 (zeros 72) up = true ∧
    takesIt 0x21 (zeros 72) up = true ∧
    takesIt 0x22 (zeros 4) up = true := by
  refine ⟨?_, ?_, ?_, ?_, ?_, ?_⟩ <;> decide +kernel

theorem witness_ResetAndLifecycleCommandsRun :
    passes 0x28 (zeros 4) up = true ∧
    (∀ r : Bool, (up.begun (cmd 0x28 (zeros 4)) r).tenExists 0 = true) ∧
    runs .tenantReset (sent 0x28 (zeros 4) up) (fun t => t.resetting 0) = true ∧
    passes 0x29 [] up = true ∧
    runs .datapathReset (sent 0x29 [] up) (fun t => t.rst.dp.isSome) = true ∧
    passes 0x2A [] up = true ∧
    runs .fullResetCmd (sent 0x2A [] up) (fun t => decide (t.sys.cause = .cmd)) = true ∧
    passes 0x2B [] (up.setFld F.SYS_HREL_RELEASED 1) = true ∧
    (up.setFld F.SYS_HREL_RELEASED 1).fld F.SYS_HREL_RELEASED = 1 ∧
    runs .hostReset (sent 0x2B [] (up.setFld F.SYS_HREL_RELEASED 1)) (fun t => t.fld F.SYS_SESSION_NUM == 1) = true ∧
    passes 0x30 [9, 0, 0, 0] lifeReady = true ∧
    (∀ r : Bool, (lifeReady.begun (cmd 0x30 [9, 0, 0, 0]) r).lifeGood lifeReady.life 9 false = true) ∧
    lifeReady.lifeEnergy = true ∧
    runs .lifecycle (sent 0x30 [9, 0, 0, 0] lifeReady) (fun t => t.stw.life1.isSome) = true ∧
    lifeReady.lifeGood (15 - lifeReady.nv.lifeInv) 9 false = true ∧
    runs (.lifecycleSecondDecision true) { lifeReady with stw := { lifeReady.stw with life1 := some (9, ticket1) } }
        (fun t => t.nv.life == 9 && t.nv.lifeInv == 6) = true := by
  refine ⟨?_, ?_, ?_, ?_, ?_, ?_, ?_, ?_, ?_, ?_, ?_, ?_, ?_, ?_, ?_, ?_⟩ <;> decide +kernel

theorem witness_AttestPatchAndWriteRun :
    passes 0x18 (zeros 32) up = true ∧
    runs .attest (sent 0x18 (zeros 32) up) (fun t => (t.ten 0).signing) = true ∧
    runs (.attestSignDone 0) { up with tens := [(0, { ten0 with signing := true })] } (fun t => t.bit (F.PIRQ 0x22) 10) = true ∧
    passes 0x38 [1, 0, 0, 0, 0, 0, 0, 0] up = true ∧
    (cmd 0x38 [1, 0, 0, 0, 0, 0, 0, 0]).byte 0 = 1 ∧
    runs .patchLoadBegin (sent 0x38 [1, 0, 0, 0, 0, 0, 0, 0] up) (fun t => t.stw.patchOpen) = true ∧
    passes 0x38 [2, 0, 0, 0, 0, 0, 0, 0, 9] patching = true ∧
    runs .patchLoadData (sent 0x38 [2, 0, 0, 0, 0, 0, 0, 0, 9] patching) (fun t => t.stw.patchBuf == [some 9]) = true ∧
    passes 0x38 [3, 0, 0, 0, 0, 0, 0, 0] { patching with stw := { patching.stw with patchBuf := [some 1] } } = true ∧
    stagedBytes [some (1 : Byte)] = some [1] ∧
    passes 0x01 [] up = true ∧
    (∀ r : Bool, (up.begun (cmd 0x01 []) r).dormant 0 = false) ∧
    recsOf 2 [] = some [] ∧
    (∀ r : Bool, (up.begun (cmd 0x01 []) r).sameRun ((up.begun (cmd 0x01 []) r).applyRecs (.steward 0) []).state = true) ∧
    passes 0x01 [] (up.setFld F.SYS_DORM_DORMANT 1) = true ∧
    (∀ r : Bool, ((up.setFld F.SYS_DORM_DORMANT 1).begun (cmd 0x01 []) r).dormant 0 = true) := by
  refine ⟨?_, ?_, ?_, ?_, ?_, ?_, ?_, ?_, ?_, ?_, ?_, ?_, ?_, ?_, ?_, ?_⟩ <;> decide +kernel

theorem witness_KeyUpdateStepsAndNvWrites :
    updating.mapsWf = true ∧
    updating.stw.nvActive = false ∧
    updating.keyWriting = false ∧
    updating.keyWait 0 false = false ∧
    updating.keyFirst 0 = true ∧
    runs (.keyUpdateWrite 0 true) updating (fun t => (t.slot 0 false).gen == 1 && (t.slot 0 false).writes == 1) = true ∧
    updatingLast.life ≠ 3 ∧
    runs (.keyUpdateCommit 0 true) updatingLast (fun t => (t.slot 0 false).valid && (t.ten 0).activeB == some false) = true ∧
    runs (.nvWriteComplete true) (writing (.config ticket1 [])) (fun t => t.nv.configGood && t.stw.nvq.isEmpty) = true ∧
    runs (.chartCommitDone 0 true) (writing (.chartCommit ticket1 (zeros 48))) (fun t => (t.tnv 0).chart.isSome && t.resetting 0) = true ∧
    runs (.seqReservationCommit 0) (writing (.seqReserve 0 65536)) (fun t => (t.tnv 0).seqHw == 65536) = true ∧
    (writing .logEntry).mapsWf = true ∧
    (writing .logEntry).cclk = true ∧
    (writing .logEntry).on F.LOG_STATUS_SCAN = false ∧
    (writing .logEntry).on F.LOG_STATUS_DEAD = false ∧
    { writing .logEntry with log := { up.log with pend := [⟨7, 1, 1, 0, 0, 0, 0⟩] } }.log.pend = [⟨7, 1, 1, 0, 0, 0, 0⟩] := by
  refine ⟨?_, ?_, ?_, ?_, ?_, ?_, ?_, ?_, ?_, ?_, ?_, ?_, ?_, ?_, ?_, ?_⟩ <;> decide +kernel

/-! ## The data path -/

theorem witness_TriggersMoveTheStream :
    (withDesc (wordsOf 0)).mapsWf = true ∧
    ((withDesc (wordsOf 0)).desc 255).next + htUs ((withDesc (wordsOf 0)).desc 255).ofs ≤ (withDesc (wordsOf 0)).ht ∧
    (withDesc (wordsOf 0)).resetting 0 = false ∧
    (withDesc (wordsOf 0)).portRefuses 0 = none ∧
    runs (.timeTrigger 255) (withDesc (wordsOf 0)) (fun t => (t.desc 255).next == 256000 && (t.desc 255).seq == 1
        && (t.desc 255).pend.isSome) = true ∧
    runs (.chainTrigger 255) { withDesc (wordsOf 3) with chainDue := [255] } (fun t => t.chainDue.isEmpty && (t.desc 255).seq == 1) = true ∧
    dTrig (wordsOf 1) = 1 ∧
    lockedUp.locked = true ∧
    runs (.angleTrigger 255) { lockedUp with descs := (withDesc (wordsOf 1)).descs } (fun t => (t.desc 255).seq == 1) = true := by
  refine ⟨?_, ?_, ?_, ?_, ?_, ?_, ?_, ?_, ?_⟩ <;> decide +kernel

theorem witness_RequestsAreWithdrawnAndSkipped :
    deadline (request ((wordsOf 0).set 5 1)) = some 4294 ∧
    runs (.jitDeadline 255) { pendingReq ((wordsOf 0).set 5 1) with rck := { up.rck with acc := 4294 * 2 ^ 64 }, queues := dispatched.queues } (fun t => (t.desc 255).skips == 1 && (t.desc 255).pend.isNone) = true ∧
    runs (.noLockTargetSkip 255) (pendingReq (wordsOf 1)) (fun t => (t.desc 255).skips == 1 && t.bit (F.PIRQ 0x18) 8) = true ∧
    runs .angleWithdraw (pendingReq (wordsOf 1)) (fun t => (t.desc 255).pend.isNone) = true ∧
    runs .shareWindowEnd { up with charge := [(0, 5)], rck := { up.rck with acc := 42949673 * 2 ^ 64 } }
        (fun t => t.chargeOf 0 == 0 && t.chargeWas 0 == 5 && t.shareNow == 1) = true := by
  refine ⟨?_, ?_, ?_, ?_, ?_⟩ <;> decide +kernel

theorem witness_DispatchAndStart :
    (pendingReq (wordsOf 0)).nextRequest = some (request (wordsOf 0)) ∧
    runs .dispatch (pendingReq (wordsOf 0)) (fun t => (t.queue (qDisp 0)).length == 1 && (t.desc 255).pend.isNone) = true ∧
    dispatched.canTake 0 = true ∧
    gearLt (dispatched.setFld F.CLK_GEAR_CUR 3).gear ((dispatched.setFld F.CLK_GEAR_CUR 3).portFloor 0 (wordsOf 0)) = false ∧
    (dispatched.setQueue (qDisp 0) []).canPut (qCap 0) .port 1 dispatched.ht = true ∧
    runs (.transferStart 0) (dispatched.setFld F.CLK_GEAR_CUR 3) (fun t => (t.xfer 0).isSome) = true ∧
    gearLt dispatched.gear (dispatched.portFloor 0 (wordsOf 0)) = true := by
  refine ⟨?_, ?_, ?_, ?_, ?_, ?_, ?_⟩ <;> decide +kernel

theorem witness_TransfersEnd :
    transferring.mapsWf = true ∧
    transferring.driving 0 = true ∧
    runs (.transferEnd 0 [1, 2, 3, 4] 0 0 0 0) transferring (fun t => (t.xfer 0).isNone && (t.queue (qCap 0)).length == 1) = true ∧
    runs (.transferEnd 0 [] 2 0 0 0) transferring (fun t => (t.xfer 0).isNone) = true ∧
    (transferring.xfer 0).map (fun x => (x.waitFree, decide (getBits (x.cfg.getD 0 0) 4 4 ≤ x.losses))) = some (false, true) ∧
    runs (.arbLost ⟨0, [7]⟩) (transferringWith [0x10]) (fun t => (t.xfer 0).isSome && !(t.driving 0)) = true ∧
    runs (.busStuck 3 []) (up.setFld (F.PCTL_EN 0x13) 1) (fun t => (t.prt 3).blocked && t.bit (F.PIRQ 0x13) 10) = true ∧
    runs (.busFree 3) (up.setFld (F.PCTL_EN 0x13) 1) (fun t => (t.prt 3).busFree) = true ∧
    runs (.busRecovery 0) (up.setFld (F.PCTL_EN 0x10) 1) (fun t => t.fld (F.TWC_CNT_RECOV 0) == 1) = true := by
  refine ⟨?_, ?_, ?_, ?_, ?_, ?_, ?_, ?_, ?_⟩ <;> decide +kernel

/-- the credits of a queue are all spent, and all there -/
theorem witness_QueuesNeverOverdrawCredits :
    slotsOf (up.queue (qCap 0)) .port ≤ queBase (qCap 0) .port ∧
    up.pendOf (qCap 0) .port = [] ∧
    up.credits (qCap 0) .port = 16 ∧
    { up with queues := [(qCap 0, [⟨.port, 16, .capture capture1⟩])] }.credits (qCap 0) .port = 0 ∧
    ((up.enqueue (qCap 0) .port 16 (.capture capture1) 255 0).queue (qCap 0)).length = 0 ∧
    ((up.enqueue (qCap 0) .port 15 (.capture capture1) 255 0).queue (qCap 0)).length = 1 ∧
    (captured.popQueue (qCap 0)).isSome = true := by
  refine ⟨?_, ?_, ?_, ?_, ?_, ?_, ?_⟩ <;> decide +kernel

theorem witness_AnalogFrontEndRuns :
    afeUp.mapsWf = true ∧
    afeUp.converts 1 = true ∧
    runs (.afeConversion 0 5 false) afeUp (fun t => (t.ach 0).discard == 1 && (t.ach 0).buf.isEmpty) = true ∧
    afeUp.railOff 7 = false ∧
    runs .afeDrain { afeUp with queues := [(qDisp 7, [⟨.psq, 1, .request (request (wordsOf 0))⟩])] }
        (fun t => t.fld F.AFE_CNT_EMPTY == 1 && (t.queue (qDisp 7)).isEmpty) = true ∧
    runs .excSettleEnd { afeUp with afe := { afeUp.afe with settling := true } } (fun t => !t.afe.settling) = true ∧
    runs .excOpen afeUp (fun t => t.bit F.AFE_FAULT_EXC_OPEN 0) = true ∧
    runs (.touchstoneStart 0) (afeUp.setFld F.AFE_TS_PER 1) (fun t => (t.ach 0).touch == 6) = true ∧
    runs (.touchstoneStart 0) { afeUp.setFld F.AFE_TS_PER 1 with afeCh := [(0, { afeCh0 with cal := 6 })] }
        (fun t => (t.ach 0).touch == 6 && (t.ach 0).cal == 0 && (t.ach 0).calWait) = true ∧
    runs (.touchstoneStart 1) { afeUp.setFld F.AFE_TS_PER 1 with afeCh := [(1, { afeCh0 with cal := 5 })] } (fun t => (t.ach 1).touchWait) = true ∧
    runs .excOvercurrent afeUp (fun t => t.afe.excBlocked && !t.afe.excOn) = true ∧
    ((afeUp.setFld F.AFE_CALPER_SEC 1).setFld ⟨loopCAL 1, 0, 1⟩ 1).loopLive (loopCAL 1) = true := by
  refine ⟨?_, ?_, ?_, ?_, ?_, ?_, ?_, ?_, ?_, ?_, ?_, ?_⟩ <;> decide +kernel

theorem witness_StampsAndBeacons :
    runs (.edgeStamp 9 false 0 0 0) ((up.setFld (F.STP_CH_CFG_EN 9) 1).setFld (F.STP_CH_CFG_EDGE 9) 0) (fun t => (t.chan 9).count == 1) = true ∧
    runs (.edgeStamp 0 true 2 0 39) ((up.setFld (F.STP_CH_CFG_EN 0) 1).setFld (F.STP_CH_CFG_EDGE 0) 1) (fun t => (t.chan 0).count == 3) = true ∧
    (up.setFld F.CLK_SYN_ON 1).on F.CLK_SYN_ON = true ∧
    lineHits (up.lineOf 0) < up.icalN ∧
    runs (.icalHit 9 39) (up.setFld F.CLK_SYN_ON 1) (fun t => (t.lineOf 9).hits.getD 39 0 == 1) = true ∧
    runs (.beaconWindowEnd 7) { up with rck := { up.rck with acc := 2 ^ 96, sync := [⟨0, 7, false, false, false⟩] } }
        (fun t => t.rck.sync.all (fun e => e.ended)) = true ∧
    firstWith (fun k => captured.urgentHead k) (List.range 8) = none ∧
    (captured.setQueue (qCap 0) []).resetDiscards capture1 = none ∧
    runs (.stampService 0) captured (fun t => (t.queue (qCap 0)).isEmpty) = true ∧
    (List.range 8).all (fun k => !copied.urgentHead k) = true ∧
    (copied.setQueue (qCap 0) []).resetDiscards capture1 = none ∧
    copied.captureConsumers capture1 = [(qUnit 0, true)] ∧
    copied.pendOf (qUnit 0) .stamp = [] ∧
    runs (.stampService 0) copied (fun t => (t.queue (qUnit 0)).map (fun e => e.body) ==
        [.item ⟨0x01, 0, 255, 1, 0, [1, 0, 0, 0, 0, 0, 0, 0, 0, 0, 0, 0, 0, 0, 0, 0, 1, 2, 3, 4]⟩]) = true ∧
    (up.setUnsent 7 [item1]).unsentOf 7 = [item1] ∧
    (up.setUnsent 7 [item1]).canPut (qIntake 7 1) .record (itemSlots item1) item1.ht = true ∧
    runs (.epochRecordEnqueue 7) (up.setUnsent 7 [item1]) (fun t => (t.queue (qIntake 7 1)).length == 1) = true ∧
    ({ up with queues := [(qIntake 7 1, [⟨.record, 6, .item item1⟩])] }.setUnsent 7 [item1]).canPut (qIntake 7 1) .record
        (itemSlots item1) item1.ht = false := by
  refine ⟨?_, ?_, ?_, ?_, ?_, ?_, ?_, ?_, ?_, ?_, ?_, ?_, ?_, ?_, ?_, ?_, ?_, ?_⟩ <;> decide +kernel

theorem witness_SextantAndResampler :
    lockedUp.sxtMissing = false ∧
    { lockedUp with sxt := { lockedUp.sxt with omega := 2 ^ 32 }, rck := { lockedUp.rck with acc := 3 * 2 ^ 96 } }.sxtMissing = true ∧
    runs (.sxtLockLost 2) { lockedUp with sxt := { lockedUp.sxt with omega := 2 ^ 32 }, rck := { lockedUp.rck with acc := 3 * 2 ^ 96 } } (fun t => !t.locked && t.on F.SXT_EVT_LOST && t.bit (F.PIRQ 0x07) 8) = true ∧
    { lockedUp with sxt := { lockedUp.sxt with bad := 255 } }.lose ≤ 255 ∧
    lockedUp.tooSlow = true ∧
    { lockedUp with sxt := { lockedUp.sxt with omega := 2 ^ 43 } }.tooFast = true ∧
    runs (.angleComparatorFire 15) { (((lockedUp.setFld (F.SXT_CMP_EN 15) 1).setFld (F.SXT_CMP_ONCE 15) 1).setFld
        (F.SXT_CMP_ANGLE 15) 1) with sxt := { lockedUp.sxt with out := BitVec.ofNat 96 (256 * 2 ^ 32) } }
        (fun t => t.bit F.SXT_CMPSTAT_FIRED 15 && !t.on (F.SXT_CMP_EN 15)) = true ∧
    (((lockedUp.setFld (F.SXT_CMP_EN 15) 1).setFld (F.SXT_CMP_ANGLE 15) 1)).cmpPasses 15 = false ∧
    lockedUp.loopLo loopBW ≤ lockedUp.loopHi loopBW ∧
    (lockedUp.setFld ⟨loopBW, 0, 1⟩ 1).loopLive loopBW = true ∧
    { lockedUp with stp := [(8, { stpCh0 with newest := 9 })] }.idxUsed = true ∧
    lockedUp.sxt.lastIdx < ({ lockedUp with stp := [(8, { stpCh0 with newest := 9 })] }.chan 8).newest ∧
    runs .idxMeasurement { up.setFld (F.PCTL_EN 0x07) 1 with stp := [(8, { stpCh0 with newest := 9 })] } (fun t => t.sxt.lastIdx == 9) = true ∧
    runs (.resamplerOutput 7) bracketed (fun t => (t.rchan 7).next == some 1 && (t.rchan 7).outCnt == 1) = true ∧
    bracketed.rsmFirst 7 (bracketed.rsmPhi 7 0) < bracketed.rsmFirst 7 (nearAngle (bracketed.rsmPhi 7 0) (bracketed.rsmPhi 7 (2 ^ 62))) ∧
    ((up.setFld (F.PCTL_EN 0x08) 1).setFld (F.RSM_CH_CFG_EN 7) 1).on (F.RSM_CH_CFG_EN 7) = true := by
  refine ⟨?_, ?_, ?_, ?_, ?_, ?_, ?_, ?_, ?_, ?_, ?_, ?_, ?_, ?_, ?_, ?_⟩ <;> decide +kernel

theorem witness_AssayRuns :
    assaying.nextUnit = some 0 ∧
    (assaying.headItem 0).map (fun i => assaying.passWaits 0 i) = some false ∧
    runs (.assayGapInput 0) { assaying with queues := [(qUnit 0, [⟨.stamp, 1, .gaps []⟩])] } (fun t => (t.unit 0).restartFeat) = true ∧
    runs (.criticalSecondDecision 23 true) { up with asy := [(23, { asy0 with cpend := some ⟨true, 1, item1⟩ })] }
        (fun t => (t.unit 23).cpend.isNone && t.isActive 23) = true ∧
    runs (.criticalSecondDecision 0 false) { up with asy := [(0, { asy0 with cpend := some ⟨false, 2, item1⟩ })] }
        (fun t => (t.unit 0).cpend.isNone && t.latched tcDOUBLE) = true ∧
    { up with asy := [(0, { asy0 with cpend := some ⟨true, 1, item1⟩, forced := true })] }.mapsWf = true := by
  refine ⟨?_, ?_, ?_, ?_, ?_, ?_⟩ <;> decide +kernel

/-! ## Rose, bundles, loops, tamper -/

theorem witness_RoseAndBundlerRun :
    consuming.roseReach ⟨0, 16#32, none⟩ = some (0, .line 0, none, false) ∧
    runs .roseEvent consuming (fun t => t.rose.isEmpty) = true ∧
    flaring.roseReach ⟨0, 32#32, none⟩ = some (0, .flare 0, none, false) ∧
    runs .roseEvent flaring (fun t => t.on (F.ROS_FLR_STATE 0)) = true ∧
    (consumingAt 3).roseReach ⟨0, 128#32, none⟩ = some (0, .hostWake, none, false) ∧
    runs .roseEvent (consumingAt 3) (fun t => t.on F.SYS_HWAKE_ROSE && t.bit (F.ROS_EVT_BITS 0) 0) = true ∧
    runs (.flarePulseEnd 1) ({ up with sys := { up.sys with flares := 3 } }.setFld (F.ROS_FLR_STATE 1) 1)
        (fun t => t.sys.flares == 1 && !t.on (F.ROS_FLR_STATE 1)) = true ∧
    (List.range 32).all (fun j => !taking.mustWait j) = true ∧
    firstWith (fun j => !(taking.queue (qIntake (j / 4) (j % 4))).isEmpty) (intakeOrder taking.hallmark.rr) = some 2 ∧
    runs .bundlerIntake taking (fun t => (t.lane 2).items == [item1] && (t.lane 2).len == 12) = true ∧
    taking.on (F.QUE_TCFG_L3_NEWEST 0) = false ∧
    taking.overLimit 2 (itemBytes item1) = false ∧
    taking.allows 0 (taking.laneNeed 2 (itemBytes item1)) = true ∧
    (taking.setFld (F.QUE_TQ_MAX 0) 0).allows 0 ((taking.setFld (F.QUE_TQ_MAX 0) 0).laneNeed 2 (itemBytes item1)) = false ∧
    runs (.bundleAgeExpiry 0 3) ({ up with lanes := [(3, { lane0 with items := [item1], len := 12 })], rck := { up.rck with acc := 2 ^ 96 } }.setFld (F.BND_LCFG_AGE (qOut 0 3)) 1)
        (fun t => (t.lane 3).closeReq) = true ∧
    firstWith (fun j => (closing.lane j).closeReq && !(closing.lane j).items.isEmpty && closing.canClose j) closeOrder = some 3 ∧
    runs .bundleClose closing (fun t => (t.closedOf 3).length == 1 && t.hallmark.queue == [(3, 7)] && (t.ten 0).seqNext == 8) = true ∧
    (prodOf 5).isSome = true ∧
    gapWaits.mapsWf = true ∧
    gapWaits.pendOf 0x20 .port = [⟨3, some (part1 gcCREDIT none 7), none, false, false, false⟩] ∧
    runs (.gapRecordEnqueue 0x20 1) gapWaits (fun t => (t.queue 0x20).length == 1 && (t.pendOf 0x20 .port).isEmpty &&
        t.fld F.QUE_STAT_GAPS == 1) = true := by
  refine ⟨?_, ?_, ?_, ?_, ?_, ?_, ?_, ?_, ?_, ?_, ?_, ?_, ?_, ?_, ?_, ?_, ?_, ?_, ?_, ?_, ?_⟩ <;> decide +kernel

theorem witness_SealsHealthAndMemoryErrors :
    sealing.mapsWf = true ∧
    sealing.bundleAt 3 0 = some { sealedBundle with mode := 2, done := false } ∧
    runs .sealStart sealing (fun t => t.hallmark.work == some (3, 0) && t.hallmark.queue.isEmpty) = true ∧
    runs .sealStart (sealing.setFld F.TAM_LATCH_SEALSTOP 1) (fun t => t.hallmark.work.isNone && t.bit (F.PIRQ 0x21) 8) = true ∧
    runs .sealDone { up with closed := [(3, [{ sealedBundle with done := false }])], hallmark := { up.hallmark with work := some (3, 0) } }
        (fun t => (t.closedOf 3).all (fun b => b.done) && t.hallmark.work.isNone) = true ∧
    (up.setFld F.BND_HCFG_PER 1).dormant 0 = false ∧
    runs .healthRecord (up.setFld F.BND_HCFG_PER 1) (fun t => (t.queue (qIntake 0 2)).length == 1 && (t.ten 0).recCnt == 1) = true ∧
    (up.setFld ⟨loopPLC, 0, 1⟩ 1).loopLive loopPLC = true ∧
    0 < up.poolSize ∧
    (up.setFld F.QUE_PLC_CFG_FREE 65535).poolFree < (up.setFld F.QUE_PLC_CFG_FREE 65535).fld F.QUE_PLC_CFG_FREE ∧
    runs (.eccUncorrectable 0x20) captured (fun t => (t.queue 0x20).isEmpty && t.on F.QUE_STAT_ECC_UNCORR) = true ∧
    runs (.eccUncorrectable 31) { up with closed := [(31, [sealedBundle])] } (fun t => (t.closedOf 31).length == 1
        && t.bit (F.PIRQ 0x20) 8) = true := by
  refine ⟨?_, ?_, ?_, ?_, ?_, ?_, ?_, ?_, ?_, ?_, ?_, ?_⟩ <;> decide +kernel

theorem witness_PlanisherLoopsRun :
    runs (.avsUpdate 64) up (fun t => t.fld F.PLN_AVS_STAT_MARGIN == 63) = true ∧
    runs .avsCanary up (fun t => t.fld F.PLN_AVS_STAT_CANARY == 1 && t.bit (F.PIRQ 0x04) 9) = true ∧
    runs (.gearWindowEnd 100 256 0 0 256) up (fun t => t.fld F.PLN_GEAR_STAT_U == 255) = true ∧
    runs (.gearWindowEnd 0 50 100 20 200) up (fun t => t.fld F.PLN_GEAR_STAT_U == 128) = true ∧
    harvesting.mpptRuns = true ∧
    runs (.mpptPowerSample 3000 100) harvesting (fun t => t.pln.pSum == 3000 && t.pln.pCount == 1) = true ∧
    runs .mpptUpdate up (fun t => t.pln.pCount == 0) = true ∧
    ({ harvesting with pln := { harvesting.pln with vocWait := true } }).on F.SYS_DIP_ACTIVE = false ∧
    runs .vocResampleStart { harvesting with pln := { harvesting.pln with vocWait := true } } (fun t => t.pln.vocPause) = true ∧
    runs (.vocPauseEnd 4000) { up with pln := { up.pln with vocPause := true } } (fun t => t.fld F.PLN_MPPT_STAT_VOC == 200) = true := by
  refine ⟨?_, ?_, ?_, ?_, ?_, ?_, ?_, ?_, ?_, ?_⟩ <;> decide +kernel

theorem witness_TamperMonitorRuns :
    runs (.tempSample (-400)) up (fun t => t.tam.t1 == -400 && t.fld F.TAM_TEMP_TJ == 0xFE70) = true ∧
    runs (.tempSample (-650)) { up with tam := { up.tam with t1 := -650, nSamples := 1 } } (fun t => t.tam.thermal1) = true ∧
    runs (.thermalSecondDecision true) { up with tam := { up.tam with thermal1 := true } } (fun t => t.latched tcTHERMAL) = true ∧
    runs (.thermalSecondDecision false) { up with tam := { up.tam with thermal1 := true } } (fun t => t.latched tcTHERMAL &&
        t.latched tcDOUBLE && t.fld F.TAM_LAST_CLASS == tcDOUBLE) = true ∧
    [tcTHERMAL, tcDOUBLE, tcSUPPLY, tcSHADOW].all (fun c => decide (up.respOf c < 4)) = true ∧
    runs (.supplyGlitch true) up (fun t => t.latched tcSUPPLY && t.on F.TAM_SUP_VSTORE_OV) = true ∧
    runs (.supplyGlitch true) (heldBy 5) (fun t => t.tam.vstoreHigh) = true ∧
    runs (.shadowMismatch 0x0184 3) up (fun t => t.on (F.PSHD_MISM 1) && t.fld (F.PSHD_LAST_OFF 1) == 0x84) = true ∧
    runs .probeWindowEnd (up.setFld F.TAM_PCNT_CUR 9) (fun t => t.fld F.TAM_PCNT_CUR == 0) = true ∧
    fieldedUp.fielded = true ∧
    runs (.tapInstruction false) (fieldedUp.setFld F.TAM_PROBE_THR 3) (fun t => t.fld F.TAM_PCNT_CUR == 1) = true ∧
    runs (.trngHealthFail 3) up (fun t => t.on F.TAM_TRNG_FAIL && t.bit (F.PIRQ 0x23) 10) = true ∧
    runs (.trngRetest true) (up.setFld F.TAM_TRNG_FAIL 1) (fun t => !t.on F.TAM_TRNG_FAIL) = true ∧
    A.SYS_LIFE = 0x0184 ∧ (shadowMask 0x0184).testBit 3 = true ∧
    runs (.shadowMismatch (A.DSC_W 0) 255) up (fun t => t.latched tcSHADOW) = true ∧
    (up.setFld F.LOG_STATUS_SCAN 1).nv.log = [] ∧
    runs .logbookScan (up.setFld F.LOG_STATUS_SCAN 1) (fun t => !t.on F.LOG_STATUS_SCAN && t.log.clean) = true ∧
    runs (.tstDone false 0x123456) (up.setFld F.TST_MODE_MODE 1) (fun t => t.fld F.TST_RES_FAIL_ADDR == 0x123456) = true := by
  refine ⟨?_, ?_, ?_, ?_, ?_, ?_, ?_, ?_, ?_, ?_, ?_, ?_, ?_, ?_, ?_, ?_, ?_, ?_⟩ <;> decide +kernel

/-- the default level is LOG; SEAL_STOP, ZEROIZE_VOLATILE and HOLD by TAM_RESP (R456) -/
theorem witness_TamperClassesRespond :
    up.halted = false ∧
    (occur tcPROBE 3 0x25 0x44 0 up).latched tcPROBE = true ∧
    (occur tcPROBE 3 0x25 0x44 0 (up.setFld (F.TAM_RESP_LEVEL (tcPROBE - 1)) 2)).on F.TAM_LATCH_SEALSTOP = true ∧
    (occur tcPROBE 3 0x25 0x44 0 (up.setFld (F.TAM_RESP_LEVEL (tcPROBE - 1)) 3)).on F.TAM_LATCH_ZEROIZED = true ∧
    (up.setFld (F.TAM_RESP_LEVEL 0) 4).respOf 1 = 4 ∧
    ((up.setFld F.TAM_LATCH_LATCHED 0x41).setFld (F.TAM_RESP_LEVEL 6) 3).levelInForce = 3 := by
  refine ⟨?_, ?_, ?_, ?_, ?_, ?_⟩ <;> decide +kernel

theorem witness_LoopsStayInTheirBounds :
    (up.loopUpdate loopMPPT 1000).loop loopMPPT = ⟨(up.loopHi loopMPPT), false, true⟩ ∧
    (up.setFld ⟨loopMPPT, 0, 1⟩ 0).loopEn loopMPPT = false ∧
    (up.setFld ⟨loopMPPT, 0, 1⟩ 1).loopEn loopMPPT = true ∧
    up.loopLo loopMPPT ≤ up.loopHi loopMPPT ∧
    (fullReset .bor 0 up).fld F.CLK_PERIOD_TICKS = 64 ∧
    (fullReset .cmd 0 up).fld F.PWR_VHOST_EN = 1 ∧
    (fullReset .cmd 0 up).fld F.SYS_BOOT_STAGE = 1 ∧
    (fullReset .nrst 0 up).fld F.SYS_DORM_EXIST = 1 := by
  refine ⟨?_, ?_, ?_, ?_, ?_, ?_, ?_, ?_⟩ <;> decide +kernel

theorem witness_SessionsAndRestart :
    kicking.wdogRuns = true ∧
    kicking.wdogTicks ≤ kicking.sys.wdog ∧
    runs .wdogExpire kicking (fun t => t.fld F.SYS_SESSION_NUM == 1 && !t.on F.SYS_HREL_RELEASED && t.sys.wdog == 0) = true ∧
    runs .hostPulseEnd { up with sys := { up.sys with pulse := true } } (fun t => t.on F.SYS_HREL_RELEASED && !t.sys.pulse) = true ∧
    runs .resetRestart { up with rst := { up.rst with dp := some 0 } } (fun t => t.rst.dp.isNone) = true ∧
    ({ up with rst := { up.rst with busy := 1 } }).rst.busy ≠ 0 := by
  refine ⟨?_, ?_, ?_, ?_, ?_, ?_⟩ <;> decide +kernel

theorem witness_FlareLevelsAndTheRetiredLog :
    up.on (F.ROS_FLR_REL 1) = false ∧
    ((up.setFld (F.ROS_FLR_REL 1) 1).flareReleased 1).flareLevel 1 = up.flareLevel 1 ∧
    ((up.setFld (F.ROS_FLR_RSTLVL 0) 1).setFld (F.ROS_FLR_REL 0) 1 |>.flareReleased 0).flareLevel 0 = true ∧
    (up.setFld F.SYS_LIFE_STATE 0xE).life = 0xE ∧
    ((up.setFld F.SYS_LIFE_STATE 0xE).logEntry 7 1 1 0 0).fld F.LOG_CNT_LOST = 1 := by
  refine ⟨?_, ?_, ?_, ?_, ?_⟩ <;> decide +kernel

/-! ## Host ports -/

theorem witness_TheTwoWireTarget :
    up.portServes = true ∧
    up.addrOf 0 = none ∧
    runs (.htwStart 0 false [] 0) up (fun t => t.fld F.HTW_CNT_NACK == 1) = true ∧
    windowed.addrOf (windowed.fld F.HTW_ADDR_WBASE + 7) = some (.window 7) ∧
    runs (.htwStart (windowed.fld F.HTW_ADDR_WBASE + 7) false [0x40, 1, 2] 0) windowed
        (fun t => (t.txOf 0).map (fun x => x.staged) == some [(0x3740, 1), (0x3741, 2)]) = true ∧
    up.addrOf (up.fld F.HTW_ADDR_CHART) = some .host ∧
    runs (.htwStart (up.fld F.HTW_ADDR_CHART) true [] 4) { up with ptrs := [(8, 0x0180)] }
        (fun t => mapGet (fun _ => []) t.port 0 == [1, 0, 0, 0] && t.fld F.HTW_STAT_PTR == 0x0184) = true ∧
    runs (.htwStart (up.fld F.HTW_ADDR_CHART) false [] 0) (opened 0 { tx0 with addr7 := up.fld F.HTW_ADDR_CHART, staged := [(4, 1)] })
        (fun t => (t.txOf 0).map (fun x => x.staged) == some [(4, 1)]) = true ∧
    runs (.htwStart 0 false [] 0) (opened 0 { tx0 with addr7 := 9 }) (fun t => t.fld F.HTW_LAST_RESULT == 3 && (t.txOf 0).isNone) = true ∧
    runs .htwStop (opened 0 { tx0 with staged := [(A.CLK_GREQ, 2), (A.CLK_GREQ + 1, 0), (A.CLK_GREQ + 2, 0), (A.CLK_GREQ + 3, 0)] })
        (fun t => t.fld F.CLK_GREQ_GEAR == 2 && t.fld F.HTW_LAST_REGS == 1 && t.fld F.HTW_LAST_RESULT == 0) = true ∧
    runs .htwIdleAbort (opened 0 { tx0 with bundles := [(3, 0, 4)] }) (fun t => t.on (F.QUE_PSTAT_REWOUND 0) && t.bit (F.PIRQ 0x0D) 8) = true := by
  refine ⟨?_, ?_, ?_, ?_, ?_, ?_, ?_, ?_, ?_, ?_, ?_⟩ <;> decide +kernel

theorem witness_TheSpiTarget :
    up.hspFloor = false ∧
    runs .spiCsFall up (fun t => t.on F.HSP_STAT_ACTIVE && (t.txOf 1).isSome) = true ∧
    runs .spiCsFall (stowed.setFld F.SYS_WAKE_EN_WAKE 0x400) (fun t => t.fld F.HSP_LAST_RESULT == 9 && t.sys.wakes == 1024) = true ∧
    runs (.spiWrite 0x024C 1 [5, 6]) (opened 1 tx0) (fun t => (t.txOf 1).map (fun x => x.staged) == some [(0x024C, 5)]) = true ∧
    runs (.spiWrite 0 257 []) (opened 1 tx0) (fun t => (t.txOf 1).map (fun x => x.result) == some 4) = true ∧
    runs (.spiRead 0 0) (opened 1 tx0) (fun t => (t.txOf 1).map (fun x => x.result) == some 5) = true ∧
    popTenant ((opened 1 tx0).target .host (0x0180 % 65536 / 4 * 4)).2 = none ∧
    runs (.spiRead 0x0180 4) (opened 1 tx0) (fun t => mapGet (fun _ => []) t.port 1 == [0, 0, 0, 0, 0, 0, 0xA5, 1, 0, 0, 0]) = true ∧
    runs (.spiCsRise true) (opened 1 tx0) (fun t => (t.txOf 1).isNone && t.fld F.HSP_LAST_RESULT == 0) = true ∧
    runs (.spiCsRise false) (opened 1 tx0) (fun t => t.fld F.HSP_LAST_RESULT == 3) = true ∧
    runs (.spiCsRise true) { State.reset with sys := { sys0 with csLow := true } } (fun t => !t.sys.csLow) = true ∧
    runs .spiOverrun (opened 1 tx0) (fun t => t.fld F.HSP_LAST_RESULT == 6 && t.bit (F.PIRQ 0x0E) 10) = true := by
  refine ⟨?_, ?_, ?_, ?_, ?_, ?_, ?_, ?_, ?_, ?_, ?_, ?_⟩ <;> decide +kernel

theorem witness_PopsAndAssembliesRun :
    muted tx0 = false ∧
    ({ opened 0 tx0 with closed := [(3, [sealedBundle])] }).deniesRead .host false (A.QUE_POP 0) = false ∧
    runs (.popRead 0 0) { opened 0 tx0 with closed := [(3, [sealedBundle])] }
        (fun t => mapGet (fun _ => []) t.port 0 == [0xB7, 1, 2, 3]) = true ∧
    ({ opened 0 tx0 with closed := [(3, [sealedBundle])] }).popNext 0 tx0 0 = some (3, sealedBundle, 0) ∧
    stalled.popWaits 0 { tx0 with stall := some 0, left := 4 } 0 = true ∧
    runs (.popStallResume 0) stalled (fun t => decide (t = stalled)) = true ∧
    ({ stalled with closed := [(3, [sealedBundle])] }).popWaits 0 { tx0 with stall := some 0, left := 4 } 0 = false ∧
    runs (.popStallResume 0) popping (fun t => mapGet (fun _ => []) t.port 0 == [0xB7, 1, 2, 3]
        && (t.txOf 0).map (fun x => x.bundles) == some [(3, 0, 4)]) = true ∧
    runs (.popStallTimeout 0) popping (fun t => mapGet (fun _ => []) t.port 0 == [0xB7, 1, 2, 3]) = true ∧
    (popsAlone.target .host (A.TN_XDAT 0), popTenant (A.QUE_POP 0)) = ((true, A.QUE_POP 0), some 0) ∧
    popsAlone.txPort .host = none ∧
    runs (.xdatAccess .host 0 none) popsAlone (fun t => t.rdata == 0x030201B7#32) = true ∧
    runs (.popStallTimeout 0) stalled (fun t => t.on (F.QUE_PSTAT_EMPTY 0) && (t.txOf 0).map (fun x => x.result) == some 7) = true ∧
    assembled.nextAssembly = some 7 ∧
    runs .commandEnqueue assembled (fun t => t.env.isSome && t.fld (F.TN_CSTAT_STATE 7) == 3) = true ∧
    runs (.xdatAccess (.window 0) 0 (some 7#32)) up (fun t => t.cclk) = true ∧
    popTenant (up.target .host (A.TN_XDAT 0)).2 = none ∧
    runs (.xdatAccess .host 0 none) (up.setFld (F.TN_XADR_ADR 0) 0x0180) (fun t => t.rdata == 1#32) = true := by
  refine ⟨?_, ?_, ?_, ?_, ?_, ?_, ?_, ?_, ?_, ?_, ?_, ?_, ?_, ?_, ?_, ?_, ?_, ?_⟩ <;> decide +kernel

/-! ## Each statement's remaining hypotheses -/

theorem witness_HubTimeReadsAsOneSample :
    shown up .host A.RCK_HT_LO = true ∧
    reqKey (.window 1) ≠ reqKey .host ∧
    up.sampOf A.RCK_HT_HI .host = stowed.sampOf A.RCK_HT_HI .host ∧
    up.sampOf A.RCK_HT_HI .host = 0 := by
  refine ⟨?_, ?_, ?_, ?_⟩ <;> decide +kernel

/-- 125 ns are 48 ticks of the 384 MHz clock; one more needs another tick -/
theorem witness_NanosecondsRoundUpToTicks :
    125 * 48 ≤ 48 * 125 ∧
    nsTicks 125 = 48 ∧
    nsTicks 126 = 49 := by
  refine ⟨?_, ?_, ?_⟩ <;> decide +kernel

/-- the commands of the frame statements answer a next state -/
theorem witness_frames :
    runs .vstartRise State.reset (fun t => t.sys.phase == .booting) = true ∧
    runs (.popStallTimeout 0) up (fun t => t.cclk) = true ∧
    runs .dispatch dispatched (fun t => t.cclk) = true ∧
    runs .roseEvent up (fun t => t.cclk) = true := by
  refine ⟨?_, ?_, ?_, ?_⟩ <;> decide +kernel

/-- a command that can do neither, and one that can write NV -/
theorem witness_NvAndPowerStateStand :
    (asked .roseEvent up).pending = [.roseEvent] ∧
    (Instr.reach .roseEvent) = (false, false) ∧
    (Instr.reach .vstartRise).2 = true ∧
    (Instr.reach (.nvWriteComplete true)).1 = true := by
  refine ⟨?_, ?_, ?_, ?_⟩ <;> decide +kernel

/-! ## Well-formed commands -/

/-- window 8 and tenant 8 do not exist (R136) -/
theorem test_ill_formed_requesters_are_refused :
    [Instr.vhostOff (.window 8), .vhostOn (.steward 8), .vsensSwitchOn (.window 8) 0, .rstCmdDatapath (.steward 8) 0,
          .rstCmdTenant (.window 8) 0 0, .rstCmdFull (.window 8) 0, .pctlSrst (.window 8) 0, .pctlEnWrite (.window 8) 0 true,
          .wdogKick (.window 8) 0, .wdogSleep (.window 8) 0, .pulseNow (.window 8), .sessionBump (.window 8),
          .registerWrite (.window 8) [], .lockAcquire (.window 8) 0, .lockRelease (.window 8) 0, .queFlush (.window 8) 0 0,
          .queFlushAllLanes (.window 8) 0 0, .fenceClear (.window 8) 0 0, .touchstoneNow (.window 8) 0,
          .descriptorCommit (.window 8) 0 0 (List.replicate 8 0), .beaconSubmit (.window 8) 0 0 0].all (fun c => !c.wf) = true ∧
    [Instr.htLoSample (.window 8), .syncLoSample (.window 8), .stampLoSample (.window 8) 0, .ofsLoSample (.window 8),
          .sxtAngSample (.window 8), .bndSeqSample (.window 8), .keyCounterSample (.window 8) false, .roseFire (.window 8) true 0,
          .flareClear (.window 8) 0, .flareRelease (.window 8) 0, .iflgClear (.window 8) true 0, .keyRspRead (.window 8) 0,
          .keyAttRead (.window 8) 0, .deviceKeyRead (.window 8), .logDataRead (.window 8), .cmdAssemblyWrite (.window 8) 0 [],
          .cmdAssemblyClear (.window 8) 0, .xdatAccess (.window 8) 0 none, .tamperClear (.window 8) 0, .tstNvMarginRead (.window 8),
          .tstMemorySelfTest (.window 8)].all (fun c => !c.wf) = true := by
  refine ⟨?_, ?_⟩ <;> decide +kernel

/-- a number that names no part of the hub, or that its field does not hold -/
theorem test_ill_formed_numbers_are_refused :
    [Instr.hostRelease 65536, .vsensSwitchOn .host 3, .vsensRampDone 3, .vsensSettleDone 3, .vsensTrip 3, .bankRestored true 1024,
          .wakeEdge 11 true, .lookoutMatch 128 true, .rstCmdDatapath .host 65536, .rstCmdTenant .host 8 0, .rstCmdTenant .host 0 65536,
          .rstCmdFull .host 65536, .pctlSrst .host 256, .pctlEnWrite .host 256 true, .wdogKick .host 65536, .wdogSleep .host 65536,
          .registerWrite .host [(65536, 0)], .shadowMismatch 65536 0, .shadowMismatch 0 512, .lockAcquire .host 16,
          .lockRelease .host 16, .leaseExpiry 16, .gapRecordEnqueue 128 0, .gapRecordEnqueue 0 8, .queFlush .host 128 0,
          .queFlush .host 0 256, .queFlushAllLanes .host 128 0, .queFlushAllLanes .host 0 256].all (fun c => !c.wf) = true ∧
    [Instr.popRead 2 0, .popRead 0 8, .popStallResume 2, .popStallTimeout 2, .eccUncorrectable 128, .transferStart 7, .arbLost ⟨4, []⟩,
          .stretchTimeout 4 [], .busStuck 4 [], .busFree 4, .busRecovery 4, .fenceClear .host 7 0, .afeConversion 2 0 false,
          .touchstoneStart 2, .afeCalStart 2, .timeTrigger 256, .angleTrigger 256, .chainTrigger 256, .jitDeadline 256,
          .noLockTargetSkip 256, .descriptorCommit .host 256 0 (List.replicate 8 0), .descriptorCommit .host 0 256 (List.replicate 8 0),
          .descriptorCommit .host 0 0 []].all (fun c => !c.wf) = true ∧
    [Instr.edgeStamp 10 true 0 0 0, .edgeStamp 0 true 0 0 40, .icalHit 10 0, .icalHit 0 40, .stampService 8, .beaconWindowEnd 65536,
          .epochRecordEnqueue 8, .stampLoSample .host 12, .sxtLockLost 8, .angleComparatorFire 16, .resamplerOutput 8, .assayGapInput 24,
          .criticalSecondDecision 24 true, .trngHealthFail 0, .trngHealthFail 4, .flarePulseEnd 2, .flareRelease .host 2,
          .bundleAgeExpiry 8 0, .bundleAgeExpiry 0 4, .seqReservationCommit 8, .chartCommitDone 8 true, .keyUpdateWrite 8 true,
          .keyUpdateCommit 8 true, .attestSignDone 8, .keyRspRead .host 65536, .keyAttRead .host 65536, .spiWrite 65536 0 [],
          .spiWrite 0 65536 [], .spiRead 65536 0, .spiRead 0 65536, .cmdAssemblyWrite .host 8 [], .cmdAssemblyClear .host 8,
          .cmdAssemblyWrite .host 0 (List.replicate 257 0), .xdatAccess .host 8 none, .tstDone true (2 ^ 32),
          .gearWindowEnd 0 0 0 0 0, .htwStart 128 false [] 0].all (fun c => !c.wf) = true := by
  refine ⟨?_, ?_, ?_⟩ <;> decide +kernel

theorem test_well_formed_commands_stand :
    [Instr.vhostOff (.window 7), .rstCmdTenant (.steward 7) 7 65535, .queFlush .jtag 127 255, .edgeStamp 9 true 0 0 39,
          .descriptorCommit .host 255 255 (List.replicate 8 0), .trngHealthFail 3, .htwStart 127 true [] 256].all Instr.wf = true := by
  decide +kernel

end Sys2Proof.Tests
end

/-! Reads of registers at the edges of the map: the reserved pages (R8, R126) and the stream registers (R124, R397, R412,
R474). -/

namespace Sys2Proof.Machine

/-! ## Reserved pages -/

/-- The reserved pages (R8), and those that R126 treats alike. -/
abbrev ReservedPage (p : Nat) : Prop := p = 0x0F ∨ (0x28 ≤ p ∧ p ≤ 0x2F) ∨ (0x38 ≤ p ∧ p ≤ 0xFF)

theorem firstWith_eq_none {α : Type} {p : α → Bool} {l : List α} (h : ∀ x ∈ l, p x = false) : firstWith p l = none := by
  induction l with
  | nil => rfl
  | cons x t ih => simp [firstWith, h x, ih fun y hy => h y (List.mem_cons_of_mem x hy)]

theorem not_reservedPage_of_mem_pageDirectory : ∀ d ∈ pageDirectory, ¬ ReservedPage d.page := by decide

theorem pageDef_eq_none_of_reservedPage {p : Nat} (h : ReservedPage p) : pageDef p = none :=
  firstWith_eq_none fun d hd => beq_false_of_ne fun e => not_reservedPage_of_mem_pageDirectory d hd (e ▸ h)

section
variable {a : Nat} (h : ReservedPage (a / 256))
include h

theorem masksAt_eq_none_of_reservedPage : masksAt a = none := by
  rw [masksAt, pageDef_eq_none_of_reservedPage h]

theorem writable_eq_false_of_reservedPage : writable a = false := by
  rw [writable, masksAt_eq_none_of_reservedPage h]

theorem lockNo_eq_none_of_reservedPage : lockNo a = none := by
  rw [lockNo, if_neg (by unfold A.LCK_L; omega), if_neg (by omega)]

/-- A register of an implemented page lies on no reserved one. -/
theorem ne_of_reservedPage (b : Nat) (hb : ¬ ReservedPage (b / 256)) : a ≠ b := fun e => hb (e ▸ h)

theorem sampledBy_eq_nil_of_reservedPage : sampledBy a = [] := by
  have ne := ne_of_reservedPage h
  simp only [sampledBy, ne A.RCK_HT_LO (by decide), ne A.RCK_OFS_LO (by decide), ne A.RCK_SYNC_LO (by decide),
    ne A.SXT_ANG (by decide), ne A.BND_SEQ_LO (by decide), ne A.KEY_HW_LO (by decide), ne A.KEY_CEIL_LO (by decide),
    if_false]
  exact if_neg (by omega)

variable (s : State) (rq : Requester)

theorem readDenied_of_reservedPage (via : Bool) : s.readDenied rq via a = none :=
  if_pos (.inr (masksAt_eq_none_of_reservedPage h))

theorem streamBytes_of_reservedPage : s.streamBytes rq a = none := by
  have ne := ne_of_reservedPage h
  simp only [State.streamBytes, ne A.IDN_DPK (by decide), ne A.KEY_RSP (by decide), ne A.KEY_ATT (by decide),
    ne A.LOG_DATA (by decide), if_false]
  exact if_neg (by omega)

theorem view_of_reservedPage : s.view rq a = 0#32 := by
  simp only [State.view, pageDef_eq_none_of_reservedPage h]
  rfl

theorem sample_of_reservedPage : s.sample rq a = s := by
  rw [State.sample, sampledBy_eq_nil_of_reservedPage h]
  rfl

theorem readReg_of_reservedPage (via : Bool) : s.readReg rq via a = (0#32, s) := by
  simp only [State.readReg, readDenied_of_reservedPage h, lockNo_eq_none_of_reservedPage h, streamBytes_of_reservedPage h,
    view_of_reservedPage h, sample_of_reservedPage h]

end

theorem permit_of_not_writable (s : State) (rq : Requester) {w : Wr} (h : writable w.addr = false) :
    s.permit rq w = ⟨none, none⟩ := by
  simp [State.permit, h]

/-- Settles O29: the page directory lists no reserved page, so that the address has no masks, no row and no samples. -/
theorem reservedPagesReadZero : Obligations.ReservedPagesReadZero := by
  unfold Obligations.ReservedPagesReadZero
  intro s rq via part a v h
  exact ⟨readReg_of_reservedPage h s rq via, permit_of_not_writable s rq (writable_eq_false_of_reservedPage h)⟩

/-! ## Stream registers -/

section
variable {s : State} {rq : Requester} {a : Nat} {l : List Byte}

/-- The stream registers: one each on the IDN and LOG pages, two on the KEY page and on each TN page. -/
theorem stream_addr_of_streamBytes (h : s.streamBytes rq a = some l) :
    a = A.IDN_DPK ∨ a = A.KEY_RSP ∨ a = A.KEY_ATT ∨ a = A.LOG_DATA ∨
      ((0x30 ≤ a / 256 ∧ a / 256 < 0x38) ∧ (a % 256 = 0x54 ∨ a % 256 = 0x58)) := by
  unfold State.streamBytes at h
  split_ifs at h <;> simp_all

theorem lockNo_eq_none_of_streamBytes (h : s.streamBytes rq a = some l) : lockNo a = none := by
  rcases stream_addr_of_streamBytes h with rfl | rfl | rfl | rfl | ⟨hp, ho⟩
  · decide
  · decide
  · decide
  · decide
  · rw [lockNo, if_neg (by unfold A.LCK_L; omega), if_neg (by omega)]

/-- The check of a readable entry with a good MAC finds nothing (R464, R469). -/
theorem logChecked_of_good {pg : Nat} {e : LogSlot} (hg : e.good = true) (hm : s.macGood e = true) :
    s.logChecked pg e = s := by
  simp [State.logChecked, hg, hm]

/-- A stream read is no more than that, unless it is the read of a Logbook entry that its check finds bad. -/
theorem logRead_eq_streamRead (h : a = A.LOG_DATA → s.streamPos rq a = 0 →
    ∀ x, s.logAt rq = some x → x.2.good = true ∧ s.macGood x.2 = true) : s.logRead rq a l = s.streamRead rq a l := by
  unfold State.logRead
  split
  next hc =>
    split
    next => rfl
    next pg e he =>
      obtain ⟨hg, hm⟩ := h hc.1 hc.2 (pg, e) he
      exact Prod.ext rfl (logChecked_of_good hg hm)
  next => rfl

theorem readCmd_of_streamBytes (hr : s.reachable rq = true) (hd : s.readDenied rq false a = none)
    (hl : s.streamBytes rq a = some l) : s.readCmd rq a = (s.logRead rq a l).2.latch (s.logRead rq a l).1 := by
  simp [State.readCmd, State.when, State.readReg, hr, hd, hl, lockNo_eq_none_of_streamBytes hl]

theorem streamPos_streamRead (hs : s.mapsWf = true) : (s.streamRead rq a l).2.streamPos rq a =
    if l.length ≤ s.streamPos rq a + 4 then 0 else s.streamPos rq a + 4 :=
  mapGet_mapSet (mapsWf_streams hs)

theorem changesOnly_latch_streamRead (w : Word) : changesOnly [.rdata, .streams] s ((s.streamRead rq a l).2.latch w) :=
  have hC : Closed [.rdata, .streams] (changesOnly [.rdata, .streams] s) := closed_changesOnly (by decide)
  latch_ind (hC.mono (by decide)) (streamRead_ind (hC.mono (by decide)) (changesOnly_refl s))

theorem ne_logData_of_page_ne (h : a / 256 ≠ 0x24) : a ≠ A.LOG_DATA := fun e => h (e ▸ by decide)

/-! Each read command of a stream register is a read of the registers that it names. -/

theorem exec_keyRspRead (h : a = A.KEY_RSP ∨ ∃ n, n < 8 ∧ a = 0x3054 + 256 * n) :
    exec (.keyRspRead rq a) s = .next (s.readCmd rq a) :=
  congrArg Host.Outcome.next (if_pos (h.imp_right fun ⟨_, _, _⟩ => by omega))

theorem exec_keyAttRead (h : a = A.KEY_ATT ∨ ∃ n, n < 8 ∧ a = 0x3058 + 256 * n) :
    exec (.keyAttRead rq a) s = .next (s.readCmd rq a) :=
  congrArg Host.Outcome.next (if_pos (h.imp_right fun ⟨_, _, _⟩ => by omega))

end

/-- Settles O26: every such command is one `streamRead` that goes to the read latch, since a stream register is no lock
and the check of LOG_DATA's entry, where there is one, finds nothing. -/
theorem streamReadsMoveOn : Obligations.StreamReadsMoveOn := by
  unfold Obligations.StreamReadsMoveOn
  intro ready moves s rq l hs
  have read (a : Nat) (h : ready rq a s l) (hlog : a = A.LOG_DATA → s.streamPos rq a = 0 →
      ∀ x, s.logAt rq = some x → x.2.good = true ∧ s.macGood x.2 = true) : moves rq a l s (s.readCmd rq a) := by
    obtain ⟨hr, hd, hl⟩ := h
    rw [readCmd_of_streamBytes hr hd hl, logRead_eq_streamRead hlog]
    exact ⟨rfl, streamPos_streamRead hs, changesOnly_latch_streamRead _⟩
  refine ⟨?rsp, ?att, ?dpk, ?log⟩
  case rsp =>
    intro a ha h
    have hp : a / 256 ≠ 0x24 := ha.elim (fun e => e ▸ by decide) fun ⟨_, _, _⟩ => by omega
    exact ⟨_, exec_keyRspRead ha, read a h fun e => absurd e (ne_logData_of_page_ne hp)⟩
  case att =>
    intro a ha h
    have hp : a / 256 ≠ 0x24 := ha.elim (fun e => e ▸ by decide) fun ⟨_, _, _⟩ => by omega
    exact ⟨_, exec_keyAttRead ha, read a h fun e => absurd e (ne_logData_of_page_ne hp)⟩
  case dpk => exact fun h => ⟨_, rfl, read _ h fun e => absurd e (by decide)⟩
  case log => exact fun h hx => ⟨_, rfl, read _ h fun _ => hx⟩

end Sys2Proof.Machine

/-! The sources of a FULL reset (R94): what a FULL reset leaves, and what a power failure leaves of NV when nothing is being
written (R389, R403). -/

namespace Sys2Proof.Machine

section
variable (c : Cause) (n : Nat) (s : State)

/-! ## A FULL reset (R94-R96) -/

@[simp] theorem reg_fullReset (a : Nat) : (fullReset c n s).reg a = resetOf a := rfl

@[simp] theorem nv_fullReset : (fullReset c n s).nv = s.nv := rfl

@[simp] theorem ht_fullReset : (fullReset c n s).ht = 0 := by
  show rck0.acc / 2 ^ 64 % 2 ^ 64 = 0
  decide

@[simp] theorem cause_fullReset : (fullReset c n s).sys.cause = c := rfl

@[simp] theorem phase_fullReset : (fullReset c n s).sys.phase = resetPhase c s := rfl

@[simp] theorem nrstLow_fullReset : (fullReset c n s).sys.nrstLow = s.sys.nrstLow := rfl

@[simp] theorem resetPhase_bor : resetPhase .bor s = .unpowered := rfl

@[simp] theorem resetPhase_nrst : resetPhase .nrst s = .inReset := rfl

end

/-! ## NV at a power failure -/

section
variable {s : State}

/-- What holds of the default and of every entry holds of what a read of the map gives. -/
theorem mapGet_ind {α : Type} {Q : α → Prop} {d : Nat → α} {m : Map α} {k : Nat} (hd : Q (d k))
    (hm : ∀ x ∈ m, Q x.2) : Q (mapGet d m k) := by
  induction m with
  | nil => exact hd
  | cons x t ih =>
    rw [mapGet]
    exact ite_ind (hm x List.mem_cons_self) (ih fun y hy => hm y (List.mem_cons_of_mem x hy))

/-- While no key is being written, no tenant's update has reached its write. -/
theorem written_eq_false_of_update (h : s.keyWriting = false) (t : Nat) :
    ∀ u, (s.ten t).update = some u → u.written = false := by
  refine mapGet_ind (Q := fun e : Ten => ∀ u, e.update = some u → u.written = false) (fun u hu => nomatch hu) ?_
  intro x hx u hu
  simpa [hu] using List.any_eq_false.mp h x hx

theorem cutKey_eq_self (h : s.keyWriting = false) (t : Nat) : s.cutKey t = s := by
  unfold State.cutKey
  split
  · rfl
  · rename_i u hu
    simp [written_eq_false_of_update h t u hu]

/-- A power failure leaves NV alone when neither a key nor a word of the NV queue is being written. -/
theorem cutWrites_eq_self (hk : s.keyWriting = false) (hj : s.stw.nvActive = false) : s.cutWrites = s := by
  have keys : forEach (List.range 8) (fun t s => s.cutKey t) s = s :=
    forEach_ind (Q := (· = s)) (fun t s' hs => hs ▸ cutKey_eq_self (hs ▸ hk) t) rfl
  simp [State.cutWrites, keys, hj]

/-! ## The sources where they act -/

theorem execVstartRise_of_unpowered (h : s.sys.phase = .unpowered) : execVstartRise s =
    .next (s.modSys fun y => { y with
      phase := if s.sys.nrstLow then .inReset else .booting, aboveVstart := true, coldBoot := !s.sys.nrstLow
      cause := if s.sys.nrstLow then .nrst else if y.retained then y.cause else .por }) := by
  simp [execVstartRise, State.when, h]

theorem execBor_of_powered (h : s.sys.phase ≠ .unpowered) : execBor s = .next (fullReset .bor 0 s.cutWrites) :=
  congrArg Host.Outcome.next (if_neg h)

theorem execNrstLow_of_released (hu : s.sys.phase ≠ .unpowered) (hr : s.sys.phase ≠ .inReset) :
    execNrstLow s = .next (fullReset .nrst 0 (s.modSys fun y => { y with nrstLow := true })) :=
  congrArg Host.Outcome.next (if_neg (not_or.mpr ⟨hu, hr⟩))

theorem execRetentionLoss_of_unpowered (h : s.sys.phase = .unpowered) : execRetentionLoss s =
    .next { (s.modSys fun y => { y with retained := false }) with closed := [], log := { s.log with kept := none } } := by
  simp [execRetentionLoss, State.when, h]

end

/-- Settles O10: VSTART_RISE and RETENTION_LOSS are one update each in the unpowered state, with the frame of their
footprints; BOR and NRST_LOW are a FULL reset of a state that differs from `s` in what the failure cuts or in the ball. -/
theorem resetSourcesAct : Obligations.ResetSourcesAct := by
  unfold Obligations.ResetSourcesAct
  refine ⟨?rise, ?bor, ?nrst, ?retention⟩
  case rise =>
    intro s h
    have e := execVstartRise_of_unpowered h
    exact ⟨_, e, rfl, rfl, rfl, rfl, frame_of execVstartRise_ind (by decide) e⟩
  case bor =>
    intro s h
    refine ⟨_, execBor_of_powered h, ?_⟩
    simp +contextual [cutWrites_eq_self]
  case nrst =>
    intro s hu hr
    refine ⟨_, execNrstLow_of_released hu hr, ?_⟩
    simp [State.modSys]
  case retention =>
    intro s h
    have e := execRetentionLoss_of_unpowered h
    have frame : changesOnly [.sys, .closed, .log] s _ :=
      frame_of (fun hC => execRetentionLoss_ind (hC.mono (by decide))) (by decide) e
    exact ⟨_, e, rfl, rfl, rfl, frame⟩

end Sys2Proof.Machine

/-! The harvester's stops, the supply meter and the bank-good flags (R27, R65, R69, R70, R91). -/

namespace Sys2Proof.Machine

/-! ## Fields after a write -/

section
variable {s : State} {f g : Fld} {v k : Nat} {b : Bool}

/-- `g` is a field of a word, and it shares no bit with `f`. -/
abbrev ApartFrom (f g : Fld) : Prop :=
  g.lo + g.w ≤ 32 ∧ (g.addr ≠ f.addr ∨ f.lo + f.w ≤ g.lo ∨ g.lo + g.w ≤ f.lo)

theorem fld_setFld_of_apart (hs : s.regsWf = true) (h : ApartFrom f g) : (s.setFld f v).fld g = s.fld g := by
  obtain ⟨hg, hn | ha⟩ := h
  · exact fld_setFld_ne hn
  · by_cases e : g.addr = f.addr
    · exact fld_setFld_apart hs e ha hg
    · exact fld_setFld_ne e

theorem fld_putOn_of_apart (hs : s.regsWf = true) (h : ApartFrom f g) : (s.putOn f b).fld g = s.fld g :=
  fld_setFld_of_apart hs h

theorem regsWf_putOn (hs : s.regsWf = true) : (s.putOn f b).regsWf = true := regsWf_setFld hs

/-- A flag that was just put. -/
theorem fld_putOn (hs : s.regsWf = true) (hf : f.lo + f.w ≤ 32 ∧ f.w = 1) :
    (s.putOn f b).fld f = if b = true then 1 else 0 := by
  obtain ⟨hl, hw⟩ := hf
  rw [State.putOn, fld_setFld hs hl, hw]
  split <;> rfl

theorem bit_setBit (hs : s.regsWf = true) (hf : f.lo + f.w ≤ 32) (hk : k < f.w) : (s.setBit f k).bit f k = true := by
  rw [State.bit, State.setBit, fld_setFld hs hf, Nat.testBit_mod_two_pow, Nat.testBit_or, Nat.testBit_two_pow_self]
  simp [hk]

theorem closed_bit {l : List Part} (h : avoids l (.reg f.addr) = true) : Closed l (fun t => t.bit f k = true) :=
  closed_of h fun s t (he : t.reg f.addr = s.reg f.addr) hs => by
    rwa [State.bit, State.fld, he]

end

/-! ## Page interrupts (R134) -/

section
variable {s : State} {g : Fld} {p k : Nat} {ps : List Nat}

/-- No interrupt's route writes a PIRQ register. -/
theorem avoids_irqParts_pirq (p : Nat) : avoids irqParts (.reg (F.PIRQ p).addr) = true := by
  have elsewhere : 256 * p + 0x18 ≠ 0x154 ∧ 256 * p + 0x18 ≠ 0x178 ∧ 256 * p + 0x18 ≠ 0x2048 := by omega
  simpa [avoids, irqParts, Part.covers, pirq_addr] using elsewhere

/-- A source just raised is latched. -/
theorem bit_raise (hs : s.regsWf = true) (hk : k < 32) : (s.raise p k).bit (F.PIRQ p) k = true := by
  have latched : (s.setBit (F.PIRQ p) k).bit (F.PIRQ p) k = true := bit_setBit hs (by decide : 0 + 32 ≤ 32) hk
  have hC : Closed irqParts fun t : State => t.bit (F.PIRQ p) k = true := closed_bit (avoids_irqParts_pirq p)
  unfold State.raise
  exact ite_ind (Q := fun t : State => t.bit (F.PIRQ p) k = true) (routeLine_ind hC latched) latched

theorem fld_raise_of_avoids (h : avoids (.reg (256 * p + 0x18) :: irqParts) (.reg g.addr) = true) :
    (s.raise p k).fld g = s.fld g :=
  raise_ind (P := fun t => t.fld g = s.fld g) (closed_fld h) rfl

theorem fld_risen_of_avoids {s₀ : State}
    (h : avoids (ps.map (fun p => .reg (256 * p + 0x18)) ++ irqParts) (.reg g.addr) = true) :
    (State.risen s₀ ps s).fld g = s.fld g :=
  risen_ind (P := fun t => t.fld g = s.fld g) (closed_fld h) rfl

theorem fld_satHigh_of_avoids {a : Nat}
    (h : avoids (.reg (256 * (a / 256) + 0x18) :: .loops :: irqParts) (.reg g.addr) = true) :
    (s.satHigh a).fld g = s.fld g :=
  satHigh_ind (P := fun t => t.fld g = s.fld g) (closed_fld h) rfl

/-- An enabled loop marked as saturated is shown so (R149). -/
theorem satHi_satHigh {a : Nat} (hl : mapWf loop0 s.loops = true) (he : s.loopEn a = true) :
    ((s.satHigh a).loop a).satHi = true := by
  have marked : ((s.setLoop a { s.loop a with satHi := true }).loop a).satHi = true :=
    congrArg Loop.satHi (mapGet_mapSet hl)
  have hC : Closed (.reg (256 * (a / 256) + 0x18) :: irqParts) fun t : State => (t.loop a).satHi = true :=
    closed_of (p := .loops) rfl fun _ _ hk h => by rwa [State.loop, show _ = _ from hk]
  rw [State.satHigh, State.when, if_pos he]
  exact ite_ind (Q := fun t : State => (t.loop a).satHi = true) (raise_ind hC marked) marked

end

/-! ## The converter's status (R69, R70) -/

section
variable {s : State} {g : Fld}

theorem mpptWatch_eq : ∃ x : Pln, s.mpptWatch = { s with pln := x } := by
  unfold State.mpptWatch
  split
  · exact ⟨s.pln, rfl⟩
  · exact ⟨_, rfl⟩

theorem sys_mpptWatch : s.mpptWatch.sys = s.sys := by
  obtain ⟨x, e⟩ := mpptWatch_eq (s := s)
  rw [e]

theorem fld_mpptWatch : s.mpptWatch.fld g = s.fld g := by
  obtain ⟨x, e⟩ := mpptWatch_eq (s := s)
  rw [e]
  rfl

theorem loops_harvShow : s.harvShow.loops = s.loops := by
  obtain ⟨x, e⟩ := mpptWatch_eq (s := s)
  rw [State.harvShow, loops_putOn, e]

theorem regsWf_mpptWatch (hs : s.regsWf = true) : s.mpptWatch.regsWf = true :=
  mpptWatch_ind (closed_regsWf.mono (by decide)) hs

theorem regsWf_harvShow (hs : s.regsWf = true) : s.harvShow.regsWf = true :=
  harvShow_ind (closed_regsWf.mono (by decide)) hs

/-- Of the registers, the converter's status changes CHARGING alone. -/
theorem fld_harvShow (hs : s.regsWf = true) (h : ApartFrom F.PWR_HSTAT_CHARGING g) : s.harvShow.fld g = s.fld g :=
  (fld_setFld_of_apart (regsWf_mpptWatch hs) h).trans fld_mpptWatch

/-- The flag of PWR_HSTAT that shows a stop. -/
def stopFld : HarvStop → Fld
  | .ovp => F.PWR_HSTAT_OVP
  | .uvlo => F.PWR_HSTAT_UVLO
  | .ceiling => F.PWR_HSTAT_CEILING

theorem apart_charging_stopFld (k : HarvStop) : ApartFrom F.PWR_HSTAT_CHARGING (stopFld k) := by cases k <;> decide

theorem apart_stopFld {j k : HarvStop} : j ≠ k → ApartFrom (stopFld j) (stopFld k) := by cases j <;> cases k <;> decide

theorem execHarvResume_eq (stop : HarvStop) :
    execHarvResume stop s = .next (s.when s.powered fun s => (s.setFld (stopFld stop) 0).harvShow) := by
  cases stop <;> rfl

/-- The end of one stop leaves the flags of the others. -/
theorem fld_resumed (stop k : HarvStop) (hs : s.regsWf = true) :
    (s.setFld (stopFld stop) 0).harvShow.fld (stopFld k) = if stop = k then 0 else s.fld (stopFld k) := by
  rw [fld_harvShow (regsWf_setFld hs) (apart_charging_stopFld k)]
  split
  next e =>
    have hw : (stopFld k).lo + (stopFld k).w ≤ 32 := (apart_charging_stopFld k).1
    rw [e, fld_setFld hs hw, Nat.zero_mod]
  next e => exact fld_setFld_of_apart hs (apart_stopFld e)

end

/-! ## The comparators of VSTORE (R65, R91) -/

section
variable {s : State} {g : Fld} {mv : Nat}

theorem fld_nvStart (h : avoids [.reg A.SYS_DIP, .stw] (.reg g.addr) = true) : s.nvStart.fld g = s.fld g :=
  nvStart_ind (P := fun t => t.fld g = s.fld g) (closed_fld h) rfl

theorem sys_nvStart : s.nvStart.sys = s.sys :=
  nvStart_ind (P := fun t => t.sys = s.sys) (closed_of (p := .sys) (by decide) fun _ _ he h => Eq.trans he h) rfl

theorem sys_supplyShow : s.supplyShow.sys = s.sys := sys_nvStart

theorem fld_supplyShow (h : avoids [.reg A.SYS_DIP, .stw, .reg A.PWR_THR_STAT] (.reg g.addr) = true) :
    s.supplyShow.fld g = s.fld g :=
  supplyShow_ind (P := fun t => t.fld g = s.fld g) (closed_fld h) rfl

theorem aboveKeyw_supplyShow (hs : s.regsWf = true) :
    s.supplyShow.fld F.PWR_THR_STAT_ABOVE_KEYW = if s.keyw ≤ s.sys.vstore then 1 else 0 := by
  rw [State.supplyShow, fld_nvStart (by decide), fld_putOn_of_apart (regsWf_putOn hs) (by decide), fld_putOn hs (by decide)]
  simp only [decide_eq_true_eq]

theorem aboveVchg_supplyShow (hs : s.regsWf = true) :
    s.supplyShow.fld F.PWR_THR_STAT_ABOVE_VCHG = if s.vchg ≤ s.sys.vstore then 1 else 0 := by
  rw [State.supplyShow, fld_nvStart (by decide), fld_putOn (regsWf_putOn hs) (by decide)]
  simp only [decide_eq_true_eq]

theorem wakes_supply : (s.supply mv).sys.wakes = s.sys.wakes := by
  rw [State.supply, sys_supplyShow]
  rfl

theorem aboveVchg_supply (hs : s.regsWf = true) :
    (s.supply mv).fld F.PWR_THR_STAT_ABOVE_VCHG = if s.vchg ≤ mv then 1 else 0 :=
  aboveVchg_supplyShow (s := s.modSys fun y => { y with vstore := mv }) hs

end

/-! ## The measured values (R91) -/

section
variable {s : State} {f g : Fld} {v h i : Nat}

/-- PWR_MEAS and what stands behind it, as PWR_MEAS_UPDATE takes them. -/
def State.measured (s : State) (v h i : Nat) : State :=
  (((s.modSys fun y => { y with
    vstore := v, vharv := h, iharv := i
    dipMin := if s.on F.SYS_DIP_ACTIVE then min y.dipMin (min (v / 10) 1023) else y.dipMin }).setFld
    F.PWR_MEAS_VSTORE (min (v / 10) 1023)).setFld F.PWR_MEAS_VHARV (min (quot h 20).toNat 1023)).setFld
    F.PWR_MEAS_IHARV (min i 511)

/-- The same with the flag of the input current's limit. -/
def State.limited (s : State) (v h i : Nat) : State :=
  (s.measured v h i).putOn F.PWR_HSTAT_ILIM_ACT (decide ((s.measured v h i).ilim ≤ i))

theorem execPwrMeasUpdate_eq :
    execPwrMeasUpdate v h i s = .next (s.when s.awake fun s => (s.limited v h i).supplyShow.mpptWatch) := rfl

theorem fld_measured_ne (hg : g.addr ≠ A.PWR_MEAS) : (s.measured v h i).fld g = s.fld g :=
  (fld_setFld_ne hg).trans ((fld_setFld_ne hg).trans (fld_setFld_ne hg))

theorem fld_limited_ne (hg : g.addr ≠ A.PWR_HSTAT) : (s.limited v h i).fld g = (s.measured v h i).fld g := fld_setFld_ne hg

theorem regsWf_limited (hs : s.regsWf = true) : (s.limited v h i).regsWf = true :=
  regsWf_putOn (regsWf_setFld (regsWf_setFld (regsWf_setFld hs)))

/-- A value limited to the field that takes it. -/
theorem fld_setFld_of_lt (hs : s.regsWf = true) (hf : f.lo + f.w ≤ 32) (hv : v < 2 ^ f.w) : (s.setFld f v).fld f = v :=
  (fld_setFld hs hf).trans (Nat.mod_eq_of_lt hv)

theorem iharv_measured (hs : s.regsWf = true) : (s.measured v h i).fld F.PWR_MEAS_IHARV = min i 511 :=
  fld_setFld_of_lt (regsWf_setFld (regsWf_setFld hs)) (by decide) (show min i 511 < 512 by omega)

theorem vharv_measured (hs : s.regsWf = true) : (s.measured v h i).fld F.PWR_MEAS_VHARV = min (quot h 20).toNat 1023 :=
  (fld_setFld_of_apart (regsWf_setFld (regsWf_setFld hs)) (by decide)).trans
    (fld_setFld_of_lt (regsWf_setFld hs) (by decide) (show min (quot h 20).toNat 1023 < 1024 by omega))

theorem vstore_measured (hs : s.regsWf = true) : (s.measured v h i).fld F.PWR_MEAS_VSTORE = min (v / 10) 1023 :=
  (fld_setFld_of_apart (regsWf_setFld (regsWf_setFld hs)) (by decide)).trans
    ((fld_setFld_of_apart (regsWf_setFld hs) (by decide)).trans
      (fld_setFld_of_lt hs (by decide) (show min (v / 10) 1023 < 1024 by omega)))

end

/-! ## What leaves the bank-good flags alone

The end of a transfer and of a host transaction write many registers, at addresses that depend on the port and on the
bundle; none of them is PWR_BANK. -/

/-- PWR_BANK holds the word `w`. -/
def BankHolds (w : Word) (s : State) : Prop := s.reg A.PWR_BANK = w

section
variable {s : State} {w : Word} {f : Fld} {l : List Part} {p v k n code done : Nat}

theorem closed_bankHolds (h : avoids l (.reg A.PWR_BANK) = true) : Closed l (BankHolds w) := closed_reg h

theorem setFld_keeps_bank (hf : A.PWR_BANK < f.addr) (h : BankHolds w s) : BankHolds w (s.setFld f v) :=
  (reg_setFld_ne hf.ne).trans h

theorem raise_keeps_bank (h : BankHolds w s) : BankHolds w (s.raise p k) := by
  have elsewhere : 256 * p + 0x18 ≠ A.PWR_BANK := by
    unfold A.PWR_BANK
    omega
  exact raise_ind (closed_bankHolds (by simpa [avoids, Part.covers, A.PWR_BANK] using elsewhere)) h

theorem putLoop_keeps_bank {x : Loop} (h : BankHolds w s) : BankHolds w (s.putLoop n x) :=
  ite_ind (raise_keeps_bank h) h

theorem portFault_keeps_bank (h : BankHolds w s) : BankHolds w (s.portFault p k) := by
  have hf : A.PWR_BANK < (faultFld p).addr := by
    unfold faultFld
    split
    · exact Nat.lt_add_right _ (by decide : A.PWR_BANK < 0x1064)
    · exact Nat.lt_add_right _ (by decide : A.PWR_BANK < 0x1458)
  exact ite_ind h (raise_keeps_bank (setFld_keeps_bank hf h))

theorem portState_keeps_bank (h : BankHolds w s) : BankHolds w (s.portState p v) :=
  ite_ind (setFld_keeps_bank (Nat.lt_add_right _ (by decide : A.PWR_BANK < 0x1060)) h)
    (setFld_keeps_bank (Nat.lt_add_right _ (by decide : A.PWR_BANK < 0x1454)) h)

theorem portCount_keeps_bank (h : BankHolds w s) : BankHolds w (s.portCount p) :=
  ite_ind (setFld_keeps_bank (Nat.lt_add_right _ (by decide : A.PWR_BANK < 0x1068)) h)
    (setFld_keeps_bank (Nat.lt_add_right _ (by decide : A.PWR_BANK < 0x145c)) h)

theorem portIdle_keeps_bank {x : Xfer} (h : BankHolds w s) : BankHolds w (s.portIdle p x) := by
  have ended : BankHolds w (s.setXfer p none) := h
  have owed : BankHolds w (if p < 4 then (s.setXfer p none).modPrt p fun y => { y with owed := some (x.req.tenant, x.taken) }
      else (s.setXfer p none).chargeShare p x.req.tenant x.taken) :=
    ite_ind ended (chargeShare_ind (closed_bankHolds (by decide)) ended)
  exact setFloor_ind (closed_bankHolds (by decide)) (portCount_keeps_bank (portState_keeps_bank owed))

theorem edgeRate_keeps_bank {x : Xfer} {rise m : Nat} {good : Bool} (h : BankHolds w s) :
    BankHolds w (s.edgeRate p x rise m good) := by
  unfold State.edgeRate
  extract_lets cfg elr risen slow
  have hr : BankHolds w risen := setFld_keeps_bank (Nat.lt_add_right _ (by decide : A.PWR_BANK < 0x1060)) h
  have hs : BankHolds w slow := ite_ind (portFault_keeps_bank hr) hr
  exact ite_ind (putLoop_keeps_bank hs) hs

theorem transferFail_keeps_bank {data : List Byte} (h : BankHolds w s) : BankHolds w (s.transferFail p code done data) := by
  unfold State.transferFail
  split
  · exact h
  · extract_lets ws posted target fz faulted fenced full flags recorded captured completed
    have hfaulted : BankHolds w faulted := portFault_keeps_bank h
    have hfenced : BankHolds w fenced := ite_ind (raise_keeps_bank hfaulted) hfaulted
    have hfull : BankHolds w full := ite_ind (portFault_keeps_bank hfenced) hfenced
    have hrecorded : BankHolds w recorded := record_ind (closed_bankHolds (by decide)) hfull
    have hcaptured : BankHolds w captured :=
      ite_ind (captureRead_ind (closed_bankHolds (by decide)) hrecorded) hrecorded
    have hcompleted : BankHolds w completed :=
      ite_ind hcaptured (complete_ind (closed_bankHolds (by decide)) hcaptured)
    exact portIdle_keeps_bank hcompleted

theorem cutPort_keeps_bank (h : BankHolds w s) : BankHolds w (s.cutPort p code) := by
  unfold State.cutPort State.transferBreak
  split
  · exact h
  · extract_lets n
    split
    · exact h
    · exact transferFail_keeps_bank (ite_ind (edgeRate_keeps_bank h) h)

theorem cutPorts_keeps_bank {ps : List Nat} (h : BankHolds w s) : BankHolds w (s.cutPorts ps code) :=
  forEach_ind (fun _ _ => cutPort_keeps_bank) h

theorem checkPorts_keeps_bank {ps : List Nat} (h : BankHolds w s) : BankHolds w (s.checkPorts ps) :=
  checkPorts_ind (closed_bankHolds (by decide)) h

theorem abortTx_keeps_bank (h : BankHolds w s) : BankHolds w (s.abortTx p code) := by
  unfold State.abortTx
  split
  · exact h
  · extract_lets rewound ended
    have hrewound : BankHolds w rewound :=
      forEach_ind (fun b _ => setFld_keeps_bank (Nat.lt_add_right _ (by decide : A.PWR_BANK < 0x20e0))) h
    have hended : BankHolds w ended :=
      showEnd_ind (closed_bankHolds (by decide)) (dropTx_ind (closed_bankHolds (by decide)) hrewound)
    exact raise_keeps_bank (ite_ind (setFld_keeps_bank (by decide) hended) (setFld_keeps_bank (by decide) hended))

theorem spiFree_keeps_bank (h : BankHolds w s) : BankHolds w s.spiFree :=
  spiFree_ind (closed_bankHolds (by decide)) h

/-! ## The loss of a bank (R27) -/

/-- The good flag of the bank VSENSIO or VIOH. -/
def bankFld (sens : Bool) : Fld := if sens then F.PWR_BANK_VSENSIO_OK else F.PWR_BANK_VIOH_OK

theorem addr_bankFld (sens : Bool) : (bankFld sens).addr = A.PWR_BANK := by cases sens <;> rfl

theorem bankFld_wf {sens : Bool} : (bankFld sens).lo + (bankFld sens).w ≤ 32 := by cases sens <;> decide

theorem fld_bankFld {sens : Bool} {t : State} (h : BankHolds (s.reg A.PWR_BANK) t) :
    t.fld (bankFld sens) = s.fld (bankFld sens) := by
  rw [State.fld, State.fld, addr_bankFld, show t.reg A.PWR_BANK = s.reg A.PWR_BANK from h]

/-- What the loss of a bank cuts (R27): the transfers of the sensor ports, or the host ports' transactions. -/
def State.bankCut (s : State) (sens : Bool) : State :=
  if sens then (s.cutPorts [0, 1, 2, 3, 4, 5, 6] 6).checkPorts [0, 1, 2, 3, 4, 5, 6]
  else (((s.abortTx 0 3).abortTx 1 3).modSys fun y => { y with csLow := false }).spiFree

theorem execBankLost_eq {sens : Bool} : execBankLost sens s = .next (s.when (s.powered && s.on (bankFld sens)) fun s =>
    ((s.setFld (bankFld sens) 0).bankCut sens).raise 0x03 12) := rfl

theorem bankCut_keeps_bank {sens : Bool} (h : BankHolds w s) : BankHolds w (s.bankCut sens) :=
  ite_ind (checkPorts_keeps_bank (cutPorts_keeps_bank h)) (spiFree_keeps_bank (abortTx_keeps_bank (abortTx_keeps_bank h)))

theorem regsWf_bankCut {sens : Bool} (hs : s.regsWf = true) : (s.bankCut sens).regsWf = true :=
  have aborted : ((s.abortTx 0 3).abortTx 1 3).regsWf = true :=
    abortTx_ind (closed_regsWf.mono (by decide)) (abortTx_ind (closed_regsWf.mono (by decide)) hs)
  ite_ind (Q := fun t : State => t.regsWf = true)
    (checkPorts_ind (closed_regsWf.mono (by decide)) (cutPorts_ind (closed_regsWf.mono (by decide)) hs))
    (spiFree_ind (closed_regsWf.mono (by decide)) aborted)

end

/-! ## The commands, where their guards hold -/

section
variable {s : State}

/-- A command that is one guarded update completes with that update where its guard holds. -/
theorem completes_when {i : Instr} {c : Bool} {f : State → State} {Q : State → Prop} (e : exec i s = .next (s.when c f))
    (hc : c = true) (hQ : exec i s = .next (f s) → Q (f s)) : completes i s Q :=
  have h : exec i s = .next (f s) := e.trans (congrArg Host.Outcome.next (if_pos hc))
  ⟨f s, h, hQ h⟩

theorem completes_harvOvp (hs : s.regsWf = true) (hp : s.powered = true) (hn : s.on F.PWR_HSTAT_OVP = false) :
    completes .harvOvp s fun t =>
      t.fld F.PWR_HSTAT_OVP = 1 ∧ t.fld F.PWR_RAILEVT_HARV_OVP = 1 ∧ t.bit (F.PIRQ 0x03) 11 = true := by
  refine completes_when rfl (by simp [hp, hn]) fun _ => ?_
  have stopped : (s.setFld F.PWR_HSTAT_OVP 1).regsWf = true := regsWf_setFld hs
  have risen : (State.risen (s.setFld F.PWR_HSTAT_OVP 1) [0x03]
      ((s.setFld F.PWR_HSTAT_OVP 1).setFld F.PWR_RAILEVT_HARV_OVP 1)).regsWf = true :=
    risen_ind (closed_regsWf.mono (by decide)) (regsWf_setFld stopped)
  refine ⟨?_, ?_, bit_raise (regsWf_harvShow risen) (by decide)⟩
  · rw [fld_raise_of_avoids (by decide), fld_harvShow risen (by decide), fld_risen_of_avoids (by decide),
      fld_setFld_ne (by decide), fld_setFld hs (by decide)]
    rfl
  · rw [fld_raise_of_avoids (by decide), fld_harvShow risen (by decide), fld_risen_of_avoids (by decide),
      fld_setFld stopped (by decide)]
    rfl

theorem completes_harvUvlo (hs : s.regsWf = true) (hp : s.powered = true) (hn : s.on F.PWR_HSTAT_UVLO = false) :
    completes .harvUvlo s fun t => t.fld F.PWR_HSTAT_UVLO = 1 ∧ t.bit (F.PIRQ 0x03) 11 = true := by
  refine completes_when rfl (by simp [hp, hn]) fun _ => ?_
  have stopped : (s.setFld F.PWR_HSTAT_UVLO 1).regsWf = true := regsWf_setFld hs
  refine ⟨?_, bit_raise (regsWf_harvShow stopped) (by decide)⟩
  rw [fld_raise_of_avoids (by decide), fld_harvShow stopped (by decide), fld_setFld hs (by decide)]
  rfl

theorem completes_harvCeiling (hs : s.mapsWf = true) (hp : s.powered = true) (hn : s.on F.PWR_HSTAT_CEILING = false) :
    completes .harvCeiling s fun t =>
      t.fld F.PWR_HSTAT_CEILING = 1 ∧ (s.loopEn loopMPPT = true → (t.loop loopMPPT).satHi = true) := by
  refine completes_when rfl (by simp [hp, hn]) fun _ => ?_
  have stopped : (s.setFld F.PWR_HSTAT_CEILING 1).regsWf = true := regsWf_setFld (mapsWf_regs hs)
  constructor
  · rw [fld_satHigh_of_avoids (by decide), fld_harvShow stopped (by decide), fld_setFld (mapsWf_regs hs) (by decide)]
    rfl
  · intro he
    refine satHi_satHigh ?_ ?_
    · rw [loops_harvShow, loops_setFld]
      exact mapsWf_loops hs
    · rwa [State.loopEn, State.on, fld_harvShow stopped (by decide), fld_setFld_ne (by decide)]

theorem completes_harvResume (stop : HarvStop) (hs : s.regsWf = true) (hp : s.powered = true) :
    completes (.harvResume stop) s fun t =>
      t.fld F.PWR_HSTAT_OVP = (if stop = .ovp then 0 else s.fld F.PWR_HSTAT_OVP) ∧
      t.fld F.PWR_HSTAT_UVLO = (if stop = .uvlo then 0 else s.fld F.PWR_HSTAT_UVLO) ∧
      t.fld F.PWR_HSTAT_CEILING = (if stop = .ceiling then 0 else s.fld F.PWR_HSTAT_CEILING) ∧
      changesOnly [.reg A.PWR_HSTAT, .pln] s t :=
  completes_when (execHarvResume_eq stop) hp fun e =>
    ⟨fld_resumed stop .ovp hs, fld_resumed stop .uvlo hs, fld_resumed stop .ceiling hs,
      frame_of execHarvResume_ind (by decide) e⟩

theorem completes_vchgRise (hs : s.regsWf = true) (hp : s.powered = true) : completes .vchgRise s fun t =>
    t.fld F.PWR_THR_STAT_ABOVE_VCHG = 1 ∧
    (s.sys.phase ≠ .booting → s.bit F.SYS_WAKE_EN_WAKE 11 = true → t.sys.wakes = s.sys.wakes ||| 2 ^ 11) ∧
    changesOnly [.reg A.PWR_THR_STAT, .reg A.SYS_DIP, .sys, .stw] s t := by
  refine completes_when rfl hp fun e => ⟨?above, ?wake, ?frame⟩
  case frame => exact frame_of (fun hC => execVchgRise_ind (hC.mono (by decide))) (by decide) e
  case above =>
    have above : (s.supply (max s.sys.vstore s.vchg)).fld F.PWR_THR_STAT_ABOVE_VCHG = 1 :=
      (aboveVchg_supply hs).trans (if_pos (Nat.le_max_right _ _))
    exact when_ind (P := fun t => t.fld F.PWR_THR_STAT_ABOVE_VCHG = 1) (fun _ h => h) above
  case wake =>
    intro hb hw
    have acts : (decide (s.sys.phase ≠ .booting) && s.bit F.SYS_WAKE_EN_WAKE 11) = true := by simp [hb, hw]
    rw [State.when, if_pos acts]
    exact congrArg (· ||| 2 ^ 11) wakes_supply

theorem completes_pwrMeasUpdate (v h i : Nat) (hs : s.regsWf = true) (ha : s.awake = true) :
    completes (.pwrMeasUpdate v h i) s fun t =>
      t.sys.vstore = v ∧ t.fld F.PWR_MEAS_VHARV = min (quot h 20).toNat 1023 ∧ t.fld F.PWR_MEAS_IHARV = min i 511 ∧
      t.fld F.PWR_MEAS_VSTORE = min (v / 10) 1023 ∧
      t.fld F.PWR_THR_STAT_ABOVE_KEYW = (if s.keyw ≤ v then 1 else 0) ∧
      t.fld F.PWR_THR_STAT_ABOVE_VCHG = (if s.vchg ≤ v then 1 else 0) := by
  refine completes_when execPwrMeasUpdate_eq ha fun _ => ⟨?_, ?_, ?_, ?_, ?_, ?_⟩
  · rw [sys_mpptWatch, sys_supplyShow]
    rfl
  · rw [fld_mpptWatch, fld_supplyShow (by decide), fld_limited_ne (by decide), vharv_measured hs]
  · rw [fld_mpptWatch, fld_supplyShow (by decide), fld_limited_ne (by decide), iharv_measured hs]
  · rw [fld_mpptWatch, fld_supplyShow (by decide), fld_limited_ne (by decide), vstore_measured hs]
  · rw [fld_mpptWatch, aboveKeyw_supplyShow (regsWf_limited hs), State.keyw, fld_limited_ne (by decide),
      fld_measured_ne (by decide)]
    rfl
  · rw [fld_mpptWatch, aboveVchg_supplyShow (regsWf_limited hs), State.vchg, fld_limited_ne (by decide),
      fld_measured_ne (by decide)]
    rfl

/-- BANK_LOST clears the flag of its bank, and what the loss cuts leaves it so. -/
theorem completes_bankLost (sens : Bool) (hs : s.regsWf = true) (hp : s.powered = true)
    (ho : s.on (bankFld sens) = true) : completes (.bankLost sens) s fun t =>
      t.fld (bankFld sens) = 0 ∧ t.bit (F.PIRQ 0x03) 12 = true := by
  refine completes_when execBankLost_eq (by rw [hp, ho]; rfl) fun _ => ?_
  have lost : (s.setFld (bankFld sens) 0).regsWf = true := regsWf_setFld hs
  refine ⟨?_, bit_raise (regsWf_bankCut lost) (by decide)⟩
  rw [fld_bankFld (raise_keeps_bank (bankCut_keeps_bank rfl)), fld_setFld hs bankFld_wf, Nat.zero_mod]

theorem completes_bankRestored (sens : Bool) (k : Nat) (hs : s.regsWf = true) (hp : s.powered = true)
    (ho : s.on (bankFld sens) = false) : completes (.bankRestored sens k) s fun t =>
      t.fld (bankFld sens) = 1 ∧ changesOnly [.reg A.PWR_BANK, .sys] s t := by
  refine completes_when rfl (show (s.powered && !(s.on (bankFld sens))) = true by rw [hp, ho]; rfl) fun _ => ⟨?_, ?_⟩
  · exact fld_setFld_of_lt hs bankFld_wf (by cases sens <;> decide)
  · have hC : Closed [.reg A.PWR_BANK, .sys] (changesOnly [.reg A.PWR_BANK, .sys] s) := closed_changesOnly (by decide)
    have restored : changesOnly [.reg A.PWR_BANK, .sys] s (s.setFld (bankFld sens) 1) :=
      setFld_ind (hC.mono (by rw [addr_bankFld]; decide)) (changesOnly_refl s)
    exact modSys_ind (hC.mono (by decide)) rfl rfl restored

end

/-- Settles O16: each command is one update of the state where its guard holds, and every field that it shows is read back
through the parts of that update that come after the write. PIRQ bit 11 at both of the stops that raise it (log entry
140), the rounding of VHARV and VSTORE (log entries 11 and 16) and the operand of HARV_RESUME (log entry 18) are the model's
choices. -/
theorem harvesterMeterAndBanks : Obligations.HarvesterMeterAndBanks := by
  unfold Obligations.HarvesterMeterAndBanks
  refine ⟨?ovp, ?uvlo, ?ceiling, ?resume, ?vchg, ?meter, ?sensLost, ?hostLost, ?sensBack, ?hostBack⟩
  case ovp => exact fun s hs => completes_harvOvp (mapsWf_regs hs)
  case uvlo => exact fun s hs => completes_harvUvlo (mapsWf_regs hs)
  case ceiling => exact fun s hs => completes_harvCeiling hs
  case resume => exact fun s stop hs => completes_harvResume stop (mapsWf_regs hs)
  case vchg => exact fun s hs => completes_vchgRise (mapsWf_regs hs)
  case meter => exact fun s v h i hs => completes_pwrMeasUpdate v h i (mapsWf_regs hs)
  case sensLost => exact fun s hs => completes_bankLost true (mapsWf_regs hs)
  case hostLost => exact fun s hs => completes_bankLost false (mapsWf_regs hs)
  case sensBack => exact fun s k hs => completes_bankRestored true k (mapsWf_regs hs)
  case hostBack => exact fun s k hs => completes_bankRestored false k (mapsWf_regs hs)

end Sys2Proof.Machine

/-! The clock, its gears and its reference (R44-R49, R57-R60). -/

namespace Sys2Proof.Machine

/-! ## Times in nanoseconds (R49) -/

/-- A quotient rounded up is the least multiplier that reaches the dividend. -/
theorem ceilDiv_le_iff {a b k : Nat} (hb : 0 < b) : ceilDiv a b ≤ k ↔ a ≤ k * b := by
  rw [ceilDiv, ← Nat.lt_succ_iff, Nat.div_lt_iff_lt_mul hb, Nat.succ_mul]
  omega

/-- Settles O30: K is a quotient rounded up, and that is the least multiplier that reaches the dividend. -/
theorem nanosecondsRoundUpToTicks : Obligations.NanosecondsRoundUpToTicks := by
  unfold Obligations.NanosecondsRoundUpToTicks nsTicks
  exact fun n => ⟨(ceilDiv_le_iff (by decide)).mp le_rfl, fun k hk => (ceilDiv_le_iff (by decide)).mpr hk⟩

/-! ## The gear that the registers show

CLK_PERIOD names the length of the cycle at which CCLK runs (R45). The governor changes gears only through the operations
below, and none of them leaves the two registers apart. -/

section
variable {s t : State} {f g : Fld} {l : List Part} {h v k : Nat} {b : Bool}

theorem gearTicks_lt (g : Nat) : gearTicks g < 1024 := by
  unfold gearTicks
  split <;> decide

/-- The gear in force is `h`, and CLK_PERIOD shows the cycle at which CCLK runs. -/
structure GearShown (h : Nat) (s : State) : Prop where
  wf : s.regsWf = true
  gear : s.gear = h
  period : s.fld F.CLK_PERIOD_TICKS = gearTicks s.cycleGear

/-- What decides that the gear is shown: the fields CUR and SWITCHING, TGT while a changeover runs, and CLK_PERIOD. -/
theorem GearShown.of_flds (hs : GearShown h s) (hw : t.regsWf = true) (cur : t.fld F.CLK_GEAR_CUR = s.fld F.CLK_GEAR_CUR)
    (switching : t.fld F.CLK_GEAR_SWITCHING = s.fld F.CLK_GEAR_SWITCHING)
    (target : t.fld F.CLK_GEAR_TGT = s.fld F.CLK_GEAR_TGT ∨ s.on F.CLK_GEAR_SWITCHING = false)
    (period : t.fld F.CLK_PERIOD_TICKS = s.fld F.CLK_PERIOD_TICKS) : GearShown h t := by
  have changeover : t.on F.CLK_GEAR_SWITCHING = s.on F.CLK_GEAR_SWITCHING := congrArg (· != 0) switching
  have cycle : t.cycleGear = s.cycleGear := by
    unfold State.cycleGear State.gear
    rw [changeover, cur]
    rcases target with e | e
    · rw [e]
    · simp only [e, Bool.false_and, Bool.false_eq_true, if_false]
  exact ⟨hw, cur.trans hs.gear, by rw [period, cycle, hs.period]⟩

theorem GearShown.clk {x : Clk} (hs : GearShown h s) : GearShown h { s with clk := x } :=
  hs.of_flds hs.wf rfl rfl (.inl rfl) rfl

/-- A field of CLK_GEAR other than CUR and SWITCHING, and than TGT while a changeover runs. -/
theorem GearShown.setFld (hs : GearShown h s) (ha : f.addr ≠ A.CLK_PERIOD) (hc : ApartFrom f F.CLK_GEAR_CUR)
    (hsw : ApartFrom f F.CLK_GEAR_SWITCHING) (ht : ApartFrom f F.CLK_GEAR_TGT ∨ s.on F.CLK_GEAR_SWITCHING = false) :
    GearShown h (s.setFld f v) :=
  hs.of_flds (regsWf_setFld hs.wf) (fld_setFld_of_apart hs.wf hc) (fld_setFld_of_apart hs.wf hsw)
    (ht.imp_left (fld_setFld_of_apart hs.wf)) (fld_setFld_ne (Ne.symm ha))

/-- The register file of `t` is canonical, and those that show the gear are as in `s`. -/
def SameGear (s t : State) : Prop :=
  t.regsWf = true ∧ t.reg A.CLK_GEAR = s.reg A.CLK_GEAR ∧ t.reg A.CLK_PERIOD = s.reg A.CLK_PERIOD

theorem sameGear_refl (hs : s.regsWf = true) : SameGear s s := ⟨hs, rfl, rfl⟩

theorem closed_sameGear (hg : avoids l (.reg A.CLK_GEAR) = true) (hp : avoids l (.reg A.CLK_PERIOD) = true)
    (hl : needsAll l runParts = true) : Closed l (SameGear s) :=
  closed_and (closed_regsWf.mono hl) (closed_and (closed_reg hg) (closed_reg hp))

theorem GearShown.of_sameGear (hs : GearShown h s) (e : SameGear s t) : GearShown h t := by
  obtain ⟨hw, hg, hp⟩ := e
  exact hs.of_flds hw (congrArg (getBits · 0 3) hg) (congrArg (getBits · 8 1) hg) (.inl (congrArg (getBits · 4 3) hg))
    (congrArg (getBits · 0 10) hp)

theorem switching_of_not_changing (hc : ¬ s.changing = true) : s.on F.CLK_GEAR_SWITCHING = false := by
  simp only [State.changing, Bool.or_eq_true, not_or, Bool.not_eq_true] at hc
  exact hc.1

/-- The held request becomes `x`: HELD changes, and outside a change TGT. -/
theorem GearShown.retarget (hs : GearShown h s) (x : Clk) (v k : Nat) : GearShown h (if s.changing = true then
    { s with clk := x }.setFld F.CLK_GEAR_HELD v
    else ({ s with clk := x }.setFld F.CLK_GEAR_HELD v).setFld F.CLK_GEAR_TGT k) := by
  have held : GearShown h ({ s with clk := x }.setFld F.CLK_GEAR_HELD v) :=
    hs.clk.setFld (by decide) (by decide) (by decide) (.inl (by decide))
  refine ite_with (fun _ => held) fun hc => held.setFld (by decide) (by decide) (by decide) (.inr ?_)
  have switching : ({ s with clk := x }.setFld F.CLK_GEAR_HELD v).fld F.CLK_GEAR_SWITCHING = s.fld F.CLK_GEAR_SWITCHING :=
    fld_setFld_of_apart (s := { s with clk := x }) hs.wf (by decide)
  rw [State.on, switching]
  exact switching_of_not_changing hc

theorem gearShown_holdGear (hs : GearShown h s) : GearShown h (s.holdGear k) := hs.retarget { s.clk with held := some k } 1 k

theorem gearShown_dropHeld (hs : GearShown h s) : GearShown h s.dropHeld := hs.retarget { s.clk with held := none } 0 _

theorem fld_dropHeld (hs : s.regsWf = true) (hh : ApartFrom F.CLK_GEAR_HELD g) (ht : ApartFrom F.CLK_GEAR_TGT g) :
    s.dropHeld.fld g = s.fld g := by
  have dropped : ({ s with clk := { s.clk with held := none } }.setFld F.CLK_GEAR_HELD 0).fld g = s.fld g :=
    fld_setFld_of_apart (s := { s with clk := { s.clk with held := none } }) hs hh
  exact ite_ind (Q := fun t : State => t.fld g = s.fld g) dropped
    ((fld_setFld_of_apart (regsWf_setFld (s := { s with clk := { s.clk with held := none } }) hs) ht).trans dropped)

theorem cycleGear_setFld_ne (hf : f.addr ≠ A.CLK_GEAR) : (s.setFld f v).cycleGear = s.cycleGear := by
  unfold State.cycleGear State.gear State.on
  rw [fld_setFld_ne hf.symm, fld_setFld_ne hf.symm, fld_setFld_ne hf.symm]

/-- The changeover begins: whatever the gear in force, CLK_PERIOD takes the cycle that runs from now on. -/
theorem gearShown_switchTo (hs : s.regsWf = true) (hg : s.gear = h) : GearShown h (s.switchTo k) := by
  have hw : ((s.setFld F.CLK_GEAR_TGT k).setFld F.CLK_GEAR_SWITCHING 1).regsWf = true := regsWf_setFld (regsWf_setFld hs)
  have cur : (s.switchTo k).gear = s.gear :=
    (fld_setFld_ne (by decide)).trans
      ((fld_setFld_of_apart (regsWf_setFld hs) (by decide)).trans (fld_setFld_of_apart hs (by decide)))
  refine ⟨regsWf_setFld hw, cur.trans hg, ?_⟩
  exact (fld_setFld_of_lt hw (by decide) (gearTicks_lt _)).trans (congrArg gearTicks (cycleGear_setFld_ne (by decide)).symm)

theorem gearShown_upRefused (hs : GearShown h s) : GearShown h (s.upRefused b) :=
  hs.of_sameGear (upRefused_ind (closed_sameGear (by decide) (by decide) (by decide)) (sameGear_refl hs.wf))

theorem gearShown_floorStat (hs : GearShown h s) : GearShown h s.floorStat :=
  hs.of_sameGear (floorStat_ind (closed_sameGear (by decide) (by decide) (by decide)) (sameGear_refl hs.wf))

/-- An upshift that waits for its voltage: TGT names the gear, and no changeover runs. -/
theorem gearShown_rampTo (hs : GearShown h s) (hc : s.on F.CLK_GEAR_SWITCHING = false) {x : Clk} : GearShown h
    { ((s.setFld F.CLK_GEAR_TGT k).setFld F.CLK_GEAR_VRAMP 1).setFld F.PLN_AVS_STAT_RAMP 1 with clk := x } :=
  have target : GearShown h (s.setFld F.CLK_GEAR_TGT k) := hs.setFld (by decide) (by decide) (by decide) (.inr hc)
  have ramp : GearShown h ((s.setFld F.CLK_GEAR_TGT k).setFld F.CLK_GEAR_VRAMP 1) :=
    target.setFld (by decide) (by decide) (by decide) (.inl (by decide))
  (ramp.setFld (by decide) (by decide) (by decide) (.inl (by decide))).clk

theorem gearShown_gearRequest (hs : GearShown h s) : GearShown h (s.gearRequest k) := by
  have dropped : GearShown h s.dropHeld := gearShown_dropHeld hs
  have switched : GearShown h (s.dropHeld.switchTo k) := gearShown_switchTo dropped.wf dropped.gear
  have refused {b : Bool} : GearShown h (s.upRefused b) := gearShown_upRefused hs
  unfold State.gearRequest
  refine ite_with (fun _ => ite_ind dropped (gearShown_holdGear hs)) fun hc => ite_ind dropped (ite_ind ?up ?down)
  case down => exact ite_ind (gearShown_holdGear hs) switched
  case up =>
    have still : s.dropHeld.on F.CLK_GEAR_SWITCHING = false :=
      (congrArg (· != 0) (fld_dropHeld hs.wf (by decide) (by decide))).trans (switching_of_not_changing hc)
    exact ite_ind refused (ite_ind (ite_ind refused switched) (ite_ind (gearShown_rampTo dropped still) switched))

theorem gearShown_regear (hs : GearShown h s) : GearShown h s.regear := by
  have requested {k : Nat} : GearShown h (s.floorStat.gearRequest k) := gearShown_gearRequest (gearShown_floorStat hs)
  unfold State.regear
  exact ite_ind (ite_ind (gearShown_holdGear requested) requested) (gearShown_floorStat hs)

theorem gearShown_runState (hs : GearShown h s) : GearShown h s.runState :=
  hs.of_sameGear ⟨regsWf_setFld (s := { s with sys := _ }) hs.wf, reg_setFld_ne (s := { s with sys := _ }) (by decide),
    reg_setFld_ne (s := { s with sys := _ }) (by decide)⟩

end

/-! ## A gear change (R44-R47) -/

section
variable {s : State} {g : Fld} {h v : Nat}

theorem fld_applyCode (h : avoids [.reg A.PWR_CORE, .loops] (.reg g.addr) = true) : (s.applyCode v).fld g = s.fld g :=
  applyCode_ind (P := fun t => t.fld g = s.fld g) (closed_fld h) rfl

theorem regsWf_applyCode (hs : s.regsWf = true) : (s.applyCode v).regsWf = true :=
  applyCode_ind (closed_regsWf.mono (by decide)) hs

theorem clk_applyCode : (s.applyCode v).clk = s.clk :=
  applyCode_ind (P := fun t => t.clk = s.clk) (closed_of (p := .clk) (by decide) fun _ _ he hs => Eq.trans he hs) rfl

theorem switching_switchTo (hs : s.regsWf = true) : (s.switchTo v).fld F.CLK_GEAR_SWITCHING = 1 :=
  (fld_setFld_ne (by decide)).trans (fld_setFld (regsWf_setFld hs) (by decide))

theorem target_switchTo (hs : s.regsWf = true) : (s.switchTo v).fld F.CLK_GEAR_TGT = v % 8 :=
  (fld_setFld_ne (by decide)).trans ((fld_setFld_of_apart (regsWf_setFld hs) (by decide)).trans (fld_setFld hs (by decide)))

theorem fld_switchTo (hs : s.regsWf = true) (ht : ApartFrom F.CLK_GEAR_TGT g) (hw : ApartFrom F.CLK_GEAR_SWITCHING g)
    (hp : g.addr ≠ A.CLK_PERIOD) : (s.switchTo v).fld g = s.fld g :=
  (fld_setFld_ne hp).trans ((fld_setFld_of_apart (regsWf_setFld hs) hw).trans (fld_setFld_of_apart hs ht))

/-- VCORE has reached its level: no ramp is shown, and none waits. -/
def State.ramped (s : State) : State :=
  { (s.setFld F.CLK_GEAR_VRAMP 0).setFld F.PLN_AVS_STAT_RAMP 0 with clk := { s.clk with ramp := none } }

theorem execVcoreRampDone_eq (hr : s.clk.ramp = some h) : execVcoreRampDone s =
    .next (s.when (s.cclk && s.on F.CLK_GEAR_VRAMP) fun s => (s.ramped.applyCode h).switchTo h) := by
  simp only [execVcoreRampDone, State.when, hr]
  rfl

/-- The registers of a gear change that has completed, before its voltage code and its interrupt. -/
def State.moved (s : State) : State :=
  (((s.setFld F.CLK_GEAR_CUR (s.fld F.CLK_GEAR_TGT)).setFld F.CLK_GEAR_SWITCHING 0).setFld F.CLK_PERIOD_TICKS
    (gearTicks (s.fld F.CLK_GEAR_TGT))).addSat F.CLK_GSW_COUNT 1

theorem switched_eq : s.switched =
    (State.applyCode { s.moved with pln := { s.moved.pln with gearMoved := true } } (s.fld F.CLK_GEAR_TGT)).raise 0x02 10 := rfl

theorem regsWf_moved (hs : s.regsWf = true) : s.moved.regsWf = true :=
  regsWf_setFld (regsWf_setFld (regsWf_setFld (regsWf_setFld hs)))

/-- The voltage code and the interrupt leave the registers of the clock as they are. -/
theorem fld_switched (hc : avoids [.reg A.PWR_CORE, .loops] (.reg g.addr) = true)
    (hr : avoids (.reg (256 * 0x02 + 0x18) :: irqParts) (.reg g.addr) = true) : s.switched.fld g = s.moved.fld g := by
  rw [switched_eq, fld_raise_of_avoids hr, fld_applyCode hc]
  rfl

theorem regsWf_switched (hs : s.regsWf = true) : s.switched.regsWf = true := switched_ind (closed_regsWf.mono (by decide)) hs

theorem switching_switched (hs : s.regsWf = true) : s.switched.fld F.CLK_GEAR_SWITCHING = 0 := by
  rw [fld_switched (by decide) (by decide), State.moved, State.addSat, fld_setFld_ne (by decide), fld_setFld_ne (by decide),
    fld_setFld (regsWf_setFld hs) (by decide), Nat.zero_mod]

theorem gear_switched (hs : s.regsWf = true) : s.switched.gear = s.fld F.CLK_GEAR_TGT := by
  rw [State.gear, fld_switched (by decide) (by decide), State.moved, State.addSat, fld_setFld_ne (by decide),
    fld_setFld_ne (by decide), fld_setFld_of_apart (regsWf_setFld hs) (by decide),
    fld_setFld_of_lt hs (by decide) (show s.fld F.CLK_GEAR_TGT < 2 ^ 3 from fld_lt)]

theorem period_switched (hs : s.regsWf = true) : s.switched.fld F.CLK_PERIOD_TICKS = gearTicks (s.fld F.CLK_GEAR_TGT) := by
  rw [fld_switched (by decide) (by decide), State.moved, State.addSat, fld_setFld_ne (by decide),
    fld_setFld_of_lt (regsWf_setFld (regsWf_setFld hs)) (by decide) (gearTicks_lt _)]

theorem irq_switched (hs : s.regsWf = true) : s.switched.bit (F.PIRQ 0x02) 10 = true := by
  rw [switched_eq]
  exact bit_raise (regsWf_applyCode (regsWf_moved hs)) (by decide)

theorem gearShown_switched (hs : s.regsWf = true) : GearShown (s.fld F.CLK_GEAR_TGT) s.switched := by
  refine ⟨regsWf_switched hs, gear_switched hs, ?_⟩
  have settled : s.switched.on F.CLK_GEAR_SWITCHING = false := congrArg (· != 0) (switching_switched hs)
  rw [period_switched hs, State.cycleGear, settled, gear_switched hs]
  rfl

/-- What GEAR_SWITCH_DONE does after the gear has changed, elsewhere than at GS (R47). -/
def State.goOn (s : State) : State :=
  if s.sys.phase = .running then
    match s.runState.clk.held with
    | none => s.runState.dropHeld.regear
    | some h => (s.runState.dropHeld.gearRequest h).regear
  else s

theorem execGearSwitchDone_eq : execGearSwitchDone s =
    .next (s.when (s.cclk && s.on F.CLK_GEAR_SWITCHING) fun s =>
      if s.switched.gear = gGS then s.switched.synthOff else s.switched.goOn) := rfl

theorem gearShown_goOn (hs : GearShown h s) : GearShown h s.goOn := by
  have dropped : GearShown h s.runState.dropHeld := gearShown_dropHeld (gearShown_runState hs)
  unfold State.goOn
  split
  · split
    · exact gearShown_regear dropped
    · exact gearShown_regear (gearShown_gearRequest dropped)
  · exact hs

theorem irq_goOn (hs : s.bit (F.PIRQ 0x02) 10 = true) : s.goOn.bit (F.PIRQ 0x02) 10 = true := by
  have closed {l : List Part} (h : avoids l (.reg (F.PIRQ 0x02).addr) = true) :
      Closed l fun t : State => t.bit (F.PIRQ 0x02) 10 = true := closed_bit h
  unfold State.goOn
  split
  next hr =>
    have dropped : s.runState.dropHeld.bit (F.PIRQ 0x02) 10 = true :=
      dropHeld_ind (closed (by decide)) (runState_ind (closed (by decide)) hr hs)
    split
    · exact regear_ind (closed (by decide)) dropped
    · exact regear_ind (closed (by decide)) (gearRequest_ind (closed (by decide)) dropped)
  next => exact hs

theorem completes_gearSwitchDone_toGS (hs : s.regsWf = true) (hc : s.cclk = true) (hw : s.on F.CLK_GEAR_SWITCHING = true)
    (ht : s.fld F.CLK_GEAR_TGT = 7) : completes .gearSwitchDone s fun t =>
      t.fld F.CLK_GEAR_CUR = 7 ∧ t.fld F.CLK_GEAR_SWITCHING = 0 ∧ t.fld F.CLK_SYN_ON = 0 ∧
      t.fld F.CLK_PERIOD_TICKS = 640 ∧ t.bit (F.PIRQ 0x02) 10 = true := by
  refine completes_when execGearSwitchDone_eq (by simp [hc, hw]) fun _ => ?_
  have cur : s.switched.gear = gGS := (gear_switched hs).trans ht
  have off {g : Fld} (hg : g.addr ≠ A.CLK_SYN) : s.switched.synthOff.fld g = s.switched.fld g :=
    (fld_setFld_ne hg).trans (fld_setFld_ne hg)
  rw [if_pos cur]
  refine ⟨(off (by decide)).trans cur, (off (by decide)).trans (switching_switched hs), ?_, ?_, ?_⟩
  · rw [State.synthOff, fld_setFld_of_apart (regsWf_setFld (regsWf_switched hs)) (by decide),
      fld_setFld (regsWf_switched hs) (by decide), Nat.zero_mod]
  · rw [off (by decide), period_switched hs, ht]
    rfl
  · rw [State.bit, off (by decide)]
    exact irq_switched hs

theorem completes_gearSwitchDone (hs : s.regsWf = true) (hc : s.cclk = true) (hw : s.on F.CLK_GEAR_SWITCHING = true)
    (ht : s.fld F.CLK_GEAR_TGT ≠ 7) : completes .gearSwitchDone s fun t =>
      t.fld F.CLK_GEAR_CUR = s.fld F.CLK_GEAR_TGT ∧ t.fld F.CLK_PERIOD_TICKS = gearTicks t.cycleGear ∧
      t.bit (F.PIRQ 0x02) 10 = true := by
  refine completes_when execGearSwitchDone_eq (by simp [hc, hw]) fun _ => ?_
  have cur : s.switched.gear ≠ gGS := (gear_switched hs).trans_ne ht
  obtain ⟨_, gear, period⟩ := gearShown_goOn (gearShown_switched hs)
  rw [if_neg cur]
  exact ⟨gear, period, irq_goOn (irq_switched hs)⟩

theorem completes_vcoreRampDone (hs : s.regsWf = true) (hc : s.cclk = true) (hv : s.on F.CLK_GEAR_VRAMP = true)
    (hr : s.clk.ramp = some h) : completes .vcoreRampDone s fun t =>
      t.fld F.CLK_GEAR_VRAMP = 0 ∧ t.fld F.CLK_GEAR_SWITCHING = 1 ∧ t.fld F.CLK_GEAR_TGT = h % 8 ∧ t.clk.ramp = none := by
  refine completes_when (execVcoreRampDone_eq hr) (by simp [hc, hv]) fun _ => ?_
  have hw : (s.ramped.applyCode h).regsWf = true := regsWf_applyCode (regsWf_setFld (regsWf_setFld hs))
  refine ⟨?_, switching_switchTo hw, target_switchTo hw, ?_⟩
  · rw [fld_switchTo hw (by decide) (by decide) (by decide), fld_applyCode (by decide)]
    exact (fld_setFld_ne (by decide)).trans (fld_setFld hs (by decide))
  · exact congrArg Clk.ramp clk_applyCode

end

/-! ## The wake from GS (R44) -/

theorem completes_synthLock {s : State} (hs : s.regsWf = true) (hc : s.cclk = true) (hp : s.sys.phase = .stow)
    (hw : s.sys.wakes ≠ 0) (hg : s.gear = 7) (hn : s.changing = false) : completes .synthLock s fun t =>
      t.fld F.CLK_SYN_ON = 1 ∧ t.fld F.CLK_SYN_LOCK = 1 ∧ t.fld F.CLK_GEAR_TGT = 0 ∧ t.fld F.CLK_GEAR_SWITCHING = 1 ∧
      changesOnly [.reg A.CLK_GEAR, .reg A.CLK_SYN, .reg A.CLK_PERIOD] s t := by
  refine completes_when rfl (by simp [hc, hp, hw, hg, hn, gGS]) fun _ => ?_
  have on : (s.setFld F.CLK_SYN_ON 1).regsWf = true := regsWf_setFld hs
  have locked : ((s.setFld F.CLK_SYN_ON 1).setFld F.CLK_SYN_LOCK 1).regsWf = true := regsWf_setFld on
  have hC : Closed [.reg A.CLK_GEAR, .reg A.CLK_SYN, .reg A.CLK_PERIOD]
      (changesOnly [.reg A.CLK_GEAR, .reg A.CLK_SYN, .reg A.CLK_PERIOD] s) := closed_changesOnly (by decide)
  refine ⟨?_, ?_, target_switchTo locked, switching_switchTo locked, ?_⟩
  · rw [fld_switchTo locked (by decide) (by decide) (by decide), fld_setFld_of_apart on (by decide),
      fld_setFld_of_lt hs (by decide) (by decide)]
  · rw [fld_switchTo locked (by decide) (by decide) (by decide), fld_setFld_of_lt on (by decide) (by decide)]
  · exact switchTo_ind (hC.mono (by decide)) (setFld_ind (hC.mono (by decide)) (setFld_ind (hC.mono (by decide))
      (changesOnly_refl s)))

end Sys2Proof.Machine

/-! ## What survives the writes of the blocks

A tamper response and the steps of boot write registers at addresses that depend on a tenant, a lane or a class. All of them
belong to blocks whose pages come after the clock, the supply and the Reckoner. -/

namespace Sys2Proof.Machine

/-- `P` survives every change of the parts in `l`, and every write of a register from page 0x06 on. -/
structure ClosedAbove (l : List Part) (P : State → Prop) : Prop where
  parts : Closed l P
  high : ∀ s a w, 0x600 ≤ a → P s → P (s.setReg a w)

/-- A part of `l`, or a register from page 0x06 on. -/
def Part.above (l : List Part) (p : Part) : Bool :=
  p.needs l || match p with
    | .reg a => decide (0x600 ≤ a)
    | _ => false

section
variable {l m : List Part} {P Q : State → Prop} {s : State} {f g : Fld} {v k n : Nat}

theorem ClosedAbove.closed (hA : ClosedAbove l P) (h : m.all (Part.above l) = true) : Closed m P := by
  refine ⟨fun p hp => ?_⟩
  have ha : p.above l = true := List.all_eq_true.mp h p hp
  rcases Bool.or_eq_true _ _ ▸ ha with hl | hr
  · exact hA.parts.closes hl
  · cases p
    case reg a => exact fun s w => hA.high s a w (of_decide_eq_true hr)
    all_goals exact absurd hr (by decide)

theorem ClosedAbove.mono (hA : ClosedAbove m P) (h : needsAll l m = true) : ClosedAbove l P := ⟨hA.parts.mono h, hA.high⟩

theorem ClosedAbove.setFld (hA : ClosedAbove l P) (hf : 0x600 ≤ f.addr) (hs : P s) : P (s.setFld f v) := hA.high s _ _ hf hs

theorem closedAbove_and (hP : ClosedAbove l P) (hQ : ClosedAbove l Q) : ClosedAbove l fun t => P t ∧ Q t :=
  ⟨closed_and hP.parts hQ.parts, fun s a w ha h => ⟨hP.high s a w ha h.1, hQ.high s a w ha h.2⟩⟩

theorem closedAbove_regsWf (h : needsAll l runParts = true) : ClosedAbove l fun t => t.regsWf = true :=
  ⟨closed_regsWf.mono h, fun _ _ _ _ => regsWf_setReg⟩

theorem closedAbove_fld (hg : g.addr < 0x600) (h : avoids l (.reg g.addr) = true) : ClosedAbove l fun t => t.fld g = v :=
  ⟨closed_fld h, fun _ _ _ ha hs => (fld_setReg_ne (hg.trans_le ha).ne).trans hs⟩

/-! ## Granules and lanes (R171, R186) -/

theorem freeGran_above (hA : ClosedAbove irqParts P) (hs : P s) : P (s.freeGran v n) :=
  poolMark_ind (hA.closed (by decide)) (hA.setFld (Nat.le_add_right_of_le (by decide))
    (hA.setFld (Nat.le_add_right_of_le (by decide)) hs))

theorem takeGran_above (hA : ClosedAbove irqParts P) (hs : P s) : P (s.takeGran v n k) :=
  poolMark_ind (hA.closed (by decide)) (hA.setFld (Nat.le_add_right_of_le (by decide))
    (hA.setFld (Nat.le_add_right_of_le (by decide)) hs))

/-- What a flush of a lane may change beside what an interrupt does. -/
def laneParts : List Part := [.hallmark, .lanes, .closed, .tx] ++ irqParts

theorem flushLane_above (hA : ClosedAbove laneParts P) (hs : P s) : P (s.flushLane v n k) := by
  unfold State.flushLane
  extract_lets -merge -underBinder i kept gone lane span spans free hit zeroed flagged dropped engine removed freed
  clear_value spans
  have hzeroed : P zeroed := forEach_ind (fun _ _ h => setTx_ind (hA.closed (by decide)) h) hs
  have hflagged : P flagged :=
    ite_ind hzeroed (raise_ind (hA.closed (by decide)) (hA.setFld (Nat.le_add_right_of_le (by decide)) hzeroed))
  have hdropped : P dropped := modLane_ind (hA.closed (by decide)) (setClosed_ind (hA.closed (by decide)) hflagged)
  have hfreed : P freed := freeGran_above (hA.mono (by decide)) (upd_hallmark (hA.closed (by decide)) hdropped)
  split
  · exact hfreed
  · exact setPend_ind (hA.closed (by decide)) hfreed

/-! ## Tamper responses below HOLD (R446, R456) -/

/-- What an occurrence whose response is below HOLD may change beside registers from page 0x06 on. -/
def tamperParts : List Part := [.stw, .asm, .env, .asy, .log, .tam, .reg 0x158] ++ laneParts

theorem zeroizeVolatile_above (hA : ClosedAbove tamperParts P) (hs : P s) : P s.zeroizeVolatile := by
  unfold State.zeroizeVolatile
  extract_lets -merge -underBinder zeroized queues lanes assemblies tenants
  have hqueues : P queues := forEach_ind (fun _ _ h => flushQueue_ind (hA.closed (by decide)) h)
    (setQueue_ind (hA.closed (by decide)) (hA.setFld (by decide) hs))
  have hlanes : P lanes := forEach_ind (fun _ _ h => flushLane_above (hA.mono (by decide)) h) hqueues
  have hassemblies : P assemblies := forEach_ind (fun _ _ h => ite_ind h
    (hA.setFld (Nat.le_add_right_of_le (by decide)) (hA.setFld (Nat.le_add_right_of_le (by decide)) h))) hlanes
  have htenants : P tenants := forEach_ind (fun _ _ h => modTen_ind (hA.closed (by decide)) h) hassemblies
  have hcleared : P { tenants with asm := [], env := none } :=
    upd_env (s := { tenants with asm := [] }) (hA.closed (by decide)) (upd_asm (hA.closed (by decide)) htenants fun _ => rfl)
  exact nvStart_ind (hA.closed (by decide)) (deferShow_ind (hA.closed (by decide)) hcleared)

theorem occur_above {cls req page off aud : Nat} (hr : s.respOf cls < 4) (hA : ClosedAbove tamperParts P) (hs : P s) :
    P (occur cls req page off aud s) := by
  unfold occur
  refine when_with (fun _ => ?_) hs
  extract_lets -merge -underBinder was lv counted conditioned risen entered raised wakes woken stopped
  have hcounted : P counted := tamLast_ind (hA.closed (by decide))
    (hA.setFld (Nat.le_add_right_of_le (by decide)) (hA.setFld (by decide) hs))
  have hconditioned : P conditioned := ite_ind hcounted (hA.setFld (by decide) hcounted)
  have hrisen : P risen := risen_ind (hA.closed (by decide)) hconditioned
  have hentered : P entered := tamEntry_ind (hA.closed (by decide)) hrisen
  have hraised : P raised := ite_ind (raise_ind (hA.closed (by decide)) hentered) hentered
  have hwoken : P woken := ite_ind (upd_sys (hA.closed (by decide)) rfl rfl hraised) hraised
  have hstopped : P stopped := ite_ind (hA.setFld (by decide) hwoken) hwoken
  rw [if_neg (Nat.not_le.mpr hr)]
  exact ite_ind (zeroizeVolatile_above hA hstopped) hstopped

end
end Sys2Proof.Machine

/-! The reference is lost and regained (R57-R60). -/

namespace Sys2Proof.Machine

section
variable {s s₀ : State} {f g : Fld} {l : List Part} {ps : List Nat} {p q k j cls req page off aud : Nat} {o : Option Nat}

/-! ## What is raised stays raised (R134) -/

theorem bit_setBit_of_bit (hs : s.regsWf = true) (hf : f.lo + f.w ≤ 32) (h : s.bit f k = true) :
    (s.setBit f j).bit f k = true := by
  have inside : k < f.w := Nat.lt_of_not_le fun hk =>
    absurd h (by rw [State.bit, Nat.testBit_lt_two_pow (fld_lt.trans_le (Nat.pow_le_pow_right (by decide) hk))]; decide)
  rw [State.bit, State.setBit, fld_setFld hs hf, Nat.testBit_mod_two_pow, Nat.testBit_or]
  simp [inside, show (s.fld f).testBit k = true from h]

/-- Source `k` of page `p` is latched, in a canonical register file. -/
def Latched (p k : Nat) (s : State) : Prop := s.regsWf = true ∧ s.bit (F.PIRQ p) k = true

theorem closed_latched (ha : avoids l (.reg (256 * p + 0x18)) = true) (hl : needsAll l runParts = true) :
    Closed l (Latched p k) :=
  closed_and (closed_regsWf.mono hl) (closed_bit ha)

/-- Another interrupt of the page, or of another one, takes nothing back. -/
theorem latched_raise (h : Latched p k s) : Latched p k (s.raise q j) := by
  have set : Latched p k (s.setBit (F.PIRQ q) j) := by
    obtain ⟨hw, hb⟩ := h
    refine ⟨regsWf_setFld hw, ?_⟩
    by_cases e : p = q
    · subst e
      exact bit_setBit_of_bit hw (by decide : 0 + 32 ≤ 32) hb
    · rw [State.bit, State.setBit, fld_setFld_ne fun ha => e (by rw [pirq_addr, pirq_addr] at ha; omega)]
      exact hb
  exact ite_ind (routeLine_ind (closed_latched (avoids_irqParts_pirq p) (by decide)) set) set

theorem latched_risen (h : Latched p k s) : Latched p k (State.risen s₀ ps s) :=
  forEach_ind (fun _ _ hs => ite_ind (latched_raise hs) hs) h

/-! ## Holdover (R58) -/

/-- No register of the clock is in what holdover changes, beside the flags that show it. -/
theorem fld_holdFrom (hr : s.respOf tcCLOCK < 4) (hg : g.addr < 0x600)
    (ha : avoids (.reg 0x218 :: .reg 0x518 :: tamperParts) (.reg g.addr) = true) :
    (State.holdFrom s₀ s).fld g = s.fld g := by
  have resp : (State.risen s₀ [0x02, 0x05] s).respOf tcCLOCK < 4 := by
    rwa [State.respOf, fld_risen_of_avoids (by decide)]
  have hA : ClosedAbove (.reg 0x218 :: .reg 0x518 :: tamperParts) fun t : State => t.fld g = s.fld g := closedAbove_fld hg ha
  exact occur_above resp (hA.mono (by decide)) (risen_ind (hA.closed (by decide)) rfl)

theorem latched_holdFrom (hr : s.respOf tcCLOCK < 4) (hp : 256 * p + 0x18 < 0x600)
    (ha : avoids tamperParts (.reg (256 * p + 0x18)) = true) (h : Latched p k s) : Latched p k (State.holdFrom s₀ s) := by
  have resp : (State.risen s₀ [0x02, 0x05] s).respOf tcCLOCK < 4 := by
    rwa [State.respOf, fld_risen_of_avoids (by decide)]
  refine occur_above resp ⟨closed_latched ha (by decide), fun t a w hb ht => ⟨regsWf_setReg ht.1, ?_⟩⟩ (latched_risen h)
  rw [State.bit, fld_setReg_ne (hp.trans_le hb).ne]
  exact ht.2

theorem fld_holdFlags (hs : s.regsWf = true) (hh : ApartFrom F.CLK_SYN_HOLDOVER g) (hr : ApartFrom F.RCK_STAT_HOLDOVER g) :
    s.holdFlags.fld g = s.fld g :=
  (fld_setFld_of_apart (regsWf_setFld hs) hr).trans (fld_setFld_of_apart hs hh)

theorem holdover_holdFlags (hs : s.regsWf = true) : s.holdFlags.fld F.CLK_SYN_HOLDOVER = 1 :=
  (fld_setFld_ne (by decide)).trans (fld_setFld hs (by decide))

theorem respOf_holdFlags : s.holdFlags.respOf tcCLOCK = s.respOf tcCLOCK :=
  (fld_setFld_ne (by decide)).trans (fld_setFld_ne (by decide))

theorem fld_holdover (hs : s.regsWf = true) (hr : s.respOf tcCLOCK < 4) (hg : g.addr < 0x600)
    (ha : avoids (.reg 0x218 :: .reg 0x518 :: tamperParts) (.reg g.addr) = true)
    (hh : ApartFrom F.CLK_SYN_HOLDOVER g) (hk : ApartFrom F.RCK_STAT_HOLDOVER g) : s.holdover.fld g = s.fld g :=
  (fld_holdFrom (respOf_holdFlags.trans_lt hr) hg ha).trans (fld_holdFlags hs hh hk)

theorem holdover_holdover (hs : s.regsWf = true) (hr : s.respOf tcCLOCK < 4) : s.holdover.fld F.CLK_SYN_HOLDOVER = 1 :=
  (fld_holdFrom (respOf_holdFlags.trans_lt hr) (by decide) (by decide)).trans (holdover_holdFlags hs)

theorem latched_holdover (hr : s.respOf tcCLOCK < 4) (h : Latched 0x02 k s) : Latched 0x02 k s.holdover :=
  have flags : Latched 0x02 k s.holdFlags :=
    setFld_ind (closed_latched (by decide) (by decide)) (setFld_ind (closed_latched (by decide) (by decide)) h)
  latched_holdFrom (respOf_holdFlags.trans_lt hr) (by decide) (by decide) flags

/-! ## Lock (R57, R59) -/

theorem lock_unlock (hs : s.regsWf = true) : s.unlock.fld F.CLK_SYN_LOCK = 0 := by
  unfold State.unlock
  split
  next => exact (fld_setFld_of_apart (regsWf_setFld hs) (by decide)).trans (fld_setFld hs (by decide))
  next h => simpa [State.on] using h

theorem fld_unlock_ne (hg : avoids [.reg A.CLK_SYN] (.reg g.addr) = true) : s.unlock.fld g = s.fld g :=
  unlock_ind (P := fun t => t.fld g = s.fld g) (closed_fld hg) rfl

theorem regsWf_unlock (hs : s.regsWf = true) : s.unlock.regsWf = true := unlock_ind (closed_regsWf.mono (by decide)) hs

theorem regsWf_raise (hs : s.regsWf = true) (hp : needsAll (.reg (256 * p + 0x18) :: irqParts) runParts = true) :
    (s.raise p k).regsWf = true := raise_ind (closed_regsWf.mono hp) hs

theorem phase_raise : (s.raise p k).sys.phase = s.sys.phase :=
  raise_ind (P := fun t => t.sys.phase = s.sys.phase) (closed_of (p := .mode) rfl fun _ _ he h => he.1.trans h) rfl

theorem execLockLost_of_on (hc : s.cclk = true) (ho : s.on F.CLK_SYN_ON = true) :
    exec .lockLost s = .next ((s.unlock.setFld F.CLK_EVT_LOCK_LOST 1).raise 0x02 9).holdover :=
  congrArg Host.Outcome.next (if_pos (by simp [hc, ho]))

theorem completes_lockLost (hs : s.regsWf = true) (hc : s.cclk = true) (ho : s.on F.CLK_SYN_ON = true)
    (hr : s.respOf tcCLOCK < 4) : completes .lockLost s fun t =>
      t.on F.CLK_SYN_LOCK = false ∧ t.on F.CLK_SYN_HOLDOVER = true ∧ t.fld F.CLK_EVT_LOCK_LOST = 1 ∧
      t.bit (F.PIRQ 0x02) 9 = true := by
  refine ⟨_, execLockLost_of_on hc ho, ?_⟩
  have unlocked : s.unlock.regsWf = true := regsWf_unlock hs
  have lost : (s.unlock.setFld F.CLK_EVT_LOCK_LOST 1).regsWf = true := regsWf_setFld unlocked
  have latched : Latched 0x02 9 ((s.unlock.setFld F.CLK_EVT_LOCK_LOST 1).raise 0x02 9) :=
    ⟨regsWf_raise lost (by decide), bit_raise lost (by decide)⟩
  have resp : ((s.unlock.setFld F.CLK_EVT_LOCK_LOST 1).raise 0x02 9).respOf tcCLOCK < 4 := by
    rwa [State.respOf, fld_raise_of_avoids (by decide), fld_setFld_ne (by decide), fld_unlock_ne (by decide)]
  refine ⟨?_, ?_, ?_, (latched_holdover resp latched).2⟩
  · rw [State.on, fld_holdover latched.1 resp (by decide) (by decide) (by decide) (by decide), fld_raise_of_avoids (by decide),
      fld_setFld_ne (by decide), lock_unlock hs]
    rfl
  · rw [State.on, holdover_holdover latched.1 resp]
    rfl
  · rw [fld_holdover latched.1 resp (by decide) (by decide) (by decide) (by decide), fld_raise_of_avoids (by decide),
      fld_setFld unlocked (by decide)]
    rfl

/-- The amplitude is lost: its flags and its interrupt (R57). -/
def State.ampGone (s : State) : State := ((s.setFld F.CLK_MON_AMP_OK 0).setFld F.CLK_EVT_AMP_LOST 1).raise 0x02 8

theorem execAmpLost_eq (b : Bool) : execAmpLost b s = .next (s.when
    (if b then decide (s.sys.phase = .stow) && decide (s.sys.pstate = .stowCold) && s.sys.wakes != 0
      else s.cclk && s.on F.CLK_MON_AMP_OK)
    fun s => if s.ampGone.sys.phase = .stow then
        let t := s.ampGone.holdFrom s.ampGone.freeRun.holdFlags.wakeUp
        t.when t.awake State.regear
      else s.ampGone.unlock.holdover) := rfl

theorem phase_ampGone : s.ampGone.sys.phase = s.sys.phase := phase_raise

theorem execAmpLost_running (hc : s.cclk = true) (ho : s.on F.CLK_MON_AMP_OK = true) (hp : s.sys.phase ≠ .stow) :
    exec (.ampLost false) s = .next s.ampGone.unlock.holdover := by
  have hn : ¬ s.ampGone.sys.phase = .stow := phase_ampGone.trans_ne hp
  exact (execAmpLost_eq false).trans (congrArg Host.Outcome.next ((if_pos (by simp [hc, ho])).trans (if_neg hn)))

/-- What AMP_LOST needs in Stow: the oscillator did not start on a wake from STOW-COLD, or its amplitude is lost at GS (R60). -/
def State.ampLostInStow (s : State) (b : Bool) : Prop :=
  if b then s.sys.pstate = .stowCold ∧ s.sys.wakes ≠ 0 else s.cclk = true ∧ s.on F.CLK_MON_AMP_OK = true

theorem execAmpLost_stow {b : Bool} (hp : s.sys.phase = .stow) (hb : s.ampLostInStow b) :
    exec (.ampLost b) s = .next (let t := s.ampGone.holdFrom s.ampGone.freeRun.holdFlags.wakeUp
      t.when t.awake State.regear) := by
  have hy : s.ampGone.sys.phase = .stow := phase_ampGone.trans hp
  refine (execAmpLost_eq b).trans (congrArg Host.Outcome.next ((if_pos ?_).trans (if_pos hy)))
  cases b
  · obtain ⟨hc, ho⟩ := hb
    simp [hc, ho]
  · obtain ⟨hc, hw⟩ := hb
    simp [hp, hc, hw]

theorem completes_ampLost (hs : s.regsWf = true) (hc : s.cclk = true) (ho : s.on F.CLK_MON_AMP_OK = true)
    (hp : s.sys.phase ≠ .stow) (hr : s.respOf tcCLOCK < 4) : completes (.ampLost false) s fun t =>
      t.on F.CLK_MON_AMP_OK = false ∧ t.on F.CLK_SYN_LOCK = false ∧ t.on F.CLK_SYN_HOLDOVER = true ∧
      t.fld F.CLK_EVT_AMP_LOST = 1 ∧ t.bit (F.PIRQ 0x02) 8 = true := by
  refine ⟨_, execAmpLost_running hc ho hp, ?_⟩
  have cleared : (s.setFld F.CLK_MON_AMP_OK 0).regsWf = true := regsWf_setFld hs
  have lost : ((s.setFld F.CLK_MON_AMP_OK 0).setFld F.CLK_EVT_AMP_LOST 1).regsWf = true := regsWf_setFld cleared
  have latched : Latched 0x02 8 s.ampGone.unlock :=
    unlock_ind (closed_latched (by decide) (by decide)) ⟨regsWf_raise lost (by decide), bit_raise lost (by decide)⟩
  have gone : s.ampGone.regsWf = true := regsWf_raise lost (by decide)
  have resp : s.ampGone.unlock.respOf tcCLOCK < 4 := by
    rwa [State.respOf, fld_unlock_ne (by decide), State.ampGone, fld_raise_of_avoids (by decide), fld_setFld_ne (by decide),
      fld_setFld_ne (by decide)]
  refine ⟨?_, ?_, ?_, ?_, (latched_holdover resp latched).2⟩
  · rw [State.on, fld_holdover latched.1 resp (by decide) (by decide) (by decide) (by decide), fld_unlock_ne (by decide),
      State.ampGone, fld_raise_of_avoids (by decide), fld_setFld_ne (by decide), fld_setFld hs (by decide)]
    rfl
  · rw [State.on, fld_holdover latched.1 resp (by decide) (by decide) (by decide) (by decide), lock_unlock gone]
    rfl
  · rw [State.on, holdover_holdover latched.1 resp]
    rfl
  · rw [fld_holdover latched.1 resp (by decide) (by decide) (by decide) (by decide), fld_unlock_ne (by decide),
      State.ampGone, fld_raise_of_avoids (by decide), fld_setFld cleared (by decide)]
    rfl

/-! ## The return of the reference (R59, R264) -/

/-- The field `g` of a canonical register file reads `v`. -/
def Reads (g : Fld) (v : Nat) (s : State) : Prop := s.regsWf = true ∧ s.fld g = v

theorem closed_reads {v : Nat} (ha : avoids l (.reg g.addr) = true) (hl : needsAll l runParts = true) : Closed l (Reads g v) :=
  closed_and (closed_regsWf.mono hl) (closed_fld ha)

theorem Reads.setFld {v w : Nat} (h : Reads g v s) (ha : ApartFrom f g) : Reads g v (s.setFld f w) :=
  ⟨regsWf_setFld h.1, (fld_setFld_of_apart h.1 ha).trans h.2⟩

theorem reads_setFld {v : Nat} (hs : s.regsWf = true) (hf : f.lo + f.w ≤ 32) (hv : v < 2 ^ f.w) : Reads f v (s.setFld f v) :=
  ⟨regsWf_setFld hs, fld_setFld_of_lt hs hf hv⟩

/-- An epoch opens with fields of RCK_STAT beside HOLDOVER. -/
theorem reads_holdover_openEpoch {v : Nat} (h : Reads F.RCK_STAT_HOLDOVER v s) :
    Reads F.RCK_STAT_HOLDOVER v (s.openEpoch k j q o) := by
  have closed {l : List Part} (ha : avoids l (.reg 0x544) = true) (hl : needsAll l runParts = true) :
      Closed l (Reads F.RCK_STAT_HOLDOVER v) := closed_reads ha hl
  unfold State.openEpoch
  extract_lets -merge -underBinder before n opened rck begun recorded
  have hopened : Reads F.RCK_STAT_HOLDOVER v opened :=
    (((h.setFld (by decide)).setFld (by decide)).setFld (by decide)).setFld (by decide)
  have hrecorded : Reads F.RCK_STAT_HOLDOVER v recorded :=
    raise_ind (closed (by decide) (by decide)) (epochRecord_ind (closed (by decide) (by decide)) hopened)
  have hexhausted : Reads F.RCK_STAT_HOLDOVER v ((recorded.setFld F.RCK_STAT_EXHAUSTED 1).raise 0x05 10) :=
    raise_ind (closed (by decide) (by decide)) (hrecorded.setFld (by decide))
  exact ite_ind h (ite_ind (hexhausted.setFld (by decide)) hrecorded)

/-- 64 good edges have come: the flags of holdover and of free running fall, and lock is back. -/
def State.regained (s : State) : State :=
  (((((s.setFld F.CLK_SYN_HOLDOVER 0).setFld F.CLK_SYN_LOCK 1).setFld F.RCK_STAT_HOLDOVER 0).setFld F.CLK_SYN_FREERUN 0).setFld
    F.CLK_MON_AMP_OK 1).condEnd tcCLOCK

theorem execLockRegained_eq : execLockRegained s =
    .next (s.when (s.cclk && s.on F.CLK_SYN_ON && s.on F.CLK_SYN_HOLDOVER) fun s =>
      (if s.on F.CLK_SYN_FREERUN then s.regained.openEpoch epCLOCK 0 0 none else s.regained).regear) := rfl

/-- A field of CLK_SYN as the return of the reference leaves it. -/
theorem reads_reopened {v : Nat} {c : Bool} (hg : g.addr = A.CLK_SYN) (h : Reads g v s) :
    Reads g v (if c then s.openEpoch epCLOCK 0 0 none else s).regear :=
  have closed {l : List Part} (ha : avoids l (.reg A.CLK_SYN) = true) (hl : needsAll l runParts = true) :
      Closed l (Reads g v) := closed_reads (hg ▸ ha) hl
  regear_ind (closed (by decide) (by decide)) (ite_ind (openEpoch_ind (closed (by decide) (by decide)) h) h)

theorem completes_lockRegained (hs : s.regsWf = true) (hc : s.cclk = true) (ho : s.on F.CLK_SYN_ON = true)
    (hh : s.on F.CLK_SYN_HOLDOVER = true) : completes .lockRegained s fun t =>
      t.fld F.CLK_SYN_HOLDOVER = 0 ∧ t.fld F.CLK_SYN_LOCK = 1 ∧ t.fld F.CLK_SYN_FREERUN = 0 ∧
      t.fld F.RCK_STAT_HOLDOVER = 0 := by
  refine completes_when execLockRegained_eq (by simp [hc, ho, hh]) fun _ => ?_
  have condEnded {g : Fld} {v : Nat} {t : State} (ha : avoids [.reg 0x2344] (.reg g.addr) = true) (h : Reads g v t) :
      Reads g v (t.condEnd tcCLOCK) := condEnd_ind (closed_reads ha (by decide)) h
  have held : (s.setFld F.CLK_SYN_HOLDOVER 0).regsWf = true := regsWf_setFld hs
  have locked : ((s.setFld F.CLK_SYN_HOLDOVER 0).setFld F.CLK_SYN_LOCK 1).regsWf = true := regsWf_setFld held
  have holdover : Reads F.CLK_SYN_HOLDOVER 0 s.regained :=
    condEnded (by decide) (((((reads_setFld hs (by decide) (by decide)).setFld (by decide)).setFld (by decide)).setFld
      (by decide)).setFld (by decide))
  have lock : Reads F.CLK_SYN_LOCK 1 s.regained :=
    condEnded (by decide) ((((reads_setFld held (by decide) (by decide)).setFld (by decide)).setFld (by decide)).setFld
      (by decide))
  have shown : Reads F.RCK_STAT_HOLDOVER 0 s.regained :=
    condEnded (by decide) (((reads_setFld locked (by decide) (by decide)).setFld (by decide)).setFld (by decide))
  have freerun : Reads F.CLK_SYN_FREERUN 0 s.regained :=
    condEnded (by decide) ((reads_setFld (regsWf_setFld locked) (by decide) (by decide)).setFld (by decide))
  refine ⟨(reads_reopened rfl holdover).2, (reads_reopened rfl lock).2,
    (reads_reopened rfl freerun).2, ?_⟩
  have opened : Reads F.RCK_STAT_HOLDOVER 0
      (if s.on F.CLK_SYN_FREERUN then s.regained.openEpoch epCLOCK 0 0 none else s.regained) :=
    ite_ind (reads_holdover_openEpoch shown) shown
  exact (regear_ind (closed_reads (by decide) (by decide)) opened).2

end

/-- Settles O17: a gear change keeps CLK_PERIOD at the cycle that runs, through every request of the governor; the fields
that show the loss of the reference are read back through holdover, whose response is below HOLD and writes no register of
the clock. That a ramp under way completes in holdover (log entry 133), that AMP_LOST in Stow during a move to GS starts
free running (log entry 134) and what LOCK_REGAINED ends (log entry 15) are the model's choices. -/
theorem gearsAndReference : Obligations.GearsAndReference := by
  unfold Obligations.GearsAndReference
  refine ⟨?ramp, ?toGS, ?switch, ?wake, ?lost, ?holdover, ?amp, ?ampRuns, ?ampStow, ?regained⟩
  case ramp => exact fun s h hs => completes_vcoreRampDone (mapsWf_regs hs)
  case toGS => exact fun s hs => completes_gearSwitchDone_toGS (mapsWf_regs hs)
  case switch => exact fun s hs => completes_gearSwitchDone (mapsWf_regs hs)
  case wake => exact fun s hs => completes_synthLock (mapsWf_regs hs)
  case lost => exact fun s => execLockLost_of_on
  case holdover => exact fun s hs => completes_lockLost (mapsWf_regs hs)
  case amp => exact fun s hs => completes_ampLost (mapsWf_regs hs)
  case ampRuns => exact fun s => execAmpLost_running
  case ampStow => exact fun s b => execAmpLost_stow
  case regained => exact fun s hs => completes_lockRegained (mapsWf_regs hs)

end Sys2Proof.Machine

/-! Boot (R57, R65, R99-R102, R516): the stage that it reaches, and what it shows there. -/

namespace Sys2Proof.Machine

section
variable {s : State} {f g : Fld} {v : Nv} {l : List Part} {n m num mv peak : Nat} {u : State → State}

/-! ## The stage of boot -/

/-- Boot has reached stage `n` with the NV store `v`, and IDN_BOOTNUM shows `num`. -/
structure BootAt (n : Nat) (v : Nv) (num : Nat) (s : State) : Prop where
  wf : s.regsWf = true
  stage : s.fld F.SYS_BOOT_STAGE = n
  shown : s.fld F.IDN_BOOTNUM_NUM = num
  phase : s.sys.phase = .booting
  nv : s.nv = v

theorem bootAt_iff : BootAt n v num s ↔ s.regsWf = true ∧ s.fld F.SYS_BOOT_STAGE = n ∧ s.fld F.IDN_BOOTNUM_NUM = num ∧
    s.sys.phase = .booting ∧ s.nv = v :=
  ⟨fun ⟨a, b, c, d, e⟩ => ⟨a, b, c, d, e⟩, fun ⟨a, b, c, d, e⟩ => ⟨a, b, c, d, e⟩⟩

/-- What boot may change beside registers from page 0x06 on, its own register, the boot number and NV. -/
def bootParts : List Part :=
  [.clk, .pln, .loops, .closed, .reg A.IDN_PART, .reg 0x4c, .reg 0x50, .reg 0x54, .reg 0x58, .reg 0x5c, .reg 0x118, .reg 0x160,
    .reg 0x184, .reg 0x188, .reg 0x218, .reg 0x244, .reg 0x258, .reg 0x25c, .reg 0x260, .reg 0x344, .reg 0x350, .reg 0x354,
    .reg 0x358, .reg 0x550] ++ tamperParts

theorem closedAbove_bootAt : ClosedAbove bootParts (BootAt n v num) := by
  have hA : ClosedAbove bootParts fun t => t.regsWf = true ∧ t.fld F.SYS_BOOT_STAGE = n ∧ t.fld F.IDN_BOOTNUM_NUM = num ∧
      t.sys.phase = .booting ∧ t.nv = v :=
    closedAbove_and (closedAbove_regsWf (by decide)) <| closedAbove_and (closedAbove_fld (by decide) (by decide)) <|
      closedAbove_and (closedAbove_fld (by decide) (by decide)) <| closedAbove_and
        ⟨closed_of (p := .mode) (by decide) fun _ _ he hs => he.1.trans hs, fun _ _ _ _ hs => hs⟩
        ⟨closed_of (p := .nv) (by decide) fun _ _ he hs => Eq.trans he hs, fun _ _ _ _ hs => hs⟩
  simpa only [← bootAt_iff] using hA

/-- Boot goes on through an operation on these parts. -/
theorem closed_bootAt (h : l.all (Part.above bootParts) = true) : Closed l (BootAt n v num) := closedAbove_bootAt.closed h

theorem BootAt.setFld {x : Nat} (h : BootAt n v num s) (hs : ApartFrom f F.SYS_BOOT_STAGE)
    (hn : ApartFrom f F.IDN_BOOTNUM_NUM) : BootAt n v num (s.setFld f x) :=
  ⟨regsWf_setFld h.wf, (fld_setFld_of_apart h.wf hs).trans h.stage, (fld_setFld_of_apart h.wf hn).trans h.shown, h.phase,
    h.nv⟩

theorem BootAt.setReg {a : Nat} {w : Word} (h : BootAt n v num s) (hb : a ≠ A.SYS_BOOT) (hn : a ≠ A.IDN_BOOTNUM) :
    BootAt n v num (s.setReg a w) :=
  ⟨regsWf_setReg h.wf, (fld_setReg_ne hb.symm).trans h.stage, (fld_setReg_ne hn.symm).trans h.shown, h.phase, h.nv⟩

theorem BootAt.next (h : BootAt n v num s) (hm : m < 16) : BootAt m v num (s.stage m) :=
  ⟨regsWf_setFld h.wf, fld_setFld_of_lt h.wf (by decide) hm, (fld_setFld_ne (by decide)).trans h.shown, h.phase, h.nv⟩

theorem BootAt.bootOn (h : BootAt n v num s) : s.bootOn n u = u s := if_pos (by simp [h.phase, h.stage])

theorem BootAt.when (h : BootAt n v num s) : s.when (decide (s.sys.phase = .booting) && s.fld F.SYS_BOOT_STAGE == n) u = u s :=
  h.bootOn

/-! ## Steps 1 to 5 (R99) -/

/-- What each element of a list leaves standing stands after all of them. -/
theorem forEach_ind_mem {α σ : Type} {Q : σ → Prop} {l : List α} {f : α → σ → σ} {s : σ}
    (hf : ∀ x ∈ l, ∀ s, Q s → Q (f x s)) (h : Q s) : Q (forEach l f s) := by
  induction l generalizing s with
  | nil => exact h
  | cons x t ih => exact ih (fun y hy => hf y (List.mem_cons_of_mem x hy)) (hf x List.mem_cons_self s h)

theorem bootAt_bootStart (h : BootAt n v num s) : BootAt n v num (s.bootStart mv) := by
  unfold State.bootStart
  extract_lets kept retained caused cold started
  have hretained : BootAt n v num retained :=
    ite_ind (h.setFld (by decide) (by decide)) (upd_closed (closed_bootAt (by decide)) h fun _ => rfl)
  have hcaused : BootAt n v num caused := hretained.setReg (by decide) (by decide)
  have hcold : BootAt n v num cold := ite_ind (hcaused.setFld (by decide) (by decide)) hcaused
  have hstarted : BootAt n v num started := modSys_ind (closed_bootAt (by decide)) rfl rfl hcold
  exact applyCode_ind (closed_bootAt (by decide))
    (((hstarted.setFld (by decide) (by decide)).setFld (by decide) (by decide)).setFld (by decide) (by decide))

theorem not_mem_nvRegs : ∀ a ∈ nvRegs, a ≠ A.SYS_BOOT ∧ a ≠ A.IDN_BOOTNUM := by decide +kernel

theorem bootAt_loadConfig (h : BootAt n v num s) : BootAt n v num s.loadConfig := by
  unfold State.loadConfig
  extract_lets stored trimmed
  have hstored : BootAt n v num stored :=
    forEach_ind_mem (fun a ha _ hs => hs.setReg (not_mem_nvRegs a ha).1 (not_mem_nvRegs a ha).2) h
  have htrimmed : BootAt n v num trimmed :=
    ite_ind hstored ((hstored.setFld (by decide) (by decide)).setReg (by decide) (by decide))
  exact forEach_ind (fun _ _ => closedAbove_bootAt.setFld (Nat.le_add_right_of_le (by decide))) htrimmed

theorem bootAt_loadRetired (h : BootAt n v num s) : BootAt n v num s.loadRetired := by
  have high {f : Fld} {s : State} (hf : 0x600 ≤ f.addr) (hs : BootAt n v num s) : BootAt n v num (s.setFld f 0) :=
    closedAbove_bootAt.setFld hf hs
  exact forEach_ind (fun _ _ hs => high (Nat.le_add_right_of_le (by decide)) (high (Nat.le_add_right_of_le (by decide)) hs))
    (forEach_ind (fun _ _ => high (Nat.le_add_right_of_le (by decide)))
      (forEach_ind (fun _ _ => high (Nat.le_add_right_of_le (by decide)))
        (forEach_ind (fun _ _ => high (Nat.le_add_right_of_le (by decide))) h)))

theorem bootAt_bootConfig (h : BootAt n v num s) (hc : s.configReads = true) (hl : lifeWordGood s.nv = true) :
    BootAt 2 v num s.bootConfig := by
  unfold State.bootConfig
  extract_lets loaded owned checked
  have hloaded : BootAt 2 v num loaded := loadLog_ind (closed_bootAt (by decide)) (loadLife_ind (closed_bootAt (by decide))
    (bootAt_loadConfig (h.next (by decide))))
  have howned : BootAt 2 v num owned := ite_ind (bootAt_loadRetired hloaded) hloaded
  have reads : owned.configReads = true := by rwa [State.configReads, howned.nv, ← h.nv]
  have life : lifeWordGood owned.nv = true := by rwa [howned.nv, ← h.nv]
  have same : checked = owned := if_pos reads
  rw [same, howned.bootOn, if_pos life]
  exact howned

/-! ## The supply at step 6 (R65, R101) -/

theorem aboveVwarn_supplyShow (hs : s.regsWf = true) :
    s.supplyShow.fld F.PWR_THR_STAT_ABOVE_VWARN = s.fld F.PWR_THR_STAT_ABOVE_VWARN := by
  rw [State.supplyShow, fld_nvStart (by decide), fld_putOn_of_apart (regsWf_putOn hs) (by decide),
    fld_putOn_of_apart hs (by decide)]

theorem aboveVwarn_supply (hs : s.regsWf = true) :
    (s.supply mv).fld F.PWR_THR_STAT_ABOVE_VWARN = s.fld F.PWR_THR_STAT_ABOVE_VWARN :=
  aboveVwarn_supplyShow (s := s.modSys fun y => { y with vstore := mv }) hs

theorem aboveKeyw_supply (hs : s.regsWf = true) :
    (s.supply mv).fld F.PWR_THR_STAT_ABOVE_KEYW = if s.keyw ≤ mv then 1 else 0 :=
  aboveKeyw_supplyShow (s := s.modSys fun y => { y with vstore := mv }) hs

theorem aboveVwarn_supplyFlags (hs : s.regsWf = true) : (s.supplyFlags mv peak).fld F.PWR_THR_STAT_ABOVE_VWARN =
    if (decide (s.vwarn ≤ mv) && (s.on F.PWR_THR_STAT_ABOVE_VWARN || decide (s.vwarn + 60 < max mv peak))) = true
    then 1 else 0 := by
  rw [State.supplyFlags, aboveVwarn_supply (regsWf_putOn hs), fld_putOn hs (by decide)]

theorem aboveVwarn_low (hs : s.regsWf = true) (hm : mv < 2200) :
    (s.supplyFlags mv peak).fld F.PWR_THR_STAT_ABOVE_VWARN = 0 := by
  have below : ¬ s.vwarn ≤ mv := by
    unfold State.vwarn
    omega
  rw [aboveVwarn_supplyFlags hs, if_neg (by simp [below])]

theorem supply_enough (hs : s.regsWf = true) (hw : s.vwarn + 60 < mv) (hk : s.keyw ≤ mv) :
    (s.supplyFlags mv peak).on F.PWR_THR_STAT_ABOVE_VWARN = true ∧
    (s.supplyFlags mv peak).on F.PWR_THR_STAT_ABOVE_KEYW = true := by
  have above : s.vwarn ≤ mv ∧ s.vwarn + 60 < max mv peak := ⟨by omega, lt_max_of_lt_left hw⟩
  have keyw {b : Bool} : (s.putOn F.PWR_THR_STAT_ABOVE_VWARN b).keyw ≤ mv := by
    rwa [State.keyw, State.putOn, fld_setFld_ne (by decide)]
  constructor
  · rw [State.on, aboveVwarn_supplyFlags hs, if_pos (by simp [above])]
    rfl
  · rw [State.on, State.supplyFlags, aboveKeyw_supply (regsWf_putOn hs), if_pos keyw]
    rfl

theorem bootAt_supplyFlags (h : BootAt n v num s) : BootAt n v num (s.supplyFlags mv peak) :=
  supplyFlags_ind (closed_bootAt (by decide)) h

/-- Below VWARN boot waits (R101). -/
theorem bootSupply_waits {words : Nat} {lk : Bool} (h : BootAt n v num s) (hm : mv < 2200) :
    (s.bootSupply ⟨mv, peak, words⟩ lk).fld F.SYS_BOOT_STAGE = 14 ∧
    (s.bootSupply ⟨mv, peak, words⟩ lk).fld F.PWR_THR_STAT_ABOVE_VWARN = 0 := by
  have low : (s.supplyFlags mv peak).fld F.PWR_THR_STAT_ABOVE_VWARN = 0 := aboveVwarn_low h.wf hm
  have waits : s.bootSupply ⟨mv, peak, words⟩ lk = (s.supplyFlags mv peak).stage 14 := if_neg (by simp [State.on, low])
  rw [waits]
  exact ⟨((bootAt_supplyFlags h).next (by decide)).stage, (fld_setFld_ne (by decide)).trans low⟩

/-! ## Step 6 (R516) -/

/-- The value of a key that was just written is what was written, unless that is what an unlisted key reads as: then the
entry goes, and a map that is not canonical may hold another. -/
theorem mapGet_mapSet_of_ne {α : Type} [DecidableEq α] {d : Nat → α} {m : Map α} {k : Nat} {x : α} (hx : x ≠ d k) :
    mapGet d (mapSet d m k x) k = x := by
  induction m with
  | nil => simp [mapSet, mapGet, hx]
  | cons e t ih =>
    rw [mapSet, if_neg hx, if_neg hx]
    split
    · exact if_pos rfl
    · split
      · exact if_pos rfl
      next hk => exact (if_neg hk).trans ih

/-- No tenant has a stored chart. -/
def NoCharts (v : Nv) : Prop := ∀ t, t < 8 → (mapGet (fun _ => tenNv0) v.tens t).chart = none

/-- NV holds the boot number `b` and no chart. -/
structure Counted (b : Nat) (v : Nv) : Prop where
  bootNum : v.bootNum = b
  charts : NoCharts v

theorem chart_modTnv {u : TenNv → TenNv} {t k : Nat} (hc : (u (s.tnv k)).chart = (s.tnv k).chart)
    (hu : u (s.tnv k) ≠ tenNv0) (h : (s.tnv t).chart = none) : ((s.modTnv k u).tnv t).chart = none := by
  by_cases e : t = k
  · subst e
    exact ((congrArg TenNv.chart (mapGet_mapSet_of_ne hu)).trans hc).trans h
  · exact (congrArg TenNv.chart (mapGet_mapSet_ne e)).trans h

/-- Boot has reached stage `n` with the boot counted as `b` in NV and no stored chart to apply. -/
def CountedAt (n b num : Nat) (s : State) : Prop := BootAt n s.nv num s ∧ Counted b s.nv

theorem BootAt.counted {b : Nat} (h : BootAt n v num s) (hc : Counted b v) : CountedAt n b num s := by
  rw [CountedAt, h.nv]
  exact ⟨h, hc⟩

/-- The reservations of step 6 leave the boot number and the charts. -/
theorem counted_ringWord {k b : Nat} (hk : k ≠ 0) (h : Counted b s.nv) : Counted b (s.ringWord k).nv := by
  obtain ⟨hb, hc⟩ := h
  unfold State.ringWord
  rw [if_neg hk]
  split
  · refine ⟨hb, fun t ht => chart_modTnv rfl (fun e => ?_) (hc t ht)⟩
    exact absurd (congrArg TenNv.seqHw e) (Nat.ne_of_gt (Nat.succ_pos _))
  · refine ⟨hb, fun t ht => chart_modTnv rfl (fun e => ?_) (hc t ht)⟩
    exact absurd (congrArg TenNv.ceil e) (Nat.ne_of_gt (lt_min (by decide) (Nat.succ_pos _)))

theorem bootAt_ringWord {k : Nat} (h : BootAt n s.nv num s) : BootAt n (s.ringWord k).nv num (s.ringWord k) := by
  have moved {x : Nv} : BootAt n x num { s with nv := x } := ⟨h.wf, h.stage, h.shown, h.phase, rfl⟩
  exact ite_ind (Q := fun t : State => BootAt n t.nv num t) moved
    (ite_ind (Q := fun t : State => BootAt n t.nv num t) moved moved)

/-- All the ring words stand, the first of which counts the boot. -/
theorem ringWords_counted {c : Nat} (hc : 0 < c) (h : BootAt n s.nv num s) (hv : NoCharts s.nv) :
    CountedAt n (min (2 ^ 20 - 1) (s.nv.bootNum + 1)) num (forEach (List.range c) (fun k s => s.ringWord k) s) := by
  obtain ⟨c, rfl⟩ := Nat.exists_eq_add_one.mpr hc
  rw [List.range_succ_eq_map]
  have first : Counted (min (2 ^ 20 - 1) (s.nv.bootNum + 1)) (s.ringWord 0).nv := ⟨rfl, hv⟩
  refine forEach_ind_mem (l := (List.range c).map Nat.succ) (s := s.ringWord 0)
    (Q := CountedAt n (min (2 ^ 20 - 1) (s.nv.bootNum + 1)) num)
    (fun k hk t ht => ⟨bootAt_ringWord ht.1, counted_ringWord ?_ ht.2⟩) ⟨bootAt_ringWord h, first⟩
  obtain ⟨j, _, rfl⟩ := List.mem_map.mp hk
  exact Nat.succ_ne_zero j

theorem bootAt_ringRead (h : BootAt n v num s) (hg : s.nv.ringGood = true) : BootAt n v num s.ringRead := by
  unfold State.ringRead
  exact forEach_ind (fun _ _ ht => modTen_ind (closed_bootAt (by decide)) ht) ((if_pos hg).symm ▸ h)

theorem bootAt_showBoot (h : BootAt n v num s) (hb : s.nv.bootNum < 2 ^ 20) : BootAt n v s.nv.bootNum s.showBoot := by
  have shown : BootAt n v s.nv.bootNum (s.setFld F.IDN_BOOTNUM_NUM s.nv.bootNum) :=
    ⟨regsWf_setFld h.wf, (fld_setFld_ne (by decide)).trans h.stage, fld_setFld_of_lt h.wf (by decide) hb, h.phase, h.nv⟩
  exact (shown.setFld (by decide) (by decide)).setFld (by decide) (by decide)

theorem bootAt_relatch (h : BootAt n v num s) : BootAt n v num s.relatch := by
  unfold State.relatch
  split
  · exact h
  next cls last aud _ =>
    extract_lets counted named tamNow tam logNow risen raised
    have hcounted : BootAt n v num counted := closedAbove_bootAt.setFld (Nat.le_add_right_of_le (by decide))
      (closedAbove_bootAt.setFld (by decide) h)
    have hnamed : BootAt n v num named := closedAbove_bootAt.high _ _ _ (by decide) hcounted
    have hrisen : BootAt n v num risen := risen_ind (closed_bootAt (by decide))
      ⟨hnamed.wf, hnamed.stage, hnamed.shown, hnamed.phase, hnamed.nv⟩
    have hraised : BootAt n v num raised := raise_ind (closed_bootAt (by decide)) hrisen
    exact ite_ind (closedAbove_bootAt.setFld (by decide) hraised) hraised

theorem ringCount_le : s.ringCount ≤ 17 := by
  have tens : s.ringTens.length ≤ 8 := List.length_filter_le _ _
  unfold State.ringCount
  omega

/-- The ring words of step 6, as many of them as `words` lets stand. -/
def State.ringsWritten (s : State) (words : Nat) : State :=
  forEach (List.range (min words (s.stage 3).ringRead.ringCount)) (fun k s => s.ringWord k) (s.stage 3).ringRead

theorem bootRings_of_good {words : Nat} (hg : s.nv.ringGood = true) (hw : ¬ words < (s.stage 3).ringRead.ringCount) :
    s.bootRings words = (s.ringsWritten words).showBoot.bootOn 3 fun s => s.relatch.keptEntry.nvStart := by
  simp only [State.bootRings, if_neg hw, hg, if_true]
  rfl

/-- Step 6 with all its words: the boot is counted and shown. -/
theorem countedAt_bootRings {words : Nat} (h : BootAt n v num s) (hg : s.nv.ringGood = true)
    (hv : NoCharts s.nv) (hw : 17 ≤ words) :
    CountedAt 3 (min (2 ^ 20 - 1) (s.nv.bootNum + 1)) (min (2 ^ 20 - 1) (s.nv.bootNum + 1)) (s.bootRings words) := by
  have read : BootAt 3 s.nv num (s.stage 3).ringRead := bootAt_ringRead ((h.nv.symm ▸ h).next (by decide)) hg
  have charts : NoCharts (s.stage 3).ringRead.nv := by rwa [read.nv]
  have words_pos : 0 < min words (s.stage 3).ringRead.ringCount := lt_min (by omega) (Nat.lt_add_right _ Nat.one_pos)
  obtain ⟨written, counted⟩ := ringWords_counted words_pos (read.nv.symm ▸ read) charts
  rw [read.nv] at counted
  have shown : BootAt 3 (s.ringsWritten words).nv (min (2 ^ 20 - 1) (s.nv.bootNum + 1)) (s.ringsWritten words).showBoot :=
    counted.bootNum ▸ bootAt_showBoot written (counted.bootNum.trans_lt (by omega))
  have ended : BootAt 3 (s.ringsWritten words).nv (min (2 ^ 20 - 1) (s.nv.bootNum + 1))
      (s.ringsWritten words).showBoot.relatch.keptEntry.nvStart :=
    nvStart_ind (closed_bootAt (by decide)) (keptEntry_ind (closed_bootAt (by decide)) (bootAt_relatch shown))
  have all : ¬ words < (s.stage 3).ringRead.ringCount := Nat.not_lt.mpr (ringCount_le.trans hw)
  rw [bootRings_of_good hg all, shown.bootOn]
  exact ended.counted counted

/-! ## Steps 7 to 10 -/

theorem bootAt_bootPatch (h : BootAt n v num s) : BootAt 4 v num s.bootPatch := by
  have begun : BootAt 4 v num (s.stage 4) := h.next (by decide)
  unfold State.bootPatch
  extract_lets started
  split
  · exact begun
  · split
    · extract_lets level
      have hlevel : BootAt 4 v num level := (begun.setFld (by decide) (by decide)).setFld (by decide) (by decide)
      exact ((hlevel.setFld (by decide) (by decide)).setFld (by decide) (by decide)).setFld (by decide) (by decide)
    · extract_lets rejected
      have hrejected : BootAt 4 v num rejected := (begun.setFld (by decide) (by decide)).setFld (by decide) (by decide)
      exact raise_ind (closed_bootAt (by decide)) (logEntry_ind (closed_bootAt (by decide)) hrejected)

theorem bootAt_bootErr {code aud data : Nat} (h : BootAt n v num s) : BootAt n v num (s.bootErr code aud data) :=
  logEntry_ind (closed_bootAt (by decide)) (ite_ind (h.setFld (by decide) (by decide)) h)

theorem bootAt_bootRetained (h : BootAt n v num s) : BootAt n v num s.bootRetained := by
  have taken {t k : Nat} {s : State} (hs : BootAt n v num s) : BootAt n v num (s.takeGran t k 0) :=
    takeGran_above (closedAbove_bootAt.mono (by decide)) hs
  unfold State.bootRetained
  extract_lets marked
  have hmarked : BootAt n v num marked := poolMark_ind (closed_bootAt (by decide))
    (forEach_ind (fun _ _ => forEach_ind fun _ _ => taken) h)
  exact forEach_ind (fun _ _ => closedAbove_bootAt.setFld (Nat.le_add_right_of_le (by decide))) hmarked

theorem bootAt_bootKeys (h : BootAt n v num s) : BootAt 5 v num s.bootKeys := by
  have begun : BootAt 5 v num (s.stage 5) := h.next (by decide)
  unfold State.bootKeys
  refine keysShown_ind (closed_bootAt (by decide)) (bootAt_bootRetained (forEach_ind (fun t s hs => ?_) begun))
  refine ite_ind hs ?_
  split
  · exact modTen_ind (closed_bootAt (by decide)) hs
  · exact ite_ind (goDormant_ind (closed_bootAt (by decide)) (bootAt_bootErr hs)) hs

theorem applyChart_of_none {t : Nat} {b : Bool} (hc : (s.tnv t).chart = none) : s.applyChart t b = s := by
  have empty : s.chartBytes t = [] := by rw [State.chartBytes, hc]
  simp only [State.applyChart, empty, List.isEmpty_nil, if_true]

theorem bootAt_flareReleased {k : Nat} (h : BootAt n v num s) : BootAt n v num (s.flareReleased k) := by
  have pulsed : BootAt n v num (s.setPulse k false) := setPulse_ind (closed_bootAt (by decide)) h
  have shown {b : Bool} : BootAt n v num ((s.setPulse k false).putOn (F.ROS_FLR_STATE k) b) :=
    closedAbove_bootAt.setFld (Nat.le_add_right_of_le (by decide)) pulsed
  exact ite_ind (raise_ind (closed_bootAt (by decide)) shown) shown

theorem bootAt_bootCharts (h : BootAt n v num s) (hv : NoCharts v) :
    BootAt 6 v num s.bootCharts := by
  unfold State.bootCharts
  extract_lets begun charted
  have hbegun : BootAt 6 v num begun :=
    raise_ind (closed_bootAt (by decide)) ((h.next (by decide)).setFld (by decide) (by decide))
  have hcharted : BootAt 6 v num charted := by
    refine forEach_ind_mem (fun t ht u hu => ?_) hbegun
    have none : (u.tnv t).chart = none := by
      rw [State.tnv, hu.nv]
      exact hv t (List.mem_range.mp ht)
    rw [hu.bootOn, applyChart_of_none none]
    exact ite_ind hu hu
  rw [hcharted.bootOn]
  exact forEach_ind (fun k u hu => ite_ind (bootAt_flareReleased
    (closedAbove_bootAt.setFld (Nat.le_add_right_of_le (by decide)) hu)) hu) hcharted

theorem bootAt_bootHost (h : BootAt n v num s) : BootAt 7 v num (s.bootHost true) := by
  have begun : BootAt 7 v num (s.stage 7) := h.next (by decide)
  unfold State.bootHost
  extract_lets started powered mode clk moved
  have hpowered : BootAt 7 v num powered := ite_ind (vhostUp_ind (closed_bootAt (by decide)) begun) begun
  have hmoved : BootAt 7 v num moved := ⟨hpowered.wf, hpowered.stage, hpowered.shown, hpowered.phase, hpowered.nv⟩
  exact ite_ind hpowered hmoved

/-- Without a stored chart, and with lock back in time, nothing ends the boot before step 10. -/
theorem countedAt_bootRest {b : Nat} (h : CountedAt 3 b num s) : CountedAt 7 b num (s.bootRest true) := by
  obtain ⟨begun, counted⟩ := h
  have patched : BootAt 4 s.nv num s.bootPatch := bootAt_bootPatch begun
  have keyed : BootAt 5 s.nv num s.bootPatch.bootKeys := bootAt_bootKeys patched
  have charted : BootAt 6 s.nv num s.bootPatch.bootKeys.bootCharts := bootAt_bootCharts keyed counted.charts
  rw [State.bootRest, begun.bootOn, patched.bootOn, keyed.bootOn, charted.bootOn]
  exact (bootAt_bootHost charted).counted counted

/-- With energy and sound NV words boot runs from step 6 to step 10. -/
theorem bootSupply_completes {words : Nat} (h : BootAt n v num s) (hg : v.ringGood = true)
    (hv : NoCharts v) (hn : 17 ≤ words)
    (hw : s.vwarn + 60 < mv) (hk : s.keyw ≤ mv) :
    CountedAt 7 (min (2 ^ 20 - 1) (v.bootNum + 1)) (min (2 ^ 20 - 1) (v.bootNum + 1))
      (s.bootSupply ⟨mv, peak, words⟩ true) := by
  have flags : BootAt n v num (s.supplyFlags mv peak) := bootAt_supplyFlags h
  obtain ⟨vwarn, keyw⟩ := supply_enough (peak := peak) h.wf hw hk
  have charts : NoCharts (s.supplyFlags mv peak).nv := by rwa [flags.nv]
  have good : (s.supplyFlags mv peak).nv.ringGood = true := by rwa [flags.nv]
  have rings := countedAt_bootRings flags good charts hn
  rw [flags.nv] at rings
  have runs : s.bootSupply ⟨mv, peak, words⟩ true = ((s.supplyFlags mv peak).bootRings words).bootRest true := by
    have all : (s.supplyFlags mv peak).ringCount ≤ words := ringCount_le.trans hn
    simp only [State.bootSupply, vwarn, keyw, Bool.and_self, if_true, State.when, all, decide_true]
  rw [runs]
  exact countedAt_bootRest rings

/-! ## The commands of boot -/

/-- The NV words that boot needs are sound: trim, the node configuration and the lifecycle word. -/
structure SoundNv (s : State) : Prop where
  trim : s.nv.trim.good = true
  config : s.configReads = true
  life : lifeWordGood s.nv = true

/-- What boot shows and leaves when it completes (R99, R124). -/
def BootDone (num : Nat) (t : State) : Prop :=
  t.sys.phase = .booting ∧ t.fld F.SYS_BOOT_STAGE = 7 ∧ t.nv.bootNum = num ∧ t.fld F.IDN_BOOTNUM_NUM = t.nv.bootNum

theorem CountedAt.done {b : Nat} (h : CountedAt 7 b b s) : BootDone b s :=
  ⟨h.1.phase, h.1.stage, h.2.bootNum, h.1.shown.trans h.2.bootNum.symm⟩

theorem bootAt_self (hs : s.regsWf = true) (hp : s.sys.phase = .booting) (ht : s.fld F.SYS_BOOT_STAGE = n) :
    BootAt n s.nv (s.fld F.IDN_BOOTNUM_NUM) s := ⟨hs, ht, rfl, hp, rfl⟩

/-- A failed check of the ROM or of the trim halts boot (R102). -/
theorem bootHalt_shows {err : Nat} (h : BootAt n v num s) (he : err < 16) : (s.bootHalt err).fld F.SYS_BOOT_STAGE = 15 ∧
    (s.bootHalt err).fld F.SYS_BOOT_ERR = err ∧ (s.bootHalt err).halted = true := by
  have halted : BootAt 15 v num (s.bootHalt err) := (h.setFld (by decide) (by decide)).next (by decide)
  refine ⟨halted.stage, ?_, ?_⟩
  · exact (fld_setFld_of_apart (regsWf_setFld h.wf) (by decide)).trans (fld_setFld_of_lt h.wf (by decide) he)
  · rw [State.halted, halted.phase, halted.stage]
    rfl

/-- An oscillator that does not start is reported, and boot stays (R57). -/
theorem oscFailed_shows (h : BootAt n v num s) : s.oscFailed.fld F.SYS_BOOT_STAGE = n ∧
    s.oscFailed.fld F.CLK_EVT_AMP_LOST = 1 ∧ s.oscFailed.bit (F.PIRQ 0x02) 8 = true := by
  have stays : BootAt n v num s.oscFailed := oscFailed_ind (closed_bootAt (by decide)) h
  refine ⟨stays.stage, ?_, bit_raise (regsWf_setFld h.wf) (by decide)⟩
  rw [State.oscFailed, fld_raise_of_avoids (by decide), fld_setFld_of_lt h.wf (by decide) (by decide)]

section
variable {supply : BootSupply} {lk : Bool}

theorem exec_boot_oscFailed (h : BootAt 1 v num s) : exec (.boot supply .oscFailed lk) s = .next s.oscFailed :=
  congrArg Host.Outcome.next h.when

theorem exec_boot_romFailed (h : BootAt 1 v num s) :
    exec (.boot supply .romFailed lk) s = .next ((s.bootStart supply.mv).bootHalt 1) := congrArg Host.Outcome.next h.when

theorem exec_boot_trimBad (h : BootAt 1 v num s) (ht : v.trim.good = false) :
    exec (.boot supply .good lk) s = .next ((s.bootStart supply.mv).bootHalt 2) := by
  have started : BootAt 1 v num (s.bootStart supply.mv) := bootAt_bootStart h
  have trim : (!(s.bootStart supply.mv).nv.trim.good) = true := by
    rw [started.nv, ht]
    rfl
  exact congrArg Host.Outcome.next (h.when.trans (if_pos trim))

/-- The state in which step 6 begins. -/
def State.configured (s : State) (mv : Nat) : State := (s.bootStart mv).loadTrim.bootConfig

theorem bootAt_configured (h : BootAt 1 s.nv num s) (hv : SoundNv s) : BootAt 2 s.nv num (s.configured mv) := by
  have trimmed : BootAt 1 s.nv num (s.bootStart mv).loadTrim :=
    loadTrim_ind (closed_bootAt (by decide)) (bootAt_bootStart h)
  refine bootAt_bootConfig trimmed ?_ ?_
  · rw [State.configReads, trimmed.nv]
    exact hv.config
  · rw [trimmed.nv]
    exact hv.life

theorem exec_boot_good (h : BootAt 1 s.nv num s) (hv : SoundNv s) :
    exec (.boot supply .good lk) s = .next ((s.configured supply.mv).harvShow.bootSupply supply lk) := by
  have started : BootAt 1 s.nv num (s.bootStart supply.mv) := bootAt_bootStart h
  have config : BootAt 2 s.nv num (s.configured supply.mv) := bootAt_configured h hv
  have trim : ¬ (!(s.bootStart supply.mv).nv.trim.good) = true := by simp [started.nv, hv.trim]
  exact congrArg Host.Outcome.next (h.when.trans ((if_neg trim).trans config.bootOn))

theorem bootAt_harvShow (h : BootAt n v num s) : BootAt n v num s.harvShow := harvShow_ind (closed_bootAt (by decide)) h

theorem exec_bootEnergyResume (h : BootAt 14 v num s) :
    exec (.bootEnergyResume supply lk) s = .next (s.bootSupply supply lk) := congrArg Host.Outcome.next h.when

theorem completes_boot {words : Nat} (h : BootAt 1 s.nv num s) (hv : SoundNv s) (hg : s.nv.ringGood = true)
    (hc : NoCharts s.nv) (hn : 17 ≤ words) (hw : (s.configured mv).vwarn + 60 < mv)
    (hk : (s.configured mv).keyw ≤ mv) :
    completes (.boot ⟨mv, peak, words⟩ .good true) s (BootDone (min (2 ^ 20 - 1) (s.nv.bootNum + 1))) := by
  have config : BootAt 2 s.nv num (s.configured mv) := bootAt_configured h hv
  have same {g : Fld} (hg : ApartFrom F.PWR_HSTAT_CHARGING g) : (s.configured mv).harvShow.fld g = (s.configured mv).fld g :=
    fld_harvShow config.wf hg
  refine ⟨_, exec_boot_good h hv, (bootSupply_completes (bootAt_harvShow config) hg hc hn ?_ ?_).done⟩
  · rwa [State.vwarn, same (by decide)]
  · rwa [State.keyw, same (by decide)]

end

/-- A new part in BLANK at 3.6 V: its configuration is empty, and its ring words are those of tenant 0 alone. -/
theorem completes_boot_new (lk : Bool) : completes (.boot ⟨3600, 3600, 3⟩ .good lk)
    { State.reset with sys := { State.reset.sys with phase := .booting } } fun t =>
      t.sys.phase = .booting ∧ t.fld F.SYS_BOOT_STAGE = 7 ∧ t.fld F.SYS_LIFE_STATE = 3 ∧ t.fld F.IDN_BOOTNUM_NUM = 1 := by
  cases lk
  · exact ⟨_, rfl, by decide +kernel⟩
  · exact ⟨_, rfl, by decide +kernel⟩

/-! ## The release of the host (R99, R466) -/

/-- The enabled rails go on with registers of their own. -/
theorem reads_railEnable {k x : Nat} (hg : g.addr < A.PWR_VSENS 0 ∨ A.PWR_VSENS 3 ≤ g.addr) (hk : k < 3) (h : Reads g x s) :
    Reads g x (s.railEnable k) := by
  have elsewhere : g.addr ≠ 0x35c + 4 * k := by
    unfold A.PWR_VSENS at hg
    omega
  have on {w : Nat} : Reads g x (s.setFld (F.PWR_VSENS_STATE k) w) :=
    ⟨regsWf_setFld h.1, (fld_setFld_ne elsewhere).trans h.2⟩
  exact ite_ind h (ite_ind h on)

/-- The hub as HOST_RELEASE leaves it, before its rails and its gear answer. -/
def State.released (s : State) (time : Nat) : State :=
  let s1 := (s.stage 8).setFld F.SYS_BOOT_TIME (min time 65535)
  ((((s1.putOn F.SYS_HREL_RELEASED s1.sys.vhostOn).modSys fun y => { y with
    phase := .running, pstate := .watch, vhostSettle := false }).setFld F.SYS_PSTATE_STATE 1).setFld F.LOG_STATUS_SCAN 1)

/-- The enabled rails go on. -/
def State.railsOn (s : State) : State :=
  forEach (List.range 3) (fun n s => if s.on (F.PWR_VSENS_EN n) then s.railEnable n else s) s

theorem exec_hostRelease {time : Nat} (h : BootAt 7 v num s) :
    exec (.hostRelease time) s = .next (s.released time).railsOn.regear := congrArg Host.Outcome.next h.when

theorem reads_railsOn {x : Nat} (hg : g.addr < A.PWR_VSENS 0 ∨ A.PWR_VSENS 3 ≤ g.addr) (h : Reads g x s) :
    Reads g x s.railsOn :=
  forEach_ind_mem (fun _ hk _ hu => ite_ind (reads_railEnable hg (List.mem_range.mp hk) hu) hu) h

theorem completes_hostRelease (time : Nat) (h : BootAt 7 v num s) : completes (.hostRelease time) s fun t =>
    t.sys.phase = .running ∧ t.sys.pstate = .watch ∧ t.fld F.SYS_BOOT_STAGE = 8 ∧ t.fld F.LOG_STATUS_SCAN = 1 ∧
    t.fld F.SYS_HREL_RELEASED = (if s.sys.vhostOn then 1 else 0) := by
  refine ⟨_, exec_hostRelease h, ?_⟩
  have hw : ((s.stage 8).setFld F.SYS_BOOT_TIME (min time 65535)).regsWf = true := regsWf_setFld (regsWf_setFld h.wf)
  have mode {l : List Part} (hl : avoids l .mode = true) :
      Closed l fun t : State => t.sys.phase = .running ∧ t.sys.pstate = .watch :=
    closed_of hl fun _ _ he ht => ⟨he.1.trans ht.1, he.2.trans ht.2⟩
  obtain ⟨phase, pstate⟩ : (s.released time).railsOn.regear.sys.phase = .running ∧
      (s.released time).railsOn.regear.sys.pstate = .watch :=
    regear_ind (mode (by decide)) (forEach_ind (fun _ _ hu => ite_ind (railEnable_ind (mode (by decide)) hu) hu) ⟨rfl, rfl⟩)
  have stage : Reads F.SYS_BOOT_STAGE 8 (s.released time) :=
    ((((reads_setFld h.wf (by decide) (by decide)).setFld (by decide)).setFld (by decide)).setFld (by decide)).setFld
      (by decide)
  have scan : Reads F.LOG_STATUS_SCAN 1 (s.released time) :=
    reads_setFld (regsWf_setFld (regsWf_setFld hw)) (by decide) (by decide)
  have hrel : Reads F.SYS_HREL_RELEASED (if s.sys.vhostOn then 1 else 0) (s.released time) :=
    (Reads.setFld ⟨regsWf_setFld hw, fld_putOn hw (by decide)⟩ (by decide)).setFld (by decide)
  refine ⟨phase, pstate, ?_, ?_, ?_⟩
  · exact (regear_ind (closed_reads (by decide) (by decide)) (reads_railsOn (by decide) stage)).2
  · exact (regear_ind (closed_reads (by decide) (by decide)) (reads_railsOn (by decide) scan)).2
  · exact (regear_ind (closed_reads (by decide) (by decide)) (reads_railsOn (by decide) hrel)).2

end

/-- Settles O12: every step of boot keeps the stage it has reached, the phase and NV, beside the ring words of step 6; a step
whose checks fail ends or waits at a stage of its own. That an oscillator's failure leaves boot where it is (log entry 143),
the operand that tells how many ring words stand (log entry 142), and that RELEASED follows the rail (log entry 21) are the
model's choices. -/
theorem bootStopsOrGoesOn : Obligations.BootStopsOrGoesOn := by
  unfold Obligations.BootStopsOrGoesOn
  refine ⟨?rom, ?trim, ?osc, ?waits, ?waitsOn, ?boot, ?resume, ?new, ?release⟩
  case rom =>
    intro s mv pk n lk hs hp ht
    have h := bootAt_self (mapsWf_regs hs) hp ht
    exact ⟨_, exec_boot_romFailed h, bootHalt_shows (bootAt_bootStart h) (by decide)⟩
  case trim =>
    intro s mv pk n lk hs hp ht hb
    have h := bootAt_self (mapsWf_regs hs) hp ht
    exact ⟨_, exec_boot_trimBad h hb, bootHalt_shows (bootAt_bootStart h) (by decide)⟩
  case osc =>
    intro s mv pk n lk hs hp ht
    have h := bootAt_self (mapsWf_regs hs) hp ht
    exact ⟨_, exec_boot_oscFailed h, oscFailed_shows h⟩
  case waits =>
    intro s mv pk n lk hs hp ht hg hc hl hm
    have h := bootAt_self (mapsWf_regs hs) hp ht
    have hv : SoundNv s := ⟨hg, hc, hl⟩
    exact ⟨_, exec_boot_good h hv, bootSupply_waits (bootAt_harvShow (bootAt_configured h hv)) hm⟩
  case waitsOn =>
    intro s mv pk n lk hs hp ht hm
    have h := bootAt_self (mapsWf_regs hs) hp ht
    exact ⟨_, exec_bootEnergyResume h, bootSupply_waits h hm⟩
  case boot =>
    intro s mv pk n hs hp ht hg hc hl hr hch hn hw hk
    exact completes_boot (bootAt_self (mapsWf_regs hs) hp ht) ⟨hg, hc, hl⟩ hr hch hn hw hk
  case resume =>
    intro s mv pk n hs hp ht hr hch hn hw hk
    have h := bootAt_self (mapsWf_regs hs) hp ht
    exact ⟨_, exec_bootEnergyResume h, (bootSupply_completes h hr hch hn hw hk).done⟩
  case new => exact completes_boot_new
  case release => exact fun s n hs hp ht => completes_hostRelease n (bootAt_self (mapsWf_regs hs) hp ht)

end Sys2Proof.Machine

/-! What one step can change at most, by command: the parts that its command can reach, and what stands beside them (R84, R95,
R116, R403). -/

namespace Sys2Proof.Machine

section
variable {P : State → Prop} {s t : State} {c : Instr}

/-! ## The parts that a command can change -/

/-- What every command may change: all but NV, the phase and the power state, and the queue of waiting commands. -/
def quietParts : List Part :=
  [.regs, .sys, .rst, .clk, .pln, .locks, .shadowBad, .pownBad, .sel, .samp, .streams, .queues, .pendg, .capped, .loops, .descs,
   .chainDue, .charge, .chargeLast, .ports, .afe, .afeCh, .stp, .lines, .icalRun, .rck, .sxt, .rsm, .asy, .asyLast, .rose,
   .lanes, .closed, .evicts, .hallmark, .routes, .tens, .stw, .tx, .ptrs, .asm, .env, .port, .tam, .log, .rdata]

theorem Closed.append {l m : List Part} (hl : Closed l P) (hm : Closed m P) : Closed (l ++ m) P :=
  ⟨fun p hp => (List.mem_append.mp hp).elim (hl.part p) (hm.part p)⟩

/-- A property that survives the changes of a command's parts survives the command; the footprint of each command's meaning
lies within its parts. -/
theorem exec_ind (quiet : Closed quietParts P) (nv : (Instr.reach c).1 = true → Closed [.nv] P)
    (mode : (Instr.reach c).2 = true → Closed [.mode, .reset] P) (hs : P s) : Answers (exec c s) P := by
  have nvQueue (hn : (Instr.reach c).1 = true) : Closed (quietParts ++ [.nv]) P := quiet.append (nv hn)
  have power (hm : (Instr.reach c).2 = true) : Closed (quietParts ++ [.mode, .reset]) P := quiet.append (mode hm)
  have full (hn : (Instr.reach c).1 = true) (hm : (Instr.reach c).2 = true) :
      Closed (quietParts ++ [.nv] ++ [.mode, .reset]) P := (nvQueue hn).append (mode hm)
  cases c with
  | vstartRise => exact execVstartRise_ind ((power rfl).mono (by decide)) hs
  | bor => exact execBor_ind ((full rfl rfl).mono (by decide)) hs
  | nrstLow => exact execNrstLow_ind ((power rfl).mono (by decide)) hs
  | nrstRelease => exact execNrstRelease_ind ((power rfl).mono (by decide)) hs
  | boot => exact execBoot_ind ((full rfl rfl).mono (by decide)) hs
  | bootEnergyResume => exact execBootEnergyResume_ind ((full rfl rfl).mono (by decide)) hs
  | hostRelease => exact execHostRelease_ind ((power rfl).mono (by decide)) hs
  | logbookScan => exact execLogbookScan_ind ((full rfl rfl).mono (by decide)) hs
  | synthLock => exact execSynthLock_ind (quiet.mono (by decide)) hs
  | vcoreRampDone => exact execVcoreRampDone_ind (quiet.mono (by decide)) hs
  | gearSwitchDone => exact execGearSwitchDone_ind ((power rfl).mono (by decide)) hs
  | ampLost => exact execAmpLost_ind ((full rfl rfl).mono (by decide)) hs
  | lockLost => exact execLockLost_ind ((full rfl rfl).mono (by decide)) hs
  | lockRegained => exact execLockRegained_ind (quiet.mono (by decide)) hs
  | dipBegin => exact execDipBegin_ind ((nvQueue rfl).mono (by decide)) hs
  | dipContinue => exact execDipContinue_ind ((nvQueue rfl).mono (by decide)) hs
  | dipEnd => exact execDipEnd_ind (quiet.mono (by decide)) hs
  | dipSettled => exact execDipSettled_ind (quiet.mono (by decide)) hs
  | vchgRise => exact execVchgRise_ind (quiet.mono (by decide)) hs
  | harvOvp => exact execHarvOvp_ind (quiet.mono (by decide)) hs
  | harvUvlo => exact execHarvUvlo_ind (quiet.mono (by decide)) hs
  | harvCeiling => exact execHarvCeiling_ind (quiet.mono (by decide)) hs
  | pwrMeasUpdate => exact execPwrMeasUpdate_ind (quiet.mono (by decide)) hs
  | vhostOff => exact execVhostOff_ind ((full rfl rfl).mono (by decide)) hs
  | vhostOn => exact execVhostOn_ind ((full rfl rfl).mono (by decide)) hs
  | vhostSettleEnd => exact execVhostSettleEnd_ind (quiet.mono (by decide)) hs
  | vhostTrip => exact execVhostTrip_ind (quiet.mono (by decide)) hs
  | vhostCycleOffEnd => exact execVhostCycleOffEnd_ind (quiet.mono (by decide)) hs
  | vsensSwitchOn => exact execVsensSwitchOn_ind ((full rfl rfl).mono (by decide)) hs
  | vsensRampDone => exact execVsensRampDone_ind (quiet.mono (by decide)) hs
  | vsensSettleDone => exact execVsensSettleDone_ind (quiet.mono (by decide)) hs
  | vsensTrip => exact execVsensTrip_ind (quiet.mono (by decide)) hs
  | bankLost => exact execBankLost_ind (quiet.mono (by decide)) hs
  | bankRestored => exact execBankRestored_ind (quiet.mono (by decide)) hs
  | stowEntry => exact execStowEntry_ind ((power rfl).mono (by decide)) hs
  | stowTimeWake => exact execStowTimeWake_ind (quiet.mono (by decide)) hs
  | wakeEdge => exact execWakeEdge_ind (quiet.mono (by decide)) hs
  | stowWake => exact execStowWake_ind ((full rfl rfl).mono (by decide)) hs
  | lookoutMatch _ r => exact execLookoutMatch_ind (_read := r) (quiet.mono (by decide)) hs
  | datapathReset => exact execDatapathReset_ind ((full rfl rfl).mono (by decide)) hs
  | tenantReset => exact execTenantReset_ind ((full rfl rfl).mono (by decide)) hs
  | fullResetCmd => exact execFullResetCmd_ind ((full rfl rfl).mono (by decide)) hs
  | hostReset => exact execHostReset_ind ((full rfl rfl).mono (by decide)) hs
  | rstCmdDatapath => exact execRstCmdDatapath_ind ((full rfl rfl).mono (by decide)) hs
  | rstCmdTenant => exact execRstCmdTenant_ind ((full rfl rfl).mono (by decide)) hs
  | rstCmdFull => exact execRstCmdFull_ind ((full rfl rfl).mono (by decide)) hs
  | resetRestart => exact execResetRestart_ind ((full rfl rfl).mono (by decide)) hs
  | pctlSrst => exact execPctlSrst_ind ((full rfl rfl).mono (by decide)) hs
  | pctlEnWrite => exact execPctlEnWrite_ind ((full rfl rfl).mono (by decide)) hs
  | wdogExpire => exact execWdogExpire_ind (quiet.mono (by decide)) hs
  | wdogKick => exact execWdogKick_ind ((full rfl rfl).mono (by decide)) hs
  | wdogSleep => exact execWdogSleep_ind ((full rfl rfl).mono (by decide)) hs
  | pulseNow => exact execPulseNow_ind ((full rfl rfl).mono (by decide)) hs
  | hostPulseEnd => exact execHostPulseEnd_ind (quiet.mono (by decide)) hs
  | sessionBump => exact execSessionBump_ind ((full rfl rfl).mono (by decide)) hs
  | lifecycle => exact execLifecycle_ind ((full rfl rfl).mono (by decide)) hs
  | lifecycleSecondDecision => exact execLifecycleSecondDecision_ind ((full rfl rfl).mono (by decide)) hs
  | patchLoadBegin => exact execPatchLoadBegin_ind ((full rfl rfl).mono (by decide)) hs
  | patchLoadData => exact execPatchLoadData_ind ((full rfl rfl).mono (by decide)) hs
  | patchLoadCommit => exact execPatchLoadCommit_ind ((full rfl rfl).mono (by decide)) hs
  | registerWrite => exact execRegisterWrite_ind ((full rfl rfl).mono (by decide)) hs
  | shadowMismatch => exact execShadowMismatch_ind ((full rfl rfl).mono (by decide)) hs
  | lockAcquire => exact execLockAcquire_ind ((full rfl rfl).mono (by decide)) hs
  | lockRelease => exact execLockRelease_ind ((full rfl rfl).mono (by decide)) hs
  | leaseExpiry => exact execLeaseExpiry_ind (quiet.mono (by decide)) hs
  | gapRecordEnqueue => exact execGapRecordEnqueue_ind (quiet.mono (by decide)) hs
  | queFlush => exact execQueFlush_ind ((full rfl rfl).mono (by decide)) hs
  | queFlushAllLanes => exact execQueFlushAllLanes_ind ((full rfl rfl).mono (by decide)) hs
  | placementUpdate => exact execPlacementUpdate_ind (quiet.mono (by decide)) hs
  | popRead => exact execPopRead_ind ((full rfl rfl).mono (by decide)) hs
  | popStallResume => exact execPopStallResume_ind ((full rfl rfl).mono (by decide)) hs
  | popStallTimeout => exact execPopStallTimeout_ind ((full rfl rfl).mono (by decide)) hs
  | eccUncorrectable => exact execEccUncorrectable_ind (quiet.mono (by decide)) hs
  | dispatch => exact execDispatch_ind (quiet.mono (by decide)) hs
  | transferStart => exact execTransferStart_ind (quiet.mono (by decide)) hs
  | transferEnd => exact execTransferEnd_ind (quiet.mono (by decide)) hs
  | arbLost => exact execArbLost_ind (quiet.mono (by decide)) hs
  | stretchTimeout => exact execStretchTimeout_ind (quiet.mono (by decide)) hs
  | busStuck => exact execBusStuck_ind (quiet.mono (by decide)) hs
  | busFree => exact execBusFree_ind (quiet.mono (by decide)) hs
  | busRecovery => exact execBusRecovery_ind (quiet.mono (by decide)) hs
  | fenceClear => exact execFenceClear_ind ((full rfl rfl).mono (by decide)) hs
  | afeConversion => exact execAfeConversion_ind (quiet.mono (by decide)) hs
  | afeDrain => exact execAfeDrain_ind (quiet.mono (by decide)) hs
  | excSettleEnd => exact execExcSettleEnd_ind (quiet.mono (by decide)) hs
  | excOvercurrent => exact execExcOvercurrent_ind (quiet.mono (by decide)) hs
  | excOpen => exact execExcOpen_ind (quiet.mono (by decide)) hs
  | touchstoneNow => exact execTouchstoneNow_ind ((full rfl rfl).mono (by decide)) hs
  | touchstoneStart => exact execTouchstoneStart_ind (quiet.mono (by decide)) hs
  | afeCalStart => exact execAfeCalStart_ind (quiet.mono (by decide)) hs
  | timeTrigger => exact execTimeTrigger_ind (quiet.mono (by decide)) hs
  | angleTrigger => exact execAngleTrigger_ind (quiet.mono (by decide)) hs
  | chainTrigger => exact execChainTrigger_ind (quiet.mono (by decide)) hs
  | jitDeadline => exact execJitDeadline_ind (quiet.mono (by decide)) hs
  | noLockTargetSkip => exact execNoLockTargetSkip_ind (quiet.mono (by decide)) hs
  | angleWithdraw => exact execAngleWithdraw_ind (quiet.mono (by decide)) hs
  | shareWindowEnd => exact execShareWindowEnd_ind (quiet.mono (by decide)) hs
  | descriptorCommit => exact execDescriptorCommit_ind ((full rfl rfl).mono (by decide)) hs
  | edgeStamp => exact execEdgeStamp_ind (quiet.mono (by decide)) hs
  | icalHit => exact execIcalHit_ind (quiet.mono (by decide)) hs
  | stampService => exact execStampService_ind (quiet.mono (by decide)) hs
  | beaconSubmit => exact execBeaconSubmit_ind ((full rfl rfl).mono (by decide)) hs
  | beaconWindowEnd => exact execBeaconWindowEnd_ind (quiet.mono (by decide)) hs
  | epochRecordEnqueue => exact execEpochRecordEnqueue_ind (quiet.mono (by decide)) hs
  | htLoSample => exact execHtLoSample_ind ((full rfl rfl).mono (by decide)) hs
  | syncLoSample => exact execSyncLoSample_ind ((full rfl rfl).mono (by decide)) hs
  | stampLoSample => exact execStampLoSample_ind ((full rfl rfl).mono (by decide)) hs
  | ofsLoSample => exact execOfsLoSample_ind ((full rfl rfl).mono (by decide)) hs
  | sxtAngSample => exact execSxtAngSample_ind ((full rfl rfl).mono (by decide)) hs
  | bndSeqSample => exact execBndSeqSample_ind ((full rfl rfl).mono (by decide)) hs
  | keyCounterSample => exact execKeyCounterSample_ind ((full rfl rfl).mono (by decide)) hs
  | idxMeasurement => exact execIdxMeasurement_ind (quiet.mono (by decide)) hs
  | sxtLockLost => exact execSxtLockLost_ind (quiet.mono (by decide)) hs
  | angleComparatorFire => exact execAngleComparatorFire_ind (quiet.mono (by decide)) hs
  | bandwidthUpdate => exact execBandwidthUpdate_ind (quiet.mono (by decide)) hs
  | resamplerOutput => exact execResamplerOutput_ind (quiet.mono (by decide)) hs
  | assayPass => exact execAssayPass_ind (quiet.mono (by decide)) hs
  | assayGapInput => exact execAssayGapInput_ind (quiet.mono (by decide)) hs
  | criticalSecondDecision => exact execCriticalSecondDecision_ind ((full rfl rfl).mono (by decide)) hs
  | trngHealthFail => exact execTrngHealthFail_ind (quiet.mono (by decide)) hs
  | trngRetest => exact execTrngRetest_ind (quiet.mono (by decide)) hs
  | roseEvent => exact execRoseEvent_ind (quiet.mono (by decide)) hs
  | roseFire => exact execRoseFire_ind ((full rfl rfl).mono (by decide)) hs
  | flareClear => exact execFlareClear_ind ((full rfl rfl).mono (by decide)) hs
  | flarePulseEnd => exact execFlarePulseEnd_ind (quiet.mono (by decide)) hs
  | flareRelease => exact execFlareRelease_ind ((full rfl rfl).mono (by decide)) hs
  | iflgClear => exact execIflgClear_ind ((full rfl rfl).mono (by decide)) hs
  | bundlerIntake => exact execBundlerIntake_ind (quiet.mono (by decide)) hs
  | bundleClose => exact execBundleClose_ind (quiet.mono (by decide)) hs
  | bundleAgeExpiry => exact execBundleAgeExpiry_ind (quiet.mono (by decide)) hs
  | sealStart => exact execSealStart_ind (quiet.mono (by decide)) hs
  | sealDone => exact execSealDone_ind (quiet.mono (by decide)) hs
  | seqReservationCommit => exact execSeqReservationCommit_ind ((nvQueue rfl).mono (by decide)) hs
  | healthRecord => exact execHealthRecord_ind (quiet.mono (by decide)) hs
  | write => exact execWrite_ind ((full rfl rfl).mono (by decide)) hs
  | chartBegin => exact execChartBegin_ind ((full rfl rfl).mono (by decide)) hs
  | chartData => exact execChartData_ind ((full rfl rfl).mono (by decide)) hs
  | chartCommit => exact execChartCommit_ind ((full rfl rfl).mono (by decide)) hs
  | chartCommitDone => exact execChartCommitDone_ind ((nvQueue rfl).mono (by decide)) hs
  | configStore => exact execConfigStore_ind ((full rfl rfl).mono (by decide)) hs
  | keyEstablish => exact execKeyEstablish_ind ((full rfl rfl).mono (by decide)) hs
  | keyRotate => exact execKeyRotate_ind ((full rfl rfl).mono (by decide)) hs
  | keyUpdateWrite => exact execKeyUpdateWrite_ind ((nvQueue rfl).mono (by decide)) hs
  | keyUpdateCommit => exact execKeyUpdateCommit_ind ((nvQueue rfl).mono (by decide)) hs
  | attest => exact execAttest_ind ((full rfl rfl).mono (by decide)) hs
  | attestSignDone => exact execAttestSignDone_ind (quiet.mono (by decide)) hs
  | tenantCreate => exact execTenantCreate_ind ((full rfl rfl).mono (by decide)) hs
  | tenantEnrol => exact execTenantEnrol_ind ((full rfl rfl).mono (by decide)) hs
  | tenantRemove => exact execTenantRemove_ind ((full rfl rfl).mono (by decide)) hs
  | nvWriteComplete => exact execNvWriteComplete_ind ((nvQueue rfl).mono (by decide)) hs
  | keyRspRead => exact execKeyRspRead_ind ((full rfl rfl).mono (by decide)) hs
  | keyAttRead => exact execKeyAttRead_ind ((full rfl rfl).mono (by decide)) hs
  | deviceKeyRead => exact execDeviceKeyRead_ind ((full rfl rfl).mono (by decide)) hs
  | logDataRead => exact execLogDataRead_ind ((full rfl rfl).mono (by decide)) hs
  | htwStart => exact execHtwStart_ind ((full rfl rfl).mono (by decide)) hs
  | htwStop => exact execHtwStop_ind ((full rfl rfl).mono (by decide)) hs
  | htwIdleAbort => exact execHtwIdleAbort_ind (quiet.mono (by decide)) hs
  | spiCsFall => exact execSpiCsFall_ind (quiet.mono (by decide)) hs
  | spiWrite => exact execSpiWrite_ind (quiet.mono (by decide)) hs
  | spiRead => exact execSpiRead_ind ((full rfl rfl).mono (by decide)) hs
  | spiCsRise => exact execSpiCsRise_ind ((full rfl rfl).mono (by decide)) hs
  | spiOverrun => exact execSpiOverrun_ind (quiet.mono (by decide)) hs
  | cmdAssemblyWrite => exact execCmdAssemblyWrite_ind ((full rfl rfl).mono (by decide)) hs
  | cmdAssemblyClear => exact execCmdAssemblyClear_ind ((full rfl rfl).mono (by decide)) hs
  | commandEnqueue => exact execCommandEnqueue_ind (quiet.mono (by decide)) hs
  | xdatAccess => exact execXdatAccess_ind ((full rfl rfl).mono (by decide)) hs
  | tempSample => exact execTempSample_ind (quiet.mono (by decide)) hs
  | thermalSecondDecision => exact execThermalSecondDecision_ind ((full rfl rfl).mono (by decide)) hs
  | thermalComparator => exact execThermalComparator_ind ((power rfl).mono (by decide)) hs
  | supplyGlitch => exact execSupplyGlitch_ind ((full rfl rfl).mono (by decide)) hs
  | probeWindowEnd => exact execProbeWindowEnd_ind (quiet.mono (by decide)) hs
  | tapInstruction => exact execTapInstruction_ind ((full rfl rfl).mono (by decide)) hs
  | tamperClear => exact execTamperClear_ind ((full rfl rfl).mono (by decide)) hs
  | holdEnd => exact execHoldEnd_ind ((power rfl).mono (by decide)) hs
  | logEntryWrite => exact execLogEntryWrite_ind ((full rfl rfl).mono (by decide)) hs
  | tstNvMarginRead => exact execTstNvMarginRead_ind ((full rfl rfl).mono (by decide)) hs
  | tstMemorySelfTest => exact execTstMemorySelfTest_ind ((full rfl rfl).mono (by decide)) hs
  | tstDone => exact execTstDone_ind (quiet.mono (by decide)) hs
  | avsUpdate => exact execAvsUpdate_ind (quiet.mono (by decide)) hs
  | avsCanary => exact execAvsCanary_ind (quiet.mono (by decide)) hs
  | gearWindowEnd => exact execGearWindowEnd_ind (quiet.mono (by decide)) hs
  | mpptPowerSample => exact execMpptPowerSample_ind (quiet.mono (by decide)) hs
  | mpptUpdate => exact execMpptUpdate_ind (quiet.mono (by decide)) hs
  | vocResampleStart => exact execVocResampleStart_ind (quiet.mono (by decide)) hs
  | vocPauseEnd => exact execVocPauseEnd_ind (quiet.mono (by decide)) hs
  | supplyConditionEnd => exact execSupplyConditionEnd_ind ((power rfl).mono (by decide)) hs
  | retentionLoss => exact execRetentionLoss_ind (quiet.mono (by decide)) hs
  | harvResume => exact execHarvResume_ind (quiet.mono (by decide)) hs

/-! ## Steps -/

/-- A step is the idle cycle, or the command at the front of the queue on the state with the queue's rest. -/
theorem step_cases (h : step s = .next t) :
    (s.pending = [] ∧ t = s.idle) ∨ ∃ c rest u, s.pending = c :: rest ∧ u = { s with pending := rest } ∧ exec c u = .next t := by
  unfold step at h
  split at h
  next e =>
    cases h
    exact .inl ⟨e, rfl⟩
  next c rest e => exact .inr ⟨c, rest, _, e, rfl, h⟩

/-- What holds of the state before a command holds of the state that it answers. -/
theorem of_exec (quiet : Closed quietParts P) (nv : (Instr.reach c).1 = true → Closed [.nv] P)
    (mode : (Instr.reach c).2 = true → Closed [.mode, .reset] P) (h : exec c s = .next t) (hs : P s) : P t := by
  obtain ⟨u, hu, hP⟩ := exec_ind quiet nv mode hs
  cases hu.symm.trans h
  exact hP

theorem Part.same_trans {p : Part} {r : State} (h₂ : p.same s t) (h₁ : p.same r s) : p.same r t := by
  cases p
  case reset => exact trivial
  case mode => exact ⟨h₂.1.trans h₁.1, h₂.2.trans h₁.2⟩
  all_goals exact Eq.trans h₂ h₁

/-- A command leaves a part that is none of those that it can reach. -/
theorem same_of_exec {p : Part} (quiet : avoids quietParts p = true) (nv : (Instr.reach c).1 = true → avoids [.nv] p = true)
    (mode : (Instr.reach c).2 = true → avoids [.mode, .reset] p = true) (h : exec c s = .next t) : p.same s t :=
  have closed {l : List Part} (ha : avoids l p = true) : Closed l (p.same s) := closed_of ha fun _ _ => Part.same_trans
  of_exec (closed quiet) (fun hn => closed (nv hn)) (fun hm => closed (mode hm)) h (p.same_refl s)

/-! ## The power state (R84) -/

/-- A FULL reset leaves the power state OFF, in a phase that is neither Stow nor Running (R95). -/
theorem modeWf_fullReset (k : Cause) (n : Nat) : (fullReset k n s).modeWf = true :=
  have phase : legalMode (resetPhase k s) .off = true :=
    ite_ind (Q := fun y => legalMode y .off = true) rfl (ite_ind (Q := fun y => legalMode y .off = true) rfl rfl)
  phase

theorem closed_modeWf_of_avoids {l : List Part} (h : avoids l .mode = true) : Closed l (fun s => s.modeWf = true) :=
  closed_of h fun _ _ ⟨phase, pstate⟩ hs => by rwa [State.modeWf, phase, pstate]

/-- A change of the power state that the model makes is one between legal states. -/
theorem closed_modeWf_mode : Closed [.mode, .reset] (fun s => s.modeWf = true) := by
  refine ⟨fun p hp => ?_⟩
  rcases List.mem_pair.mp hp with rfl | rfl
  · exact fun _ _ legal h => legal h
  · exact fun _ _ _ _ => modeWf_fullReset _ _

end

/-- Settles O6: a command, and the idle cycle, changes the power state only from a legal one to a legal one, or by a FULL
reset. -/
theorem stepKeepsLegalPowerState : Obligations.StepKeepsLegalPowerState := by
  unfold Obligations.StepKeepsLegalPowerState
  intro s t hs h
  rcases step_cases h with ⟨_, rfl⟩ | ⟨c, rest, u, _, hu, h⟩
  · exact idle_ind (closed_modeWf_of_avoids (by decide)) hs
  · have legal : u.modeWf = true := hu ▸ hs
    exact of_exec (closed_modeWf_of_avoids (by decide)) (fun _ => closed_modeWf_of_avoids (by decide))
      (fun _ => closed_modeWf_mode) h legal

/-- Settles O58: the footprint of a command holds NV, or the phase and the power state, only where `Instr.reach` names them;
a reset of the hub writes no NV, and no command touches the queue of waiting commands. -/
theorem nvAndPowerStateStand : Obligations.NvAndPowerStateStand := by
  unfold Obligations.NvAndPowerStateStand
  intro s t h
  rcases step_cases h with ⟨e, rfl⟩ | ⟨c, rest, u, e, hu, h⟩
  · have idle : changesOnly [.sys, .sxt, .rck] s s.idle := idle_ind (closed_changesOnly (by decide)) (changesOnly_refl s)
    rw [e]
    exact ⟨idle .nv rfl, idle .mode rfl⟩
  · have pending : t.pending = u.pending := same_of_exec (p := .pending) rfl (fun _ => rfl) (fun _ => rfl) h
    have nv (hn : (Instr.reach c).1 = false) : t.nv = u.nv :=
      same_of_exec (p := .nv) rfl (fun hr => absurd hr (by simp [hn])) (fun _ => rfl) h
    have mode (hm : (Instr.reach c).2 = false) : t.sys.phase = u.sys.phase ∧ t.sys.pstate = u.sys.pstate :=
      same_of_exec (p := .mode) rfl (fun _ => rfl) (fun hr => absurd hr (by simp [hm])) h
    subst hu
    rw [e]
    exact ⟨pending, nv, mode⟩

end Sys2Proof.Machine

/-! What the events of the supply, the clock and the tamper monitor leave as it is (R77, R84, R134). -/

namespace Sys2Proof.Machine

/-- The frame of an outcome from the footprint of its command, which lies within the frame's parts. -/
theorem frame_of_footprint {l m : List Part} {o : Host.Outcome State Fault Refusal} {s t : State}
    (footprint : Closed l (changesOnly m s) → changesOnly m s s → Answers o (changesOnly m s))
    (hl : needsAll l m = true) (hm : Part.pending ∉ m) (h : o = .next t) : changesOnly m s t :=
  frame_of (fun hC => footprint (hC.mono hl)) hm h

/-- Settles O55: the frame of each event holds the footprint of its command. -/
theorem framesOfPowerClockAndTamper : Obligations.FramesOfPowerClockAndTamper := by
  unfold Obligations.FramesOfPowerClockAndTamper
  exact ⟨
    fun _ _ => frame_of_footprint execVstartRise_ind (by decide) (by decide),
    fun _ _ => frame_of_footprint execNrstRelease_ind (by decide) (by decide),
    fun _ _ _ => frame_of_footprint execHostRelease_ind (by decide) (by decide),
    fun _ _ => frame_of_footprint execSynthLock_ind (by decide) (by decide),
    fun _ _ => frame_of_footprint execVcoreRampDone_ind (by decide) (by decide),
    fun _ _ => frame_of_footprint execGearSwitchDone_ind (by decide) (by decide),
    fun _ _ => frame_of_footprint execLockRegained_ind (by decide) (by decide),
    fun _ _ _ => frame_of_footprint execDipBegin_ind (by decide) (by decide),
    fun _ _ _ => frame_of_footprint execDipContinue_ind (by decide) (by decide),
    fun _ _ _ => frame_of_footprint execDipEnd_ind (by decide) (by decide),
    fun _ _ => frame_of_footprint execDipSettled_ind (by decide) (by decide),
    fun _ _ => frame_of_footprint execVchgRise_ind (by decide) (by decide),
    fun _ _ => frame_of_footprint execHarvOvp_ind (by decide) (by decide),
    fun _ _ => frame_of_footprint execHarvUvlo_ind (by decide) (by decide),
    fun _ _ => frame_of_footprint execHarvCeiling_ind (by decide) (by decide),
    fun _ _ _ _ _ => frame_of_footprint execPwrMeasUpdate_ind (by decide) (by decide),
    fun _ _ => frame_of_footprint execVhostSettleEnd_ind (by decide) (by decide),
    fun _ _ => frame_of_footprint execVhostTrip_ind (by decide) (by decide),
    fun _ _ => frame_of_footprint execVhostCycleOffEnd_ind (by decide) (by decide),
    fun _ _ _ => frame_of_footprint execVsensRampDone_ind (by decide) (by decide),
    fun _ _ _ => frame_of_footprint execVsensSettleDone_ind (by decide) (by decide),
    fun _ _ _ => frame_of_footprint execVsensTrip_ind (by decide) (by decide),
    fun _ _ _ => frame_of_footprint execBankLost_ind (by decide) (by decide),
    fun _ _ _ _ => frame_of_footprint execBankRestored_ind (by decide) (by decide),
    fun _ _ => frame_of_footprint execStowEntry_ind (by decide) (by decide),
    fun _ _ => frame_of_footprint execStowTimeWake_ind (by decide) (by decide),
    fun _ _ _ _ => frame_of_footprint execWakeEdge_ind (by decide) (by decide),
    fun _ _ => frame_of_footprint execStowWake_ind (by decide) (by decide),
    fun _ r _ _ => frame_of_footprint (execLookoutMatch_ind (_read := r)) (by decide) (by decide),
    fun _ _ => frame_of_footprint execWdogExpire_ind (by decide) (by decide),
    fun _ _ => frame_of_footprint execHostPulseEnd_ind (by decide) (by decide),
    fun _ _ _ => frame_of_footprint execAvsUpdate_ind (by decide) (by decide),
    fun _ _ => frame_of_footprint execAvsCanary_ind (by decide) (by decide),
    fun _ _ _ _ _ _ _ => frame_of_footprint execGearWindowEnd_ind (by decide) (by decide),
    fun _ _ _ _ => frame_of_footprint execMpptPowerSample_ind (by decide) (by decide),
    fun _ _ => frame_of_footprint execMpptUpdate_ind (by decide) (by decide),
    fun _ _ => frame_of_footprint execVocResampleStart_ind (by decide) (by decide),
    fun _ _ _ => frame_of_footprint execVocPauseEnd_ind (by decide) (by decide),
    fun _ _ => frame_of_footprint execRetentionLoss_ind (by decide) (by decide),
    fun _ _ _ => frame_of_footprint execHarvResume_ind (by decide) (by decide),
    fun _ _ => frame_of_footprint execHoldEnd_ind (by decide) (by decide),
    fun _ _ _ => frame_of_footprint execThermalComparator_ind (by decide) (by decide),
    fun _ _ => frame_of_footprint execSupplyConditionEnd_ind (by decide) (by decide),
    fun _ _ _ => frame_of_footprint execTempSample_ind (by decide) (by decide),
    fun _ _ => frame_of_footprint execProbeWindowEnd_ind (by decide) (by decide),
    fun _ _ _ => frame_of_footprint execTrngHealthFail_ind (by decide) (by decide),
    fun _ _ _ => frame_of_footprint execTrngRetest_ind (by decide) (by decide),
    fun _ _ _ _ => frame_of_footprint execTstDone_ind (by decide) (by decide)⟩

end Sys2Proof.Machine

/-! ## What stands through a supply event

A dip, the loss of a rail and the wake from Stow end transfers, withdraw requests, answer commands and ask for a gear. They
write registers at addresses that depend on the port and on the descriptor, and interrupts reach the watchdog on their way;
none of it touches the phase, the power state, the wake causes, or the registers that show them. -/

namespace Sys2Proof.Machine

section
variable {P : State → Prop} {s s₀ : State} {f g : Fld} {p n k v code done d cause t : Nat} {ps : List Nat}

/-! ## Interrupts (R134) -/

/-- What the route of an interrupt may change beside the watchdog. -/
def routeParts : List Part := [.reg 0x154, .reg 0x178, .reg 0x2048, .rose, .queues, .pendg, .tens]

/-- `P` survives the routes of an interrupt, of which the host wake restarts the watchdog (R104). -/
structure Routed (P : State → Prop) : Prop where
  parts : Closed routeParts P
  wdog : ∀ (s : State) n, P s → P { s with sys := { s.sys with wdog := n } }

theorem wakeHost_routed (hf : f.addr = A.SYS_HWAKE) (hR : Routed P) (hs : P s) : P (s.wakeHost f) := by
  have woken : P (s.setFld f 1) := setFld_ind (hf ▸ hR.parts.mono (by decide)) hs
  exact ite_ind woken (hR.wdog _ _ (setFld_ind (hR.parts.mono (by decide)) woken))

theorem routeLine_routed (hR : Routed P) (hs : P s) : P (s.routeLine p) := by
  unfold State.routeLine
  extract_lets woken presented
  have hwoken : P woken := ite_ind (wakeHost_routed rfl hR hs) hs
  have hpresented : P presented := by
    refine ite_ind ?_ hwoken
    split
    · exact hwoken
    · exact presentAt_ind (hR.parts.mono (by decide)) hwoken
  exact ite_ind (record_ind (hR.parts.mono (by decide)) hpresented) hpresented

/-- An interrupt of page `p`, for a property that survives the page's PIRQ register. -/
theorem raise_routed (hR : Routed P) (hp : ∀ s w, P s → P (s.setReg (256 * p + 0x18) w)) (hs : P s) : P (s.raise p k) :=
  have latched : P (s.setBit (F.PIRQ p) k) := hp _ _ hs
  ite_ind (routeLine_routed hR latched) latched

/-! ## Steady properties -/

/-- What a supply event may change beside registers from page 0x06 on. -/
def eventParts : List Part :=
  [.reg 0x144, .reg 0x154, .reg 0x178, .reg 0x248, .reg 0x250, .reg 0x254, .reg 0x25c, .reg 0x35c, .reg 0x360, .reg 0x364,
    .reg 0x418, .reg 0x454, .reg 0x474, .reg 0x478, .reg 0x518, .reg 0x544, .reg 0x550, .reg 0x554, .reg 0x558, .reg 0x2048,
    .clk, .loops, .rck, .rose, .queues, .pendg, .tens, .ports, .charge, .chargeLast, .chainDue, .descs, .afe, .stw, .nv, .log]

/-- `P` survives a supply event: the changes of these parts, those behind the power registers that leave the phase, the power
state and the wake causes, and the count of the deferred NV writes. -/
structure Steady (P : State → Prop) : Prop where
  above : ClosedAbove eventParts P
  sys : ∀ (s : State) (y : Sys), y.phase = s.sys.phase → y.pstate = s.sys.pstate → y.wakes = s.sys.wakes → P s →
    P { s with sys := y }
  deferred : ∀ s v, P s → P (s.setFld F.SYS_DIP_DEFERRED v)

theorem Steady.closed {l : List Part} (hS : Steady P) (h : l.all (Part.above eventParts) = true) : Closed l P :=
  hS.above.closed h

theorem Steady.routed (hS : Steady P) : Routed P := ⟨hS.closed (by decide), fun s _ => hS.sys s _ rfl rfl rfl⟩

theorem Steady.high (hS : Steady P) (hf : 0x600 ≤ f.addr) (hs : P s) : P (s.setFld f v) := hS.above.setFld hf hs

theorem Steady.modSys {u : Sys → Sys} (hS : Steady P) (hp : (u s.sys).phase = s.sys.phase)
    (hq : (u s.sys).pstate = s.sys.pstate) (hw : (u s.sys).wakes = s.sys.wakes) (hs : P s) : P (s.modSys u) :=
  hS.sys s _ hp hq hw hs

/-- A field that none of these changes, in a canonical register file. -/
theorem steady_reads (hg : g.addr < 0x600) (ha : avoids eventParts (.reg g.addr) = true)
    (hd : ApartFrom F.SYS_DIP_DEFERRED g) : Steady (Reads g v) where
  above := closedAbove_and (closedAbove_regsWf (by decide)) (closedAbove_fld hg ha)
  sys _ _ _ _ _ h := h
  deferred _ _ h := h.setFld hd

/-- A register that none of these changes. -/
theorem steady_reg {a : Nat} {w : Word} (hg : a < 0x600) (ha : avoids eventParts (.reg a) = true) (hd : a ≠ A.SYS_DIP) :
    Steady fun t => t.reg a = w where
  above := ⟨closed_reg ha, fun _ _ _ hb h => (reg_setReg_ne (hg.trans_le hb).ne).trans h⟩
  sys _ _ _ _ _ h := h
  deferred _ _ h := (reg_setFld_ne hd).trans h

/-- A latched interrupt of a page that none of these raises. -/
theorem steady_latched (hp : 256 * p + 0x18 < 0x600) (ha : avoids eventParts (.reg (256 * p + 0x18)) = true)
    (hd : 256 * p + 0x18 ≠ A.SYS_DIP) : Steady (Latched p k) where
  above := ⟨closed_latched ha (by decide), fun _ _ _ hb h =>
    ⟨regsWf_setReg h.1, by rw [State.bit, fld_setReg_ne (hp.trans_le hb).ne]; exact h.2⟩⟩
  sys _ _ _ _ _ h := h
  deferred _ _ h := ⟨regsWf_setFld h.1, by rw [State.bit, fld_setFld_ne hd]; exact h.2⟩

/-- The phase, the power state and the wake causes. -/
theorem steady_mode {x : Phase} {y : PState} : Steady fun t => t.sys.phase = x ∧ t.sys.pstate = y ∧ t.sys.wakes = n where
  above := ⟨closed_of (p := .sys) (by decide) fun _ _ (he : _ = _) h => he ▸ h, fun _ _ _ _ h => h⟩
  sys _ _ hp hq hw h := ⟨hp.trans h.1, hq.trans h.2.1, hw.trans h.2.2⟩
  deferred _ _ h := h

section
variable (hS : Steady P)
include hS

theorem raise_steady (hp : 4 ≤ p) (hs : P s) : P (s.raise p k) := by
  refine raise_routed hS.routed (fun s w h => ?_) hs
  rcases (by omega : p = 4 ∨ p = 5 ∨ 6 ≤ p) with rfl | rfl | h6
  · exact setReg_ind (hS.closed (by decide)) h
  · exact setReg_ind (hS.closed (by decide)) h
  · exact hS.above.high _ _ _ (by omega) h

theorem risen_steady (hp : ∀ p ∈ ps, 4 ≤ p) (hs : P s) : P (State.risen s₀ ps s) :=
  forEach_ind_mem (fun p hm _ h => ite_ind (raise_steady hS (hp p hm) h) h) hs

/-! ## The governor (R485) -/

theorem putLoop_steady {x : Loop} (hn : 0x400 ≤ n) (hs : P s) : P (s.putLoop n x) :=
  have stored : P (s.setLoop n x) := setLoop_ind (hS.closed (by decide)) hs
  ite_ind (raise_steady hS (by omega) stored) stored

theorem floorStat_steady (hs : P s) : P s.floorStat := by
  unfold State.floorStat
  extract_lets unmet met shown flagged
  have hshown : P shown := putOn_ind (hS.closed (by decide)) (setFld_ind (hS.closed (by decide))
    (setFld_ind (hS.closed (by decide)) hs))
  have hflagged : P flagged := putOn_ind (hS.closed (by decide)) (putOn_ind (hS.closed (by decide)) hshown)
  exact ite_ind (raise_steady hS (by decide) (risen_steady hS (by decide) hflagged)) hflagged

theorem upRefused_steady {b : Bool} (hs : P s) : P (s.upRefused b) :=
  have refused : P (s.satHigh loopGEAR) := when_ind (fun _ => putLoop_steady hS (by decide)) hs
  ite_ind (setFld_ind (hS.closed (by decide)) refused) refused

theorem gearRequest_steady (hs : P s) : P (s.gearRequest n) := by
  unfold State.gearRequest
  extract_lets ramping
  have dropped : P s.dropHeld := dropHeld_ind (hS.closed (by decide)) hs
  have switching : P (s.dropHeld.switchTo n) := switchTo_ind (hS.closed (by decide)) dropped
  have held : P (s.holdGear n) := holdGear_ind (hS.closed (by decide)) hs
  have hramping : P ramping := setFld_ind (hS.closed (by decide)) (setFld_ind (hS.closed (by decide))
    (setFld_ind (hS.closed (by decide)) dropped))
  have upshift : P (if s.fld F.PWR_CORE_VSET < s.codeFor n then { ramping with clk := { ramping.clk with ramp := some n } }
      else s.dropHeld.switchTo n) := ite_ind (upd_clk (hS.closed (by decide)) hramping) switching
  exact ite_ind (ite_ind dropped held) (ite_ind dropped (ite_ind (ite_ind (upRefused_steady hS hs)
    (ite_ind (ite_ind (upRefused_steady hS hs) switching) upshift)) (ite_ind held switching)))

theorem regear_steady (hs : P s) : P s.regear := by
  unfold State.regear
  extract_lets shown asked base
  have hasked : P asked := gearRequest_steady hS (floorStat_steady hS hs)
  exact ite_ind (ite_ind (holdGear_ind (hS.closed (by decide)) hasked) hasked) (floorStat_steady hS hs)

/-! ## Ports (R193-R217) -/

theorem portFault_steady (hs : P s) : P (s.portFault p k) := by
  have page : 0x10 ≤ portPage p := by
    unfold portPage
    split <;> omega
  have fault : 0x600 ≤ (faultFld p).addr := by
    unfold faultFld
    split
    · exact Nat.le_add_right_of_le (by decide)
    · exact Nat.le_add_right_of_le (by decide)
  exact ite_ind hs (raise_steady hS (by omega) (hS.high fault hs))

theorem raise_portPage_steady (hs : P s) : P (s.raise (portPage p) k) := by
  refine raise_steady hS ?_ hs
  unfold portPage
  split <;> omega

theorem portIdle_steady {x : Xfer} (hs : P s) : P (s.portIdle p x) := by
  unfold State.portIdle
  extract_lets ended owed
  have hended : P ended := setXfer_ind (hS.closed (by decide)) hs
  have howed : P owed := ite_ind (modPrt_ind (hS.closed (by decide)) hended) (chargeShare_ind (hS.closed (by decide)) hended)
  have hstate : P (owed.portState p 0) :=
    ite_ind (hS.high (Nat.le_add_right_of_le (by decide)) howed) (hS.high (Nat.le_add_right_of_le (by decide)) howed)
  have hcount : P ((owed.portState p 0).portCount p) :=
    ite_ind (hS.high (Nat.le_add_right_of_le (by decide)) hstate) (hS.high (Nat.le_add_right_of_le (by decide)) hstate)
  exact regear_steady hS (putFloor_ind (hS.closed (by decide)) hcount)

theorem edgeRate_steady {x : Xfer} {b : Bool} (hs : P s) : P (s.edgeRate p x n k b) := by
  unfold State.edgeRate
  extract_lets cfg elr risen slow group need out step
  have hrisen : P risen := hS.high (Nat.le_add_right_of_le (by decide)) hs
  have hslow : P slow := ite_ind (portFault_steady hS hrisen) hrisen
  exact ite_ind (putLoop_steady hS (Nat.le_add_right_of_le (by decide)) hslow) hslow

theorem transferFail_steady {data : List Byte} (hs : P s) : P (s.transferFail p code done data) := by
  unfold State.transferFail
  split
  · exact hs
  · extract_lets words posted target fences faulted fenced full flags recorded captured completed
    have hfaulted : P faulted := portFault_steady hS hs
    have hfenced : P fenced :=
      ite_ind (raise_portPage_steady hS (modPrt_ind (hS.closed (by decide)) hfaulted)) hfaulted
    have hfull : P full := ite_ind (portFault_steady hS hfenced) hfenced
    have hrecorded : P recorded := record_ind (hS.closed (by decide)) hfull
    have hcaptured : P captured := ite_ind (captureRead_ind (hS.closed (by decide)) hrecorded) hrecorded
    have hcompleted : P completed := ite_ind hcaptured (complete_ind (hS.closed (by decide)) hcaptured)
    exact modPrt_ind (hS.closed (by decide)) (portIdle_steady hS hcompleted)

theorem cutPorts_steady (hs : P s) : P (s.cutPorts ps code) := by
  refine forEach_ind (fun p s h => ?_) hs
  unfold State.cutPort State.transferBreak
  split
  · exact h
  · extract_lets bytes
    split
    · exact h
    · exact transferFail_steady hS (ite_ind (edgeRate_steady hS h) h)

/-! ## Pending requests (R247) -/

theorem psqSkip_steady {o : Option Nat} (hs : P s) : P (s.psqSkip p d cause o) := by
  unfold State.psqSkip
  extract_lets moved counted
  have hcounted : P counted := setPend_ind (hS.closed (by decide)) (modDesc_ind (hS.closed (by decide)) hs)
  exact raise_steady hS (by decide) (addSat_ind (hS.closed (by decide)) hcounted)

theorem checkPorts_steady (hs : P s) : P (s.checkPorts ps) := by
  have withdrawn {d cause : Nat} {o : Option Nat} {s : State} (h : P s) : P (s.withdraw d cause o) := by
    unfold State.withdraw
    split
    · exact h
    · exact psqSkip_steady hS (modDesc_ind (hS.closed (by decide)) h)
  have recalled {p cause : Nat} {o : Option Nat} {s : State} (h : P s) : P (s.recall p cause o) := by
    refine forEach_ind (fun e s h => ?_) (setQueue_ind (hS.closed (by decide)) h)
    split
    · exact psqSkip_steady hS h
    · exact h
  refine forEach_ind (fun p s h => ?_) hs
  split
  · exact h
  · exact recalled (forEach_ind (fun _ _ h => ite_ind (withdrawn h) h) h)

/-! ## Epochs (R278) -/

theorem openEpoch_steady {kind source seq : Nat} {o : Option Nat} (hs : P s) : P (s.openEpoch kind source seq o) := by
  unfold State.openEpoch
  extract_lets before index opened rck begun recorded
  have hopened : P opened := putOfs_ind (hS.closed (by decide)) (setFld_ind (hS.closed (by decide)) hs)
  have hrecorded : P recorded := raise_steady hS (by decide) (epochRecord_ind (hS.closed (by decide))
    (upd_rck (s := opened) (hS.closed (by decide)) hopened))
  have hexhausted : P ((recorded.setFld F.RCK_STAT_EXHAUSTED 1).raise 0x05 10) :=
    raise_steady hS (by decide) (setFld_ind (hS.closed (by decide)) hrecorded)
  exact ite_ind hs (ite_ind (setFld_ind (hS.closed (by decide)) hexhausted) hrecorded)

/-! ## Rails (R75-R78) -/

theorem setRail_steady (hn : n < 3) (hs : P s) : P (s.setFld (F.PWR_VSENS_STATE n) v) := by
  rcases (by omega : n = 0 ∨ n = 1 ∨ n = 2) with rfl | rfl | rfl <;> exact setFld_ind (hS.closed (by decide)) hs

theorem railOn_steady (hn : n < 3) (hs : P s) : P (s.railOn n) :=
  ite_ind hs (hS.modSys rfl rfl rfl (setRail_steady hS hn hs))

theorem railCut_steady (hn : n < 3) (hs : P s) : P (s.railCut n) :=
  ite_ind hs (checkPorts_steady hS (cutPorts_steady hS (setRail_steady hS hn hs)))

theorem shed_steady (hs : P s) : P s.shed :=
  forEach_ind_mem (fun _ hm _ h => railCut_steady hS (List.mem_range.mp (List.mem_of_mem_filter hm))
    (hS.modSys rfl rfl rfl h)) hs

/-! ## Deferred NV writes (R79, R393) -/

theorem nvStart_steady (hs : P s) : P s.nvStart :=
  ite_ind hs (hS.deferred _ _ (upd_stw (hS.closed (by decide)) hs))

theorem nvAbandon_steady (hs : P s) : P s.nvAbandon := by
  have dropped {x : Stw} {y : Nv} : P { s with stw := x, nv := y } :=
    upd_nv (s := { s with stw := x }) (hS.closed (by decide)) (upd_stw (hS.closed (by decide)) hs)
  have shown : P s.nvDrop := addSat_ind (hS.closed (by decide)) (setFld_ind (hS.closed (by decide))
    (setFld_ind (hS.closed (by decide)) (hS.deferred _ _ dropped)))
  exact ite_ind shown hs

theorem countAnswer_steady {b : Bool} (hs : P s) : P (s.countAnswer n b) := by
  unfold State.countAnswer
  extract_lets counted
  have counter : 0x600 ≤ (if n < 0x10 then F.KEY_CNT_ACCEPTED else F.KEY_CNT_REFUSED).addr := by split <;> decide
  have hcounted : P counted := ite_ind hs (hS.high counter hs)
  exact ite_ind hcounted (raise_steady hS (by decide) hcounted)

theorem answer_steady {x : Ticket} {o : Outcome} (hs : P s) : P (s.answer x o) := by
  unfold State.answer
  extract_lets response
  exact countAnswer_steady hS (modTen_ind (hS.closed (by decide)) hs)

theorem pendAnswer_steady {x : Ticket} (hs : P s) : P (s.pendAnswer x).1 := by
  unfold State.pendAnswer
  split
  · exact hs
  · show P (s.answer x (.of stPENDING))
    exact answer_steady hS hs

theorem pendJobs_steady {l m : List NvJob} (hs : P s) : P (pendJobs l m s) := by
  induction l generalizing m s with
  | nil => exact upd_stw (hS.closed (by decide)) hs
  | cons j l ih =>
    unfold pendJobs
    split
    · exact ih hs
    · exact ih (pendAnswer_steady hS hs)

theorem pendAll_steady (hs : P s) : P s.pendAll := by
  refine forEach_ind (fun t s h => ?_) (pendJobs_steady hS hs)
  unfold State.pendUpdate
  split
  · exact h
  · exact ite_ind h (modTen_ind (hS.closed (by decide)) (pendAnswer_steady hS h))

end

/-! ## A dip (R78) -/

/-- A dip with its flags set. -/
def State.dipFlagged (s : State) (start : Nat) (fresh : Bool) : State :=
  let s1 := s.modSys fun y => { y with
    dipStart := some (if fresh then start else y.dipStart.getD start), dipMin := if fresh then 1024 else y.dipMin, dipEnd := 0,
    dipCounted := y.dipCounted && !fresh }
  ((s1.setFld F.SYS_DIP_ACTIVE 1).setFld F.SYS_DIP_SETTLING 0).setFld F.PWR_THR_STAT_ABOVE_VWARN 0

/-- What a dip does once its flags are set: it wakes the host, sheds rails and defers NV writes. -/
def State.dipServed (s : State) : State := (s.wakeHost F.SYS_HWAKE_DIP).shed.nvAbandon.pendAll

theorem dipServed_steady (hS : Steady P) (hs : P s) : P s.dipServed :=
  pendAll_steady hS (nvAbandon_steady hS (shed_steady hS (wakeHost_routed rfl hS.routed hs)))

/-- The registers in which a dip shows itself. -/
def dipParts : List Part := [.reg A.SYS_DIP, .reg A.PWR_THR_STAT, .reg 0x318]

/-- A dip keeps what its flags leave, if the service of the dip and its interrupt leave it too. -/
theorem dipEnter_of_flagged {b : Bool} (hS : Steady P) (hC : Closed [.reg 0x318] P) (hs : P (s.dipFlagged n b)) :
    P (s.dipEnter n b) :=
  have served : P (s.dipFlagged n b).dipServed := dipServed_steady hS hs
  regear_steady hS (ite_ind (raise_routed hS.routed (fun _ _ => setReg_ind (hC.mono (by decide))) served) served)

theorem dipEnter_steady {b : Bool} (hS : Steady P) (hC : Closed dipParts P) (hs : P s) : P (s.dipEnter n b) :=
  dipEnter_of_flagged hS (hC.mono (by decide)) (setFld_ind (hC.mono (by decide)) (setFld_ind (hC.mono (by decide))
    (setFld_ind (hC.mono (by decide)) (hS.modSys rfl rfl rfl hs))))

end
end Sys2Proof.Machine

/-! Stow: its entry, the wake causes and the wake (R84, R86-R90, R426). -/

namespace Sys2Proof.Machine

section
variable {P : State → Prop} {s : State} {f g : Fld} {n k v : Nat} {b : Bool}

/-! ## Entry (R86, R87) -/

/-- The hub as it goes to Stow: its rails are dropped, the front end is at rest, and the entry is counted and shown. -/
def State.stowed (s : State) : State :=
  let rested := (forEach s.dropRails (fun n s => s.railCut n) s).modAfe fun a =>
    { a with excOn := false, settling := false, negPhase := false }
  ((rested.setFld F.SYS_PSTATE_LAST_STOW (if s.mayCold then 2 else 1)).addSat F.SYS_PSTATE_STOW_CNT 1).modSys fun y =>
    { y with phase := .stow, pstate := if s.mayCold then .stowCold else .stowWarm
             keepOn := s.dropRails.foldl (fun m n => m ||| 2 ^ n) 0 }

/-- The reference stops for STOW-COLD, and the core is at 0.55 V. -/
def State.chilled (s : State) : State :=
  let stopped := ((s.switched.synthOff).setFld F.CLK_MON_AMP_OK 0).setFld F.PWR_CORE_VSET 0
  { stopped with pln := { stopped.pln with vocPause := false, vocWait := true } }.harvShow

theorem execStowEntry_eq : execStowEntry s =
    .next (s.when (s.running && s.gear == 0 && !(s.changing) && s.mayStow) fun s =>
      if s.mayCold then (s.stowed.switchTo gGS).chilled else s.stowed.switchTo gGS) := rfl

/-- The move to GS writes registers of the clock, of the core and of the converter. -/
theorem toGS_keeps {c : Bool} (hC : Closed [.reg 0x218, .reg 0x154, .reg 0x178, .reg 0x2048, .sys, .rose, .queues, .pendg, .tens,
    .reg 0x354, .loops, .pln, .reg 0x260, .reg 0x254, .reg 0x248, .reg 0x244, .reg 0x258, .reg 0x350] P) (hs : P s) :
    P (if c then (s.switchTo gGS).chilled else s.switchTo gGS) := by
  have switching : P (s.switchTo gGS) := switchTo_ind (hC.mono (by decide)) hs
  have stopped : P (((s.switchTo gGS).switched.synthOff.setFld F.CLK_MON_AMP_OK 0).setFld F.PWR_CORE_VSET 0) :=
    setFld_ind (hC.mono (by decide)) (setFld_ind (hC.mono (by decide)) (synthOff_ind (hC.mono (by decide))
      (switched_ind (hC.mono (by decide)) switching)))
  exact ite_ind (harvShow_ind (hC.mono (by decide)) (upd_pln (hC.mono (by decide)) stopped)) switching

/-- The rails that drop leave the counter of the entries. -/
theorem reads_dropped {x : Nat} (h : Reads F.SYS_PSTATE_STOW_CNT x s) :
    Reads F.SYS_PSTATE_STOW_CNT x (forEach s.dropRails (fun n s => s.railCut n) s) :=
  forEach_ind_mem (fun _ hm _ => railCut_steady (steady_reads (by decide) (by decide) (by decide))
    (List.mem_range.mp (List.mem_of_mem_filter hm))) h

theorem Reads.addSat {x : Nat} (h : Reads f x s) (hf : f.lo + f.w ≤ 32) :
    Reads f (min (x + n) (2 ^ f.w - 1)) (s.addSat f n) := by
  obtain ⟨wf, rfl⟩ := h
  have limit : min (s.fld f + n) (2 ^ f.w - 1) < 2 ^ f.w :=
    (min_le_right _ _).trans_lt (Nat.sub_lt (Nat.two_pow_pos _) Nat.one_pos)
  exact reads_setFld wf hf limit

theorem reads_stowed (hs : s.regsWf = true) :
    Reads F.SYS_PSTATE_LAST_STOW (if s.mayCold then 2 else 1) s.stowed ∧
    Reads F.SYS_PSTATE_STOW_CNT (min (s.fld F.SYS_PSTATE_STOW_CNT + 1) 65535) s.stowed := by
  have dropped := reads_dropped ⟨hs, rfl⟩
  have last : Reads F.SYS_PSTATE_LAST_STOW (if s.mayCold then 2 else 1)
      ((forEach s.dropRails (fun n s => s.railCut n) s).setFld F.SYS_PSTATE_LAST_STOW (if s.mayCold then 2 else 1)) :=
    reads_setFld dropped.1 (by decide) (by split <;> decide)
  exact ⟨last.setFld (by decide), (dropped.setFld (by decide)).addSat (by decide)⟩

theorem completes_stowEntry (hs : s.regsWf = true) (hr : s.running = true) (hg : s.gear = 0) (hc : s.changing = false)
    (hm : s.mayStow = true) : completes .stowEntry s fun t =>
      t.sys.phase = .stow ∧ t.sys.pstate = (if s.mayCold then .stowCold else .stowWarm) ∧
      t.fld F.SYS_PSTATE_LAST_STOW = (if s.mayCold then 2 else 1) ∧ t.cclk = !s.mayCold ∧
      t.fld F.SYS_PSTATE_STOW_CNT = min (s.fld F.SYS_PSTATE_STOW_CNT + 1) 65535 := by
  refine completes_when execStowEntry_eq (by simp [hr, hg, hc, hm]) fun _ => ?_
  obtain ⟨last, count⟩ := reads_stowed hs
  obtain ⟨phase, pstate⟩ := toGS_keeps (c := s.mayCold) (s := s.stowed)
    (P := fun t => t.sys.phase = .stow ∧ t.sys.pstate = if s.mayCold then .stowCold else .stowWarm)
    (closed_of (p := .mode) (by decide) fun _ _ he ht => ⟨he.1.trans ht.1, he.2.trans ht.2⟩) ⟨rfl, rfl⟩
  refine ⟨phase, pstate, (toGS_keeps (closed_reads (by decide) (by decide)) last).2, ?_,
    (toGS_keeps (closed_reads (by decide) (by decide)) count).2⟩
  rw [State.cclk, phase, pstate]
  cases s.mayCold <;> rfl

/-! ## Wake causes (R88, R89, R426) -/

theorem completes_stowTimeWake (hp : s.sys.phase = .stow) (hw : s.sys.pstate = .stowWarm)
    (hd : (s.timeAhead && s.ageAhead) = false) : completes .stowTimeWake s fun t =>
      t.sys.wakes = s.sys.wakes ||| 2 ^ 13 ∧ changesOnly [.sys] s t :=
  completes_when rfl (by rw [hp, hw, hd]; rfl) fun e => ⟨rfl, frame_of execStowTimeWake_ind (by decide) e⟩

theorem exec_stowTimeWake_of_ahead (h : (s.timeAhead && s.ageAhead) = true) : exec .stowTimeWake s = .next s :=
  congrArg Host.Outcome.next (if_neg (by simp [h]))

/-- The level of a pin as an edge leaves it: a synchronised pin, or HCS_N. -/
def State.edged (s : State) (k : Nat) (b : Bool) : State :=
  if k = 10 then s.modSys fun y => { y with csLow := b } else s.setPin k !b

theorem execWakeEdge_eq : execWakeEdge k b s = .next (s.when
    ((decide (s.sys.phase = .stow) || s.awake) && decide (k ≤ 10) &&
      if k < 9 then s.on F.PWR_BANK_VSENSIO_OK else s.on F.PWR_BANK_VIOH_OK)
    fun s => (s.edged k b).when ((if k = 10 then b else s.bit F.SYS_WAKE_POL_FALL k == b) && s.bit F.SYS_WAKE_EN_WAKE k)
      fun s => s.wakeCause k) := rfl

theorem wakes_edged : (s.edged k b).sys.wakes = s.sys.wakes := by
  unfold State.edged
  split <;> rfl

theorem completes_wakeEdge (hp : s.sys.phase = .stow ∨ s.sys.phase = .running) (hk : k ≤ 10)
    (hg : (if k < 9 then s.on F.PWR_BANK_VSENSIO_OK else s.on F.PWR_BANK_VIOH_OK) = true)
    (hd : (if k = 10 then b else s.bit F.SYS_WAKE_POL_FALL k == b) = true) (he : s.bit F.SYS_WAKE_EN_WAKE k = true) :
    completes (.wakeEdge k b) s fun t => t.sys.wakes = s.sys.wakes ||| 2 ^ k ∧ changesOnly [.sys] s t := by
  have awake : (decide (s.sys.phase = .stow) || s.awake) = true := by simpa [State.awake] using hp
  refine completes_when execWakeEdge_eq (by rw [awake, hg, decide_eq_true hk]; rfl) fun e => ?_
  refine ⟨?_, frame_of execWakeEdge_ind (by decide) e⟩
  rw [hd, he]
  exact congrArg (· ||| 2 ^ k) wakes_edged

theorem completes_lookoutMatch (a : Nat) (r : Bool) (hs : s.regsWf = true) (hp : s.sys.phase = .stow)
    (hb : s.on F.PWR_BANK_VIOH_OK = true) (ha : (s.addrOf a).isSome = true) : completes (.lookoutMatch a r) s fun t =>
      t.sys.wakes = s.sys.wakes ||| 2 ^ 12 ∧ t.fld F.HTW_LOOK_LAST_ADDR = a % 128 ∧
      t.fld F.HTW_LOOK_WAKES = min (s.fld F.HTW_LOOK_WAKES + 1) 65535 ∧ t.fld F.HTW_STAT_STATE = 4 := by
  refine completes_when rfl (by simp [hp, hb, ha]) fun _ => ⟨rfl, ?_, ?_, ?_⟩
  · have named : Reads F.HTW_LOOK_LAST_ADDR (a % 128) ((s.wakeCause 12).setFld F.HTW_LOOK_LAST_ADDR a) :=
      ⟨regsWf_setFld hs, fld_setFld hs (by decide)⟩
    exact ((named.setFld (by decide)).setFld (by decide)).2
  · have kept : Reads F.HTW_LOOK_WAKES (s.fld F.HTW_LOOK_WAKES) (s.wakeCause 12) := ⟨hs, rfl⟩
    exact (((kept.setFld (by decide)).addSat (by decide)).setFld (by decide)).2
  · exact (reads_setFld (regsWf_setFld (regsWf_setFld hs)) (by decide) (by decide)).2

/-! ## The wake (R89, R90) -/

/-- The hub is in WATCH at G0, with the wake causes shown. -/
def State.awoken (s : State) : State :=
  let watch := s.toG0.modSys fun y => { y with phase := .running, pstate := .watch, wakes := 0 }
  (watch.setReg A.SYS_WAKE_CAUSE (watch.reg A.SYS_WAKE_CAUSE ||| BitVec.ofNat 32 s.sys.wakes)).setFld F.SYS_PSTATE_STATE 1

/-- What follows the wake keeps what a supply event and a dip's flags leave alone. -/
theorem wakeUp_of_awoken (hS : Steady P) (hC : Closed dipParts P) (hs : P s.awoken) : P s.wakeUp := by
  unfold State.wakeUp
  extract_lets wakes cold watch shown woken looked opened clock renewed dip railed ready
  have hwoken : P woken := ite_ind (wakeHost_routed rfl hS.routed hs) hs
  have hlooked : P looked := ite_ind (raise_steady hS (by decide) hwoken) hwoken
  have hopened : P opened := openEpoch_steady hS hlooked
  have hrenewed : P renewed := ite_ind (upd_clk (hS.closed (by decide)) hopened) hlooked
  have hrailed : P railed := forEach_ind_mem (fun n hn _ h => ite_ind h
    (ite_ind (hS.modSys rfl rfl rfl h) (railOn_steady hS (List.mem_range.mp hn) h))) hrenewed
  have hready : P ready := excApply_ind (hS.closed (by decide)) (hS.modSys rfl rfl rfl hrailed)
  exact ite_ind (dipEnter_steady hS hC hready) hready

theorem completes_stowWake (hs : s.regsWf = true) (hp : s.sys.phase = .stow) (hw : s.sys.wakes ≠ 0) :
    completes .stowWake s fun t => t.sys.phase = .running ∧ t.sys.pstate = .watch ∧ t.fld F.SYS_PSTATE_STATE = 1 ∧
      t.sys.wakes = 0 ∧ t.reg A.SYS_WAKE_CAUSE = s.reg A.SYS_WAKE_CAUSE ||| BitVec.ofNat 32 s.sys.wakes := by
  refine completes_when rfl (by simp [hp, hw]) fun _ => ?_
  have toG0 : s.toG0.regsWf = true ∧ s.toG0.reg A.SYS_WAKE_CAUSE = s.reg A.SYS_WAKE_CAUSE :=
    toG0_ind (closed_and (closed_regsWf.mono (by decide)) (closed_reg (by decide))) ⟨hs, rfl⟩
  have wakes : s.awoken.reg A.SYS_WAKE_CAUSE = s.reg A.SYS_WAKE_CAUSE ||| BitVec.ofNat 32 s.sys.wakes :=
    (reg_setFld_ne (by decide)).trans ((reg_setReg toG0.1).trans (congrArg (· ||| _) toG0.2))
  have state : Reads F.SYS_PSTATE_STATE 1 s.awoken := reads_setFld (regsWf_setReg toG0.1) (by decide) (by decide)
  have after {P : State → Prop} (hS : Steady P) (hC : Closed dipParts P) (h : P s.awoken) : P s.wakeUp.regear :=
    regear_steady hS (wakeUp_of_awoken hS hC h)
  obtain ⟨phase, pstate, none⟩ := after steady_mode (closed_of (p := .sys) (by decide) fun _ _ (he : _ = _) h => he ▸ h)
    (show s.awoken.sys.phase = .running ∧ s.awoken.sys.pstate = .watch ∧ s.awoken.sys.wakes = 0 from ⟨rfl, rfl, rfl⟩)
  exact ⟨phase, pstate,
    (after (steady_reads (by decide) (by decide) (by decide)) (closed_reads (by decide) (by decide)) state).2, none,
    after (steady_reg (by decide) (by decide) (by decide)) (closed_reg (by decide)) wakes⟩

end

/-- Settles O13: the rails that drop at the entry leave the power state's register, and the move to GS leaves the power state;
each wake cause is one bit; what follows a wake, a dip with all its transfers included, leaves the phase, the causes and the
register that shows them. The guard of the TIME wake (log entry 17), the step that does nothing before it (log entry 13) and
a cause recorded while the hub runs (log entry 157) are the model's choices. -/
theorem stowEntryAndWake : Obligations.StowEntryAndWake := by
  unfold Obligations.StowEntryAndWake
  refine ⟨?entry, ?time, ?ahead, ?edge, ?select, ?lookout, ?wake⟩
  case entry => exact fun s hs => completes_stowEntry (mapsWf_regs hs)
  case time => exact fun s => completes_stowTimeWake
  case ahead => exact fun s => exec_stowTimeWake_of_ahead
  case edge =>
    intro s k f hp hk hg hd he
    refine completes_wakeEdge hp (by omega) ?_ ?_ he
    · rwa [apply_ite s.on] at hg
    · rw [if_neg (by omega), hd, beq_self_eq_true]
  case select => exact fun s hp hg => completes_wakeEdge hp (by decide) hg rfl
  case lookout => exact fun s a r hs => completes_lookoutMatch a r (mapsWf_regs hs)
  case wake => exact fun s hs => completes_stowWake (mapsWf_regs hs)

end Sys2Proof.Machine

/-! The rails: VHOST settles, trips and cycles; a VSENS rail ramps, settles and trips (R73-R77). -/

namespace Sys2Proof.Machine

section
variable {s s₀ : State} {g : Fld} {n v cause : Nat}

/-! ## The alarm of a rail (R74, R77) -/

/-- What a trip tells: the page's fault and its interrupt, the host wake, and a FAULT record. -/
def State.railAlarm (s₀ s : State) (cause n : Nat) : State :=
  (((s₀.risen [0x03] s).wakeHost F.SYS_HWAKE_RAIL).railFault cause n).raise 0x03 10

theorem reads_railAlarm (ha : avoids (.reg 0x318 :: irqParts) (.reg g.addr) = true) (h : Reads g v s) :
    Reads g v (State.railAlarm s₀ s cause n) := by
  have hC : Closed (.reg 0x318 :: irqParts) (Reads g v) := closed_reads ha (by decide)
  have risen : Reads g v (s₀.risen [0x03] s) := risen_ind (hC.mono (by decide)) h
  exact raise_ind (hC.mono (by decide)) (railFault_ind (hC.mono (by decide)) (wakeHost_ind (hC.mono (by decide)) risen))

theorem bit_railAlarm (hs : s.regsWf = true) : (State.railAlarm s₀ s cause n).bit (F.PIRQ 0x03) 10 = true := by
  have hC : Closed runParts fun t : State => t.regsWf = true := closed_regsWf
  have risen : (s₀.risen [0x03] s).regsWf = true := risen_ind (hC.mono (by decide)) hs
  exact bit_raise (railFault_ind (hC.mono (by decide)) (wakeHost_ind (hC.mono (by decide)) risen)) (by decide)

/-! ## VHOST (R72-R74) -/

theorem completes_vhostSettleEnd (hs : s.regsWf = true) (hp : s.powered = true) (hb : s.sys.phase ≠ .booting)
    (ho : s.sys.vhostOn = true) (hv : s.sys.vhostSettle = true) : completes .vhostSettleEnd s fun t =>
      t.fld F.SYS_HREL_RELEASED = 1 ∧ t.sys.vhostSettle = false ∧ changesOnly [.reg A.SYS_HREL, .sys] s t :=
  completes_when rfl (by simp [hp, hb, ho, hv]) fun e =>
    ⟨fld_setFld_of_lt hs (by decide) (by decide), rfl, frame_of_footprint execVhostSettleEnd_ind (by decide) (by decide) e⟩

/-- The trips of the last 10 s, this one among them. -/
def State.recentTrips (s : State) : List Nat := s.ht :: s.sys.trips.filter fun h => decide (s.ht ≤ h + 10 * 2 ^ 32)

/-- This trip locks the rail out. -/
def State.tripLocks (s : State) : Bool := decide (3 ≤ s.recentTrips.length)

/-- The rail goes off, and the trip is counted. -/
def State.tripCounted (s : State) : State :=
  (s.vhostDown.addSat F.PWR_VHOST_TRIPS 1).modSys fun y =>
    { y with trips := s.recentTrips, vhostCycle := !s.tripLocks, lockout := s.tripLocks }

/-- The trip is latched, and with a lockout the rail is disabled. -/
def State.tripLatched (s : State) : State :=
  let latched := s.tripCounted.setFld F.PWR_RAILEVT_VHOST_TRIP 1
  if s.tripLocks then (latched.setFld F.PWR_RAILEVT_VHOST_LOCKOUT 1).setFld F.PWR_VHOST_EN 0 else latched

theorem execVhostTrip_eq : execVhostTrip s = .next (s.when (s.powered && s.sys.vhostOn) fun s =>
    State.railAlarm s.tripCounted s.tripLatched (if s.tripLocks then 3 else 2) 3) := rfl

theorem regsWf_tripCounted (hs : s.regsWf = true) : s.tripCounted.regsWf = true :=
  regsWf_setFld (vhostDown_ind (closed_regsWf.mono (by decide)) hs)

theorem reads_tripLatched (hs : s.regsWf = true) : Reads F.PWR_RAILEVT_VHOST_TRIP 1 s.tripLatched :=
  have latched : Reads F.PWR_RAILEVT_VHOST_TRIP 1 (s.tripCounted.setFld F.PWR_RAILEVT_VHOST_TRIP 1) :=
    reads_setFld (regsWf_tripCounted hs) (by decide) (by decide)
  ite_ind ((latched.setFld (by decide)).setFld (by decide)) latched

/-- The third trip within 10 s locks the rail out. -/
theorem reads_lockout (hs : s.regsWf = true) (hl : s.tripLocks = true) :
    Reads F.PWR_RAILEVT_VHOST_LOCKOUT 1 s.tripLatched ∧ Reads F.PWR_VHOST_EN 0 s.tripLatched := by
  have latched : (s.tripCounted.setFld F.PWR_RAILEVT_VHOST_TRIP 1).regsWf = true := regsWf_setFld (regsWf_tripCounted hs)
  have locked : s.tripLatched = ((s.tripCounted.setFld F.PWR_RAILEVT_VHOST_TRIP 1).setFld F.PWR_RAILEVT_VHOST_LOCKOUT 1).setFld
      F.PWR_VHOST_EN 0 := if_pos hl
  rw [locked]
  exact ⟨(reads_setFld latched (by decide) (by decide)).setFld (by decide),
    reads_setFld (regsWf_setFld latched) (by decide) (by decide)⟩

theorem completes_vhostTrip (hs : s.regsWf = true) (hp : s.powered = true) (ho : s.sys.vhostOn = true) :
    completes .vhostTrip s fun t => t.fld F.PWR_RAILEVT_VHOST_TRIP = 1 ∧ t.bit (F.PIRQ 0x03) 10 = true ∧
      (2 ≤ (s.sys.trips.filter fun h => decide (s.ht ≤ h + 10 * 2 ^ 32)).length →
        t.fld F.PWR_RAILEVT_VHOST_LOCKOUT = 1 ∧ t.fld F.PWR_VHOST_EN = 0) := by
  refine completes_when execVhostTrip_eq (by rw [hp, ho]; rfl) fun _ => ?_
  have tripped := reads_tripLatched hs
  refine ⟨(reads_railAlarm (by decide) tripped).2, bit_railAlarm tripped.1, fun third => ?_⟩
  have locks : s.tripLocks = true := decide_eq_true (Nat.succ_le_succ third)
  obtain ⟨lockout, disabled⟩ := reads_lockout hs locks
  exact ⟨(reads_railAlarm (by decide) lockout).2, (reads_railAlarm (by decide) disabled).2⟩

theorem vhostUp_of_off (ho : s.sys.vhostOn = false) (hl : s.sys.lockout = false) :
    s.vhostUp = (s.setFld F.PWR_VHOST_VSEL_PEND 0).modSys fun y => { y with
      vhostOn := true, vhostV := if s.fld F.PWR_VHOST_VSEL = 3 then 0 else s.fld F.PWR_VHOST_VSEL
      vhostSettle := true, vhostCycle := false } := if_neg (by simp [ho, hl])

theorem completes_vhostCycleOffEnd (hp : s.powered = true) (hc : s.sys.vhostCycle = true) (he : s.on F.PWR_VHOST_EN = true)
    (ho : s.sys.vhostOn = false) (hl : s.sys.lockout = false) : completes .vhostCycleOffEnd s fun t =>
      t.sys.vhostOn = true ∧ t.sys.vhostSettle = true ∧ t.sys.vhostCycle = false ∧
      changesOnly [.reg A.PWR_VHOST, .sys] s t := by
  refine completes_when rfl (by rw [hp, hc, he]; rfl) fun e => ?_
  have frame := frame_of_footprint (m := [.reg A.PWR_VHOST, .sys]) execVhostCycleOffEnd_ind (by decide) (by decide) e
  rw [vhostUp_of_off ho hl] at frame ⊢
  exact ⟨rfl, rfl, rfl, frame⟩

/-! ## VSENS rails (R75-R77) -/

theorem reads_setRail (hs : s.regsWf = true) (hv : v < 4) :
    Reads (F.PWR_VSENS_STATE n) v (s.setFld (F.PWR_VSENS_STATE n) v) ∧
    changesOnly [.reg (A.PWR_VSENS n)] s (s.setFld (F.PWR_VSENS_STATE n) v) :=
  ⟨reads_setFld hs (by decide : 28 + 2 ≤ 32) hv, setFld_ind (closed_changesOnly (by simp)) (changesOnly_refl s)⟩

theorem completes_vsensRampDone (hs : s.regsWf = true) (hn : n < 3) (hp : s.powered = true)
    (hr : s.fld (F.PWR_VSENS_STATE n) = 1) : completes (.vsensRampDone n) s fun t =>
      t.fld (F.PWR_VSENS_STATE n) = 2 ∧ changesOnly [.reg (A.PWR_VSENS n)] s t := by
  refine completes_when rfl (by simp [hn, hp, hr]) fun _ => ?_
  obtain ⟨settling, frame⟩ := reads_setRail (n := n) (v := 2) hs (by decide)
  exact ⟨settling.2, frame⟩

theorem completes_vsensSettleDone (hs : s.regsWf = true) (hn : n < 3) (hc : s.cclk = true)
    (hr : s.fld (F.PWR_VSENS_STATE n) = 2) : completes (.vsensSettleDone n) s fun t =>
      t.fld (F.PWR_VSENS_STATE n) = 3 ∧ changesOnly [.reg (A.PWR_VSENS n)] s t := by
  refine completes_when rfl (by simp [hn, hc, hr]) fun _ => ?_
  obtain ⟨on, frame⟩ := reads_setRail (n := n) (v := 3) hs (by decide)
  exact ⟨on.2, frame⟩

/-- A rail that tripped is off and disabled. -/
def State.railTripped (s : State) (n : Nat) : State := (s.railCut n).setFld (F.PWR_VSENS_EN n) 0

theorem execVsensTrip_eq : execVsensTrip n s = .next (s.when
    (decide (n < 3) && s.powered && s.fld (F.PWR_VSENS_STATE n) != 0) fun s =>
      State.railAlarm (s.railTripped n) ((s.railTripped n).setBit F.PWR_RAILEVT_VSENS_TRIP n) 1 n) := rfl

/-- The alarm of a rail writes no register of a rail. -/
theorem avoids_rail (hn : n < 3) : avoids (.reg 0x318 :: irqParts) (.reg (F.PWR_VSENS_EN n).addr) = true := by
  rcases (by omega : n = 0 ∨ n = 1 ∨ n = 2) with rfl | rfl | rfl <;> decide

theorem completes_vsensTrip (hs : s.regsWf = true) (hn : n < 3) (hp : s.powered = true)
    (hr : s.fld (F.PWR_VSENS_STATE n) ≠ 0) : completes (.vsensTrip n) s fun t =>
      t.fld (F.PWR_VSENS_EN n) = 0 ∧ t.bit F.PWR_RAILEVT_VSENS_TRIP n = true ∧ t.bit (F.PIRQ 0x03) 10 = true := by
  refine completes_when execVsensTrip_eq (by simp [hn, hp, hr]) fun _ => ?_
  have disabled : Reads (F.PWR_VSENS_EN n) 0 (s.railTripped n) :=
    reads_setFld (railCut_ind (closed_regsWf.mono (by decide)) hs) (by decide : 0 + 1 ≤ 32) (by decide : 0 < 2 ^ 1)
  have elsewhere : F.PWR_RAILEVT_VSENS_TRIP.addr ≠ 0x35c + 4 * n := by
    show 0x368 ≠ 0x35c + 4 * n
    omega
  have latched : Reads (F.PWR_VSENS_EN n) 0 ((s.railTripped n).setBit F.PWR_RAILEVT_VSENS_TRIP n) :=
    ⟨regsWf_setFld disabled.1, (fld_setFld_ne elsewhere.symm).trans disabled.2⟩
  refine ⟨(reads_railAlarm (avoids_rail hn) latched).2, ?_, bit_railAlarm latched.1⟩
  have trip : ((s.railTripped n).setBit F.PWR_RAILEVT_VSENS_TRIP n).bit F.PWR_RAILEVT_VSENS_TRIP n = true :=
    bit_setBit disabled.1 (by decide) hn
  rw [State.bit, (reads_railAlarm (v := _) (by decide) ⟨latched.1, rfl⟩).2]
  exact trip

end

/-- Settles O14: each event is one update where its guard holds; what a trip tells afterwards, by its fault, the host wake, a
record and an interrupt, writes none of the registers that show it. That VHOST's settling releases the host whatever pulse is
in progress (log entry 138) and that RELEASED follows the rail (log entry 21) are the model's choices. -/
theorem railsAndVhost : Obligations.RailsAndVhost := by
  unfold Obligations.RailsAndVhost
  refine ⟨?settled, ?trip, ?cycle, ?ramp, ?on, ?railTrip⟩
  case settled => exact fun s hs => completes_vhostSettleEnd (mapsWf_regs hs)
  case trip => exact fun s hs => completes_vhostTrip (mapsWf_regs hs)
  case cycle => exact fun s => completes_vhostCycleOffEnd
  case ramp => exact fun s n hs => completes_vsensRampDone (mapsWf_regs hs)
  case on => exact fun s n hs => completes_vsensSettleDone (mapsWf_regs hs)
  case railTrip => exact fun s n hs => completes_vsensTrip (mapsWf_regs hs)

end Sys2Proof.Machine

/-! A supply dip, from its beginning to the return of the rails that it shed (R78-R82, R90). -/

namespace Sys2Proof.Machine

section
variable {P : State → Prop} {s t : State} {g : Fld} {n v mv : Nat} {b : Bool}

/-! ## The supply as a dip shows it (R65, R79) -/

theorem reads_nvStart (hd : ApartFrom F.SYS_DIP_DEFERRED g) (h : Reads g v s) : Reads g v s.nvStart := by
  have started {x : Stw} : Reads g v { s with stw := x } := h
  exact ite_ind h (Reads.setFld started hd)

theorem reads_supply (hk : ApartFrom F.PWR_THR_STAT_ABOVE_KEYW g) (hc : ApartFrom F.PWR_THR_STAT_ABOVE_VCHG g)
    (hd : ApartFrom F.SYS_DIP_DEFERRED g) (h : Reads g v s) : Reads g v (s.supply mv) := by
  have measured : Reads g v (s.modSys fun y => { y with vstore := mv }) := h
  exact reads_nvStart hd ((measured.setFld hk).setFld hc)

theorem vstore_supply : (s.supply mv).sys.vstore = mv := by
  rw [State.supply, sys_supplyShow]
  rfl

/-! ## A dip begins, or goes on (R78, R82) -/

theorem reads_dipFlagged (hs : s.regsWf = true) : Reads F.SYS_DIP_ACTIVE 1 (s.dipFlagged n b) ∧
    Reads F.SYS_DIP_SETTLING 0 (s.dipFlagged n b) ∧ Reads F.PWR_THR_STAT_ABOVE_VWARN 0 (s.dipFlagged n b) :=
  ⟨((reads_setFld hs (by decide) (by decide)).setFld (by decide)).setFld (by decide),
    (reads_setFld (regsWf_setFld hs) (by decide) (by decide)).setFld (by decide),
    reads_setFld (regsWf_setFld (regsWf_setFld hs)) (by decide) (by decide)⟩

/-- The flags of a dip stand through its service and the measurement that comes with it. -/
theorem flags_dipEnter (hs : s.regsWf = true) : ((s.dipEnter n b).supply mv).fld F.SYS_DIP_ACTIVE = 1 ∧
    ((s.dipEnter n b).supply mv).fld F.SYS_DIP_SETTLING = 0 ∧
    ((s.dipEnter n b).supply mv).fld F.PWR_THR_STAT_ABOVE_VWARN = 0 := by
  obtain ⟨active, settling, vwarn⟩ := reads_dipFlagged (n := n) (b := b) hs
  refine ⟨(reads_supply (by decide) (by decide) (by decide) ?_).2, (reads_supply (by decide) (by decide) (by decide) ?_).2,
    (reads_supply (by decide) (by decide) (by decide) ?_).2⟩
  · exact dipEnter_of_flagged (steady_reads (by decide) (by decide) (by decide)) (closed_reads (by decide) (by decide)) active
  · exact dipEnter_of_flagged (steady_reads (by decide) (by decide) (by decide)) (closed_reads (by decide) (by decide)) settling
  · exact dipEnter_of_flagged (steady_reads (by decide) (by decide) (by decide)) (closed_reads (by decide) (by decide)) vwarn

/-- A dip that does not continue another is told. -/
theorem latched_dipEnter (hs : s.regsWf = true) : Latched 0x03 8 ((s.dipEnter n true).supply mv) := by
  have flagged : (s.dipFlagged n true).regsWf = true := (reads_dipFlagged hs).1.1
  have served : (s.dipFlagged n true).dipServed.regsWf = true :=
    (dipServed_steady (P := Reads F.SYS_DIP_ACTIVE 1) (steady_reads (by decide) (by decide) (by decide))
      (reads_dipFlagged hs).1).1
  have raised : Latched 0x03 8 ((s.dipFlagged n true).dipServed.raise 0x03 8) :=
    ⟨regsWf_raise served (by decide), bit_raise served (by decide)⟩
  have entered : Latched 0x03 8 (s.dipEnter n true) :=
    regear_steady (steady_latched (by decide) (by decide) (by decide)) raised
  exact supply_ind (closed_latched (by decide) (by decide)) entered

theorem execDipBegin_eq : execDipBegin mv s = .next (s.when
    (s.powered && s.on F.PWR_THR_STAT_ABOVE_VWARN && !(s.dipHold)) fun s =>
      if s.sys.phase = .stow then ((s.supply mv).setFld F.PWR_THR_STAT_ABOVE_VWARN 0).modSys fun y =>
        { y with wakes := y.wakes ||| 2 ^ 14, dipStart := some (s.ht - dipFilter) }
      else (s.dipEnter (s.ht - dipFilter) true).supply mv) := rfl

theorem completes_dipBegin (hs : s.regsWf = true) (hp : s.powered = true) (ha : s.on F.PWR_THR_STAT_ABOVE_VWARN = true)
    (hd : s.dipHold = false) (hn : s.sys.phase ≠ .stow) : completes (.dipBegin mv) s fun t =>
      t.fld F.SYS_DIP_ACTIVE = 1 ∧ t.fld F.SYS_DIP_SETTLING = 0 ∧ t.fld F.PWR_THR_STAT_ABOVE_VWARN = 0 ∧
      t.bit (F.PIRQ 0x03) 8 = true := by
  refine completes_when execDipBegin_eq (by rw [hp, ha, hd]; rfl) fun _ => ?_
  rw [if_neg hn]
  obtain ⟨active, settling, vwarn⟩ := flags_dipEnter (n := s.ht - dipFilter) (b := true) (mv := mv) hs
  exact ⟨active, settling, vwarn, (latched_dipEnter hs).2⟩

theorem completes_dipBegin_stow (hs : s.regsWf = true) (ha : s.on F.PWR_THR_STAT_ABOVE_VWARN = true)
    (hd : s.dipHold = false) (hp : s.sys.phase = .stow) : completes (.dipBegin mv) s fun t =>
      t.sys.wakes = s.sys.wakes ||| 2 ^ 14 ∧ t.fld F.PWR_THR_STAT_ABOVE_VWARN = 0 ∧ t.sys.vstore = mv := by
  have powered : s.powered = true := by simp [State.powered, hp]
  refine completes_when execDipBegin_eq (by rw [powered, ha, hd]; rfl) fun _ => ?_
  rw [if_pos hp]
  have measured : (s.supply mv).regsWf = true := supply_ind (closed_regsWf.mono (by decide)) hs
  exact ⟨congrArg (· ||| 2 ^ 14) wakes_supply, fld_setFld_of_lt measured (by decide) (by decide), vstore_supply⟩

theorem completes_dipContinue (hs : s.regsWf = true) (hc : s.cclk = true) (ho : s.on F.SYS_DIP_SETTLING = true)
    (ha : s.on F.SYS_DIP_ACTIVE = false) : completes (.dipContinue mv) s fun t =>
      t.fld F.SYS_DIP_ACTIVE = 1 ∧ t.fld F.SYS_DIP_SETTLING = 0 ∧ t.fld F.PWR_THR_STAT_ABOVE_VWARN = 0 :=
  completes_when rfl (by rw [hc, ho, ha]; rfl) fun _ => flags_dipEnter hs

/-! ## The end of a dip (R80, R81) -/

/-- The dip's entry goes to the Logbook, or is lost there. -/
theorem dipEntry_routed (hR : Routed P) (hC : Closed [.reg 0x2458, .reg 0x2418, .log, .stw] P) (hs : P s) : P s.dipEntry := by
  unfold State.dipEntry
  extract_lets aud entry run used
  have lost : P (s.addSat F.LOG_CNT_LOST 1) := addSat_ind (hC.mono (by decide)) hs
  have flagged : P { s.addSat F.LOG_CNT_LOST 1 with log := { s.log with loss := true } } := upd_log (hC.mono (by decide)) lost
  have waits {x : Log} {y : Stw} : P { s with log := x, stw := y } :=
    upd_stw (s := { s with log := x }) (hC.mono (by decide)) (upd_log (hC.mono (by decide)) hs)
  exact ite_ind lost (ite_ind (raise_routed hR (fun _ _ => setReg_ind (hC.mono (by decide))) flagged)
    (modUpdates_ind (hR.parts.mono (by decide)) waits))

theorem dipFinish_steady (hS : Steady P) (hd : ∀ s v, P s → P (s.setFld F.SYS_DIP_SETTLING v)) (hs : P s) :
    P (s.dipFinish n) :=
  nvStart_steady hS (dipEntry_routed hS.routed (hS.closed (by decide)) (hd _ _ (hS.modSys rfl rfl rfl hs)))

/-- VSTORE has risen above VWARN + 60 mV, and it is told. -/
def State.dipRisen (s : State) (mv : Nat) : State :=
  let ended := (s.supply mv).modSys fun y => { y with dipEnd := s.ht - dipFilter, dipCounted := true }
  ((ended.setFld F.SYS_DIP_ACTIVE 0).setFld F.PWR_THR_STAT_ABOVE_VWARN 1).raise 0x03 9

/-- What holds once the end of a dip is told holds when its record is made and the rails that it shed go on. -/
theorem completes_dipEnd_of (hS : Steady P) (hC : Closed [.reg A.PWR_DIP, .reg A.PWR_DIPCNT] P)
    (hd : ∀ s v, P s → P (s.setFld F.SYS_DIP_SETTLING v)) (hc : s.cclk = true) (ha : s.on F.SYS_DIP_ACTIVE = true)
    (hr : P (s.dipRisen mv)) : completes (.dipEnd mv) s P := by
  refine completes_when rfl (by rw [hc, ha]; rfl) fun _ => ?_
  extract_lets h start vmin dur first s1 s2 s3 s4 back s5 s6
  have recorded : P s3 := setFld_ind (hC.mono (by decide)) (setFld_ind (hC.mono (by decide)) hr)
  have counted : P s4 := ite_ind (addSat_ind (hC.mono (by decide)) recorded) recorded
  have railed : P s5 := forEach_ind_mem (fun _ hm _ => railOn_steady hS
    (List.mem_range.mp (List.mem_of_mem_filter hm))) counted
  exact regear_steady hS (ite_ind (dipFinish_steady hS hd (hS.modSys rfl rfl rfl railed)) (hd _ _ railed))

theorem regsWf_modSys {y : Sys → Sys} : (s.modSys y).regsWf = s.regsWf := rfl

theorem shows_dipRisen (hs : s.regsWf = true) : Reads F.SYS_DIP_ACTIVE 0 (s.dipRisen mv) ∧
    Reads F.PWR_THR_STAT_ABOVE_VWARN 1 (s.dipRisen mv) ∧ Latched 0x03 9 (s.dipRisen mv) := by
  have measured : (s.supply mv).regsWf = true := supply_ind (closed_regsWf.mono (by decide)) hs
  have ended : ((s.supply mv).modSys fun y => { y with dipEnd := s.ht - dipFilter, dipCounted := true }).regsWf = true :=
    regsWf_modSys.trans measured
  have active := reads_setFld (f := F.SYS_DIP_ACTIVE) (v := 0) ended (by decide) (by decide)
  have vwarn := reads_setFld (f := F.PWR_THR_STAT_ABOVE_VWARN) (v := 1) active.1 (by decide) (by decide)
  exact ⟨raise_ind (closed_reads (by decide) (by decide)) (active.setFld (by decide)),
    raise_ind (closed_reads (by decide) (by decide)) vwarn, regsWf_raise vwarn.1 (by decide), bit_raise vwarn.1 (by decide)⟩

theorem completes_and {i : Instr} {Q R : State → Prop} (hQ : completes i s Q) (hR : completes i s R) :
    completes i s fun t => Q t ∧ R t := by
  obtain ⟨t, he, hq⟩ := hQ
  obtain ⟨u, hu, hr⟩ := hR
  cases he.symm.trans hu
  exact ⟨t, he, hq, hr⟩

theorem completes_imp {i : Instr} {Q R : State → Prop} (hQ : completes i s Q) (h : ∀ t, Q t → R t) : completes i s R :=
  hQ.imp fun t ⟨he, hq⟩ => ⟨he, h t hq⟩

theorem completes_dipEnd_reads (hS : Steady (Reads g v)) (ha : avoids [.reg A.PWR_DIP, .reg A.PWR_DIPCNT] (.reg g.addr) = true)
    (hd : ApartFrom F.SYS_DIP_SETTLING g) (hc : s.cclk = true) (ho : s.on F.SYS_DIP_ACTIVE = true)
    (hr : Reads g v (s.dipRisen mv)) : completes (.dipEnd mv) s fun t => t.fld g = v :=
  completes_imp (completes_dipEnd_of hS (closed_reads ha (by decide)) (fun _ _ h => h.setFld hd) hc ho hr) fun _ h => h.2

theorem completes_dipEnd (hs : s.regsWf = true) (hc : s.cclk = true) (ha : s.on F.SYS_DIP_ACTIVE = true) :
    completes (.dipEnd mv) s fun t => t.fld F.SYS_DIP_ACTIVE = 0 ∧ t.fld F.PWR_THR_STAT_ABOVE_VWARN = 1 ∧
      t.bit (F.PIRQ 0x03) 9 = true := by
  obtain ⟨active, vwarn, told⟩ := shows_dipRisen (mv := mv) hs
  have latched := completes_dipEnd_of (steady_latched (by decide) (by decide) (by decide))
    (closed_latched (by decide) (by decide)) (fun _ _ => setFld_ind (closed_latched (by decide) (by decide))) hc ha told
  exact completes_and (completes_dipEnd_reads (steady_reads (by decide) (by decide) (by decide)) (by decide) (by decide) hc ha active)
    (completes_and (completes_dipEnd_reads (steady_reads (by decide) (by decide) (by decide)) (by decide) (by decide) hc ha vwarn)
      (completes_imp latched fun _ h => h.2))

/-- No rail counts as shed, and no dip is under way. -/
def State.dipOver (s : State) : Prop := s.sys.railShed = 0 ∧ s.sys.dipStart = none

theorem dipOver_of_sys (he : t.sys = s.sys) (h : s.dipOver) : t.dipOver := by
  unfold State.dipOver
  rwa [he]

theorem closed_dipOver {l : List Part} (h : avoids l .sys = true) : Closed l State.dipOver :=
  closed_of h fun _ _ he => dipOver_of_sys he

theorem dipOver_dipFinish : (s.dipFinish n).dipOver := by
  have routed : Routed State.dipOver := ⟨closed_dipOver (by decide), fun _ _ h => h⟩
  unfold State.dipFinish
  extract_lets s1
  have settled : (s1.setFld F.SYS_DIP_SETTLING 0).dipOver := ⟨rfl, rfl⟩
  exact nvStart_ind (closed_dipOver (by decide)) (dipEntry_routed routed (closed_dipOver (by decide)) settled)

theorem reads_dipFinish (hs : s.regsWf = true) : Reads F.SYS_DIP_SETTLING 0 (s.dipFinish n) := by
  unfold State.dipFinish
  extract_lets s1
  have settled : Reads F.SYS_DIP_SETTLING 0 (s1.setFld F.SYS_DIP_SETTLING 0) :=
    reads_setFld (show s1.regsWf = true from hs) (by decide) (by decide)
  exact reads_nvStart (by decide) (dipEntry_ind (closed_reads (by decide) (by decide)) settled)

theorem completes_dipSettled (hs : s.regsWf = true) (hc : s.cclk = true) (ho : s.on F.SYS_DIP_SETTLING = true)
    (hr : ∀ n ∈ s.railsBack, s.fld (F.PWR_VSENS_STATE n) = 3) : completes .dipSettled s fun t =>
      t.fld F.SYS_DIP_SETTLING = 0 ∧ t.sys.railShed = 0 ∧ t.sys.dipStart = none := by
  have back : (s.railsBack.all fun n => s.fld (F.PWR_VSENS_STATE n) == 3) = true :=
    List.all_eq_true.mpr fun n hn => beq_iff_eq.mpr (hr n hn)
  have counted : (s.modSys fun y => { y with dipCounted := false }).regsWf = true := hs
  exact completes_when rfl (by rw [hc, ho, back]; rfl) fun _ => ⟨(reads_dipFinish counted).2, dipOver_dipFinish⟩

end

/-- Settles O15: the flags and the interrupt of a dip stand through what the dip does: transfers that end, requests and NV
writes that are put off, rails that go off and on, the entry of the Logbook, and the request for a gear. PIRQ bit 9 at every
end of a dip (log entry 139) and a dip in Stow as a wake cause (log entry 19) are the model's choices. -/
theorem supplyDipRunsItsCourse : Obligations.SupplyDipRunsItsCourse := by
  unfold Obligations.SupplyDipRunsItsCourse
  refine ⟨?begin, ?stow, ?goesOn, ?stop, ?settled⟩
  case begin => exact fun s mv hs => completes_dipBegin (mapsWf_regs hs)
  case stow => exact fun s mv hs => completes_dipBegin_stow (mapsWf_regs hs)
  case goesOn => exact fun s mv hs => completes_dipContinue (mapsWf_regs hs)
  case stop => exact fun s mv hs => completes_dipEnd (mapsWf_regs hs)
  case settled => exact fun s hs => completes_dipSettled (mapsWf_regs hs)

end Sys2Proof.Machine

/-! The commands that write one register (R128): the commit of a write that the checks let act. -/

namespace Sys2Proof.Machine

section
variable {s : State} {rq : Requester} {l : List Wr} {d : List (Nat × Nat)} {a v x n : Nat}

/-! ## A commit that nothing redirects and nothing denies -/

/-- The register is neither a selection nor, by its offset, a TN page's window to other pages. -/
def standsAlone (a : Nat) : Bool := !isSel a && !(isTn a && a % 256 == 0x68)

theorem standsAlone_iff : standsAlone a = true ↔ isSel a = false ∧ (isTn a && a % 256 == 0x68) = false := by
  rw [standsAlone, Bool.and_eq_true, Bool.not_eq_true', Bool.not_eq_true']

theorem expand_of_standsAlone {w : Wr} (h : standsAlone w.addr = true) : s.expand rq l w = w := by
  unfold State.expand
  rw [(standsAlone_iff.mp h).2]
  rfl

theorem map_expand_of_standsAlone {ws : List Wr} (h : ∀ w ∈ l, standsAlone w.addr = true) : l.map (s.expand rq ws) = l :=
  (List.map_congr_left fun w hw => expand_of_standsAlone (h w hw)).trans l.map_id

theorem selFirst_of_standsAlone (h : ∀ w ∈ l, standsAlone w.addr = true) : s.selFirst rq l = s := by
  unfold State.selFirst
  refine forEach_ind_mem (Q := (· = s)) (fun w hw t ht => ?_) rfl
  rwa [(standsAlone_iff.mp (h w hw)).1]

theorem commit_undenied (hl : ∀ w ∈ l, standsAlone w.addr = true) (hd : s.decideWrites rq l = (d, [])) :
    s.commit rq l = ⟨State.effects s rq d (s.storeAll rq d), d.length, []⟩ := by
  have untouched {t : State} : State.keepRaised s s rq [] t = t := if_pos (.inr rfl)
  simp only [State.commit, map_expand_of_standsAlone hl, selFirst_of_standsAlone hl, hd, denyAll, if_true, untouched]

/-- The next state of a command that is one register write which the checks let act. -/
theorem writeVia_of_lets (ha : standsAlone a = true) (h : s.lets rq a v x) :
    s.writeVia rq [(a, v)] = State.effects s rq [(a, x)] (s.storeAll rq [(a, x)]) := by
  obtain ⟨reached, acts⟩ := h
  have alone : ∀ w ∈ [(⟨a, v, false, match rq with | .window _ => true | _ => false⟩ : Wr)], standsAlone w.addr = true :=
    List.forall_mem_singleton.mpr ha
  unfold State.writeVia State.when
  rw [if_pos reached]
  exact congrArg Done.state (commit_undenied alone acts)

theorem masksAt_pctl (p : Nat) : masksAt (256 * p + 8) = (pageDef p).map fun d => headerMasks d 8 := by
  have page : (256 * p + 8) / 256 = p := by omega
  have offset : (256 * p + 8) % 256 = 8 := by omega
  unfold masksAt
  rw [page, offset]
  cases pageDef p <;> rfl

theorem kind_headerMasks_pctl (d : PageDef) : (headerMasks d 8).kind = .plain := by
  unfold headerMasks
  split <;> rfl

theorem isSel_of_plain {m : Masks} (h : masksAt a = some m) (hk : m.kind = .plain) : isSel a = false := by
  obtain ⟨rw', w1c, wo, kind⟩ := m
  subst hk
  unfold isSel
  rw [h]

theorem isSel_of_masksAt_none (h : masksAt a = none) : isSel a = false := by
  unfold isSel
  rw [h]

/-- The control register of every page stands alone. -/
theorem standsAlone_pctl (p : Nat) : standsAlone (256 * p + 8) = true := by
  have offset : (256 * p + 8) % 256 = 8 := by omega
  refine standsAlone_iff.mpr ⟨?_, by rw [offset]; exact Bool.and_false _⟩
  have masks := masksAt_pctl p
  cases hd : pageDef p with
  | none => exact isSel_of_masksAt_none (by rw [masks, hd]; rfl)
  | some d => exact isSel_of_plain (by rw [masks, hd]; rfl) (kind_headerMasks_pctl d)

theorem standsAlone_vsens (hn : n < 3) : standsAlone (A.PWR_VSENS n) = true :=
  (by decide : ∀ n < 3, standsAlone (A.PWR_VSENS n) = true) n hn

theorem standsAlone_fire (b : Bool) : standsAlone (A.ROS_FIRE (if b then 1 else 0)) = true := by
  cases b <;> decide

theorem standsAlone_iflg (b : Bool) : standsAlone (A.ROS_IFLG (if b then 1 else 0)) = true := by
  cases b <;> decide

/-- A command whose step is one such write. -/
theorem next_of_lets {o : Host.Outcome State Fault Refusal} (ha : standsAlone a = true) (h : s.lets rq a v x)
    (e : o = .next (s.writeVia rq [(a, v)])) : o = .next (State.effects s rq [(a, x)] (s.storeAll rq [(a, x)])) :=
  e.trans (congrArg Host.Outcome.next (writeVia_of_lets ha h))

theorem exec_vsensSwitchOn (hn : n < 3) :
    exec (.vsensSwitchOn rq n) s = .next (s.writeVia rq [s.withField (F.PWR_VSENS_EN n) 1]) :=
  congrArg Host.Outcome.next (if_pos (decide_eq_true hn))

end

/-- Settles O32: each of the commands makes one write, to a register that stands alone in its commit, so what the checks let
act is stored as it is, and its effects follow. -/
theorem commitsThatAreCommands : Obligations.CommitsThatAreCommands := by
  unfold Obligations.CommitsThatAreCommands
  intro does s rq
  refine ⟨?vhostOff, ?vhostOn, ?vsens, ?datapath, ?tenant, ?full, ?srst, ?en, ?kick, ?sleep, ?pulse, ?session, ?flush, ?lanes,
    ?fire, ?iflg⟩
  case vhostOff => exact fun x h => next_of_lets (by decide) h rfl
  case vhostOn => exact fun x h => next_of_lets (by decide) h rfl
  case vsens => exact fun n hn x h => next_of_lets (standsAlone_vsens hn) h (exec_vsensSwitchOn hn)
  case datapath => exact fun c x h => next_of_lets (by decide) h rfl
  case tenant => exact fun t c x h => next_of_lets (by decide) h rfl
  case full => exact fun c x h => next_of_lets (by decide) h rfl
  case srst => exact fun p x h => next_of_lets (standsAlone_pctl p) h rfl
  case en => exact fun p b x h => next_of_lets (standsAlone_pctl p) h rfl
  case kick => exact fun n x h => next_of_lets (by decide) h rfl
  case sleep => exact fun n x h => next_of_lets (by decide) h rfl
  case pulse => exact fun x h => next_of_lets (by decide) h rfl
  case session => exact fun x h => next_of_lets (by decide) h rfl
  case flush => exact fun q c x h => next_of_lets (by decide) h rfl
  case lanes => exact fun q c x h => next_of_lets (by decide) h rfl
  case fire => exact fun b w x h => next_of_lets (standsAlone_fire b) h rfl
  case iflg => exact fun b w x h => next_of_lets (standsAlone_iflg b) h rfl

end Sys2Proof.Machine

/-! A FULL reset and its end (R94-R96, R99, R479). -/

namespace Sys2Proof.Machine

section
variable {s : State} {c : Cause} {n : Nat}

/-! ## What a FULL reset leaves of the retention domain (R96) -/

/-- A read of a map whose values went through `f` and whose empty values were taken out. -/
theorem mapGet_map_filter_nonempty {α β : Type} [DecidableEq α] {f : List α → List β} (hf : f [] = [])
    {m : Map (List α)} {lo k : Nat} (h : mapWfFrom (fun _ => []) lo m = true) :
    mapGet (fun _ => []) ((m.map fun x => (x.1, f x.2)).filter fun x => !x.2.isEmpty) k = f (mapGet (fun _ => []) m k) := by
  induction m generalizing lo with
  | nil => exact hf.symm
  | cons e t ih =>
    simp only [mapWfFrom, Bool.and_eq_true, decide_eq_true_eq] at h
    obtain ⟨⟨_, _⟩, rest⟩ := h
    have tail := ih rest
    rw [List.map_cons, List.filter_cons, mapGet]
    by_cases hk : k = e.1
    · have below : mapGet (fun _ => []) t k = [] := mapGet_below rest (by omega)
      rw [below, hf] at tail
      cases hv : f e.2 with
      | nil => simp [hk, hv, hk ▸ tail]
      | cons x l => simp [mapGet, hk, hv]
    · cases hv : f e.2 with
      | nil => simp [hk, tail]
      | cons x l => simp [mapGet, hk, tail]

theorem closedOf_fullReset_of_kept (hs : s.mapsWf = true) (hk : s.keptDomain = true) (k : Nat) :
    (fullReset c n s).closedOf k = (s.closedOf k).filter fun b => b.done := by
  have kept : (fullReset c n s).closed =
      (s.closed.map fun x => (x.1, x.2.filter fun b => b.done)).filter fun x => !x.2.isEmpty := if_pos hk
  rw [State.closedOf, kept]
  exact mapGet_map_filter_nonempty rfl (mapsWf_closed hs)

theorem closedOf_fullReset_of_lost (hk : s.keptDomain = false) (k : Nat) : (fullReset c n s).closedOf k = [] := by
  have lost : (fullReset c n s).closed = [] := if_neg (by simp [hk])
  rw [State.closedOf, lost]
  rfl

/-! ## The end of reset (R99, R460) -/

/-- NRST is high, the holding time is over, and the condition of the HOLD has ended. -/
theorem leaveReset_of_mayBoot (h : s.mayBoot = true) : s.leaveReset = s.modSys fun y => { y with phase := .booting } := if_pos h

theorem leaveReset_of_held (h : s.mayBoot = false) : s.leaveReset = s := if_neg (by simp [h])

theorem phase_leaveReset (h : s.sys.phase = .inReset) :
    s.leaveReset.sys.phase = if s.mayBoot then .booting else .inReset := by
  cases hb : s.mayBoot with
  | true => rw [leaveReset_of_mayBoot hb]; rfl
  | false => rw [leaveReset_of_held hb]; exact h

theorem tam_leaveReset : s.leaveReset.tam = s.tam := ite_ind (Q := fun t : State => t.tam = s.tam) rfl rfl

theorem reg_leaveReset {a : Nat} : s.leaveReset.reg a = s.reg a := ite_ind (Q := fun t : State => t.reg a = s.reg a) rfl rfl

theorem bit_leaveReset {f : Fld} {k : Nat} : s.leaveReset.bit f k = s.bit f k := by
  rw [State.bit, State.bit, State.fld, State.fld, reg_leaveReset]

/-- A change behind the power registers may change the power state and nothing beside. -/
theorem changesOnly_mode (y : Sys) : changesOnly [.mode] s { s with sys := y } := by
  intro p hp
  cases p
  case mode => exact absurd hp (by decide)
  case sys => exact absurd hp (by decide)
  case reset => exact trivial
  all_goals rfl

theorem completes_nrstRelease (hp : s.sys.phase = .inReset) (ht : s.sys.holdTime = false) (hh : s.sys.holding = 0) :
    completes .nrstRelease s fun t => t.sys.phase = .booting ∧ t.sys.nrstLow = false ∧ changesOnly [.mode] s t := by
  have free : (s.modSys fun y => { y with nrstLow := false }).mayBoot = true := by
    simp [State.mayBoot, State.modSys, hp, ht, hh, tcTHERMAL, tcSUPPLY]
  exact ⟨_, congrArg Host.Outcome.next (leaveReset_of_mayBoot free), rfl, rfl, changesOnly_mode _⟩

theorem completes_nrstRelease_held (hp : s.sys.phase = .inReset) (ht : s.sys.holdTime = true) :
    completes .nrstRelease s fun t => t.sys.phase = .inReset := by
  have held : (s.modSys fun y => { y with nrstLow := false }).mayBoot = false := by simp [State.mayBoot, State.modSys, ht]
  exact ⟨_, congrArg Host.Outcome.next (leaveReset_of_held held), hp⟩

theorem holdTime_leaveReset : s.leaveReset.sys.holdTime = s.sys.holdTime :=
  ite_ind (Q := fun t : State => t.sys.holdTime = s.sys.holdTime) rfl rfl

/-- The holding time is over. -/
def State.holdOver (s : State) : State := s.modSys fun y => { y with holdTime := false }

theorem execHoldEnd_eq : execHoldEnd s =
    .next (s.when (decide (s.sys.phase = .inReset) && s.sys.holdTime) fun s => s.holdOver.leaveReset) := rfl

theorem phase_holdOver : s.holdOver.sys.phase = s.sys.phase := rfl

theorem completes_holdEnd (hp : s.sys.phase = .inReset) (ht : s.sys.holdTime = true) : completes .holdEnd s fun t =>
    t.sys.holdTime = false ∧ t.sys.phase = (if s.sys.nrstLow || (s.sys.holding == 2 && s.tam.cross) ||
      (s.sys.holding == 5 && (s.tam.vcoreLow || s.tam.vstoreHigh)) then .inReset else .booting) := by
  have sources : s.holdOver.mayBoot = !(s.sys.nrstLow || (s.sys.holding == 2 && s.tam.cross) ||
      (s.sys.holding == 5 && (s.tam.vcoreLow || s.tam.vstoreHigh))) := by
    simp [State.mayBoot, State.holdOver, State.modSys, hp, tcTHERMAL, tcSUPPLY]
  refine completes_when execHoldEnd_eq (by simp [hp, ht]) fun _ => ⟨holdTime_leaveReset, ?_⟩
  rw [phase_leaveReset (phase_holdOver.trans hp), sources]
  cases s.sys.nrstLow || (s.sys.holding == 2 && s.tam.cross) ||
    (s.sys.holding == 5 && (s.tam.vcoreLow || s.tam.vstoreHigh)) <;> rfl

/-- The comparator, as it acts in reset (R451). -/
theorem exec_thermalComparator_inReset {b : Bool} (hp : s.sys.phase = .inReset) :
    exec (.thermalComparator b) s = .next (s.modTam fun t => { t with cross := b }).leaveReset := by
  have acts : (decide (s.sys.phase = .stow) || decide (s.sys.phase = .inReset)) = true := by simp [hp]
  have reset : ¬ s.sys.phase = .stow := by simp [hp]
  exact congrArg Host.Outcome.next ((if_pos acts).trans (if_neg reset))

theorem completes_thermalComparator_back (hp : s.sys.phase = .inReset) (ht : s.sys.holdTime = false)
    (hn : s.sys.nrstLow = false) (hh : s.sys.holding = 2) : completes (.thermalComparator false) s fun t =>
      t.sys.phase = .booting ∧ t.tam.cross = false := by
  have free : (s.modTam fun t => { t with cross := false }).mayBoot = true := by
    simp [State.mayBoot, State.modTam, hp, ht, hn, hh, tcTHERMAL, tcSUPPLY]
  refine ⟨_, exec_thermalComparator_inReset hp, ?_, congrArg Tam.cross tam_leaveReset⟩
  rw [leaveReset_of_mayBoot free]
  rfl

theorem completes_thermalComparator_beyond (hp : s.sys.phase = .inReset) : completes (.thermalComparator true) s fun t =>
    t.tam.cross = true ∧ (s.sys.holding = 2 → t.sys.phase = .inReset) := by
  refine ⟨_, exec_thermalComparator_inReset hp, congrArg Tam.cross tam_leaveReset, fun hh => ?_⟩
  have held : (s.modTam fun t => { t with cross := true }).mayBoot = false := by
    simp [State.mayBoot, State.modTam, hh, tcTHERMAL]
  rw [leaveReset_of_held held]
  exact hp

theorem completes_thermalComparator_stow (hp : s.sys.phase = .stow) : completes (.thermalComparator true) s fun t =>
    t.sys.wakes = s.sys.wakes ||| 2 ^ 16 := by
  have acts : (decide (s.sys.phase = .stow) || decide (s.sys.phase = .inReset)) = true := by simp [hp]
  exact ⟨_, congrArg Host.Outcome.next ((if_pos acts).trans (if_pos hp)), rfl⟩

/-- The supply condition has ended, in the detectors and in the class. -/
def State.supplyOver (s : State) : State :=
  (s.modTam fun t => { t with vstoreHigh := false, vcoreLow := false }).condEnd tcSUPPLY

theorem sys_supplyOver : s.supplyOver.sys = s.sys := ite_ind (Q := fun t : State => t.sys = s.sys) rfl rfl

theorem tam_supplyOver : s.supplyOver.tam = { s.tam with vstoreHigh := false, vcoreLow := false } :=
  ite_ind (Q := fun t : State => t.tam = { s.tam with vstoreHigh := false, vcoreLow := false }) rfl rfl

/-- A flag that is cleared reads 0. -/
theorem bit_clrBit {f : Fld} {k : Nat} (hs : s.regsWf = true) (hf : f.lo + f.w ≤ 32) : (s.clrBit f k).bit f k = false := by
  unfold State.clrBit
  refine ite_with (Q := fun t : State => t.bit f k = false) (fun hb => ?_) fun hb => by simpa using hb
  have set : (s.fld f).testBit k = true := hb
  have low : s.fld f - 2 ^ k < 2 ^ f.w := lt_of_le_of_lt (Nat.sub_le _ _) fld_lt
  rw [State.bit, fld_setFld_of_lt hs hf low, Nat.testBit_eq_decide_div_mod_eq, decide_eq_false_iff_not]
  rw [Nat.testBit_eq_decide_div_mod_eq, decide_eq_true_eq] at set
  have less : (s.fld f - 2 ^ k) / 2 ^ k = s.fld f / 2 ^ k - 1 := by simpa using Nat.sub_mul_div (s.fld f) (2 ^ k) 1
  omega

theorem completes_supplyConditionEnd_boots (hp : s.sys.phase = .inReset) (ht : s.sys.holdTime = false)
    (hn : s.sys.nrstLow = false) (hh : s.sys.holding = 5) : completes .supplyConditionEnd s fun t => t.sys.phase = .booting := by
  have free : s.supplyOver.mayBoot = true := by
    simp [State.mayBoot, sys_supplyOver, tam_supplyOver, hp, ht, hn, hh, tcTHERMAL, tcSUPPLY]
  exact ⟨_, congrArg Host.Outcome.next (leaveReset_of_mayBoot free), rfl⟩

theorem completes_supplyConditionEnd (hs : s.regsWf = true) : completes .supplyConditionEnd s fun t =>
    t.tam.vcoreLow = false ∧ t.tam.vstoreHigh = false ∧ t.bit F.TAM_LATCH_COND 4 = false := by
  have tam : s.supplyOver.leaveReset.tam = { s.tam with vstoreHigh := false, vcoreLow := false } :=
    tam_leaveReset.trans tam_supplyOver
  refine ⟨s.supplyOver.leaveReset, rfl, by rw [tam], by rw [tam], ?_⟩
  rw [bit_leaveReset]
  exact bit_clrBit (s := s.modTam _) hs (by decide)

end

/-- Settles O8: a FULL reset is `State.reset` but for the parts that it names; the closed bundles that stand are those of
the retention domain. -/
theorem fullResetLeaves : Obligations.FullResetLeaves := by
  unfold Obligations.FullResetLeaves
  intro c h s t
  refine ⟨fun _ => rfl, ht_fullReset c h s, fun _ => rfl, fun _ _ => rfl, fun _ => rfl, fun _ => rfl, fun _ => rfl, fun _ => rfl,
    rfl, rfl, rfl, rfl, rfl, modeWf_fullReset c h, ?brownOut, ?held, closedOf_fullReset_of_kept, closedOf_fullReset_of_lost⟩
  case brownOut => rintro rfl; rfl
  case held => rintro (rfl | rfl) <;> rfl

/-- Settles O11: each of the commands ends one source and then begins boot where no source is left. -/
theorem resetEndsWhenItsSourcesEnd : Obligations.ResetEndsWhenItsSourcesEnd := by
  unfold Obligations.ResetEndsWhenItsSourcesEnd
  exact ⟨fun _ => completes_nrstRelease, fun _ => completes_nrstRelease_held, fun _ => completes_holdEnd,
    fun _ => completes_thermalComparator_back, fun _ => completes_thermalComparator_beyond,
    fun _ => completes_thermalComparator_stow, fun _ => completes_supplyConditionEnd_boots,
    fun _ hs => completes_supplyConditionEnd (mapsWf_regs hs)⟩

end Sys2Proof.Machine

/-! What an interrupt leaves as it is (R104, R134, R135): its routes write the host wake and its watchdog, the Rose, the queues
and the record counter of a tenant. -/

namespace Sys2Proof.Machine

section
variable {P : State → Prop} {s : State} {f g : Fld} {l : List Part} {p k v n code : Nat}

/-- `P` survives what the route of an interrupt does, and no more: a suspension of the watchdog ends and its count restarts,
a tenant's record counter moves on. -/
structure RouteSafe (P : State → Prop) : Prop where
  parts : Closed [.reg A.SYS_HWAKE, .reg 0x2048, .rose, .queues, .pendg] P
  resumed : ∀ s : State, P s → P { s.setFld F.SYS_WDOG_STAT_SUSPENDED 0 with sys := { s.sys with wdog := 0 } }
  recorded : ∀ s t (u : Ten → Nat), P s → P (s.modTen t fun x => { x with recCnt := u x })

theorem wakeHost_safe (hR : RouteSafe P) (hf : f.addr = A.SYS_HWAKE) (hs : P s) : P (s.wakeHost f) := by
  have woken : P (s.setFld f 1) := setFld_ind (hf ▸ hR.parts.mono (by decide)) hs
  exact ite_ind woken (hR.resumed _ woken)

theorem record_safe {t i ty page ht : Nat} {payload : List Byte} (hR : RouteSafe P) (hs : P s) :
    P (s.record t i ty page ht payload) :=
  when_ind (fun _ h => intake_ind (hR.parts.mono (by decide)) (hR.recorded _ _ _ h)) hs

theorem routeLine_safe (hR : RouteSafe P) (hs : P s) : P (s.routeLine p) := by
  unfold State.routeLine
  extract_lets woken presented
  have hwoken : P woken := ite_ind (wakeHost_safe hR rfl hs) hs
  have hpresented : P presented := by
    refine ite_ind ?_ hwoken
    split
    · exact hwoken
    · exact presentAt_ind (hR.parts.mono (by decide)) hwoken
  exact ite_ind (record_safe hR hpresented) hpresented

theorem raise_safe (hR : RouteSafe P) (hp : ∀ s w, P s → P (s.setReg (256 * p + 0x18) w)) (hs : P s) : P (s.raise p k) :=
  have latched : P (s.setBit (F.PIRQ p) k) := hp _ _ hs
  ite_ind (routeLine_safe hR latched) latched

/-- An interrupt of a page from 0x06 on. -/
theorem raise_safe_above (hR : RouteSafe P) (hA : ClosedAbove [] P) (hp : 6 ≤ p) (hs : P s) : P (s.raise p k) :=
  raise_safe hR (fun s w => hA.high s _ w (by omega)) hs

/-! ## Properties that survive an interrupt -/

theorem routeSafe_reads (hg : avoids [.reg A.SYS_HWAKE, .reg 0x2048] (.reg g.addr) = true)
    (ha : ApartFrom F.SYS_WDOG_STAT_SUSPENDED g) : RouteSafe (Reads g v) where
  parts := ⟨fun p hp => by
    have reg : Closed [.reg A.SYS_HWAKE, .reg 0x2048] (Reads g v) := closed_reads hg (by decide)
    have rest : Closed [.rose, .queues, .pendg] (Reads g v) := closed_reads rfl (by decide)
    exact (reg.append rest).part p hp⟩
  resumed _ h := h.setFld ha
  recorded _ _ _ h := h

/-- What depends on the registers behind the power pages, but not on the watchdog's count. -/
theorem routeSafe_sys {Q : Sys → Prop} (hQ : ∀ y : Sys, Q y → Q { y with wdog := 0 }) : RouteSafe fun s => Q s.sys where
  parts := closed_of (p := .sys) (by decide) fun _ _ (he : _ = _) h => he ▸ h
  resumed s h := hQ s.sys h
  recorded _ _ _ h := h

theorem closedAbove_reads (hg : g.addr < 0x600) (ha : avoids l (.reg g.addr) = true) (hl : needsAll l runParts = true) :
    ClosedAbove l (Reads g v) :=
  closedAbove_and (closedAbove_regsWf hl) (closedAbove_fld hg ha)

theorem closedAbove_sys {Q : Sys → Prop} (ha : avoids l .sys = true) : ClosedAbove l fun s => Q s.sys :=
  ⟨closed_of ha fun _ _ (he : _ = _) h => he ▸ h, fun _ _ _ _ h => h⟩

end
end Sys2Proof.Machine

/-! The host watchdog, the host's session and its reset pulse (R103-R106). -/

namespace Sys2Proof.Machine

section
variable {P : State → Prop} {s : State} {f g : Fld} {rq : Requester} {p q k v n code : Nat}

/-! ## Kicks (R104) -/

theorem kick_of_other (hh : reqHostSide rq = true) (hv : v % 65536 ≠ s.fld F.SYS_SESSION_NUM) :
    s.kick rq v = s.addSat F.SYS_WDOG_STAT_BAD_KICK 1 := by
  simp [State.kick, hh, hv]

theorem kick_of_session (hh : reqHostSide rq = true) (hv : v % 65536 = s.fld F.SYS_SESSION_NUM) (hb : v.testBit 16 = false) :
    s.kick rq v = s.modSys fun y => { y with wdog := 0 } := by
  simp [State.kick, hh, hv, hb]

theorem kick_of_sleep (hh : reqHostSide rq = true) (hv : v % 65536 = s.fld F.SYS_SESSION_NUM) (hb : v.testBit 16 = true) :
    s.kick rq v = s.setFld F.SYS_WDOG_STAT_SUSPENDED 1 := by
  simp [State.kick, hh, hv, hb]

theorem wdogRuns_of_suspended (h : s.fld F.SYS_WDOG_STAT_SUSPENDED = 1) : s.wdogRuns = false := by
  simp [State.wdogRuns, State.on, h]

/-- HWAKE rises while the watchdog is suspended. -/
theorem wakeHost_of_suspended (hw : s.hwake = false) (ho : s.on F.SYS_WDOG_STAT_SUSPENDED = true) : s.wakeHost f =
    { (s.setFld f 1).setFld F.SYS_WDOG_STAT_SUSPENDED 0 with sys := { (s.setFld f 1).sys with wdog := 0 } } :=
  if_neg (by simp [hw, ho])

/-- A counter after a count. -/
theorem fld_addSat (hs : s.regsWf = true) (hf : f.lo + f.w ≤ 32) : (s.addSat f n).fld f = min (s.fld f + n) (2 ^ f.w - 1) :=
  fld_setFld_of_lt hs hf (lt_of_le_of_lt (Nat.min_le_right _ _) (Nat.sub_lt (Nat.two_pow_pos _) (by decide)))

end

/-- Settles O31: a kick is one of three updates, by its session and its SLEEP; the fourth clause is HWAKE's rise. -/
theorem watchdogKicks : Obligations.WatchdogKicks := by
  unfold Obligations.WatchdogKicks
  refine ⟨?restarts, ?sleeps, ?counts, ?wakes⟩
  case restarts =>
    intro s rq v hh hv hb
    rw [kick_of_session hh hv hb]
    exact ⟨rfl, modSys_ind (closed_changesOnly (by decide)) rfl rfl (changesOnly_refl s)⟩
  case sleeps =>
    intro s rq v hs hh hv hb
    have suspended : (s.kick rq v).fld F.SYS_WDOG_STAT_SUSPENDED = 1 := by
      rw [kick_of_sleep hh hv hb]
      exact fld_setFld_of_lt (mapsWf_regs hs) (by decide) (by decide)
    exact ⟨suspended, wdogRuns_of_suspended suspended⟩
  case counts =>
    intro s rq v hs hh hv
    rw [kick_of_other hh hv]
    exact ⟨fld_addSat (mapsWf_regs hs) (by decide), addSat_ind (closed_changesOnly (by decide)) (changesOnly_refl s)⟩
  case wakes =>
    intro s f hs hf hw ho
    rw [wakeHost_of_suspended hw ho]
    exact ⟨fld_setFld_of_lt (regsWf_setFld (mapsWf_regs hs)) (by decide) (by decide), rfl⟩

section
variable {P : State → Prop} {s : State} {f g : Fld} {rq : Requester} {p q k v n code : Nat}

/-! ## A session's end (R106, R185, R439) -/

/-- What the end of a session may change beside registers from page 0x06 on and what an interrupt does. -/
def sessionParts : List Part := [.locks, .streams, .tx, .asm]

theorem breakHostLocks_above (hA : ClosedAbove sessionParts P) (hs : P s) : P s.breakHostLocks :=
  breakHostLocks_ind (hA.closed (by decide)) hs

theorem abortTx_above (hR : RouteSafe P) (hA : ClosedAbove sessionParts P) (hs : P s) : P (s.abortTx p code) := by
  unfold State.abortTx
  split
  · exact hs
  · extract_lets rewound ended
    have hrewound : P rewound := forEach_ind (fun _ _ => hA.setFld (Nat.le_add_right_of_le (by decide))) hs
    have hended : P ended := showEnd_ind (hA.closed (by decide)) (dropTx_ind (hA.closed (by decide)) hrewound)
    have page : 6 ≤ txPage p := by
      unfold txPage
      split <;> decide
    exact raise_safe_above hR (hA.mono (by decide)) page
      (ite_ind (hA.setFld (by decide) hended) (hA.setFld (by decide) hended))

theorem dropAssemblies_above (hA : ClosedAbove sessionParts P) (hs : P s) : P s.dropAssemblies :=
  forEach_ind (fun _ _ h => ite_ind h (hA.setFld (Nat.le_add_right_of_le (by decide))
    (hA.setFld (Nat.le_add_right_of_le (by decide)) (setAsm_ind (hA.closed (by decide)) h)))) hs

theorem mapsWf_setFld (hs : s.mapsWf = true) : (s.setFld f v).mapsWf = true := closed_mapsWf.part .regs (by decide) s _ _ hs

theorem closed_txOf {l : List Part} {x : Option Tx} (h : avoids l .tx = true) : Closed l fun t => t.txOf q = x :=
  closed_of h fun _ _ (he : _ = _) ht => by rwa [State.txOf, he]

theorem txOf_abortTx (hs : s.mapsWf = true) : (s.abortTx p code).txOf q = if q = p then none else s.txOf q := by
  unfold State.abortTx
  split
  next hn => exact (ite_with (Q := (s.txOf q = ·)) (fun e => e ▸ hn) fun _ => rfl)
  next x hx =>
    extract_lets rewound ended
    have wf : rewound.mapsWf = true := forEach_ind (Q := fun t : State => t.mapsWf = true) (fun _ _ => mapsWf_setFld) hs
    have same : rewound.txOf q = s.txOf q := forEach_ind (Q := fun t : State => t.txOf q = s.txOf q) (fun _ _ h => h) rfl
    have dropped : (rewound.dropTx p x).txOf q = if q = p then none else s.txOf q := by
      refine streamsEnd_ind (closed_txOf rfl) ?_
      by_cases e : q = p
      · rw [if_pos e, e]
        exact mapGet_mapSet (mapsWf_tx wf)
      · rw [if_neg e, ← same]
        exact mapGet_mapSet_ne e
    have hended : ended.txOf q = if q = p then none else s.txOf q := showEnd_ind (closed_txOf rfl) dropped
    exact raise_ind (P := fun t : State => t.txOf q = if q = p then none else s.txOf q) (closed_txOf rfl)
      (ite_ind (Q := fun t : State => t.txOf q = if q = p then none else s.txOf q) hended hended)

/-- What the call for one element brings about, and every other call keeps, stands after all of them. -/
theorem forEach_ind_at {α σ : Type} {I Q : σ → Prop} {l : List α} {f : α → σ → σ} {x : α} {s : σ} (hx : x ∈ l)
    (act : ∀ s, I s → Q (f x s)) (keep : ∀ y s, I s → I (f y s)) (hold : ∀ y s, Q s → Q (f y s)) (h : I s) :
    Q (forEach l f s) := by
  induction l generalizing s with
  | nil => exact absurd hx List.not_mem_nil
  | cons y t ih =>
    rcases List.mem_cons.mp hx with rfl | ht
    · exact forEach_ind (s := f x s) hold (act s h)
    · exact ih ht (keep y s h)

theorem asmOf_setFld : (s.setFld f v).asmOf n = s.asmOf n := rfl

/-- The assembly of window `k` is discarded, where it holds a byte. -/
def State.dropAssembly (s : State) (k : Nat) : State :=
  if (s.asmOf k).bytes.isEmpty then s
  else ((s.setAsm k asm0).setFld (F.TN_CSTAT_STATE k) 0).setFld (F.TN_CSTAT_COUNT k) 0

theorem dropAssemblies_eq : s.dropAssemblies = forEach (List.range 8) (fun k s => s.dropAssembly k) s := rfl

theorem mapsWf_dropAssembly (hs : s.mapsWf = true) : (s.dropAssembly k).mapsWf = true :=
  ite_ind (Q := fun t : State => t.mapsWf = true) hs
    (mapsWf_setFld (mapsWf_setFld (setAsm_ind (closed_mapsWf.mono (by decide)) hs)))

theorem bytes_dropAssembly (hs : s.mapsWf = true) : ((s.dropAssembly k).asmOf k).bytes = [] := by
  unfold State.dropAssembly
  split
  next he => exact List.isEmpty_iff.mp he
  next =>
    rw [asmOf_setFld, asmOf_setFld]
    exact congrArg Assembly.bytes (mapGet_mapSet (mapsWf_asm hs))

theorem asmOf_dropAssembly_ne (hn : n ≠ k) : (s.dropAssembly k).asmOf n = s.asmOf n := by
  unfold State.dropAssembly
  split
  next => rfl
  next =>
    rw [asmOf_setFld, asmOf_setFld]
    exact mapGet_mapSet_ne hn

theorem bytes_dropAssemblies (hs : s.mapsWf = true) (hn : n < 8) : (s.dropAssemblies.asmOf n).bytes = [] := by
  have dropped : s.dropAssemblies.mapsWf = true ∧ (s.dropAssemblies.asmOf n).bytes = [] := by
    rw [dropAssemblies_eq]
    refine forEach_ind_at (I := fun t : State => t.mapsWf = true)
      (Q := fun t : State => t.mapsWf = true ∧ (t.asmOf n).bytes = []) (List.mem_range.mpr hn)
      (fun t ht => ⟨mapsWf_dropAssembly ht, bytes_dropAssembly ht⟩) (fun k t => mapsWf_dropAssembly)
      (fun k t ⟨wf, empty⟩ => ⟨mapsWf_dropAssembly wf, ?_⟩) hs
    by_cases e : n = k
    · exact e ▸ bytes_dropAssembly wf
    · rwa [asmOf_dropAssembly_ne e]
  exact dropped.2

/-! ## The reset pulse (R105) -/

/-- HRST_N is low, and the new session has its number. -/
def State.pulseBegun (s : State) : State :=
  { s.setFld F.SYS_HREL_RELEASED 0 with sys := { (s.setFld F.SYS_HREL_RELEASED 0).sys with pulse := true } }.addWrap
    F.SYS_SESSION_NUM 1

/-- A pulse, while the host runs, is the end of its session. -/
theorem hostPulse_of_released (ho : s.on F.SYS_HREL_RELEASED = true) : s.hostPulse =
    ((s.pulseBegun.breakHostLocks.abortTx 0 3).abortTx 1 3).dropAssemblies := if_pos ho

theorem hostPulse_above (hR : RouteSafe P) (hA : ClosedAbove sessionParts P) (ho : s.on F.SYS_HREL_RELEASED = true)
    (hs : P s.pulseBegun) : P s.hostPulse := by
  rw [hostPulse_of_released ho]
  exact dropAssemblies_above hA (abortTx_above hR hA (abortTx_above hR hA (breakHostLocks_above hA hs)))

theorem reads_pulseBegun (h : Reads g v s) (hh : ApartFrom F.SYS_HREL_RELEASED g) (hn : ApartFrom F.SYS_SESSION_NUM g) :
    Reads g v s.pulseBegun := Reads.setFld (h.setFld hh) hn

theorem released_pulseBegun (hs : s.regsWf = true) : Reads F.SYS_HREL_RELEASED 0 s.pulseBegun :=
  Reads.setFld (reads_setFld hs (by decide) (by decide)) (by decide)

theorem session_pulseBegun (hs : s.regsWf = true) :
    Reads F.SYS_SESSION_NUM ((s.fld F.SYS_SESSION_NUM + 1) % 65536) s.pulseBegun := by
  have same : (s.setFld F.SYS_HREL_RELEASED 0).fld F.SYS_SESSION_NUM = s.fld F.SYS_SESSION_NUM := fld_setFld_ne (by decide)
  refine ⟨regsWf_setFld (regsWf_setFld hs), ?_⟩
  exact (fld_setFld (regsWf_setFld hs) (by decide)).trans (by rw [← same]; rfl)

/-- A field of the host's registers that the end of a session leaves. -/
theorem reads_hostPulse (hg : g.addr < 0x600) (ha : avoids [.reg A.SYS_HWAKE, .reg 0x2048] (.reg g.addr) = true)
    (hw : ApartFrom F.SYS_WDOG_STAT_SUSPENDED g) (hl : avoids sessionParts (.reg g.addr) = true)
    (ho : s.on F.SYS_HREL_RELEASED = true) (h : Reads g v s.pulseBegun) : Reads g v s.hostPulse :=
  hostPulse_above (routeSafe_reads ha hw) (closedAbove_reads hg hl (by decide)) ho h

theorem pulse_hostPulse (ho : s.on F.SYS_HREL_RELEASED = true) : s.hostPulse.sys.pulse = true :=
  hostPulse_above (P := fun t => t.sys.pulse = true) (routeSafe_sys (Q := fun y => y.pulse = true) fun _ h => h)
    (closedAbove_sys (Q := fun y => y.pulse = true) (by decide)) ho rfl

theorem mapsWf_hostPulse (hs : s.mapsWf = true) : s.hostPulse.mapsWf = true := hostPulse_ind (closed_mapsWf.mono (by decide)) hs

/-- The maps keep their form while the pulse begins and the host loses its locks. -/
theorem mapsWf_pulseBegun (hs : s.mapsWf = true) : s.pulseBegun.breakHostLocks.mapsWf = true := by
  have low : (s.setFld F.SYS_HREL_RELEASED 0).mapsWf = true := mapsWf_setFld hs
  have pulsed : State.mapsWf { s.setFld F.SYS_HREL_RELEASED 0 with
      sys := { (s.setFld F.SYS_HREL_RELEASED 0).sys with pulse := true } } = true :=
    (closed_mapsWf.mono (l := [.sys]) (by decide)).part .sys (by decide) _ _ rfl rfl low
  have begun : s.pulseBegun.mapsWf = true := addWrap_ind (P := fun t : State => t.mapsWf = true)
    (closed_mapsWf.mono (by decide)) pulsed
  exact breakHostLocks_ind (P := fun t : State => t.mapsWf = true) (closed_mapsWf.mono (by decide)) begun

theorem mapsWf_abortTx (hs : s.mapsWf = true) : (s.abortTx p code).mapsWf = true :=
  abortTx_ind (P := fun t : State => t.mapsWf = true) (closed_mapsWf.mono (by decide)) hs

theorem txOf_hostPulse (hs : s.mapsWf = true) (ho : s.on F.SYS_HREL_RELEASED = true) (hp : p < 2) :
    s.hostPulse.txOf p = none := by
  have begun := mapsWf_pulseBegun hs
  have ended : ((s.pulseBegun.breakHostLocks.abortTx 0 3).abortTx 1 3).txOf p = none := by
    rw [txOf_abortTx (mapsWf_abortTx begun), txOf_abortTx begun]
    rcases (by omega : p = 0 ∨ p = 1) with rfl | rfl <;> rfl
  rw [hostPulse_of_released ho]
  exact dropAssemblies_ind (P := fun t : State => t.txOf p = none) (closed_txOf (by decide)) ended

theorem bytes_hostPulse (hs : s.mapsWf = true) (ho : s.on F.SYS_HREL_RELEASED = true) (hn : n < 8) :
    (s.hostPulse.asmOf n).bytes = [] := by
  have ended : ((s.pulseBegun.breakHostLocks.abortTx 0 3).abortTx 1 3).mapsWf = true :=
    mapsWf_abortTx (mapsWf_abortTx (mapsWf_pulseBegun hs))
  rw [hostPulse_of_released ho]
  exact bytes_dropAssemblies ended hn

/-! ## Expiry (R103) -/

/-- The expiry is counted, and the count of ticks begins again. -/
def State.expiryCounted (s : State) : State := (s.addSat F.SYS_WDOG_STAT_EXPIRED 1).modSys fun y => { y with wdog := 0 }

theorem execWdogExpire_eq : execWdogExpire s =
    .next (s.when (s.wdogRuns && decide (s.wdogTicks ≤ s.sys.wdog)) fun s => s.hostPulse.expiryCounted.raise 0x01 8) := rfl

theorem released_of_wdogRuns (h : s.wdogRuns = true) : s.on F.SYS_HREL_RELEASED = true := by
  simp only [State.wdogRuns, Bool.and_eq_true] at h
  obtain ⟨⟨_, released⟩, _⟩ := h
  exact released

theorem completes_wdogExpire (hs : s.mapsWf = true) (hr : s.wdogRuns = true) (ht : s.wdogTicks ≤ s.sys.wdog) :
    completes .wdogExpire s fun t =>
      t.fld F.SYS_HREL_RELEASED = 0 ∧ t.fld F.SYS_SESSION_NUM = (s.fld F.SYS_SESSION_NUM + 1) % 65536 ∧ t.sys.wdog = 0 ∧
      t.sys.pulse = true ∧ t.txOf 0 = none ∧ t.txOf 1 = none ∧ (∀ n, n < 8 → (t.asmOf n).bytes = []) ∧
      t.fld F.SYS_WDOG_STAT_EXPIRED = min (s.fld F.SYS_WDOG_STAT_EXPIRED + 1) 255 ∧ t.bit (F.PIRQ 0x01) 8 = true := by
  have ho := released_of_wdogRuns hr
  have hw : s.regsWf = true := mapsWf_regs hs
  have wf : s.hostPulse.regsWf = true := mapsWf_regs (mapsWf_hostPulse hs)
  have counted : s.hostPulse.expiryCounted.regsWf = true := regsWf_setFld wf
  refine completes_when execWdogExpire_eq (by simp [hr, ht]) fun _ => ⟨?released, ?session, ?wdog, ?pulse, ?tx0, ?tx1, ?asm,
    ?expired, bit_raise counted (by decide)⟩
  case released =>
    have low := reads_hostPulse (by decide) (by decide) (by decide) (by decide) ho (released_pulseBegun hw)
    exact (fld_raise_of_avoids (by decide)).trans ((fld_setFld_ne (by decide)).trans low.2)
  case session =>
    have next := reads_hostPulse (by decide) (by decide) (by decide) (by decide) ho (session_pulseBegun hw)
    exact (fld_raise_of_avoids (by decide)).trans ((fld_setFld_ne (by decide)).trans next.2)
  case wdog =>
    exact raise_safe (P := fun t => t.sys.wdog = 0) (routeSafe_sys (Q := fun y => y.wdog = 0) fun _ _ => rfl)
      (fun _ _ h => h) rfl
  case pulse =>
    exact raise_safe (P := fun t => t.sys.pulse = true) (routeSafe_sys (Q := fun y => y.pulse = true) fun _ h => h)
      (fun _ _ h => h) (pulse_hostPulse ho)
  case tx0 =>
    exact raise_ind (P := fun t : State => t.txOf 0 = none) (closed_txOf (by decide)) (txOf_hostPulse hs ho (by decide))
  case tx1 =>
    exact raise_ind (P := fun t : State => t.txOf 1 = none) (closed_txOf (by decide)) (txOf_hostPulse hs ho (by decide))
  case asm =>
    intro n hn
    exact raise_ind (P := fun t : State => (t.asmOf n).bytes = [])
      (closed_of (p := .asm) (by decide) fun _ _ (he : _ = _) h => by rwa [State.asmOf, he]) (bytes_hostPulse hs ho hn)
  case expired =>
    have stands : Reads F.SYS_WDOG_STAT_EXPIRED (s.fld F.SYS_WDOG_STAT_EXPIRED) s.hostPulse :=
      reads_hostPulse (by decide) (by decide) (by decide) (by decide) ho
        (reads_pulseBegun ⟨hw, rfl⟩ (by decide) (by decide))
    have more : Reads F.SYS_WDOG_STAT_EXPIRED (min (s.fld F.SYS_WDOG_STAT_EXPIRED + 1) 255) s.hostPulse.expiryCounted := by
      rw [← stands.2]
      exact ⟨counted, fld_addSat wf (by decide)⟩
    exact (raise_safe (routeSafe_reads (by decide) (by decide)) (fun t w h => ⟨regsWf_setReg h.1,
      (fld_setReg_ne (by decide)).trans h.2⟩) more).2

theorem completes_hostPulseEnd (hs : s.regsWf = true) (hp : s.powered = true) (hu : s.sys.pulse = true) :
    completes .hostPulseEnd s fun t => t.sys.pulse = false ∧ t.fld F.SYS_HREL_RELEASED =
      (if s.sys.vhostOn && !s.sys.vhostSettle then 1 else s.fld F.SYS_HREL_RELEASED) := by
  refine completes_when rfl (by simp [hp, hu]) fun _ => ?_
  split
  · exact ⟨rfl, fld_setFld_of_lt (s := s.modSys _) hs (by decide) (by decide)⟩
  · exact ⟨rfl, rfl⟩

/-! ## The restart after a DATAPATH or TENANT reset (R97) -/

theorem sameRun_iff {s₀ t : State} : s₀.sameRun t = true ↔
    t.sys.phase = s₀.sys.phase ∧ t.fld F.SYS_BOOT_STAGE = s₀.fld F.SYS_BOOT_STAGE := by
  simp [State.sameRun]

theorem closed_sameRun {l : List Part} {s₀ : State} (hm : avoids l .mode = true) (hb : avoids l (.reg A.SYS_BOOT) = true) :
    Closed l fun t => s₀.sameRun t = true := by
  have phase : Closed l fun t => t.sys.phase = s₀.sys.phase := closed_of hm fun _ _ he h => he.1.trans h
  have stage : Closed l fun t => t.fld F.SYS_BOOT_STAGE = s₀.fld F.SYS_BOOT_STAGE := closed_fld hb
  simpa only [sameRun_iff] using closed_and phase stage

theorem sameRun_refl : s.sameRun s = true := sameRun_iff.mpr ⟨rfl, rfl⟩

/-- The last step of the restart: the resets are taken back, and the descriptors that they stopped are armed again. -/
def State.resumedFrom (s : State) (hit : State → Nat → Bool) : State :=
  let taken := { s with rst := { s.rst with dp := none, busy := 0 } }
  (forEach (taken.liveDescs.filter (hit taken)) (fun d s => s.arm d true) taken).regear

theorem resumedFrom_ind {hit : State → Nat → Bool} (hR : Closed [.reg 0x248, .clk, .reg 0x418, .reg 0x154, .reg 0x178,
    .reg 0x2048, .sys, .rose, .queues, .pendg, .tens, .reg 0x478, .reg 0x474, .reg 0x25c, .loops, .reg 0x254, .reg 0x454,
    .descs] P) (hs : P { s with rst := { s.rst with dp := none, busy := 0 } }) : P (s.resumedFrom hit) :=
  regear_ind (hR.mono (by decide)) (forEach_ind (Q := P) (fun _ _ => arm_ind (hR.mono (by decide))) hs)

theorem completes_resetRestart (ha : s.awake = true) (hr : s.rst.dp.isSome = true ∨ s.rst.busy ≠ 0) :
    completes .resetRestart s fun t =>
      (s.sameRun t = true → t.rst.dp = none ∧ t.rst.busy = 0) ∧ (s.resetTens = [] → s.sameRun t = true) := by
  have due : (s.awake && (s.rst.dp.isSome || s.rst.busy != 0)) = true := by
    rcases hr with h | h <;> simp [ha, h]
  refine completes_when rfl due fun _ => ?_
  extract_lets dp tens hit missed charted
  change (s.sameRun (charted.when (s.sameRun charted) (·.resumedFrom hit)) = true → _) ∧ _
  have hmissed : s.sameRun missed = true :=
    forEach_ind (Q := fun t => s.sameRun t = true)
      (fun _ _ => countMissed_ind (P := fun t => s.sameRun t = true) (closed_sameRun (by decide) (by decide))) sameRun_refl
  cases hc : s.sameRun charted
  case false =>
    refine ⟨fun h => absurd h (by simp [State.when, hc]), fun h => ?_⟩
    have same : charted = missed := congrArg (fun l => forEach l _ missed) h
    exact absurd (same ▸ hmissed) (by simp [hc])
  case true =>
    refine ⟨fun _ => ?_, fun _ => ?_⟩
    · exact resumedFrom_ind (P := fun t => t.rst.dp = none ∧ t.rst.busy = 0)
        (closed_of (p := .rst) (by decide) fun _ _ (he : _ = _) h => he ▸ h) ⟨rfl, rfl⟩
    · exact resumedFrom_ind (P := fun t => s.sameRun t = true) (closed_sameRun (by decide) (by decide)) hc

end

/-- Settles O51: the pulse that an expiry begins ends a session, and what it has brought about stands through the interrupt
that follows; the restart takes the resets back only in the run in which it began. That HRST_N follows its rail at the end of
a pulse (log entry 21) is the model's choice. -/
theorem sessionsAndRestart : Obligations.SessionsAndRestart := by
  unfold Obligations.SessionsAndRestart
  refine ⟨fun s => completes_wdogExpire, fun s hs => completes_hostPulseEnd (mapsWf_regs hs), fun s => completes_resetRestart⟩

end Sys2Proof.Machine

/-! SYS_RST_CMD (R94, R97, R123). -/

namespace Sys2Proof.Machine

section
variable {s : State} {rq : Requester} {n v r t : Nat}

theorem dp_dpReset : (s.dpReset r).rst.dp.isSome = true := by
  unfold State.dpReset
  split
  next h => exact h
  next => rfl

theorem running_of_dp (h : s.rst.dp.isSome = true) : s.running = false := by
  obtain ⟨ht, e⟩ := Option.isSome_iff_exists.mp h
  simp [State.running, e]

theorem resetting_tenReset : (s.tenReset t r).resetting t = true := by
  unfold State.tenReset
  split
  next h => exact h
  next => simp [State.resetting]

theorem written_single {a : Nat} : written [(a, v)] a = [v] := by simp [written]

theorem resetsAfter_datapath (hv : v % 4 = 1) : State.resetsAfter rq [(A.SYS_RST_CMD, v)] s = s.dpReset (reqCode rq) := by
  simp [State.resetsAfter, written_single, hv]

theorem resetsAfter_tenant (hv : v % 4 = 2) :
    State.resetsAfter rq [(A.SYS_RST_CMD, v)] s = s.tenReset (v / 16 % 8) (reqCode rq) := by
  simp [State.resetsAfter, written_single, hv, forEach]

/-- A reset is the last of what the writes of a commit bring about. -/
theorem effects_eq_resetsAfter {s₀ : State} {l : List (Nat × Nat)} :
    ∃ u, State.effects s₀ rq l s = State.resetsAfter rq l u := ⟨_, rfl⟩

theorem bad_pageSeat {p : Nat} (h : s.pownBad.contains p = false) : (s.pageSeat p).bad = false := by
  simp only [State.pageSeat, h]
  rfl

theorem shutCause_of_whole {x : Seat} {a c : Nat} (h : x.bad = false) : shutCause x rq a c = none := by
  simp [shutCause, h]

theorem permitAt_rstCmd (hs : s.pownBad.contains 0x01 = false) (hv : v / 65536 % 65536 ≠ 0x5EED) :
    s.permitAt rq A.SYS_RST_CMD v = ⟨none, none⟩ := by
  have whole : shutCause (s.seat rq A.SYS_RST_CMD) rq A.SYS_RST_CMD dcWP = none := shutCause_of_whole (bad_pageSeat hs)
  have other : (v / 65536 % 65536 != 0x5EED) = true := bne_iff_ne.mpr hv
  unfold State.permitAt
  extract_lets p o x general one act
  refine (if_neg (show ¬(shutCause x rq A.SYS_RST_CMD dcWP).isSome = true by rw [whole]; decide)).trans ?_
  exact if_pos other

end

/-- Settles O35: of all that a commit does, the reset comes last, so it is in progress in the state that the command leaves;
the verdict looks at CONFIRM before every other check of the register. -/
theorem resetCommandsByRegister : Obligations.ResetCommandsByRegister := by
  unfold Obligations.ResetCommandsByRegister
  refine ⟨?datapath, ?tenant, fun s rq v => permitAt_rstCmd⟩
  case datapath =>
    intro s rq hs hl
    obtain ⟨u, e⟩ := effects_eq_resetsAfter (s₀ := s) (rq := rq) (l := [(A.SYS_RST_CMD, 0x5EED0001)])
      (s := s.storeAll rq [(A.SYS_RST_CMD, 0x5EED0001)])
    refine ⟨_, next_of_lets (by decide) hl rfl, ?_⟩
    rw [e, resetsAfter_datapath (by decide)]
    exact ⟨dp_dpReset, running_of_dp dp_dpReset⟩
  case tenant =>
    intro s rq n hn hl
    obtain ⟨u, e⟩ := effects_eq_resetsAfter (s₀ := s) (rq := rq) (l := [(A.SYS_RST_CMD, 0x5EED0002 + 16 * n)])
      (s := s.storeAll rq [(A.SYS_RST_CMD, 0x5EED0002 + 16 * n)])
    have word : 2 + 16 * (n % 8) + 65536 * (0x5EED % 65536) = 0x5EED0002 + 16 * n := by omega
    have tenant : (0x5EED0002 + 16 * n) / 16 % 8 = n := by omega
    refine ⟨_, next_of_lets (by decide) hl (word ▸ rfl), ?_⟩
    rw [e, resetsAfter_tenant (by omega), tenant]
    exact resetting_tenReset

end Sys2Proof.Machine

/-! How the Steward runs a command that passes its checks (R393-R398, R414): what stands when its body begins, and what its
answer leaves. -/

namespace Sys2Proof.Machine

section
variable {P : State → Prop} {s : State} {f g : Fld} {c : Cmd} {k : Ticket} {o : Outcome} {r second : Bool} {l : List Part}
  {p n v op st : Nat}

theorem routeSafe_fld (hg : avoids [.reg A.SYS_HWAKE, .reg A.SYS_WDOG_STAT, .reg 0x2048] (.reg g.addr) = true) :
    RouteSafe fun t => t.fld g = v := by
  have stands : Closed [.reg A.SYS_HWAKE, .reg A.SYS_WDOG_STAT, .reg 0x2048] fun t => t.fld g = v := closed_fld hg
  have rest : Closed [.rose, .queues, .pendg] fun t => t.fld g = v := closed_fld rfl
  exact {
    parts := (stands.mono (l := [.reg A.SYS_HWAKE, .reg 0x2048]) (by decide)).append rest
    resumed := fun s h => stands.part (.reg A.SYS_WDOG_STAT) (by decide) s _ h
    recorded := fun _ _ _ h => h }

/-! ## A tenant's record -/

/-- The maps are well-formed, and `Q` holds of the record of tenant `n`. -/
def TenHas (n : Nat) (Q : Ten → Prop) (t : State) : Prop := t.mapsWf = true ∧ Q (t.ten n)

theorem ten_modTen {u : Ten → Ten} (hs : s.mapsWf = true) : (s.modTen n u).ten n = u (s.ten n) := mapGet_mapSet (mapsWf_tens hs)

theorem ten_modTen_ne {u : Ten → Ten} (h : p ≠ n) : (s.modTen n u).ten p = s.ten p := mapGet_mapSet_ne h

theorem mapsWf_modTen {u : Ten → Ten} (hs : s.mapsWf = true) : (s.modTen n u).mapsWf = true :=
  modTen_ind (P := fun t : State => t.mapsWf = true) (closed_mapsWf.mono (by decide)) hs

section
variable {Q R : Ten → Prop}

theorem TenHas.modTen {u : Ten → Ten} (hs : TenHas n Q s) (hu : ∀ x, Q x → R (u x)) : TenHas n R (s.modTen n u) :=
  ⟨mapsWf_modTen hs.1, by rw [ten_modTen hs.1]; exact hu _ hs.2⟩

theorem closed_tenHas (hl : needsAll l [.regs, .sys, .rose, .queues, .pendg] = true) : Closed l (TenHas n Q) := by
  have wf : Closed [.regs, .sys, .rose, .queues, .pendg] fun t => t.mapsWf = true := closed_mapsWf.mono (by decide)
  have record : Closed [.regs, .sys, .rose, .queues, .pendg] fun t => Q (t.ten n) :=
    closed_of (p := .tens) (by decide) fun s t (he : _ = _) h => by rwa [State.ten, he]
  exact (closed_and wf record).mono hl

theorem routeSafe_tenHas (hQ : ∀ x i, Q x → Q { x with recCnt := i }) : RouteSafe (TenHas n Q) where
  parts := closed_tenHas (by decide)
  resumed s h := by
    have suspended : TenHas n Q (s.setFld F.SYS_WDOG_STAT_SUSPENDED 0) := setFld_ind (closed_tenHas (by decide)) h
    exact (closed_tenHas (l := [.sys]) (by decide)).part .sys (by decide) _ _ rfl rfl suspended
  recorded s t u h := by
    by_cases e : n = t
    · exact e ▸ h.modTen fun x => hQ x _
    · exact ⟨mapsWf_modTen h.1, by rw [ten_modTen_ne e]; exact h.2⟩

theorem closedAbove_tenHas : ClosedAbove [] (TenHas n Q) :=
  ⟨closed_tenHas rfl, fun s a w _ h => (closed_tenHas (l := [.regs]) (by decide)).part .regs (by decide) s a w h⟩

end

/-! ## The answer (R397, R398, R414) -/

theorem countAnswer_above (hR : RouteSafe P) (hA : ClosedAbove [] P) (hs : P s) : P (s.countAnswer st second) := by
  unfold State.countAnswer
  extract_lets counted
  have page : 0x600 ≤ (if st < 0x10 then F.KEY_CNT_ACCEPTED else F.KEY_CNT_REFUSED).addr := by split <;> decide
  have hcounted : P counted := ite_ind hs (hA.setFld page hs)
  exact ite_ind hcounted (raise_safe_above hR hA (by decide) hcounted)

/-- What holds with the response in the tenant's record holds of the answer. -/
theorem answer_above (hR : RouteSafe P) (hA : ClosedAbove [] P)
    (hs : ∀ m : List Byte, P (s.modTen k.tenant fun x => { x with
      response := m, execRsp := m, last := lastWord o.status k.opcode k.gen })) : P (s.answer k o) :=
  countAnswer_above hR hA (hs _)

theorem lastWord_mod : lastWord st op n % 256 = st % 256 := by
  unfold lastWord
  split <;> omega

theorem lastStatus_answer (hs : s.mapsWf = true) : (s.answer k o).lastStatus k.tenant = o.status % 256 := by
  have answered : TenHas k.tenant (fun x => x.last % 256 = o.status % 256) (s.answer k o) :=
    answer_above (routeSafe_tenHas fun _ _ h => h) closedAbove_tenHas fun m =>
      TenHas.modTen (Q := fun _ => True) ⟨hs, trivial⟩ fun _ _ => lastWord_mod
  exact answered.2

theorem lastStatus_done (hs : s.mapsWf = true) : (s.answer k (.of stDONE)).lastStatus k.tenant = 0 := lastStatus_answer hs

/-- A field of the power pages that no interrupt writes. -/
theorem fld_answer (hg : g.addr < 0x600)
    (ha : avoids [.reg A.SYS_HWAKE, .reg A.SYS_WDOG_STAT, .reg 0x2048] (.reg g.addr) = true) :
    (s.answer k o).fld g = s.fld g :=
  answer_above (P := fun t => t.fld g = s.fld g) (routeSafe_fld ha) (closedAbove_fld hg rfl) fun _ => rfl

theorem rst_answer : (s.answer k o).rst = s.rst :=
  answer_ind (P := fun t => t.rst = s.rst) (closed_of (p := .rst) (by decide) fun _ _ (he : _ = _) h => he.trans h) rfl

theorem stw_answer : (s.answer k o).stw = s.stw :=
  answer_ind (P := fun t => t.stw = s.stw) (closed_of (p := .stw) (by decide) fun _ _ (he : _ = _) h => he.trans h) rfl

theorem sel_answer : (s.answer k o).sel = s.sel :=
  answer_ind (P := fun t => t.sel = s.sel) (closed_of (p := .sel) (by decide) fun _ _ (he : _ = _) h => he.trans h) rfl

theorem descs_answer : (s.answer k o).descs = s.descs :=
  answer_ind (P := fun t => t.descs = s.descs) (closed_of (p := .descs) (by decide) fun _ _ (he : _ = _) h => he.trans h) rfl

/-! ## The beginning of a command's body (R393, R395) -/

/-- What the decision may change beside registers from page 0x06 on and what an interrupt does. -/
def decisionParts : List Part := [.tens, .env, .nv]

theorem decided_above (hR : RouteSafe P) (hA : ClosedAbove decisionParts P) (hs : P s) : P (s.decided c) := by
  unfold State.decided
  extract_lets emptied taken shown
  have hemptied : P emptied := setQueue_ind (hR.parts.mono (by decide)) hs
  have htaken : P taken := upd_env (hA.closed (by decide)) hemptied
  have hshown : P shown := hA.setFld (by decide) (hA.setFld (by decide) htaken)
  refine ite_ind hshown (raise_safe_above hR (hA.mono rfl) (by omega) (modTen_ind (hA.closed (by decide)) ?_))
  exact hA.setFld (Nat.le_add_right_of_le (by decide)) hshown

theorem begun_above (hR : RouteSafe P) (hA : ClosedAbove decisionParts P) (hs : P s) : P (s.begun c r) :=
  countUp_ind (hA.closed (by decide)) (decided_above hR hA hs)

theorem mapsWf_begun (hs : s.mapsWf = true) : (s.begun c r).mapsWf = true :=
  countUp_ind (P := fun t : State => t.mapsWf = true) (closed_mapsWf.mono (by decide))
    (decided_ind (P := fun t : State => t.mapsWf = true) (closed_mapsWf.mono (by decide)) hs)

theorem stw_begun : (s.begun c r).stw = s.stw :=
  have stands {l : List Part} (h : avoids l .stw = true) : Closed l fun t => t.stw = s.stw :=
    closed_of h fun _ _ (he : _ = _) ht => he.trans ht
  countUp_ind (P := fun t => t.stw = s.stw) (stands (by decide))
    (decided_ind (P := fun t => t.stw = s.stw) (stands (by decide)) rfl)

theorem phase_begun : (s.begun c r).sys.phase = s.sys.phase :=
  have stands {l : List Part} (h : avoids l .mode = true) : Closed l fun t => t.sys.phase = s.sys.phase :=
    closed_of h fun _ _ he ht => he.1.trans ht
  countUp_ind (P := fun t => t.sys.phase = s.sys.phase) (stands (by decide))
    (decided_ind (P := fun t => t.sys.phase = s.sys.phase) (stands (by decide)) rfl)

theorem nrstLow_begun : (s.begun c r).sys.nrstLow = s.sys.nrstLow :=
  begun_above (P := fun t => t.sys.nrstLow = s.sys.nrstLow) (routeSafe_sys (Q := fun y => y.nrstLow = s.sys.nrstLow) fun _ h => h)
    (closedAbove_sys (Q := fun y => y.nrstLow = s.sys.nrstLow) (by decide)) rfl

theorem fld_begun (hg : g.addr < 0x600)
    (ha : avoids [.reg A.SYS_HWAKE, .reg A.SYS_WDOG_STAT, .reg 0x2048] (.reg g.addr) = true) :
    (s.begun c r).fld g = s.fld g :=
  begun_above (P := fun t => t.fld g = s.fld g) (routeSafe_fld ha) (closedAbove_fld hg rfl) rfl

/-- A command of the row, taken and passed, runs its body. -/
theorem command_of_run {mine : Cmd → Bool} {body : Cmd → Ticket → State → State} (ht : s.takes op c) (hm : mine c = true)
    (hr : s.check c = .run r) : s.command mine body = body c (s.ticketOf c) (s.begun c r) := by
  obtain ⟨clocked, idle, envelope, -⟩ := ht
  obtain ⟨e, he, rfl⟩ := Option.map_eq_some_iff.mp envelope
  simp only [State.command, State.when, clocked, idle, he, hm, hr]
  rfl

theorem completes_of_run {i : Instr} {mine : Cmd → Bool} {body : Cmd → Ticket → State → State} {Q : State → Prop}
    (e : exec i s = .next (s.command mine body)) (ht : s.takes op c) (hm : mine c = true) (hr : s.check c = .run r)
    (hQ : Q (body c (s.ticketOf c) (s.begun c r))) : completes i s Q :=
  ⟨_, e.trans (congrArg Host.Outcome.next (command_of_run ht hm hr)), hQ⟩

/-- The same, where the body comes to `t`. -/
theorem completes_of_body {i : Instr} {mine : Cmd → Bool} {body : Cmd → Ticket → State → State} {Q : State → Prop}
    {t : State}
    (e : exec i s = .next (s.command mine body)) (ht : s.takes op c) (hm : mine c = true) (hr : s.check c = .run r)
    (hb : body c (s.ticketOf c) (s.begun c r) = t) (hQ : Q t) : completes i s Q :=
  completes_of_run e ht hm hr (hb ▸ hQ)

theorem opcode_of_takes (ht : s.takes op c) : c.opcode = op := by
  obtain ⟨-, -, -, opcode⟩ := ht
  exact opcode

theorem opIs_of_takes (ht : s.takes op c) : opIs op c = true := beq_iff_eq.mpr (opcode_of_takes ht)

end
end Sys2Proof.Machine

/-! The reset commands, HOST_RESET and LIFECYCLE (R94, R105, R117). -/

namespace Sys2Proof.Machine

section
variable {P : State → Prop} {s : State} {c : Cmd} {k : Ticket} {e : LogPend} {b : Bool} {r : Bool} {bytes : List Byte}
  {n p v t : Nat} {cause : Cause}

/-! ## What the entry of a transition leaves (R461-R470) -/

/-- What the write of a Logbook entry may change beside registers from page 0x06 on and what an interrupt does. -/
def entryParts : List Part := [.nv, .log]

theorem nv_log_above (hA : ClosedAbove entryParts P) (hs : P s) (x : Nv) (y : Log) : P { s with nv := x, log := y } :=
  upd_log (s := { s with nv := x }) (hA.closed (by decide)) (upd_nv (hA.closed (by decide)) hs)

theorem nvErase_above (hR : RouteSafe P) (hA : ClosedAbove entryParts P) (hs : P s) : P (s.nvErase p) := by
  unfold State.nvErase
  extract_lets -merge -underBinder count store counted
  have hcounted : P counted := upd_nv (hA.closed (by decide)) hs
  exact ite_ind (raise_safe_above hR (hA.mono rfl) (by decide) hcounted) hcounted

theorem logStore_above (hR : RouteSafe P) (hA : ClosedAbove entryParts P) (hs : P s) : P (s.logStore n bytes b) := by
  unfold State.logStore
  extract_lets -merge -underBinder slot erased store emptied kept
  have herased : P erased := nvErase_above hR hA hs
  have hemptied : P emptied := ite_ind (upd_nv (hA.closed (by decide)) herased) hs
  exact upd_nv (hA.closed (by decide)) hemptied

theorem logForward_safe (hR : RouteSafe P) (hs : P s) : P (s.logForward n bytes) :=
  forEach_ind (Q := P) (fun _ _ h => ite_ind (record_safe hR h) h) hs

theorem logWrite_above (hR : RouteSafe P) (hA : ClosedAbove entryParts P) (hs : P s) : P (s.logWrite e) := by
  unfold State.logWrite
  extract_lets -merge -underBinder seq bytes stored store log written
  have hwritten : P written := nv_log_above hA (logStore_above hR hA hs) _ _
  exact logForward_safe hR (hA.setFld (by decide) (hA.setFld (by decide) hwritten))

theorem flyWrite_above (hR : RouteSafe P) (hA : ClosedAbove entryParts P) (hs : P s) : P (s.flyWrite e b) := by
  unfold State.flyWrite
  extract_lets -merge -underBinder seq bytes slot store log written shown
  have hwritten : P written := nv_log_above hA hs _ _
  have hshown : P shown := hA.setFld (by decide) (hA.setFld (by decide) hwritten)
  refine ite_ind hs (ite_ind (hA.setFld (by decide) hs) (ite_ind (logForward_safe hR hshown) ?_))
  exact hA.setFld (by decide) (hA.setFld (by decide) (hA.setFld (by decide) (hA.setFld (by decide) hshown)))

/-! ## FULL resets by the Steward (R94, R95) -/

theorem resetPhase_of_request (h : cause = .cmd ∨ cause = .lifecycle) :
    resetPhase cause s = if s.sys.nrstLow then .inReset else .booting := by
  rcases h with rfl | rfl <;> simp [resetPhase]

theorem cmdReset_of_not_booting (h : s.sys.phase ≠ .booting) : s.cmdReset = fullReset .cmd 0 s := by
  simp [State.cmdReset, State.when, State.halted, h]

/-- The state whose FULL reset is the transition to `t`: the entry is written, and NV holds the new state. -/
def State.lifeStored (s : State) (t : Nat) : State :=
  let e : LogPend := ⟨5, t, s.fld F.SYS_DORM_EXIST ||| 1, 0, s.ht, s.fld F.RCK_EPOCH_ID, s.life⟩
  let entered := if s.on F.LOG_STATUS_DEAD then s.flyWrite e true else s.logWrite e
  let moved := { entered.nv with life := t, lifeInv := 15 - t }
  { entered with nv := if t = 0xE then retiredNv moved else moved }

theorem lifeMove_eq : s.lifeMove t = fullReset .lifecycle 0 (s.lifeStored t) := rfl

theorem life_lifeStored : (s.lifeStored t).nv.life = t ∧ (s.lifeStored t).nv.lifeInv = 15 - t := by
  unfold State.lifeStored
  extract_lets e entered moved
  exact ite_with (Q := fun m : Nv => m.life = t ∧ m.lifeInv = 15 - t) (fun _ => ⟨rfl, rfl⟩) fun _ => ⟨rfl, rfl⟩

theorem nrstLow_lifeStored : (s.lifeStored t).sys.nrstLow = s.sys.nrstLow := by
  have route : RouteSafe fun u => u.sys.nrstLow = s.sys.nrstLow :=
    routeSafe_sys (Q := fun y => y.nrstLow = s.sys.nrstLow) fun _ h => h
  have above : ClosedAbove entryParts fun u => u.sys.nrstLow = s.sys.nrstLow :=
    closedAbove_sys (Q := fun y => y.nrstLow = s.sys.nrstLow) (by decide)
  exact ite_ind (Q := fun u : State => u.sys.nrstLow = s.sys.nrstLow) (flyWrite_above route above rfl)
    (logWrite_above route above rfl)

/-! ## The commands -/

theorem completes_tenantReset (hs : s.mapsWf = true) (ht : s.takes 0x28 c) (hr : s.check c = .run r)
    (he : (s.begun c r).tenExists (c.byte 0) = true) : completes .tenantReset s fun t =>
      t.resetting (c.byte 0) = true ∧ t.lastStatus c.tenant = 0x00 := by
  have wf : ((s.begun c r).tenReset (c.byte 0) 9).mapsWf = true :=
    tenReset_ind (P := fun t : State => t.mapsWf = true) (closed_mapsWf.mono (by decide)) (mapsWf_begun hs)
  have resetting : (((s.begun c r).tenReset (c.byte 0) 9).answer (s.ticketOf c) (.of stDONE)).resetting (c.byte 0) = true := by
    rw [State.resetting, rst_answer]
    exact resetting_tenReset
  exact completes_of_body rfl ht (opIs_of_takes ht) hr (if_neg (by simp [he])) ⟨resetting, lastStatus_done wf⟩

theorem completes_datapathReset (hs : s.mapsWf = true) (ht : s.takes 0x29 c) (hr : s.check c = .run r) :
    completes .datapathReset s fun t => t.rst.dp.isSome = true ∧ t.running = false ∧ t.lastStatus c.tenant = 0x00 := by
  refine completes_of_run rfl ht (opIs_of_takes ht) hr ?_
  have wf : ((s.begun c r).dpReset 9).mapsWf = true :=
    dpReset_ind (P := fun t : State => t.mapsWf = true) (closed_mapsWf.mono (by decide)) (mapsWf_begun hs)
  have dp : (((s.begun c r).dpReset 9).answer (s.ticketOf c) (.of stDONE)).rst.dp.isSome = true := by
    rw [rst_answer]
    exact dp_dpReset
  exact ⟨dp, running_of_dp dp, lastStatus_done wf⟩

theorem completes_fullResetCmd (ht : s.takes 0x2A c) (hr : s.check c = .run r) (hp : s.sys.phase ≠ .booting) :
    completes .fullResetCmd s fun t => t.sys.cause = .cmd ∧ t.sys.phase = (if s.sys.nrstLow then .inReset else .booting) ∧
      t.env = none ∧ t.nv = (s.begun c r).nv ∧ ∀ a, t.reg a = resetOf a := by
  have booted : (s.begun c r).sys.phase ≠ .booting := phase_begun (s := s) ▸ hp
  refine completes_of_body rfl ht (opIs_of_takes ht) hr (cmdReset_of_not_booting booted) ⟨rfl, ?_, rfl, rfl, fun _ => rfl⟩
  rw [phase_fullReset, resetPhase_of_request (.inl rfl), nrstLow_begun]

theorem completes_hostReset (hs : s.mapsWf = true) (ht : s.takes 0x2B c) (hr : s.check c = .run r)
    (ho : s.fld F.SYS_HREL_RELEASED = 1) : completes .hostReset s fun t => t.fld F.SYS_HREL_RELEASED = 0 ∧
      t.fld F.SYS_SESSION_NUM = (s.fld F.SYS_SESSION_NUM + 1) % 65536 ∧ t.lastStatus c.tenant = 0x00 := by
  refine completes_of_run rfl ht (opIs_of_takes ht) hr ?_
  have wf : (s.begun c r).regsWf = true := mapsWf_regs (mapsWf_begun hs)
  have on : (s.begun c r).on F.SYS_HREL_RELEASED = true := by
    rw [State.on, fld_begun (by decide) (by decide), ho]
    rfl
  have low : Reads F.SYS_HREL_RELEASED 0 (s.begun c r).hostPulse :=
    reads_hostPulse (by decide) (by decide) (by decide) (by decide) on (released_pulseBegun wf)
  have next : Reads F.SYS_SESSION_NUM ((s.fld F.SYS_SESSION_NUM + 1) % 65536) (s.begun c r).hostPulse := by
    rw [← fld_begun (c := c) (r := r) (g := F.SYS_SESSION_NUM) (by decide) (by decide)]
    exact reads_hostPulse (by decide) (by decide) (by decide) (by decide) on (session_pulseBegun wf)
  exact ⟨(fld_answer (by decide) (by decide)).trans low.2, (fld_answer (by decide) (by decide)).trans next.2,
    lastStatus_done (mapsWf_hostPulse (mapsWf_begun hs))⟩

theorem life_begun : (s.begun c r).life = s.life := fld_begun (by decide) (by decide)

theorem lifeEnergy_begun : (s.begun c r).lifeEnergy = s.lifeEnergy := by
  have dip : (s.begun c r).fld F.SYS_DIP_ACTIVE = s.fld F.SYS_DIP_ACTIVE := fld_begun (by decide) (by decide)
  have above : (s.begun c r).fld F.PWR_THR_STAT_ABOVE_KEYW = s.fld F.PWR_THR_STAT_ABOVE_KEYW := fld_begun (by decide) (by decide)
  simp only [State.lifeEnergy, State.on, dip, above]

theorem lifeFirst_of_good (hg : s.lifeGood s.life n b = true) (he : s.lifeEnergy = true) :
    s.lifeFirst k n b = { s with stw := { s.stw with life1 := some (n, k) } } := by
  simp [State.lifeFirst, hg, he]

theorem completes_lifecycle (ht : s.takes 0x30 c) (hr : s.check c = .run r)
    (hg : (s.begun c r).lifeGood s.life (c.byte 0) false = true) (he : s.lifeEnergy = true) : completes .lifecycle s fun t =>
      t.stw.life1 = some (c.byte 0, s.ticketOf c) ∧ t.nv = (s.begun c r).nv := by
  have good : (s.begun c r).lifeGood (s.begun c r).life (c.byte 0) false = true := by rwa [life_begun]
  have energy : (s.begun c r).lifeEnergy = true := lifeEnergy_begun.trans he
  exact completes_of_body rfl ht (opIs_of_takes ht) hr (lifeFirst_of_good good energy) ⟨rfl, rfl⟩

/-- The second decision begins. -/
def State.lifeTaken (s : State) : State := { s with stw := { s.stw with life1 := none } }

theorem exec_lifecycleSecondDecision (hc : s.cclk = true) (hl : s.stw.life1 = some (n, k))
    (hg : s.lifeGood (15 - s.nv.lifeInv) n (n == 5) = true) (he : s.lifeEnergy = true) :
    exec (.lifecycleSecondDecision true) s = .next (s.lifeTaken.lifeMove n) := by
  have good : s.lifeTaken.lifeGood (15 - s.nv.lifeInv) n (n == 5) = true := hg
  have energy : s.lifeTaken.lifeEnergy = true := he
  have taken : exec (.lifecycleSecondDecision true) s = .next (
      if !true || !(s.lifeTaken.lifeGood (15 - s.nv.lifeInv) n (n == 5)) then
        occur tcDOUBLE 15 0x01 0x84 0 (s.lifeTaken.answer k (.of stSTATE))
      else if !s.lifeTaken.lifeEnergy then s.lifeTaken.answer k (.of stRETRY)
      else s.lifeTaken.lifeMove n) := by
    show Host.Outcome.next (State.when s s.cclk _) = _
    simp only [State.when, hc, if_true, hl]
    rfl
  rw [taken, good, energy]
  rfl

theorem completes_lifecycleSecondDecision (hc : s.cclk = true) (hl : s.stw.life1 = some (n, k))
    (hg : s.lifeGood (15 - s.nv.lifeInv) n (n == 5) = true) (he : s.lifeEnergy = true) :
    completes (.lifecycleSecondDecision true) s fun t => t.nv.life = n ∧ t.nv.lifeInv = 15 - n ∧ t.sys.cause = .lifecycle ∧
      t.sys.phase = (if s.sys.nrstLow then .inReset else .booting) ∧ ∀ a, t.reg a = resetOf a := by
  refine ⟨_, exec_lifecycleSecondDecision hc hl hg he, ?_⟩
  rw [lifeMove_eq]
  refine ⟨life_lifeStored.1, life_lifeStored.2, rfl, ?_, fun _ => rfl⟩
  rw [phase_fullReset, resetPhase_of_request (.inr rfl), nrstLow_lifeStored]
  rfl

end

/-- Settles O21: each command runs its body on the state that the checks leave, and its answer keeps what the body did; a
FULL reset is the last step of the two that end in one. -/
theorem resetAndLifecycleCommandsRun : Obligations.ResetAndLifecycleCommandsRun := by
  unfold Obligations.ResetAndLifecycleCommandsRun
  exact ⟨fun _ _ _ => completes_tenantReset, fun _ _ _ => completes_datapathReset, fun _ _ _ => completes_fullResetCmd,
    fun _ _ _ => completes_hostReset, fun _ _ _ => completes_lifecycle, fun _ _ _ => completes_lifecycleSecondDecision⟩

end Sys2Proof.Machine

/-! ATTEST, PATCH_LOAD and WRITE (R108, R109, R401, R410, R412). -/

namespace Sys2Proof.Machine

section
variable {s : State} {c : Cmd} {k : Ticket} {o : Outcome} {j : NvJob} {w : Ticket → NvJob} {r : Bool} {l : List Byte}
  {n t : Nat}

/-! ## NV writes of a command (R79, R393) -/

theorem patch_nvStart : s.nvStart.stw.patchOpen = s.stw.patchOpen ∧ s.nvStart.stw.patchBuf = s.stw.patchBuf ∧
    s.nvStart.stw.nvq = s.stw.nvq := by
  unfold State.nvStart
  split <;> exact ⟨rfl, rfl, rfl⟩

/-- A requested write is the last one of the queue; what is staged stands. -/
theorem patch_nvRequest : (s.nvRequest j).stw.patchOpen = s.stw.patchOpen ∧ (s.nvRequest j).stw.patchBuf = s.stw.patchBuf ∧
    (s.nvRequest j).stw.nvq = s.stw.nvq ++ [j] := patch_nvStart

theorem cmdWrite_of_supplied (h : s.dipHold = false) : s.cmdWrite k w = s.nvRequest (w k) := if_neg (by simp [h])

theorem cmdWrite_of_dip (h : s.dipHold = true) : s.cmdWrite k w = (s.pendAnswer k).1.nvRequest (w (s.pendAnswer k).2) := if_pos h

theorem stw_pendAnswer : (s.pendAnswer k).1.stw = s.stw := by
  unfold State.pendAnswer
  split
  · rfl
  · exact stw_answer

/-- In a dip or outside it, the command's write is the last of the queue, and what is staged stands. -/
theorem patch_cmdWrite : (s.cmdWrite k w).stw.patchOpen = s.stw.patchOpen ∧
    ∃ k', (s.cmdWrite k w).stw.nvq.getLast? = some (w k') := by
  cases hd : s.dipHold
  case false =>
    obtain ⟨same, -, queue⟩ := patch_nvRequest (s := s) (j := w k)
    rw [cmdWrite_of_supplied hd, queue]
    exact ⟨same, k, List.getLast?_concat⟩
  case true =>
    obtain ⟨same, -, queue⟩ := patch_nvRequest (s := (s.pendAnswer k).1) (j := w (s.pendAnswer k).2)
    rw [cmdWrite_of_dip hd, queue]
    exact ⟨same.trans (congrArg (·.patchOpen) stw_pendAnswer), _, List.getLast?_concat⟩

/-! ## Attestation -/

theorem completes_attest (hs : s.mapsWf = true) (ht : s.takes 0x18 c) (hr : s.check c = .run r) :
    completes .attest s fun t => (t.ten c.tenant).report = (s.begun c r).attBody c ∧ (t.ten c.tenant).signing = true ∧
      t.lastStatus c.tenant = 0x00 := by
  refine completes_of_run rfl ht (opIs_of_takes ht) hr ?_
  have built : TenHas c.tenant (fun x => x.report = (s.begun c r).attBody c ∧ x.signing = true)
      ((s.begun c r).modTen c.tenant fun x => { x with report := (s.begun c r).attBody c, signing := true }) :=
    TenHas.modTen (Q := fun _ => True) ⟨mapsWf_begun hs, trivial⟩ fun _ _ => ⟨rfl, rfl⟩
  obtain ⟨-, report, signing⟩ : TenHas c.tenant (fun x => x.report = (s.begun c r).attBody c ∧ x.signing = true)
      (((s.begun c r).modTen c.tenant fun x => { x with report := (s.begun c r).attBody c, signing := true }).answer
        (s.ticketOf c) (.of stDONE)) :=
    answer_above (routeSafe_tenHas fun _ _ h => h) closedAbove_tenHas fun _ => built.modTen fun _ h => h
  exact ⟨report, signing, lastStatus_done built.1⟩

theorem completes_attestSignDone (hs : s.mapsWf = true) (hn : n < 8) (hc : s.cclk = true) (hg : (s.ten n).signing = true) :
    completes (.attestSignDone n) s fun t => (t.ten n).signing = false ∧
      (t.ten n).report = (s.ten n).report ++ Config.ecdsaSign s.nv.trim.deviceKey (s.ten n).report ∧
      t.bit (F.PIRQ 0x22) 10 = true := by
  refine completes_when rfl (by simp [hn, hc, hg]) fun _ => ?_
  have signed : TenHas n (fun x => x.signing = false ∧
      x.report = (s.ten n).report ++ Config.ecdsaSign s.nv.trim.deviceKey (s.ten n).report)
      (s.modTen n fun x => { x with
        report := x.report ++ Config.ecdsaSign s.nv.trim.deviceKey x.report, signing := false }) :=
    TenHas.modTen (Q := fun x => x = s.ten n) ⟨hs, rfl⟩ fun _ h => h ▸ ⟨rfl, rfl⟩
  obtain ⟨-, ended, report⟩ := raise_safe_above (k := 10) (p := 0x22) (routeSafe_tenHas fun _ _ h => h) closedAbove_tenHas
    (by decide) signed
  exact ⟨ended, report, bit_raise (mapsWf_regs signed.1) (by decide)⟩

/-! ## Patches -/

theorem patchIs_of_takes (ht : s.takes 0x38 c) (hk : c.byte 0 = n) (hn : n = 1 ∨ n = 2 ∨ n = 3) : patchIs n c = true := by
  rcases hn with rfl | rfl | rfl <;> simp [patchIs, opcode_of_takes ht, hk]

theorem dipHold_begun : (s.begun c r).dipHold = s.dipHold := by
  have active : (s.begun c r).fld F.SYS_DIP_ACTIVE = s.fld F.SYS_DIP_ACTIVE := fld_begun (by decide) (by decide)
  have settling : (s.begun c r).fld F.SYS_DIP_SETTLING = s.fld F.SYS_DIP_SETTLING := fld_begun (by decide) (by decide)
  simp only [State.dipHold, State.on, active, settling]

theorem patchOpen_begun (h : s.stw.patchOpen = true) : (s.begun c r).stw.patchOpen = true := by rwa [stw_begun]

theorem completes_patchLoadBegin (hs : s.mapsWf = true) (ht : s.takes 0x38 c) (hk : c.byte 0 = 1) (hr : s.check c = .run r) :
    completes .patchLoadBegin s fun t =>
      t.stw.patchOpen = true ∧ t.stw.patchBuf = [] ∧ t.lastStatus c.tenant = 0x00 := by
  have wf : State.mapsWf { s.begun c r with stw := { (s.begun c r).stw with patchOpen := true, patchBuf := [] } } = true :=
    mapsWf_begun hs
  refine completes_of_run rfl ht (patchIs_of_takes ht hk (by decide)) hr ⟨?_, ?_, lastStatus_done wf⟩
  · exact congrArg (·.patchOpen) stw_answer
  · exact congrArg (·.patchBuf) stw_answer

theorem completes_patchLoadData (ht : s.takes 0x38 c) (hk : c.byte 0 = 2) (hr : s.check c = .run r) (hd : s.dipHold = false)
    (ho : s.stw.patchOpen = true) (hl : fieldLE c.payload 4 4 + (c.payload.drop 8).length ≤ 16384) :
    completes .patchLoadData s fun t =>
      t.stw.patchBuf = stageAt s.stw.patchBuf (fieldLE c.payload 4 4) ((c.payload.drop 8).map some) ∧
      t.stw.nvq = s.stw.nvq ++ [.patchData (s.ticketOf c) (fieldLE c.payload 4 4) (c.payload.drop 8).length] := by
  have supplied : (s.begun c r).dipHold = false := dipHold_begun.trans hd
  refine completes_of_body rfl ht (patchIs_of_takes ht hk (by decide)) hr
    ((if_neg (by simp [patchOpen_begun ho])).trans ((if_neg (Nat.not_lt.mpr hl)).trans (cmdWrite_of_supplied supplied))) ?_
  obtain ⟨-, staged, queue⟩ := patch_nvRequest (s := { s.begun c r with stw := { (s.begun c r).stw with
    patchBuf := stageAt (s.begun c r).stw.patchBuf (fieldLE c.payload 4 4) ((c.payload.drop 8).map some) } })
    (j := .patchData (s.ticketOf c) (fieldLE c.payload 4 4) (c.payload.drop 8).length)
  rw [staged, queue]
  exact ⟨by rw [stw_begun], by rw [stw_begun]⟩

/-- The body of PATCH_LOAD_COMMIT, on a whole staged image. -/
def State.patchDecided (s : State) (k : Ticket) (l : List Byte) : State :=
  if (s.patchWhy l).isSome then s.answer k (.of stPARAM)
  else { s with stw := { s.stw with patchOpen := false } }.cmdWrite k fun k => .patchCommit k l

theorem patchDecided_of_good (h : s.patchWhy l = none) : s.patchDecided k l =
    { s with stw := { s.stw with patchOpen := false } }.cmdWrite k fun k => .patchCommit k l := if_neg (by simp [h])

theorem patchDecided_of_bad (h : s.patchWhy l = some n) : s.patchDecided k l = s.answer k (.of stPARAM) := if_pos (by simp [h])

theorem completes_patchLoadCommit_of {Q : State → Prop} (ht : s.takes 0x38 c) (hk : c.byte 0 = 3) (hr : s.check c = .run r)
    (ho : s.stw.patchOpen = true) (hl : stagedBytes s.stw.patchBuf = some l)
    (hQ : Q ((s.begun c r).patchDecided (s.ticketOf c) l)) : completes .patchLoadCommit s Q := by
  have staged : stagedBytes (s.begun c r).stw.patchBuf = some l := by rwa [stw_begun]
  refine completes_of_body rfl ht (patchIs_of_takes ht hk (by decide)) hr ((if_neg (by simp [patchOpen_begun ho])).trans ?_) hQ
  rw [staged]
  rfl

theorem completes_patchLoadCommit_good (ht : s.takes 0x38 c) (hk : c.byte 0 = 3) (hr : s.check c = .run r)
    (ho : s.stw.patchOpen = true) (hl : stagedBytes s.stw.patchBuf = some l) (hw : (s.begun c r).patchWhy l = none) :
    completes .patchLoadCommit s fun t =>
      t.stw.patchOpen = false ∧ ∃ k, t.stw.nvq.getLast? = some (.patchCommit k l) := by
  refine completes_patchLoadCommit_of ht hk hr ho hl ?_
  rw [patchDecided_of_good hw]
  exact patch_cmdWrite (s := { s.begun c r with stw := { (s.begun c r).stw with patchOpen := false } })
    (w := fun k => .patchCommit k l)

theorem completes_patchLoadCommit_bad (hs : s.mapsWf = true) (ht : s.takes 0x38 c) (hk : c.byte 0 = 3)
    (hr : s.check c = .run r) (ho : s.stw.patchOpen = true) (hl : stagedBytes s.stw.patchBuf = some l)
    (hw : (s.begun c r).patchWhy l = some n) :
    completes .patchLoadCommit s fun t => t.stw = s.stw ∧ t.lastStatus c.tenant = 0x1A := by
  refine completes_patchLoadCommit_of ht hk hr ho hl ?_
  rw [patchDecided_of_bad hw]
  exact ⟨stw_answer.trans stw_begun, lastStatus_answer (mapsWf_begun hs)⟩

/-! ## WRITE -/

theorem mapsWf_applyRecs {rq : Requester} {rs : List Rec} (hs : s.mapsWf = true) : (s.applyRecs rq rs).state.mapsWf = true :=
  applyRecs_ind (P := fun t : State => t.mapsWf = true) (closed_mapsWf.mono (by decide)) hs

theorem runWrite_of_dormant (h : s.dormant c.tenant = true) : s.runWrite c k = s.answer k (.of stSTATE) := if_pos h

theorem runWrite_of_applied {rs : List Rec} (hd : s.dormant c.tenant = false) (hl : recsOf 2 c.payload = some rs)
    (hr : s.sameRun (s.applyRecs (.steward c.tenant) rs).state = true) :
    s.runWrite c k = (s.applyRecs (.steward c.tenant) rs).state.answer k
      ⟨if (s.applyRecs (.steward c.tenant) rs).refused = 0 then stDONE else stPARTIAL,
        (s.applyRecs (.steward c.tenant) rs).refused, (s.applyRecs (.steward c.tenant) rs).addr,
        (s.applyRecs (.steward c.tenant) rs).cause⟩ := by
  unfold State.runWrite
  rw [hd, hl]
  exact if_pos hr

theorem writeIs_of_takes (ht : s.takes 0x01 c) : (c.opcode == 0x01 || (opRule c.opcode).isNone) = true := by
  rw [opcode_of_takes ht]
  rfl

theorem completes_write {rs : List Rec} (hs : s.mapsWf = true) (ht : s.takes 0x01 c) (hr : s.check c = .run r)
    (hd : (s.begun c r).dormant c.tenant = false) (hl : recsOf 2 c.payload = some rs)
    (hsame : (s.begun c r).sameRun ((s.begun c r).applyRecs (.steward c.tenant) rs).state = true) :
    completes .write s fun t =>
      let a := (s.begun c r).applyRecs (.steward c.tenant) rs
      t.stw = a.state.stw ∧ t.sel = a.state.sel ∧ t.descs = a.state.descs ∧
      t.lastStatus c.tenant = (if a.refused = 0 then 0x00 else 0x01) := by
  refine completes_of_body rfl ht (writeIs_of_takes ht) hr (runWrite_of_applied hd hl hsame)
    ⟨stw_answer, sel_answer, descs_answer, (lastStatus_answer (mapsWf_applyRecs (mapsWf_begun hs))).trans ?_⟩
  show (if _ then stDONE else stPARTIAL) % 256 = _
  split <;> rfl

theorem exec_write_dormant (ht : s.takes 0x01 c) (hr : s.check c = .run r) (hd : (s.begun c r).dormant c.tenant = true) :
    exec .write s = .next ((s.begun c r).answer (s.ticketOf c) (.of stSTATE)) :=
  congrArg Host.Outcome.next ((command_of_run ht (writeIs_of_takes ht) hr).trans (runWrite_of_dormant hd))

end

/-- Settles O22: each command runs its body on the state that the checks leave, and the answer keeps what the body did.
That DONE is answered once the report is built (log entry 111), and that a patch which the checks refuse is answered with
PARAM, 0x1A (log entry 101), is the model's choice. -/
theorem attestPatchAndWriteRun : Obligations.AttestPatchAndWriteRun := by
  unfold Obligations.AttestPatchAndWriteRun
  exact ⟨fun _ _ _ => completes_attest, fun _ _ => completes_attestSignDone, fun _ _ _ => completes_patchLoadBegin,
    fun _ _ _ => completes_patchLoadData, fun _ _ _ _ => completes_patchLoadCommit_good,
    fun _ _ _ _ _ => completes_patchLoadCommit_bad, fun _ _ _ _ => completes_write, fun _ _ _ => exec_write_dormant⟩

end Sys2Proof.Machine

/-! What the events of the data path, of the bundles, of NV and of the host ports leave as it is (R134, R185, R239, R311,
R366). -/

namespace Sys2Proof.Machine

/-- Settles O56: the frame of each event holds the footprint of its command. -/
theorem framesOfTheDatapath : Obligations.FramesOfTheDatapath := by
  unfold Obligations.FramesOfTheDatapath
  exact ⟨
    fun _ _ => frame_of_footprint execDispatch_ind (by decide) (by decide),
    fun _ _ _ => frame_of_footprint execTimeTrigger_ind (by decide) (by decide),
    fun _ _ _ => frame_of_footprint execAngleTrigger_ind (by decide) (by decide),
    fun _ _ _ => frame_of_footprint execChainTrigger_ind (by decide) (by decide),
    fun _ _ _ => frame_of_footprint execJitDeadline_ind (by decide) (by decide),
    fun _ _ _ => frame_of_footprint execNoLockTargetSkip_ind (by decide) (by decide),
    fun _ _ => frame_of_footprint execAngleWithdraw_ind (by decide) (by decide),
    fun _ _ => frame_of_footprint execShareWindowEnd_ind (by decide) (by decide),
    fun _ _ _ => frame_of_footprint execTransferStart_ind (by decide) (by decide),
    fun _ _ _ _ _ _ _ _ => frame_of_footprint execTransferEnd_ind (by decide) (by decide),
    fun _ _ _ => frame_of_footprint execArbLost_ind (by decide) (by decide),
    fun _ _ _ _ => frame_of_footprint execStretchTimeout_ind (by decide) (by decide),
    fun _ _ _ _ => frame_of_footprint execBusStuck_ind (by decide) (by decide),
    fun _ _ _ => frame_of_footprint execBusFree_ind (by decide) (by decide),
    fun _ _ _ => frame_of_footprint execBusRecovery_ind (by decide) (by decide),
    fun _ _ _ _ _ => frame_of_footprint execAfeConversion_ind (by decide) (by decide),
    fun _ _ => frame_of_footprint execAfeDrain_ind (by decide) (by decide),
    fun _ _ => frame_of_footprint execExcSettleEnd_ind (by decide) (by decide),
    fun _ _ => frame_of_footprint execExcOvercurrent_ind (by decide) (by decide),
    fun _ _ => frame_of_footprint execExcOpen_ind (by decide) (by decide),
    fun _ _ _ => frame_of_footprint execTouchstoneStart_ind (by decide) (by decide),
    fun _ _ _ => frame_of_footprint execAfeCalStart_ind (by decide) (by decide),
    fun _ _ _ _ _ _ _ => frame_of_footprint execEdgeStamp_ind (by decide) (by decide),
    fun _ _ _ _ => frame_of_footprint execIcalHit_ind (by decide) (by decide),
    fun _ _ _ => frame_of_footprint execStampService_ind (by decide) (by decide),
    fun _ _ _ => frame_of_footprint execBeaconWindowEnd_ind (by decide) (by decide),
    fun _ _ _ => frame_of_footprint execEpochRecordEnqueue_ind (by decide) (by decide),
    fun _ _ => frame_of_footprint execIdxMeasurement_ind (by decide) (by decide),
    fun _ _ _ => frame_of_footprint execSxtLockLost_ind (by decide) (by decide),
    fun _ _ _ => frame_of_footprint execAngleComparatorFire_ind (by decide) (by decide),
    fun _ _ => frame_of_footprint execBandwidthUpdate_ind (by decide) (by decide),
    fun _ _ _ => frame_of_footprint execResamplerOutput_ind (by decide) (by decide),
    fun _ _ => frame_of_footprint execAssayPass_ind (by decide) (by decide),
    fun _ _ _ => frame_of_footprint execAssayGapInput_ind (by decide) (by decide)⟩

section

variable {P : State → Prop} {s : State}

/-- The footprint of POP_STALL_TIMEOUT where the stall ends: where no bundle is selectable, nothing goes on reading. -/
theorem execPopStallTimeout_ind_of_waits {p : Nat}
    (waits : ∀ x n, s.txOf p = some x → x.stall = some n → s.popWaits p x n = true)
    (hC : Closed [.tx, .regs, .port] P) (hs : P s) : Answers (execPopStallTimeout p s) P := by
  refine answers_next (when_with (fun _ => ?_) hs)
  cases hx : s.txOf p with
  | none => exact hs
  | some x =>
    cases hn : x.stall with
    | none => simpa only [hn] using hs
    | some n =>
      simp only [hn, waits x n hx hn, Bool.not_true, Bool.false_eq_true, if_false]
      have ended : P ((s.setFld (F.QUE_PSTAT_EMPTY n) 1).modTx p
          fun x => { x with stall := none, left := 0, result := max x.result 7 }) :=
        modTx_ind (hC.mono (by decide)) (setFld_ind (hC.mono rfl) hs)
      exact ite_ind (sent_ind (hC.mono (by decide)) ended)
        (setFld_ind (hC.mono (by decide)) (sent_ind (hC.mono (by decide)) ended))
end

/-- Settles O57: the frame of each event holds the footprint of its command. -/
theorem framesOfBundlesNvAndHostPorts : Obligations.FramesOfBundlesNvAndHostPorts := by
  unfold Obligations.FramesOfBundlesNvAndHostPorts
  exact ⟨
    fun _ _ _ => frame_of_footprint execLeaseExpiry_ind (by decide) (by decide),
    fun _ _ _ _ => frame_of_footprint execGapRecordEnqueue_ind (by decide) (by decide),
    fun _ _ => frame_of_footprint execPlacementUpdate_ind (by decide) (by decide),
    fun _ _ _ waits => frame_of_footprint (execPopStallTimeout_ind_of_waits waits) (by decide) (by decide),
    fun _ _ _ => frame_of_footprint execEccUncorrectable_ind (by decide) (by decide),
    fun _ _ => frame_of_footprint execRoseEvent_ind (by decide) (by decide),
    fun _ _ _ => frame_of_footprint execFlarePulseEnd_ind (by decide) (by decide),
    fun _ _ => frame_of_footprint execBundlerIntake_ind (by decide) (by decide),
    fun _ _ => frame_of_footprint execBundleClose_ind (by decide) (by decide),
    fun _ _ _ _ => frame_of_footprint execBundleAgeExpiry_ind (by decide) (by decide),
    fun _ _ => frame_of_footprint execSealStart_ind (by decide) (by decide),
    fun _ _ => frame_of_footprint execSealDone_ind (by decide) (by decide),
    fun _ _ _ => frame_of_footprint execSeqReservationCommit_ind (by decide) (by decide),
    fun _ _ => frame_of_footprint execHealthRecord_ind (by decide) (by decide),
    fun _ _ _ _ => frame_of_footprint execChartCommitDone_ind (by decide) (by decide),
    fun _ _ _ _ => frame_of_footprint execKeyUpdateWrite_ind (by decide) (by decide),
    fun _ _ _ _ => frame_of_footprint execKeyUpdateCommit_ind (by decide) (by decide),
    fun _ _ _ => frame_of_footprint execAttestSignDone_ind (by decide) (by decide),
    fun _ _ _ => frame_of_footprint execNvWriteComplete_ind (by decide) (by decide),
    fun _ _ => frame_of_footprint execHtwIdleAbort_ind (by decide) (by decide),
    fun _ _ => frame_of_footprint execSpiCsFall_ind (by decide) (by decide),
    fun _ _ _ _ _ => frame_of_footprint execSpiWrite_ind (by decide) (by decide),
    fun _ _ => frame_of_footprint execSpiOverrun_ind (by decide) (by decide),
    fun _ _ => frame_of_footprint execCommandEnqueue_ind (by decide) (by decide)⟩

end Sys2Proof.Machine

/-! The other commands that write registers (R128): the commit of their writes, on the state that their selections leave. -/

namespace Sys2Proof.Machine

section
variable {s u : State} {rq : Requester} {l ws : List Wr} {d : List (Nat × Nat)} {n p f : Nat}

/-! ## A commit that nothing denies -/

/-- Selections come first; the checks split the writes on the state that they leave, and what acts acts there. -/
theorem commit_of_none_denied (hl : l = ws.map (s.expand rq ws)) (hu : u = s.selFirst rq l)
    (hd : u.decideWrites rq l = (d, [])) :
    s.commit rq ws = ⟨State.effects u rq d (u.storeAll rq d), d.length, []⟩ := by
  subst hu hl
  have untouched {t v : State} : State.keepRaised v v rq [] t = t := if_pos (.inr rfl)
  simp only [State.commit, hd, denyAll, if_true, untouched]

/-- The next state of a command that is a commit of writes of which none is denied. -/
theorem next_of_none_denied {o : Host.Outcome State Fault Refusal} (e : o = .next (s.commit rq ws).state)
    (hl : l = ws.map (s.expand rq ws)) (hu : u = s.selFirst rq l) (hd : u.decideWrites rq l = (d, [])) :
    o = .next (State.effects u rq d (u.storeAll rq d)) :=
  e.trans (congrArg (fun c => Host.Outcome.next (Done.state c)) (commit_of_none_denied hl hu hd))

/-! ## The commands as commits -/

/-- A tenant window writes through its own page (R435). -/
def viaWindow (rq : Requester) : Bool :=
  match rq with
  | .window _ => true
  | _ => false

theorem writeVia_of_reachable {w : List (Nat × Nat)} (h : s.reachable rq = true) :
    s.writeVia rq w = (s.commit rq (w.map fun x => ⟨x.1, x.2, false, viaWindow rq⟩)).state := if_pos h

theorem write_of_reachable {w : List (Nat × Nat)} (h : s.reachable rq = true) :
    s.write rq w = (s.commit rq (w.map fun x => ⟨x.1, x.2, false, false⟩)).state := if_pos h

theorem exec_registerWrite_of_reachable {w : List (Nat × Word)} (h : s.reachable rq = true) :
    exec (.registerWrite rq w) s = .next (s.commit rq (w.map fun x => ⟨x.1 / 4 * 4, x.2.toNat, false, false⟩)).state := by
  show Host.Outcome.next _ = _
  rw [write_of_reachable h, List.map_map]
  rfl

theorem exec_descriptorCommit_of_reachable {m : Nat} {w : List Word} (h : s.reachable rq = true) :
    exec (.descriptorCommit rq n m w) s = .next (s.commit rq
      (⟨A.DSC_IDX, n % 256, false, viaWindow rq⟩ :: ((List.range 8).filter fun i => m.testBit i).map
        fun i => ⟨A.DSC_W i, (w.getD i 0).toNat, false, viaWindow rq⟩)).state := by
  show Host.Outcome.next _ = _
  rw [writeVia_of_reachable h, List.map_cons, List.map_map]
  rfl

theorem exec_beaconSubmit_of_reachable {q lo hi : Word} (h : s.reachable rq = true) :
    exec (.beaconSubmit rq q lo hi) s = .next (s.commit rq
      [⟨A.RCK_BCN_SEQ, q.toNat, false, viaWindow rq⟩, ⟨A.RCK_BCN_MT_LO, lo.toNat, false, viaWindow rq⟩,
       ⟨A.RCK_BCN_MT_HI, hi.toNat, false, viaWindow rq⟩]).state :=
  congrArg Host.Outcome.next (writeVia_of_reachable h)

theorem exec_cmdAssemblyWrite_of_reachable {bs : List Byte} (hn : n < 8) (h : s.reachable rq = true) :
    exec (.cmdAssemblyWrite rq n bs) s = .next (s.commit rq ((List.range ((bs.length + 3) / 4)).map fun i =>
      ⟨A.TN_CMD n, numLE (sliceB bs (4 * i) 4), decide ((sliceB bs (4 * i) 4).length < 4), false⟩)).state := by
  have acts : (decide (n < 8) && s.reachable rq) = true := by rw [decide_eq_true hn, h]; rfl
  exact congrArg Host.Outcome.next ((if_pos acts).trans (congrArg (fun l => (s.commit rq l).state) List.map_map))

theorem exec_cmdAssemblyClear_of_reachable (hn : n < 8) (h : s.reachable rq = true) :
    exec (.cmdAssemblyClear rq n) s = .next (s.commit rq [⟨A.TN_CCTL n, 1, false, false⟩]).state :=
  congrArg Host.Outcome.next ((if_pos (decide_eq_true hn)).trans (write_of_reachable h))

theorem exec_fenceClear {w : Word} (hp : p < 7) :
    exec (.fenceClear rq p w) s = .next (s.writeVia rq [(if p < 4 then A.TWC_FCLR p else A.SPC_FCLR (p - 4), w.toNat)]) :=
  congrArg Host.Outcome.next (if_pos (decide_eq_true hp))

theorem exec_flareRelease (hf : f < 2) :
    exec (.flareRelease rq f) s = .next (s.writeVia rq [s.withField (F.ROS_FLR_REL f) 1]) :=
  congrArg Host.Outcome.next (if_pos (decide_eq_true hf))

/-! ## Their registers -/

theorem standsAlone_fclr (hp : p < 7) : standsAlone (if p < 4 then A.TWC_FCLR p else A.SPC_FCLR (p - 4)) = true :=
  (by decide : ∀ p < 7, standsAlone (if p < 4 then A.TWC_FCLR p else A.SPC_FCLR (p - 4)) = true) p hp

theorem standsAlone_flr (hf : f < 2) : standsAlone (A.ROS_FLR f) = true :=
  (by decide : ∀ f < 2, standsAlone (A.ROS_FLR f) = true) f hf

end

/-- Settles O33: a command of one register is a write that stands alone; one of several is the commit of them all, and where
nothing is denied what the checks let act follows the selections. -/
theorem moreCommitsThatAreCommands : Obligations.MoreCommitsThatAreCommands := by
  unfold Obligations.MoreCommitsThatAreCommands
  intro does via doesAll s rq
  refine ⟨?fence, ?touch, ?clear, ?release, ?tamper, ?margin, ?memory, ?register, ?descriptor, ?beacon, ?assembly, ?drop,
    fun h => ⟨fun _ => exec_registerWrite_of_reachable h, fun _ _ _ => exec_descriptorCommit_of_reachable h,
      fun _ _ _ => exec_beaconSubmit_of_reachable h, fun _ _ hn => exec_cmdAssemblyWrite_of_reachable hn h,
      fun _ hn => exec_cmdAssemblyClear_of_reachable hn h⟩⟩
  case fence => exact fun p w hp x h => next_of_lets (standsAlone_fclr hp) h (exec_fenceClear hp)
  case touch => exact fun w x h => next_of_lets (by decide) h rfl
  case clear => exact fun w x h => next_of_lets (by decide) h rfl
  case release => exact fun f hf x h => next_of_lets (standsAlone_flr hf) h (exec_flareRelease hf)
  case tamper => exact fun w x h => next_of_lets (by decide) h rfl
  case margin => exact fun x h => next_of_lets (by decide) h rfl
  case memory => exact fun x h => next_of_lets (by decide) h rfl
  case register => exact fun ws l u d hl hu h hd => next_of_none_denied (exec_registerWrite_of_reachable h) hl hu hd
  case descriptor => exact fun i m ws l u d hl hu h hd => next_of_none_denied (exec_descriptorCommit_of_reachable h) hl hu hd
  case beacon => exact fun q lo hi l u d hl hu h hd => next_of_none_denied (exec_beaconSubmit_of_reachable h) hl hu hd
  case assembly => exact fun n bs hn l u d hl hu h hd => next_of_none_denied (exec_cmdAssemblyWrite_of_reachable hn h) hl hu hd
  case drop => exact fun n hn l u d hl hu h hd => next_of_none_denied (exec_cmdAssemblyClear_of_reachable hn h) hl hu hd

end Sys2Proof.Machine

/-! What a commit leaves out (R128, R145, R146), and that a stored write reaches its own register only. -/

namespace Sys2Proof.Machine

section
variable {s : State} {rq : Requester} {a b c v : Nat} {w : Wr}

theorem commit_of_one_denied (hw : standsAlone w.addr = true) (hd : s.decideWrites rq [w] = ([], [(w.addr, c)]))
    (runs : (s.deny rq w.addr c true).sys.phase = s.sys.phase) :
    s.commit rq [w] = ⟨State.effects (s.deny rq w.addr c true) rq []
      (State.keepRaised s (s.deny rq w.addr c true) rq [(w.addr, c)] (s.deny rq w.addr c true)), 0, [(w.addr, c)]⟩ := by
  have alone : ∀ x ∈ [w], standsAlone x.addr = true := List.forall_mem_singleton.mpr hw
  have denied : denyAll rq [(w.addr, c)] s = s.deny rq w.addr c true := ite_self _
  have stored (t : State) : t.storeAll rq [] = t := rfl
  simp only [State.commit, map_expand_of_standsAlone alone, selFirst_of_standsAlone alone, hd, denied, if_pos runs, stored,
    List.length_nil]

theorem reg_clear1_ne (h : b ≠ a) : (s.clear1 a v).reg b = s.reg b := reg_setReg_ne h

/-- A write to a register that is neither a copy of another's flags nor a page's control reaches no other register. -/
theorem reg_storeReg_ne (copy : (isTn a && a % 256 == 0x44) = false) (hb : b ≠ a) (control : a % 256 ≠ 0x08) :
    (s.storeReg rq a v).reg b = s.reg b := by
  have notCopy : ¬(isTn a = true ∧ a % 256 = 0x44) := fun h => by simp [h.1, h.2] at copy
  have either {p : Prop} [Decidable p] {t u : State} (ht : p → t.reg b = s.reg b) (hu : ¬p → u.reg b = s.reg b) :
      (if p then t else u).reg b = s.reg b := ite_with (Q := fun t : State => t.reg b = s.reg b) ht hu
  exact either (fun _selection => rfl) fun _ => either (fun h => absurd h control) fun _ =>
    either (fun _descriptor => rfl) fun _ => either (fun _parameter => either (fun _ => rfl) fun _ => rfl) fun _ =>
    either (fun _route => rfl) fun _ => either (fun h => absurd h notCopy) fun _ =>
    (reg_clear1_ne hb).trans (either (fun _ => rfl) fun _ => reg_setReg_ne hb)

end

/-- Settles O34: a write that is denied is not stored, and of a commit that is denied as a whole only the record of the
denial is left, with the interrupts that it raised (log entry 144: the model's reading of one cycle). -/
theorem commitActsAndDenies : Obligations.CommitActsAndDenies := by
  unfold Obligations.CommitActsAndDenies
  exact ⟨fun _ _ _ _ alone hd => commit_undenied (fun w hw => standsAlone_iff.mpr (alone w hw)) hd,
    fun _ _ _ _ sel tn hd runs => commit_of_one_denied (standsAlone_iff.mpr ⟨sel, tn⟩) hd runs,
    fun _ _ _ _ _ copy hb control => reg_storeReg_ne copy hb control⟩

end Sys2Proof.Machine

/-! Locks (R152-R154): what a read of one shows, the end of a lease, and a release. -/

namespace Sys2Proof.Machine

section
variable {s u : State} {rq : Requester} {k j a n : Nat} {x : Lock}

/-! ## One lock -/

theorem lock_setLock (hs : s.mapsWf = true) : (s.setLock k x).lock k = x := mapGet_mapSet (mapsWf_locks hs)

theorem regsWf_setLock (hs : s.mapsWf = true) : (s.setLock k x).regsWf = true :=
  show s.regsWf = true from mapsWf_regs hs

theorem lock_setLock_ne (h : j ≠ k) : (s.setLock k x).lock j = s.lock j := mapGet_mapSet_ne h

theorem closed_lock {l : List Part} (h : avoids l .locks = true) : Closed l fun t => t.lock k = x :=
  closed_of h fun _ _ (he : _ = _) ht => by rwa [State.lock, he]

theorem changesOnly_setLock : changesOnly [.locks] s (s.setLock k x) :=
  setLock_ind (closed_changesOnly (by decide)) (changesOnly_refl s)

/-! ## Acquiring (R152) -/

/-- The register through which a requester reads and writes a lock: a tenant window's own copy. -/
def lockReg (rq : Requester) (k : Nat) : Nat :=
  match rq with
  | .window n => 0x3080 + 256 * n + 4 * k
  | _ => A.LCK_L k

theorem exec_lockAcquire (hk : k < 16) (hl : lockNo (lockReg rq k) = some k) (hr : s.reachable rq = true)
    (hd : s.readDenied rq false (lockReg rq k) = none) (hb : s.lockBars rq k = false) :
    exec (.lockAcquire rq k) s = .next ((s.acquire rq k).2.latch (s.acquire rq k).1) := by
  have read : s.readReg rq false (lockReg rq k) = s.acquire rq k := by
    simp only [State.readReg, hd, hl, hb, Bool.false_eq_true, if_false]
  refine congrArg Host.Outcome.next ((if_pos hk).trans ((if_pos hr).trans ?_))
  exact congrArg (fun r : Word × State => r.2.latch r.1) read

theorem acquire_of_free (h : (s.lock k).holder = none) : s.acquire rq k =
    (lockWord (if (s.lock k).broken then 5 else 1) (s.lockId rq),
      (s.setLock k ⟨some (s.lockId rq), false⟩).addSat F.LCK_CNT_ACQ 1) := by
  simp only [State.acquire, h]

theorem acquire_of_holder (h : (s.lock k).holder = some (s.lockId rq)) :
    s.acquire rq k = (lockWord 3 (s.lockId rq), s) := by
  simp only [State.acquire, h, if_true]

theorem acquire_of_other {h : Nat × Nat × Nat} (hh : (s.lock k).holder = some h) (ne : h ≠ s.lockId rq) :
    s.acquire rq k = (lockWord 8 h, s) := by
  simp only [State.acquire, hh, if_neg ne]

theorem completes_lockAcquire (hs : s.mapsWf = true) (hk : k < 16) (hl : lockNo (lockReg rq k) = some k)
    (hr : s.reachable rq = true) (hd : s.readDenied rq false (lockReg rq k) = none) (hb : s.lockBars rq k = false) :
    completes (.lockAcquire rq k) s fun t =>
      ((s.lock k).holder = none → t.lock k = ⟨some (s.lockId rq), false⟩ ∧
        t.fld F.LCK_CNT_ACQ = min (s.fld F.LCK_CNT_ACQ + 1) 65535 ∧
        t.rdata = lockWord (if (s.lock k).broken then 5 else 1) (s.lockId rq)) ∧
      ((s.lock k).holder = some (s.lockId rq) → t.lock k = s.lock k ∧ t.rdata = lockWord 3 (s.lockId rq)) ∧
      (∀ h, (s.lock k).holder = some h → h ≠ s.lockId rq → t.lock k = s.lock k ∧ t.rdata = lockWord 8 h) ∧
      changesOnly [.rdata, .locks, .reg A.LCK_CNT] s t := by
  refine ⟨_, exec_lockAcquire hk hl hr hd hb, fun free => ?_, fun mine => ?_, fun h theirs ne => ?_, ?_⟩
  · rw [acquire_of_free free]
    exact ⟨lock_setLock hs, fld_addSat (regsWf_setLock hs) (by decide), rfl⟩
  · rw [acquire_of_holder mine]
    exact ⟨rfl, rfl⟩
  · rw [acquire_of_other theirs ne]
    exact ⟨rfl, rfl⟩
  · have frame : Closed [.rdata, .locks, .reg A.LCK_CNT] (changesOnly [.rdata, .locks, .reg A.LCK_CNT] s) :=
      closed_changesOnly (by decide)
    exact latch_ind (frame.mono (by decide)) (acquire_ind (frame.mono (by decide)) (changesOnly_refl s))

/-! ## The end of a lease (R153) -/

theorem completes_leaseExpiry (hs : s.mapsWf = true) (hk : k < 16) (hp : s.powered = true)
    (hh : (s.lock k).holder.isSome = true) (hw : s.sys.pstate ≠ .stowCold) :
    completes (.leaseExpiry k) s fun t => t.lock k = ⟨none, true⟩ ∧
      t.fld F.LCK_CNT_BREAKS = min (s.fld F.LCK_CNT_BREAKS + 1) 65535 ∧ t.bit (F.PIRQ 0x09) 8 = true ∧
      ∀ j, j ≠ k → t.lock j = s.lock j := by
  have warm : (s.sys.pstate == .stowCold) = false := beq_false_of_ne hw
  refine completes_when rfl (by simp [hp, hk, hh, warm]) fun _ => ⟨?_, ?_, ?_, fun j hj => ?_⟩
  · exact raise_ind (P := fun t => t.lock k = ⟨none, true⟩) (closed_lock (by decide)) (lock_setLock hs)
  · exact (fld_raise_of_avoids (by decide)).trans (fld_addSat (regsWf_setLock hs) (by decide))
  · exact bit_raise (regsWf_setFld (regsWf_setLock hs)) (by decide)
  · exact raise_ind (P := fun t => t.lock j = s.lock j) (closed_lock (by decide)) (lock_setLock_ne hj)

/-! ## Releasing (R154) -/

theorem release_of_holder (h : (s.lock k).holder = some (s.lockId rq)) :
    s.release rq k = some (s.setLock k ⟨none, false⟩) := if_pos h

theorem release_of_other (h : (s.lock k).holder ≠ some (s.lockId rq)) : s.release rq k = none := if_neg h

theorem lockPermit_release : s.lockPermit rq k 1 =
    if (s.lock k).holder = some (s.lockId rq) then ⟨some 1, none⟩ else ⟨none, some 9⟩ := by
  by_cases h : (s.lock k).holder = some (s.lockId rq)
  · simp [State.lockPermit, release_of_holder h, h, Verdict.ok]
  · simp [State.lockPermit, release_of_other h, h, Verdict.no, dcHOLDER]

theorem lockReg_is_plain : ∀ k < 16, isSel (A.LCK_L k) = false ∧ freeSel (A.LCK_L k) = false := by decide

theorem seat_lockReg (hk : k < 16) : s.seat rq (A.LCK_L k) = s.lockSeat := by
  have page : A.LCK_L k / 256 = 9 := by unfold A.LCK_L; omega
  have offset : A.LCK_L k % 256 = 0x40 + 4 * k := by unfold A.LCK_L; omega
  have header : ¬ 0x40 + 4 * k < 0x40 := by omega
  have waveform : A.LCK_L k ≠ A.NVS_WSEL := by unfold A.LCK_L A.NVS_WSEL; omega
  have gate : A.LCK_L k ≠ A.ROS_GATE := by unfold A.LCK_L A.ROS_GATE; omega
  have lock : 0x40 + 4 * k < 0x80 := by omega
  simp [State.seat, page, offset, header, waveform, (lockReg_is_plain k hk).1, gate, lock]

theorem permitAt_lock_release (hk : k < 16) (whole : s.pownBad.contains 0x09 = false) :
    s.permitAt rq (A.LCK_L k) 1 =
      if (s.lock k).holder = some (s.lockId rq) then ⟨some 1, none⟩ else ⟨none, some 9⟩ := by
  have page : A.LCK_L k / 256 = 9 := by unfold A.LCK_L; omega
  have offset : A.LCK_L k % 256 = 0x40 + 4 * k := by unfold A.LCK_L; omega
  have open_ : s.seat rq (A.LCK_L k) = Seat.open := (seat_lockReg hk).trans (if_neg (by simpa using whole))
  have shut : ¬ (shutCause (s.seat rq (A.LCK_L k)) rq (A.LCK_L k) dcWP).isSome = true := by
    rw [open_, shutCause_of_whole rfl]; decide
  have number : (A.LCK_L k % 256 - 0x40) / 4 = k := by omega
  unfold State.permitAt
  extract_lets p o x general one act
  refine (if_neg shut).trans ((if_neg (by simp [(lockReg_is_plain k hk).2])).trans ((if_neg (show ¬ o = 0x20 by omega)).trans
    ((if_neg (show ¬ o < 0x40 by omega)).trans ((if_pos (show p = 0x09 ∧ o < 0x80 by omega)).trans ?_))))
  rw [show o = A.LCK_L k % 256 from rfl, number]
  exact lockPermit_release

/-- No page is implemented beyond the TN pages. -/
theorem masksAt_eq_none_of_beyond (h : 0x38 ≤ a / 256) : masksAt a = none := by
  have implemented : ∀ d ∈ pageDirectory, d.page < 0x38 := by decide
  have unlisted : pageDef (a / 256) = none :=
    firstWith_eq_none fun d hd => beq_false_of_ne fun e => absurd (implemented d hd) (by omega)
  rw [masksAt, unlisted]

theorem isSel_tn_lock : ∀ n < 8, ∀ k < 16, isSel (0x3080 + 256 * n + 4 * k) = false := by decide

theorem standsAlone_window_lock (hk : k < 16) : standsAlone (0x3080 + 256 * n + 4 * k) = true := by
  have offset : (0x3080 + 256 * n + 4 * k) % 256 ≠ 0x68 := by omega
  refine standsAlone_iff.mpr ⟨?_, by rw [beq_false_of_ne offset, Bool.and_false]⟩
  by_cases hn : n < 8
  · exact isSel_tn_lock n hn k hk
  · exact isSel_of_masksAt_none (masksAt_eq_none_of_beyond (by omega))

theorem standsAlone_lockReg (hk : k < 16) : standsAlone (lockReg rq k) = true := by
  cases rq
  case window n => exact standsAlone_window_lock hk
  all_goals exact (by decide : ∀ k < 16, standsAlone (A.LCK_L k) = true) k hk

theorem exec_lockRelease (hr : s.reachable rq = true) (hk : k < 16)
    (hd : s.decideWrites rq [⟨lockReg rq k, 1, false, false⟩] = ([(lockReg rq k, 1)], [])) :
    exec (.lockRelease rq k) s =
      .next (State.effects s rq [(lockReg rq k, 1)] (s.storeAll rq [(lockReg rq k, 1)])) := by
  have reg : tnOr rq (0x80 + 4 * k) (A.LCK_L k) = lockReg rq k := by
    cases rq
    case window n => show 0x3000 + 256 * n + (0x80 + 4 * k) = 0x3080 + 256 * n + 4 * k; omega
    all_goals rfl
  have alone : ∀ w ∈ [(⟨lockReg rq k, 1, false, false⟩ : Wr)], standsAlone w.addr = true :=
    List.forall_mem_singleton.mpr (standsAlone_lockReg hk)
  refine congrArg Host.Outcome.next ((if_pos (decide_eq_true hk)).trans ((write_of_reachable hr).trans ?_))
  rw [reg]
  exact congrArg Done.state (commit_undenied alone hd)

theorem written_of_ne {v b : Nat} (h : a ≠ b) : written [(a, v)] b = [] := by simp [written, h]

/-- A lock's write is none to a command register of a TN page. -/
theorem tnAfter_lock {v : Nat} (hl : lockNo a = some k) :
    State.tnAfter rq [(a, v)] s = if v % 2 = 1 then (s.release rq k).getD s else s := by
  have command : ∀ n < 8, lockNo (A.TN_CMD n) = none ∧ lockNo (A.TN_CCTL n) = none := by decide
  have quiet : forEach (List.range 8) (fun n s =>
      let s2 := s.asmFeed n ((written [(a, v)] (A.TN_CMD n)).flatMap fun v => bytesLE 4 v)
      if (written [(a, v)] (A.TN_CCTL n)).any (fun v => v % 2 == 1) then s2.asmDrop n (s2.fld (F.TN_CSTAT_ERR n)) else s2) s = s := by
    refine forEach_ind_mem (Q := (· = s)) (fun n hn t ht => ?_) rfl
    obtain ⟨cmd, cctl⟩ := command n (List.mem_range.mp hn)
    rw [written_of_ne fun e => by simp [e, cmd] at hl, written_of_ne fun e => by simp [e, cctl] at hl]
    exact ht
  unfold State.tnAfter
  rw [quiet]
  show (match lockNo a with | none => s | some k => if v % 2 = 1 then (s.release rq k).getD s else s) = _
  rw [hl]

end

/-- Settles O27: a read that nothing denies is one attempt on the lock, by who holds it; the end of a lease is one update. -/
theorem lockIsAcquired : Obligations.LockIsAcquired := by
  unfold Obligations.LockIsAcquired
  refine ⟨fun s rq k a hs hk ha hl hr hd hb => ?_, fun s k => completes_leaseExpiry⟩
  subst ha
  exact completes_lockAcquire hs hk hl hr hd hb

/-- Settles O28: the permission looks at the holder, and so does the effect of the write that it lets through. -/
theorem lockIsReleasedByItsHolder : Obligations.LockIsReleasedByItsHolder := by
  unfold Obligations.LockIsReleasedByItsHolder
  refine ⟨fun s rq k => permitAt_lock_release, fun s rq k hs mine => ?free, fun s rq k => release_of_other,
    fun u rq k a _ hu _ hl mine => ?effect, fun s rq k a hr hk ha hd => ?command⟩
  case free =>
    exact ⟨_, release_of_holder mine, lock_setLock hs, changesOnly_setLock, fun j hj => lock_setLock_ne hj⟩
  case effect =>
    rw [tnAfter_lock hl, if_pos rfl, release_of_holder mine]
    exact lock_setLock hu
  case command =>
    subst ha
    exact exec_lockRelease hr hk hd

end Sys2Proof.Machine

/-! The order of the access checks (R136, R140, R141, R145), and the record of a denied access (R146). -/

namespace Sys2Proof.Machine

section
variable {s : State} {rq : Requester} {via : Bool} {w : Wr} {a c n p : Nat}

/-! ## Writes -/

theorem permit_of_part (hw : writable w.addr = true) (hq : rq ≠ .internal) (hp : w.part = true) :
    s.permit rq w = .no dcPARTIAL := by
  simp [State.permit, hw, hq, hp]

theorem permit_of_lifeDenies (hw : writable w.addr = true) (hq : rq ≠ .internal) (hp : w.part = false)
    (hl : s.lifeDenies rq (w.addr / 256) = true) : s.permit rq w = .no dcLIFECYCLE := by
  simp [State.permit, hw, hq, hp, hl]

theorem permit_of_not_reaches (hw : writable w.addr = true) (hq : rq ≠ .internal) (hp : w.part = false)
    (hl : s.lifeDenies rq (w.addr / 256) = false) (hr : reaches rq w.via (w.addr / 256) = false) :
    s.permit rq w = .no dcREACH := by
  simp [State.permit, hw, hq, hp, hl, hr]

theorem reaches_window_iff : reaches (.window n) false p = true ↔ p = 0x30 + n := by simp [reaches]

/-! ## Reads -/

theorem readReg_of_readDenied (h : s.readDenied rq via a = some c) : s.readReg rq via a = (0, s.deny rq a c false) := by
  simp only [State.readReg, h]

section
variable (hq : rq ≠ .internal) (ha : masksAt a ≠ none)
include hq ha

theorem readDenied_of_lifeDenies (hl : s.lifeDenies rq (a / 256) = true) : s.readDenied rq via a = some dcLIFECYCLE := by
  simp [State.readDenied, hq, ha, hl]

theorem readDenied_of_not_reaches (hl : s.lifeDenies rq (a / 256) = false) (hr : reaches rq via (a / 256) = false) :
    s.readDenied rq via a = some dcREACH := by
  simp [State.readDenied, hq, ha, hl, hr]

end

/-! ## Seats of which no requester is left -/

/-- A seat that a mismatch has shut belongs to no one (R144). -/
def Ownerless (x : Seat) : Prop := x.bad = true → x.owner = none

theorem ownerless_of_whole {x : Seat} (h : x.bad = false) : Ownerless x := fun hb => by simp [h] at hb

theorem ownerless_sealed : Ownerless Seat.sealed := fun _ => rfl

theorem ownerless_ite {q : Prop} [Decidable q] {x y : Seat} (hx : Ownerless x) (hy : Ownerless y) :
    Ownerless (if q then x else y) := ite_ind hx hy

theorem ownerless_pageSeat : Ownerless (s.pageSeat p) := ownerless_ite ownerless_sealed (ownerless_of_whole rfl)

theorem ownerless_resSeat {mism bad wp hp lock : Bool} {t : Nat} : Ownerless (s.resSeat p mism bad t wp hp lock) :=
  ownerless_ite ownerless_sealed (ownerless_ite (fun _ => rfl) (ownerless_of_whole rfl))

theorem ownerless_tenSeat {t : Nat} : Ownerless (s.tenSeat p t) := by
  intro hb
  by_cases h : s.pownBad.contains p = true
  · exact if_pos h
  · have whole : (s.tenSeat p t).bad = false := bad_pageSeat (by simpa using h)
    exact absurd hb (by simp [whole])

theorem ownerless_ownSeat : Ownerless (s.ownSeat rq p) := by
  unfold State.ownSeat
  by_cases h : s.pownBad.contains p = true
  · rw [if_pos h]
    exact ownerless_pageSeat
  · rw [if_neg h]
    exact ownerless_of_whole (bad_pageSeat (by simpa using h))

theorem ownerless_seat : Ownerless (s.seat rq a) := by
  unfold State.seat
  refine ownerless_ite ownerless_pageSeat <| ownerless_ite ownerless_pageSeat <| ownerless_ite ownerless_ownSeat <|
    ownerless_ite (ownerless_ite ownerless_resSeat <| ownerless_ite ownerless_resSeat ownerless_pageSeat) <|
    ownerless_ite ownerless_resSeat <|
    ownerless_ite (ownerless_ite ownerless_sealed (ownerless_of_whole rfl)) <|
    ownerless_ite ownerless_resSeat <| ownerless_ite ownerless_resSeat <| ownerless_ite ownerless_resSeat <|
    ownerless_ite (ownerless_ite ownerless_resSeat <| ownerless_ite ownerless_resSeat ownerless_ownSeat) <|
    ownerless_ite (ownerless_ite ownerless_tenSeat ownerless_tenSeat) <|
    ownerless_ite (ownerless_ite (fun hb => ownerless_tenSeat hb) <| ownerless_ite ownerless_tenSeat <|
      ownerless_ite ownerless_tenSeat ownerless_tenSeat) <|
    ownerless_ite ownerless_sealed ownerless_pageSeat

/-- The cause of a denial at a shut seat: OWNER exactly where the owner check denies. -/
theorem shutCause_of_bad (hb : (s.seat rq a).bad = true) (hf : (s.seat rq a).free = false) (ho : 0x40 ≤ a % 256) :
    shutCause (s.seat rq a) rq a c = some (if ownerDenies (s.seat rq a) rq then dcOWNER else c) := by
  have none_owns := ownerless_seat hb
  cases h : reqTenant rq <;> simp [shutCause, hb, ho, ownerDenies, h, hf, none_owns]

/-- The hub-wide registers of the pipeline have no owner, but where the page's attributes have mismatched. -/
theorem bad_seat_of_pipeRegs (h : pipeRegs a = true) (hf : (s.seat rq a).free = false) : (s.seat rq a).bad = true := by
  have hub : a = A.ASY_PIPE ∨ a = A.ASY_CRIT ∨ a = A.ASY_LOAD := by
    simpa [pipeRegs, or_assoc] using h
  have own : s.seat rq a = s.ownSeat rq 0x1A := by
    rcases hub with rfl | rfl | rfl <;> rfl
  rw [own] at hf ⊢
  by_cases hbad : s.pownBad.contains 0x1A = true
  · simp only [State.ownSeat, State.pageSeat, hbad, if_true]
    rfl
  · simp only [State.ownSeat, hbad] at hf
    cases hf

/-! ## The checks OWNER and HP of a plain block register (R140, R141) -/

section
variable {m1 m2 m3 : Nat} (hq : rq ≠ .internal) (hm : masksAt a = some ⟨m1, m2, m3, .plain⟩)
  (hl : s.lifeDenies rq (a / 256) = false) (hr : reaches rq via (a / 256) = true) (ho : 0x40 ≤ a % 256) (hp : a / 256 ≠ 0)
include hq hm hl hr ho hp

theorem readDenied_of_shut (h : shutCause (s.seat rq a) rq a dcHP = some c) : s.readDenied rq via a = some c := by
  have block : alwaysRead a = false := by simp [alwaysRead, hp]; omega
  simp [State.readDenied, hq, hm, hl, hr, block, h]

theorem readDenied_of_whole (h : (s.seat rq a).bad = false) (hf : perField a = false) (hpipe : pipeRegs a = false)
    (hw : woOnly a = false) : s.readDenied rq via a = if ownerDenies (s.seat rq a) rq then some dcOWNER
      else if (s.seat rq a).hp && s.enforced (s.seat rq a) && !(stewardFor rq (s.seat rq a).owner) then some dcHP else none := by
  have block : alwaysRead a = false := by simp [alwaysRead, hp]; omega
  simp [State.readDenied, hq, hm, hl, hr, block, shutCause_of_whole h, hf, hpipe, hw, ho]

theorem readDenied_owner (hf : perField a = false) (hw : woOnly a = false) (hfree : (s.seat rq a).free = false)
    (hd : ownerDenies (s.seat rq a) rq = true) : s.readDenied rq via a = some dcOWNER := by
  cases hb : (s.seat rq a).bad with
  | true =>
    refine readDenied_of_shut hq hm hl hr ho hp ?_
    rw [shutCause_of_bad hb hfree ho, if_pos hd]
  | false =>
    have hpipe : pipeRegs a = false := Bool.eq_false_iff.mpr fun h => by simp [bad_seat_of_pipeRegs h hfree] at hb
    rw [readDenied_of_whole hq hm hl hr ho hp hb hf hpipe hw, if_pos hd]

theorem readDenied_hidden (hf : perField a = false) (hw : woOnly a = false) (hfree : (s.seat rq a).free = false)
    (hd : ownerDenies (s.seat rq a) rq = false) (hidden : (s.seat rq a).hp = true) (fielded : s.fielded = true)
    (other : stewardFor rq (s.seat rq a).owner = false) : s.readDenied rq via a = some dcHP := by
  cases hb : (s.seat rq a).bad with
  | true =>
    refine readDenied_of_shut hq hm hl hr ho hp ?_
    rw [shutCause_of_bad hb hfree ho, hd]
    rfl
  | false =>
    have hpipe : pipeRegs a = false := Bool.eq_false_iff.mpr fun h => by simp [bad_seat_of_pipeRegs h hfree] at hb
    rw [readDenied_of_whole hq hm hl hr ho hp hb hf hpipe hw, hd, hidden, other, State.enforced, fielded]
    rfl

end

/-! ## The record of a denial (R146) -/

/-- The page's own record of a denial: PERR, PDEN and PIRQ bit 0. -/
def State.denialShown (s : State) (rq : Requester) (a c : Nat) (wr : Bool) : State :=
  ((s.setFld (F.PERR (a / 256)) (perrWord rq a c wr)).addSat (F.PDEN_COUNT (a / 256)) 1).raise (a / 256) 0

theorem probe_of_raised {req off aud : Nat} (h : s.tam.probeRaised = true) :
    s.probe req p off aud = s.addSat F.TAM_PCNT_CUR 1 := by
  unfold State.probe
  extract_lets counted
  rw [if_neg]
  simp [counted, h]

/-- A denial that finds PROBE raised already is counted there, and that is all beyond the page. -/
theorem deny_of_probeRaised {wr : Bool} (hq : rq ≠ .internal) (hp : s.tam.probeRaised = true) :
    s.deny rq a c wr = (s.denialShown rq a c wr).addSat F.TAM_PCNT_CUR 1 := by
  have raised : (s.denialShown rq a c wr).tam.probeRaised = true :=
    raise_ind (P := fun t => t.tam.probeRaised = true)
      (closed_of (p := .tam) (by simp [avoids, Part.covers]) fun _ _ (he : _ = _) h => he ▸ h) hp
  rw [State.deny, if_neg hq]
  exact probe_of_raised raised

theorem avoids_raise_header {o : Nat} (ho : o < 0x40) (h : o ≠ 0x18) :
    avoids (.reg (256 * p + 0x18) :: irqParts) (.reg (256 * p + o)) = true := by
  simp [avoids, irqParts, Part.covers]
  omega

theorem denial_is_shown {wr : Bool} (hs : s.mapsWf = true) (hq : rq ≠ .internal) (hp : s.tam.probeRaised = true) :
    let t := s.deny rq a c wr
    t.fld (F.PDEN_COUNT (a / 256)) = min (s.fld (F.PDEN_COUNT (a / 256)) + 1) (2 ^ (F.PDEN_COUNT (a / 256)).w - 1) ∧
    t.fld (F.PERR (a / 256)) = perrWord rq a c wr % 2 ^ (F.PERR (a / 256)).w ∧ t.bit (F.PIRQ (a / 256)) 0 = true := by
  intro t
  have page {o : Nat} (ho : o < 0x40) : 256 * (a / 256) + o ≠ F.TAM_PCNT_CUR.addr := by
    show _ ≠ 0x236c
    omega
  have counted {o lo k : Nat} (ho : o < 0x40) :
      t.fld ⟨256 * (a / 256) + o, lo, k⟩ = (s.denialShown rq a c wr).fld ⟨256 * (a / 256) + o, lo, k⟩ := by
    rw [show t = _ from deny_of_probeRaised hq hp]
    exact fld_setFld_ne (page ho)
  have apart : 256 * (a / 256) + 0x2C ≠ 256 * (a / 256) + 0x28 := by omega
  have recorded : (s.setFld (F.PERR (a / 256)) (perrWord rq a c wr)).regsWf = true := regsWf_setFld (mapsWf_regs hs)
  refine ⟨?count, ?err, ?irq⟩
  case count =>
    calc t.fld (F.PDEN_COUNT (a / 256))
      _ = (s.denialShown rq a c wr).fld (F.PDEN_COUNT (a / 256)) := counted (by decide)
      _ = _ := fld_raise_of_avoids (avoids_raise_header (by decide) (by decide))
      _ = _ := fld_addSat recorded (show 0 + 16 ≤ 32 by decide)
      _ = _ := by rw [fld_setFld_ne apart]
  case err =>
    calc t.fld (F.PERR (a / 256))
      _ = (s.denialShown rq a c wr).fld (F.PERR (a / 256)) := counted (by decide)
      _ = _ := fld_raise_of_avoids (avoids_raise_header (by decide) (by decide))
      _ = _ := fld_setFld_ne apart.symm
      _ = _ := fld_setFld (mapsWf_regs hs) (show 0 + 32 ≤ 32 by decide)
  case irq =>
    rw [State.bit, show t.fld (F.PIRQ (a / 256)) = _ from counted (by decide)]
    exact bit_raise (regsWf_setFld recorded) (by decide)

end

/-- Settles O59: each check answers where those before it pass. That a read of a write-only register is checked as any other
(log entry 38), and how selections and the registers of the Rose are hidden (log entry 158), is the model's choice. -/
theorem accessIsDeniedInOrder : Obligations.AccessIsDeniedInOrder := by
  unfold Obligations.AccessIsDeniedInOrder
  refine ⟨fun s rq w => permit_of_not_writable s rq,
    fun s rq w hw hq => ⟨permit_of_part hw hq, permit_of_lifeDenies hw hq, permit_of_not_reaches hw hq⟩,
    fun n p => reaches_window_iff,
    fun s rq via a hq ha => ⟨fun hl => readReg_of_readDenied (readDenied_of_lifeDenies hq ha hl),
      fun hl hr => readReg_of_readDenied (readDenied_of_not_reaches hq ha hl hr)⟩,
    fun s rq via a _ _ _ hq hm hl hr ho hp hf hw hfree =>
      ⟨fun hd => readReg_of_readDenied (readDenied_owner hq hm hl hr ho hp hf hw hfree hd),
        fun hd hidden fielded other =>
          readReg_of_readDenied (readDenied_hidden hq hm hl hr ho hp hf hw hfree hd hidden fielded other)⟩,
    fun s rq a c wr => denial_is_shown⟩

end Sys2Proof.Machine

/-! Adaptive loops (R149): the clamp of an update, what a commit leaves, and their reset values. -/

namespace Sys2Proof.Machine

section
variable {s : State} {g h : Nat} {x : Loop} {r home : Int}

/-! ## One loop -/

theorem closed_loop {l : List Part} (ha : avoids l .loops = true) : Closed l fun t => t.loop g = x :=
  closed_of ha fun _ _ (he : _ = _) ht => by rwa [State.loop, he]

theorem avoids_raise_loops (p : Nat) : avoids (.reg (256 * p + 0x18) :: irqParts) .loops = true := by
  simp [avoids, irqParts, Part.covers]

/-- What a loop has been set to stands through the page interrupt of PSTAT.SAT (R151). -/
theorem loop_putLoop_of_setLoop {k : Nat} {y : Loop} (e : (s.setLoop g x).loop k = y) : (s.putLoop g x).loop k = y :=
  ite_ind (Q := fun t : State => t.loop k = y)
    (raise_ind (P := fun t => t.loop k = y) (closed_loop (avoids_raise_loops _)) e) e

theorem loop_putLoop (hs : s.mapsWf = true) : (s.putLoop g x).loop g = x :=
  loop_putLoop_of_setLoop (mapGet_mapSet (mapsWf_loops hs))

theorem loop_putLoop_ne (hg : h ≠ g) : (s.putLoop g x).loop h = s.loop h :=
  loop_putLoop_of_setLoop (mapGet_mapSet_ne hg)

/-! ## The clamp -/

section
variable {lo hi : Int}

theorem clampLoop_of_below (hr : r < lo) : clampLoop lo hi r = ⟨lo, true, false⟩ := if_pos hr

theorem clampLoop_of_above (hl : lo ≤ r) (hr : hi < r) : clampLoop lo hi r = ⟨hi, false, true⟩ :=
  (if_neg (Int.not_lt.mpr hl)).trans (if_pos hr)

theorem clampLoop_of_within (hl : lo ≤ r) (hr : r ≤ hi) : clampLoop lo hi r = ⟨r, false, false⟩ :=
  (if_neg (Int.not_lt.mpr hl)).trans (if_neg (Int.not_lt.mpr hr))

end

theorem loop_loopUpdate (hs : s.mapsWf = true) :
    (s.loopUpdate g r).loop g = clampLoop (s.loopLo g) (s.loopHi g) r := loop_putLoop hs

/-! ## A commit to a loop's group -/

theorem loopCommitted_of_off (he : s.loopEn g = false) : s.loopCommitted g home = s.putLoop g ⟨home, false, false⟩ :=
  if_neg (by simp [he])

section
variable (he : s.loopEn g = true)
include he

theorem loopCommitted_of_below (hl : (s.loop g).out < s.loopLo g) :
    s.loopCommitted g home = s.putLoop g ⟨s.loopLo g, true, (s.loop g).satHi⟩ :=
  (if_pos he).trans (if_pos hl)

theorem loopCommitted_of_above (hl : s.loopLo g ≤ (s.loop g).out) (hh : s.loopHi g < (s.loop g).out) :
    s.loopCommitted g home = s.putLoop g ⟨s.loopHi g, (s.loop g).satLo, true⟩ :=
  (if_pos he).trans ((if_neg (Int.not_lt.mpr hl)).trans (if_pos hh))

theorem loopCommitted_of_within (hl : s.loopLo g ≤ (s.loop g).out) (hh : (s.loop g).out ≤ s.loopHi g) :
    s.loopCommitted g home = s :=
  (if_pos he).trans ((if_neg (Int.not_lt.mpr hl)).trans (if_neg (Int.not_lt.mpr hh)))

theorem loopCommitted_bounds (hs : s.mapsWf = true) (hb : s.loopLo g ≤ s.loopHi g) :
    let o := ((s.loopCommitted g home).loop g).out
    s.loopLo g ≤ o ∧ o ≤ s.loopHi g ∧
    (s.loopLo g ≤ (s.loop g).out → (s.loop g).out ≤ s.loopHi g → s.loopCommitted g home = s) ∧
    ((s.loop g).out < s.loopLo g → ((s.loopCommitted g home).loop g).satLo = true) ∧
    (s.loopHi g < (s.loop g).out → ((s.loopCommitted g home).loop g).satHi = true) := by
  rcases lt_or_ge (s.loop g).out (s.loopLo g) with below | notBelow
  · rw [loopCommitted_of_below he below, loop_putLoop hs]
    exact ⟨le_rfl, hb, fun hl => absurd hl (Int.not_le.mpr below), fun _ => rfl, fun hh => by omega⟩
  · rcases lt_or_ge (s.loopHi g) (s.loop g).out with above | within
    · rw [loopCommitted_of_above he notBelow above, loop_putLoop hs]
      exact ⟨hb, le_rfl, fun _ hh => absurd hh (Int.not_le.mpr above), fun hl => by omega, fun _ => rfl⟩
    · rw [loopCommitted_of_within he notBelow within]
      exact ⟨notBelow, within, fun _ _ => rfl, fun hl => by omega, fun hh => by omega⟩

end

theorem fld_fullReset {c : Cause} {n : Nat} {f : Fld} : (fullReset c n s).fld f = getBits (resetOf f.addr) f.lo f.w := rfl

end

/-- Settles O50: an update is the clamp of its result; a commit moves only an output beyond the bounds, or all of a loop
that is off. -/
theorem loopsStayInTheirBounds : Obligations.LoopsStayInTheirBounds := by
  unfold Obligations.LoopsStayInTheirBounds
  refine ⟨fun s g h r hs => ?update, fun s g home hs => ?commit, fun c h s => ?reset⟩
  case update =>
    rw [loop_loopUpdate hs]
    exact ⟨clampLoop_of_below, clampLoop_of_above, clampLoop_of_within, loop_putLoop_ne⟩
  case commit =>
    refine ⟨fun off => ?_, fun on => loopCommitted_bounds on hs⟩
    rw [loopCommitted_of_off off]
    exact loop_putLoop hs
  case reset =>
    simp only [fld_fullReset]
    decide

end Sys2Proof.Machine

/-! The Planisher's own loops at their updates (R481, R484, R490, R491). -/

namespace Sys2Proof.Machine

section
variable {s : State} {f g : Fld} {v m n : Nat}

/-! ## What shows that a loop or the clock is at work -/

theorem loopLive_setFld_ne {k : Nat} (h : k ≠ f.addr) : (s.setFld f v).loopLive k = s.loopLive k := by
  simp only [State.loopLive, State.loopEn, State.loopFrz, State.on]
  rw [fld_setFld_ne h, fld_setFld_ne h]

theorem changing_setFld_ne (h : A.CLK_GEAR ≠ f.addr) : (s.setFld f v).changing = s.changing := by
  simp only [State.changing, State.on]
  rw [fld_setFld_ne h, fld_setFld_ne h]

/-! ## Core voltage (R481) -/

/-- What an AVS update does beyond the margin that it shows. -/
def State.avsStep (s : State) (m : Nat) (step : Int) : State :=
  if !(s.loopLive loopAVS) || s.pln.gearMoved || s.changing then s
  else if m < s.fld F.PLN_AVS_CFG_MLO then s.learn step
  else if s.fld F.PLN_AVS_CFG_MHI < m then s.learn (-step)
  else s.learn 0

theorem execAvsUpdate_eq : execAvsUpdate m s = .next (s.when s.cclk fun s =>
    let t := (s.setFld F.PLN_AVS_STAT_MARGIN (min m 63)).avsStep (min m 63) (s.loopStep loopAVS)
    { t with pln := { t.pln with gearMoved := false } }) := rfl

theorem avsStep_of_still {step : Int} (h : s.loopLive loopAVS = false ∨ s.pln.gearMoved = true ∨ s.changing = true) :
    s.avsStep m step = s := by
  refine if_pos ?_
  rcases h with h | h | h <;> simp [h]

theorem reads_learn {d : Int} (h : Reads g v s) (ha : avoids [.reg 0x354, .loops, .reg 0x418, .reg 0x154, .reg 0x178,
    .reg 0x2048, .sys, .rose, .queues, .pendg, .tens, .pln] (.reg g.addr) = true) : Reads g v (s.learn d) :=
  learn_ind (closed_reads ha (by decide)) h

theorem reads_margin_avsStep {step : Int} (h : Reads F.PLN_AVS_STAT_MARGIN v s) :
    Reads F.PLN_AVS_STAT_MARGIN v (s.avsStep m step) := by
  have learned {d : Int} : Reads F.PLN_AVS_STAT_MARGIN v (s.learn d) := reads_learn h (by decide)
  exact ite_ind h (ite_ind learned (ite_ind learned learned))

theorem completes_avsUpdate (hs : s.regsWf = true) (hc : s.cclk = true) : completes (.avsUpdate m) s fun t =>
    t.fld F.PLN_AVS_STAT_MARGIN = min m 63 ∧ t.pln.gearMoved = false ∧
    (s.loopLive loopAVS = false ∨ s.pln.gearMoved = true ∨ s.changing = true → t.loop loopAVS = s.loop loopAVS) := by
  refine completes_when execAvsUpdate_eq hc fun _ => ⟨?_, rfl, fun still => ?_⟩
  · have shown : Reads F.PLN_AVS_STAT_MARGIN (min m 63) (s.setFld F.PLN_AVS_STAT_MARGIN (min m 63)) :=
      reads_setFld hs (by decide) (show min m 63 < 64 by omega)
    exact (reads_margin_avsStep shown).2
  · have still' : (s.setFld F.PLN_AVS_STAT_MARGIN (min m 63)).loopLive loopAVS = false ∨ s.pln.gearMoved = true ∨
        (s.setFld F.PLN_AVS_STAT_MARGIN (min m 63)).changing = true := by
      rwa [loopLive_setFld_ne (by decide), changing_setFld_ne (by decide)]
    show ((s.setFld F.PLN_AVS_STAT_MARGIN (min m 63)).avsStep (min m 63) (s.loopStep loopAVS)).loop loopAVS = _
    rw [avsStep_of_still still']
    rfl

/-- What a canary does to a running loop. -/
def State.canaryStep (s : State) : State :=
  if s.loopLive loopAVS then s.learn (4 * (s.loopStep loopAVS : Int)) else s

theorem execAvsCanary_eq : execAvsCanary s =
    .next (s.when s.cclk fun s => (s.canaryStep.addSat F.PLN_AVS_STAT_CANARY 1).raise 0x04 9) := rfl

theorem completes_avsCanary (hs : s.regsWf = true) (hc : s.cclk = true) : completes .avsCanary s fun t =>
    t.fld F.PLN_AVS_STAT_CANARY = min (s.fld F.PLN_AVS_STAT_CANARY + 1) 255 ∧ t.bit (F.PIRQ 0x04) 9 = true := by
  have before : Reads F.PLN_AVS_STAT_CANARY (s.fld F.PLN_AVS_STAT_CANARY) s := ⟨hs, rfl⟩
  have stepped : Reads F.PLN_AVS_STAT_CANARY (s.fld F.PLN_AVS_STAT_CANARY) s.canaryStep :=
    ite_ind (reads_learn before (by decide)) before
  have raised := stepped.addSat (n := 1) (by decide)
  refine completes_when execAvsCanary_eq hc fun _ => ?_
  exact ⟨(fld_raise_of_avoids (by decide)).trans raised.2, bit_raise raised.1 (by decide)⟩

/-! ## Gear governor (R484, R485) -/

theorem Reads.putOn {b : Bool} (h : Reads g v s) (ha : ApartFrom f g) : Reads g v (s.putOn f b) := Reads.setFld h ha

/-- U stands beside what the governor shows in PLN_GEAR_STAT. -/
theorem reads_u_floorStat (h : Reads F.PLN_GEAR_STAT_U v s) : Reads F.PLN_GEAR_STAT_U v s.floorStat := by
  unfold State.floorStat
  extract_lets unmet met shown flagged
  have hflagged : Reads F.PLN_GEAR_STAT_U v flagged :=
    ((((h.setFld (by decide)).setFld (by decide)).putOn (by decide)).putOn (by decide)).putOn (by decide)
  exact ite_ind (raise_ind (closed_reads (by decide) (by decide)) (risen_ind (closed_reads (by decide) (by decide)) hflagged))
    hflagged

theorem reads_u_regear (h : Reads F.PLN_GEAR_STAT_U v s) : Reads F.PLN_GEAR_STAT_U v s.regear := by
  unfold State.regear
  extract_lets shown asked base
  have hasked : Reads F.PLN_GEAR_STAT_U v asked :=
    gearRequest_ind (closed_reads (by decide) (by decide)) (reads_u_floorStat h)
  exact ite_ind (ite_ind (holdGear_ind (closed_reads (by decide) (by decide)) hasked) hasked) (reads_u_floorStat h)

theorem completes_gearWindowEnd {a b c d : Nat} (hs : s.regsWf = true) (ha : s.awake = true) :
    completes (.gearWindowEnd a b c d n) s fun t => t.fld F.PLN_GEAR_STAT_U = min 255 (share256 n [a, b, c, d]) := by
  refine completes_when rfl ha fun _ => ?_
  have shown : Reads F.PLN_GEAR_STAT_U (min 255 (share256 n [a, b, c, d]))
      (s.setFld F.PLN_GEAR_STAT_U (min 255 (share256 n [a, b, c, d]))) :=
    reads_setFld hs (by decide) (show min 255 (share256 n [a, b, c, d]) < 256 by omega)
  have governed {t : State} {u w : Nat} (h : Reads F.PLN_GEAR_STAT_U w t) : Reads F.PLN_GEAR_STAT_U w (t.govern u) :=
    putLoop_ind (s := t) (g := loopGEAR) (closed_reads (by decide) (by decide)) h
  exact (reads_u_regear (ite_ind (governed shown) shown)).2

/-! ## Harvester (R489-R491) -/

theorem completes_mpptPowerSample {i : Nat} (hr : s.mpptRuns = true) : completes (.mpptPowerSample v i) s fun t =>
    t.pln.pSum = s.pln.pSum + (quot ((v * i : Nat) : Int) 100).toNat ∧ t.pln.pCount = s.pln.pCount + 1 ∧
    changesOnly [.pln] s t :=
  completes_when rfl hr fun e => ⟨rfl, rfl, frame_of execMpptPowerSample_ind (by decide) e⟩

theorem pln_putLoop {k : Nat} {x : Loop} : (s.putLoop k x).pln = s.pln :=
  putLoop_ind (P := fun t => t.pln = s.pln) (closed_of (p := .pln) rfl fun _ _ (he : _ = _) h => he.trans h) rfl

/-- The period's sum of power is empty. -/
def SumEmpty (s : State) : Prop := s.pln.pSum = 0 ∧ s.pln.pCount = 0

theorem sumEmpty_putLoop {k : Nat} {x : Loop} (h : SumEmpty s) : SumEmpty (s.putLoop k x) := by
  rwa [SumEmpty, pln_putLoop]

/-- What an MPPT update is while the loop does not run (R489). -/
def State.mpptStill (s : State) : State :=
  let t : State := { s with pln := { s.pln with pSum := 0, pCount := 0 } }
  if s.loopLive loopMPPT && (s.on F.PWR_HSTAT_CEILING || s.on F.PWR_HSTAT_ILIM_ACT) then
    t.putLoop loopMPPT { t.loop loopMPPT with satHi := true, satLo := false }
  else t

theorem execMpptUpdate_eq : execMpptUpdate s = .next (s.when s.powered fun s =>
    if s.mpptRuns then s.mpptStep (quot s.pln.pSum s.pln.pCount).toNat else s.mpptStill) := rfl

theorem sumEmpty_mpptStill : SumEmpty s.mpptStill := ite_ind (sumEmpty_putLoop ⟨rfl, rfl⟩) ⟨rfl, rfl⟩

theorem completes_mpptUpdate (hp : s.powered = true) :
    completes .mpptUpdate s fun t => t.pln.pSum = 0 ∧ t.pln.pCount = 0 :=
  completes_when execMpptUpdate_eq hp fun _ => ite_ind (Q := SumEmpty) ⟨rfl, rfl⟩ sumEmpty_mpptStill

/-- The converter's display marks a resample as due, and no more of the loop. -/
theorem pln_harvShow : s.harvShow.pln.vocPause = s.pln.vocPause ∧ s.harvShow.pln.dirUp = s.pln.dirUp :=
  ite_ind (Q := fun t : State => t.pln.vocPause = s.pln.vocPause ∧ t.pln.dirUp = s.pln.dirUp) ⟨rfl, rfl⟩ ⟨rfl, rfl⟩

/-- The converter stops for a pause (R491). -/
theorem charging_harvShow_of_vocPause (hs : s.regsWf = true) (h : s.pln.vocPause = true) :
    s.harvShow.on F.PWR_HSTAT_CHARGING = false := by
  have shown : s.harvShow.fld F.PWR_HSTAT_CHARGING = 0 :=
    (fld_putOn (regsWf_mpptWatch hs) (by decide)).trans (if_neg (by simp [h]))
  rw [State.on, shown]
  rfl

theorem completes_vocResampleStart (hs : s.regsWf = true) (hr : s.mpptRuns = true) (hd : s.on F.SYS_DIP_ACTIVE = false)
    (hv : s.pln.vocWait = true ∨ s.on F.PLN_MPPT_CFG_VOCPER = true) : completes .vocResampleStart s fun t =>
      t.pln.vocPause = true ∧ t.on F.PWR_HSTAT_CHARGING = false :=
  have due : (s.mpptRuns && !(s.on F.SYS_DIP_ACTIVE) && (s.pln.vocWait || s.on F.PLN_MPPT_CFG_VOCPER)) = true := by
    rw [hr, hd, (Bool.or_eq_true _ _).mpr hv]
    rfl
  completes_when rfl due fun _ => ⟨pln_harvShow.1, charging_harvShow_of_vocPause
    (s := { s with pln := { s.pln with vocPause := true, vocWait := false } }) hs rfl⟩

/-- The voltage code that a pause has measured. -/
def vocCode (v : Nat) : Nat := min (quot v 20).toNat 1023

/-- What the end of a pause leaves in the registers and in the loop's output: VOC, the output that a running loop takes from
it, and DIR. -/
def State.vocStored (s : State) (v : Nat) : State :=
  let t := s.setFld F.PLN_MPPT_STAT_VOC (vocCode v)
  (if t.loopLive loopMPPT then t.loopUpdate loopMPPT ((vocCode v * t.fld F.PLN_MPPT_CFG_KOC / 256 : Nat) : Int)
    else t).setFld F.PLN_MPPT_STAT_DIR 0

/-- The loop starts upward again. -/
def State.mpptAfresh (s : State) : State :=
  { s with pln := { s.pln with vocPause := false, dirUp := true, pPrev := 0, pSum := 0, pCount := 0, zeroRun := 0 } }

theorem execVocPauseEnd_eq : execVocPauseEnd v s =
    .next (s.when (s.powered && s.pln.vocPause && decide (s.sys.pstate ≠ .stowCold)) fun s =>
      (s.vocStored v).mpptAfresh.harvShow.raise 0x04 10) := rfl

theorem vocStored_shows (hs : s.regsWf = true) :
    Reads F.PLN_MPPT_STAT_VOC (vocCode v) (s.vocStored v) ∧ Reads F.PLN_MPPT_STAT_DIR 0 (s.vocStored v) := by
  have code : vocCode v < 1024 := by
    unfold vocCode
    omega
  have measured : Reads F.PLN_MPPT_STAT_VOC (vocCode v) (s.setFld F.PLN_MPPT_STAT_VOC (vocCode v)) :=
    reads_setFld hs (by decide) code
  unfold State.vocStored
  extract_lets t
  have aimed {r : Int} : Reads F.PLN_MPPT_STAT_VOC (vocCode v)
      (if t.loopLive loopMPPT = true then t.loopUpdate loopMPPT r else t) :=
    ite_ind (putLoop_ind (closed_reads (by decide) (by decide)) measured) measured
  exact ⟨aimed.setFld (by decide), reads_setFld aimed.1 (by decide) (by decide)⟩

theorem completes_vocPauseEnd (hs : s.regsWf = true) (hp : s.powered = true) (hv : s.pln.vocPause = true)
    (hc : s.sys.pstate ≠ .stowCold) : completes (.vocPauseEnd v) s fun t =>
      t.pln.vocPause = false ∧ t.fld F.PLN_MPPT_STAT_VOC = min (quot v 20).toNat 1023 ∧ t.fld F.PLN_MPPT_STAT_DIR = 0 ∧
      t.pln.dirUp = true ∧ t.bit (F.PIRQ 0x04) 10 = true := by
  refine completes_when execVocPauseEnd_eq (by simp [hp, hv, hc]) fun _ => ?_
  obtain ⟨voc, dir⟩ := vocStored_shows (v := v) hs
  have wf : (s.vocStored v).mpptAfresh.regsWf = true := voc.1
  have shown {f : Fld} (ha : ApartFrom F.PWR_HSTAT_CHARGING f)
      (hr : avoids (.reg (256 * 0x04 + 0x18) :: irqParts) (.reg f.addr) = true) :
      ((s.vocStored v).mpptAfresh.harvShow.raise 0x04 10).fld f = (s.vocStored v).fld f :=
    (fld_raise_of_avoids hr).trans (fld_harvShow wf ha)
  have loop : ((s.vocStored v).mpptAfresh.harvShow.raise 0x04 10).pln = (s.vocStored v).mpptAfresh.harvShow.pln :=
    raise_ind (P := fun t => t.pln = (s.vocStored v).mpptAfresh.harvShow.pln)
      (closed_of (p := .pln) rfl fun _ _ (he : _ = _) h => he.trans h) rfl
  refine ⟨?_, (shown (by decide) (by decide)).trans voc.2, (shown (by decide) (by decide)).trans dir.2, ?_,
    bit_raise (regsWf_harvShow wf) (by decide)⟩
  · rw [loop]
    exact pln_harvShow.1
  · rw [loop]
    exact pln_harvShow.2

end

/-- Settles O47: each update is one expression of the loop's state, and the fields that it shows stand through what the loop
and the interrupt do afterwards. How the power and the voltage code are rounded (log entry 11) is the model's choice. -/
theorem planisherLoopsRun : Obligations.PlanisherLoopsRun := by
  unfold Obligations.PlanisherLoopsRun
  exact ⟨fun s m hs => completes_avsUpdate (mapsWf_regs hs), fun s hs => completes_avsCanary (mapsWf_regs hs),
    fun s a b c d n hs => completes_gearWindowEnd (mapsWf_regs hs), fun s v i => completes_mpptPowerSample,
    fun s => completes_mpptUpdate, fun s hs => completes_vocResampleStart (mapsWf_regs hs),
    fun s v hs => completes_vocPauseEnd (mapsWf_regs hs)⟩

end Sys2Proof.Machine

/-! The Sextant (R292-R297): the loss of lock, the comparators, the bandwidth loop and the index. -/

namespace Sys2Proof.Machine

section
variable {s t : State} {f g : Fld} {v i k c stamp : Nat} {th : BitVec 96} {m : BitVec 32}

/-! ## The displays (R307) -/

/-- The fields that follow the observer. -/
def shownFlds : List Fld :=
  [F.SXT_STAT_REL, F.SXT_STAT_NEG, F.SXT_STAT_GRAV, F.SXT_STAT_GYRO, F.SXT_STAT_GOOD, F.SXT_SPEED_W, F.SXT_BIAS_B,
    F.SXT_GOFS_CUR_A]

theorem Reads.sxtShow (h : Reads g v s) (ha : ∀ f ∈ shownFlds, ApartFrom f g) : Reads g v s.sxtShow := by
  have shown {t : State} {f : Fld} {w : Nat} (hf : f ∈ shownFlds) (ht : Reads g v t) : Reads g v (t.setFld f w) :=
    ht.setFld (ha f hf)
  exact shown (by decide) (shown (by decide) (shown (by decide) (shown (by decide) (shown (by decide) (shown (by decide)
    (shown (by decide) (shown (by decide) h)))))))

/-! ## The loss of lock (R294) -/

/-- What a loss of lock writes before it is told. -/
def State.lockDropped (s : State) (c : Nat) : State :=
  ((((s.setFld F.SXT_STAT_LOCK 0).setFld F.SXT_STAT_CAUSE c).setFld F.SXT_EVT_LOST 1).setFld F.SXT_EVT_REV_SUSPECT 1).addSat
    F.SXT_CNT_LOSSES 1

/-- How a loss of lock is told: two page interrupts, the Rose and the displays. -/
def State.lossTold (s₀ s : State) : State := ((((s₀.risen [0x07] s).raise 0x07 8).raise 0x18 9).presentAt 49).sxtShow

/-- A loss of lock ends the acquisition's counts and leaves the angle and the last index stamp. -/
theorem sxtLose_of_locked (h : s.locked = true) : ∃ x : Sxt, x.theta = s.sxt.theta ∧ x.lastIdx = s.sxt.lastIdx ∧
    s.sxtLose c = s.lossTold { s.lockDropped c with sxt := x } := by
  unfold State.sxtLose
  rw [if_pos h]
  refine ⟨_, ?_, ?_, rfl⟩
  · rfl
  · rfl

theorem reads_lockDropped (hs : s.regsWf = true) :
    Reads F.SXT_STAT_LOCK 0 (s.lockDropped c) ∧ Reads F.SXT_EVT_LOST 1 (s.lockDropped c) := by
  have lock : Reads F.SXT_STAT_LOCK 0 (s.setFld F.SXT_STAT_LOCK 0) := reads_setFld hs (by decide) (by decide)
  have lost : Reads F.SXT_EVT_LOST 1 (((s.setFld F.SXT_STAT_LOCK 0).setFld F.SXT_STAT_CAUSE c).setFld F.SXT_EVT_LOST 1) :=
    reads_setFld (regsWf_setFld lock.1) (by decide) (by decide)
  exact ⟨(((lock.setFld (by decide)).setFld (by decide)).setFld (by decide)).setFld (by decide),
    (lost.setFld (by decide)).setFld (by decide)⟩

/-- What tells of a loss. -/
def toldParts : List Part := .reg 0x718 :: .reg 0x1818 :: irqParts

theorem Reads.lossTold (h : Reads g v t) (ha : ∀ f ∈ shownFlds, ApartFrom f g) (hp : avoids toldParts (.reg g.addr) = true) :
    Reads g v (s.lossTold t) := by
  have told : Closed toldParts (Reads g v) := closed_reads hp (by decide)
  exact Reads.sxtShow (presentAt_ind (told.mono (by decide)) (raise_ind (told.mono (by decide))
    (raise_ind (told.mono (by decide)) (risen_ind (told.mono (by decide)) h)))) ha

theorem latched_lossTold (ht : t.regsWf = true) : Latched 0x07 8 (s.lossTold t) := by
  have wf : (State.risen s [0x07] t).regsWf = true := risen_ind (closed_regsWf.mono (by decide)) ht
  have raised : Latched 0x07 8 ((State.risen s [0x07] t).raise 0x07 8) :=
    ⟨regsWf_raise wf (by decide), bit_raise wf (by decide)⟩
  exact sxtShow_ind (closed_latched (by decide) (by decide))
    (presentAt_ind (closed_latched (by decide) (by decide)) (latched_raise raised))

theorem sxtLose_shows (hs : s.regsWf = true) (hl : s.locked = true) : (s.sxtLose c).locked = false ∧
    (s.sxtLose c).fld F.SXT_EVT_LOST = 1 ∧ (s.sxtLose c).bit (F.PIRQ 0x07) 8 = true := by
  obtain ⟨x, _, _, e⟩ := sxtLose_of_locked (c := c) hl
  obtain ⟨lock, lost⟩ := reads_lockDropped (c := c) hs
  have dropped : Reads F.SXT_STAT_LOCK 0 { s.lockDropped c with sxt := x } := lock
  have counted : Reads F.SXT_EVT_LOST 1 { s.lockDropped c with sxt := x } := lost
  rw [e]
  refine ⟨?_, (counted.lossTold (by decide) (by decide)).2, (latched_lossTold dropped.1).2⟩
  rw [State.locked, State.on, (dropped.lossTold (by decide) (by decide)).2]
  rfl

/-- The causes that the observer's state decides (R293, R294). -/
def State.lossHolds (s : State) (c : Nat) : Prop :=
  (c = 1 ∧ s.lose ≤ s.sxt.bad) ∨ (c = 2 ∧ s.sxtMissing = true) ∨ (c = 3 ∧ s.tooSlow = true) ∨ (c = 4 ∧ s.tooFast = true)

theorem exec_sxtLockLost (ha : s.awake = true) (hp : s.pageOn 0x07 = true) (hc : s.lossHolds c) :
    exec (.sxtLockLost c) s = .next (s.sxtLose c) := by
  rcases hc with ⟨rfl, h⟩ | ⟨rfl, h⟩ | ⟨rfl, h⟩ | ⟨rfl, h⟩ <;>
    exact congrArg Host.Outcome.next (if_pos (by simp [ha, hp, h]))

/-! ## Comparators (R296) -/

/-- What a comparator's fire does after its flag: the interrupt, its disarming, the Rose. -/
def State.cmpTold (s : State) (k : Nat) : State :=
  let t := s.raise 0x07 10
  (if t.on (F.SXT_CMP_ONCE k) then t.setFld (F.SXT_CMP_EN k) 0 else t).presentCmp k

/-- A fire notes on which side of its angle the comparator stands. -/
def State.cmpMoved (s : State) (k : Nat) : State :=
  s.modSxt fun x => { x with cmpPast := listSet x.cmpPast k (s.angleOn (s.cmpFrom k) (s.cmpDist k)) }

theorem fld_cmpMoved : (s.cmpMoved k).fld f = s.fld f := rfl

theorem execAngleComparatorFire_eq : execAngleComparatorFire k s = .next (s.when
    (decide (k < 16) && s.awake && s.locked && s.on (F.SXT_CMP_EN k) && s.cmpPasses k) fun s =>
      ((s.cmpMoved k).setBit F.SXT_CMPSTAT_FIRED k).cmpTold k) := rfl

theorem cmpTold_ind {P : State → Prop} (hC : Closed [.reg (0x7c0 + 4 * k), .rose] P) (h : P (s.raise 0x07 10)) :
    P (s.cmpTold k) :=
  presentCmp_ind (hC.mono (by simp [needsAll, Part.needs]))
    (ite_ind (setFld_ind (hC.mono (by simp [needsAll, Part.needs, F.SXT_CMP_EN])) h) h)

theorem avoids_cmp {a : Nat} (h : a < 0x7c0) : avoids [.reg (0x7c0 + 4 * k), .rose] (.reg a) = true := by
  have elsewhere : 0x7c0 + 4 * k ≠ a := by omega
  simp [avoids, Part.covers, elsewhere]

theorem bit_cmpTold (hf : f.addr < 0x7c0) (h : (s.raise 0x07 10).bit f i = true) : (s.cmpTold k).bit f i = true :=
  cmpTold_ind (closed_bit (avoids_cmp hf)) h

theorem fld_cmp_raise {lo w : Nat} (hk : k < 16) : (s.raise 0x07 10).fld ⟨0x7c0 + 4 * k, lo, w⟩ = s.fld ⟨0x7c0 + 4 * k, lo, w⟩ :=
  fld_raise_of_avoids ((by decide : ∀ k < 16, avoids (.reg (256 * 0x07 + 0x18) :: irqParts) (.reg (0x7c0 + 4 * k)) = true) k hk)

theorem en_cmpTold (hs : s.regsWf = true) (hk : k < 16) : (s.cmpTold k).fld (F.SXT_CMP_EN k) =
    if s.on (F.SXT_CMP_ONCE k) then 0 else s.fld (F.SXT_CMP_EN k) := by
  have once : (s.raise 0x07 10).on (F.SXT_CMP_ONCE k) = s.on (F.SXT_CMP_ONCE k) :=
    congrArg (· != 0) (fld_cmp_raise hk)
  have presented {t : State} : (t.presentCmp k).fld (F.SXT_CMP_EN k) = t.fld (F.SXT_CMP_EN k) :=
    presentCmp_ind (P := fun u => u.fld (F.SXT_CMP_EN k) = t.fld (F.SXT_CMP_EN k))
      (closed_fld (by simp [avoids, Part.covers])) rfl
  unfold State.cmpTold
  extract_lets t
  rw [presented, once]
  split
  · exact fld_setFld (regsWf_raise hs (by decide)) (show 0 + 1 ≤ 32 by decide)
  · exact fld_cmp_raise hk

theorem completes_angleComparatorFire (hs : s.regsWf = true) (hk : k < 16) (ha : s.awake = true) (hl : s.locked = true)
    (he : s.on (F.SXT_CMP_EN k) = true) (hp : s.cmpPasses k = true) : completes (.angleComparatorFire k) s fun t =>
      t.bit F.SXT_CMPSTAT_FIRED k = true ∧ t.bit (F.PIRQ 0x07) 10 = true ∧
      t.fld (F.SXT_CMP_EN k) = (if s.on (F.SXT_CMP_ONCE k) then 0 else s.fld (F.SXT_CMP_EN k)) := by
  refine completes_when execAngleComparatorFire_eq (by simp [hk, ha, hl, he, hp]) fun _ => ?_
  have moved : (s.cmpMoved k).regsWf = true := hs
  have fired : ((s.cmpMoved k).setBit F.SXT_CMPSTAT_FIRED k).bit F.SXT_CMPSTAT_FIRED k = true :=
    bit_setBit moved (by decide) hk
  have wf : ((s.cmpMoved k).setBit F.SXT_CMPSTAT_FIRED k).regsWf = true := regsWf_setFld moved
  have beside (lo w : Nat) : ((s.cmpMoved k).setBit F.SXT_CMPSTAT_FIRED k).fld ⟨0x7c0 + 4 * k, lo, w⟩ =
      s.fld ⟨0x7c0 + 4 * k, lo, w⟩ :=
    (fld_setFld_ne (show 0x7c0 + 4 * k ≠ 0x7a0 by omega)).trans fld_cmpMoved
  have en := en_cmpTold wf hk
  have disarms : ((s.cmpMoved k).setBit F.SXT_CMPSTAT_FIRED k).on (F.SXT_CMP_ONCE k) = s.on (F.SXT_CMP_ONCE k) :=
    congrArg (· != 0) (beside _ _)
  rw [disarms, show State.fld _ (F.SXT_CMP_EN k) = s.fld (F.SXT_CMP_EN k) from beside _ _] at en
  exact ⟨bit_cmpTold (by decide) (raise_ind (closed_bit (by decide)) fired), bit_cmpTold (by decide) (bit_raise wf (by decide)), en⟩

/-! ## The bandwidth loop (R297) -/

/-- Where the spec leaves the rounding open, a quotient is one of the two whole numbers beside it (log entry 11). -/
theorem quot_of_pos {n d : Int} (hd : 0 < d) : quot n d = n / d ∨ quot n d = n / d + 1 ∧ n % d ≠ 0 := by
  unfold quot
  rw [if_neg hd.ne', if_pos hd, one_mul]
  rcases Int.emod_two_eq (Config.inexact n d) with h | h <;> rw [h] <;> split <;> simp_all

/-- A quotient lies between two whole numbers where its dividend lies between their multiples. -/
theorem quot_mem {n d lo hi : Int} (hd : 0 < d) (hl : lo * d ≤ n) (hh : n ≤ hi * d) : lo ≤ quot n d ∧ quot n d ≤ hi := by
  have low : lo ≤ n / d := (Int.le_ediv_iff_mul_le hd).mpr hl
  have high : n / d ≤ hi := Int.ediv_le_of_le_mul hd hh
  rcases quot_of_pos (n := n) hd with e | ⟨e, inexact⟩
  · rw [e]
    exact ⟨low, high⟩
  · have below : n / d ≠ hi := fun h => by
      have whole := Int.emod_add_mul_ediv n d
      have sign := Int.emod_nonneg n hd.ne'
      rw [h, mul_comm d hi] at whole
      omega
    rw [e]
    omega

/-- The result of a bandwidth update before its clamp (R297): the quotient, moved toward by at most STEP. -/
def bandStep (b step num den : Int) : Int :=
  if (b + step) * den < num then b + step else if num < (b - step) * den then b - step else quot num den

theorem bandStep_near {b step num den : Int} (hd : 0 < den) (hs : 0 ≤ step) :
    b - step ≤ bandStep b step num den ∧ bandStep b step num den ≤ b + step := by
  unfold bandStep
  split
  · omega
  · split
    · omega
    · exact quot_mem hd (by omega) (by omega)

theorem execBandwidthUpdate_eq : execBandwidthUpdate s =
    .next (s.when (s.awake && s.pageOn 0x07 && s.locked && s.loopLive loopBW) fun s => s.loopUpdate loopBW
      (bandStep (s.loop loopBW).out (s.loopStep loopBW) ((s.sxt.omega.natAbs * max 1 (s.fld F.SXT_BW_CFG_RATIO) * 100 : Nat) : Int)
        (256 * 2 ^ 32))) := rfl

theorem clampLoop_mem {lo hi r : Int} (h : lo ≤ hi) : lo ≤ (clampLoop lo hi r).out ∧ (clampLoop lo hi r).out ≤ hi := by
  unfold clampLoop
  split
  · exact ⟨le_rfl, h⟩
  · split
    · exact ⟨h, le_rfl⟩
    · exact ⟨by simp only; omega, by simp only; omega⟩

/-- From within the bounds, a clamp moves no further than the result that it limits. -/
theorem clampLoop_near {lo hi b r step : Int} (hl : lo ≤ b) (hh : b ≤ hi) (hr : b - step ≤ r ∧ r ≤ b + step) :
    b - step ≤ (clampLoop lo hi r).out ∧ (clampLoop lo hi r).out ≤ b + step := by
  unfold clampLoop
  split
  · simp only; omega
  · split
    · simp only; omega
    · exact hr

theorem completes_bandwidthUpdate (hs : s.mapsWf = true) (ha : s.awake = true) (hp : s.pageOn 0x07 = true)
    (hl : s.locked = true) (hv : s.loopLive loopBW = true) (hb : s.loopLo loopBW ≤ s.loopHi loopBW) :
    completes .bandwidthUpdate s fun t => s.loopLo loopBW ≤ (t.loop loopBW).out ∧ (t.loop loopBW).out ≤ s.loopHi loopBW ∧
      (s.loopLo loopBW ≤ (s.loop loopBW).out → (s.loop loopBW).out ≤ s.loopHi loopBW →
        ((t.loop loopBW).out - (s.loop loopBW).out).natAbs ≤ s.loopStep loopBW) := by
  refine completes_when execBandwidthUpdate_eq (by simp [ha, hp, hl, hv]) fun _ => ?_
  rw [loop_loopUpdate hs]
  refine ⟨(clampLoop_mem hb).1, (clampLoop_mem hb).2, fun lo hi => ?_⟩
  have near := clampLoop_near lo hi (bandStep_near (num := ((s.sxt.omega.natAbs * max 1 (s.fld F.SXT_BW_CFG_RATIO) * 100 : Nat) : Int))
    (den := 256 * 2 ^ 32) (by decide) (Int.natCast_nonneg (s.loopStep loopBW)))
  omega

/-! ## The index (R292) -/

theorem gyroAlone_of_idxUsed (h : s.idxUsed = true) : s.gyroAlone = false := by
  simp only [State.idxUsed, Bool.or_eq_true, Bool.and_eq_true, beq_iff_eq] at h
  rcases h with (h | h) | ⟨_, h⟩ <;> simp [State.gyroAlone, h]

theorem closed_gyroAlone {b : Bool} {l : List Part} (h : avoids l (.reg A.SXT_CFG) = true) :
    Closed l fun t => t.gyroAlone = b :=
  closed_of h fun _ _ (he : _ = _) ht => by
    rwa [State.gyroAlone, State.sxtMode, State.on, State.fld, State.fld, show F.SXT_CFG_MODE.addr = A.SXT_CFG from rfl,
      show F.SXT_CFG_GYRO_IDX.addr = A.SXT_CFG from rfl, he]

/-- An index measurement has been taken: NOIDX is 0 and the configuration is not that of a gyro alone. -/
def IdxSeen (s : State) : Prop := Reads F.SXT_STAT_NOIDX 0 s ∧ s.gyroAlone = false

theorem closed_idxSeen {l : List Part} (hn : avoids l (.reg F.SXT_STAT_NOIDX.addr) = true)
    (hr : avoids l (.reg A.SXT_CFG) = true) (hl : needsAll l runParts = true) : Closed l IdxSeen :=
  closed_and (closed_reads hn hl) (closed_gyroAlone hr)

/-- An index stamped `i` has been taken, at the angle `th`. -/
def IdxTaken (th : BitVec 96) (i : Nat) (s : State) : Prop := IdxSeen s ∧ s.sxt.theta = th ∧ s.sxt.lastIdx = i

theorem closed_idxTaken {l : List Part} (hx : avoids l .sxt = true) (hn : avoids l (.reg F.SXT_STAT_NOIDX.addr) = true)
    (hr : avoids l (.reg A.SXT_CFG) = true) (hl : needsAll l runParts = true) : Closed l (IdxTaken th i) :=
  closed_and (closed_idxSeen hn hr hl) (closed_of (p := .sxt) hx fun _ _ (he : _ = _) h => he ▸ h)

theorem IdxTaken.setFld (h : IdxTaken th i s) (ha : ApartFrom f F.SXT_STAT_NOIDX)
    (hr : avoids [.reg f.addr] (.reg A.SXT_CFG) = true) : IdxTaken th i (s.setFld f v) :=
  ⟨⟨h.1.1.setFld ha, setFld_ind (closed_gyroAlone hr) h.1.2⟩, h.2⟩

theorem IdxTaken.sxt {x : Sxt} (h : IdxTaken th i s) (ht : x.theta = s.sxt.theta) (hi : x.lastIdx = s.sxt.lastIdx) :
    IdxTaken th i { s with sxt := x } :=
  ⟨h.1, ht.trans h.2.1, hi.trans h.2.2⟩

theorem IdxTaken.follow (h : IdxTaken th i s) : IdxTaken th i s.follow := ite_ind (h.sxt rfl rfl) h

theorem IdxTaken.history (h : IdxTaken th i s) : IdxTaken th i s.history := ite_ind (h.sxt rfl rfl) h

theorem IdxTaken.sxtShow (h : IdxTaken th i s) : IdxTaken th i s.sxtShow := by
  obtain ⟨⟨noidx, alone⟩, angle⟩ := h
  exact ⟨⟨noidx.sxtShow (by decide), sxtShow_ind (closed_gyroAlone (by decide)) alone⟩,
    sxtShow_ind (P := fun t => t.sxt.theta = th ∧ t.sxt.lastIdx = i)
      (closed_of (p := .sxt) (by decide) fun _ _ (he : _ = _) h => he ▸ h) angle⟩

theorem IdxTaken.sxtLose (h : IdxTaken th i s) (hl : s.locked = true) : IdxTaken th i (s.sxtLose c) := by
  obtain ⟨x, angle, stamp, e⟩ := sxtLose_of_locked (c := c) hl
  have dropped : IdxTaken th i (s.lockDropped c) :=
    addSat_ind (closed_idxTaken (by decide) (by decide) (by decide) (by decide)) <|
      (((h.setFld (by decide) (by decide)).setFld (by decide) (by decide)).setFld (by decide) (by decide)).setFld (by decide)
        (by decide)
  have told : Closed toldParts (IdxTaken th i) := closed_idxTaken (by decide) (by decide) (by decide) (by decide)
  rw [e]
  exact IdxTaken.sxtShow (presentAt_ind (told.mono (by decide)) (raise_ind (told.mono (by decide))
    (raise_ind (told.mono (by decide)) (risen_ind (told.mono (by decide)) (dropped.sxt angle stamp)))))

/-- A lock that is not the gyro's own takes the angle as it stands (R288, R293). -/
theorem IdxTaken.sxtGain (h : IdxTaken th i s) : IdxTaken th i s.sxtGain := by
  unfold State.sxtGain
  extract_lets first zeroed locked shown armed
  have hzeroed : IdxTaken th i zeroed := by
    rw [show zeroed = s from if_neg (by simp [first, h.1.2])]
    exact h
  have hlocked : IdxTaken th i locked := (hzeroed.setFld (by decide) (by decide)).sxt rfl rfl
  have hshown : IdxTaken th i shown :=
    IdxTaken.sxtShow (addSat_ind (closed_idxTaken (by decide) (by decide) (by decide) (by decide)) (hlocked.setFld (by decide) (by decide)))
  have told : Closed (.reg 0x718 :: .descs :: irqParts) (IdxTaken th i) :=
    closed_idxTaken (by decide) (by decide) (by decide) (by decide)
  have harmed : IdxTaken th i armed := forEach_ind (fun _ _ => modDesc_ind (told.mono (by decide))) hshown
  exact presentAt_ind (told.mono (by decide)) (raise_ind (told.mono (by decide)) harmed)

theorem IdxTaken.lockCheck (h : IdxTaken th i s) : IdxTaken th i s.lockCheck :=
  ite_with
    (fun hl => ite_ind (h.sxtLose hl) (ite_ind (h.sxtLose hl) (ite_ind (h.sxtLose hl) h)))
    (fun _ => ite_ind h.sxtGain h)

/-- What the index measurement does to the observer's angle, rate and counts: the first of an acquisition sets the angle,
the second the rate, a further one corrects both (R292). -/
def State.idxObserved (s : State) (m : BitVec 32) (stamp : Nat) : State :=
  let t := if s.sxt.lastIdx = 0 then Config.firstInterval stamp else stamp - s.sxt.lastIdx
  if !s.locked && s.sxt.nIdx == 0 then
    s.modSxt fun x => { x with theta := BitVec.ofNat 96 (x.theta.toNat / 2 ^ 64 * 2 ^ 64 + m.toNat * 2 ^ 32) }
  else if !s.locked && s.sxt.nIdx == 1 then s.setSpeed true m t
  else s.correct true (wrapRev ((m.toNat : Int) * 2 ^ 32 - (s.sxt.theta.toNat - s.sxt.omega * ((s.ht : Int) - stamp)))) t
    (s.locked || decide (3 ≤ s.sxt.nIdx))

theorem measure_idx : s.measure true m stamp =
    ((((s.idxObserved m stamp).modSxt fun x => { x with lastIdx := stamp, nIdx := x.nIdx + 1 }).sxtShow.history).follow).lockCheck.sxtShow :=
  rfl

theorem theta_idxObserved_first (hl : s.locked = false) (hn : s.sxt.nIdx = 0) : (s.idxObserved m stamp).sxt.theta =
    BitVec.ofNat 96 (s.sxt.theta.toNat / 2 ^ 64 * 2 ^ 64 + m.toNat * 2 ^ 32) := by
  rw [State.idxObserved, if_pos (by simp [hl, hn])]
  rfl

theorem idxObserved_ind {P : State → Prop} (hC : Closed [.reg 0x77c, .sxt] P) (h : P s) : P (s.idxObserved m stamp) :=
  ite_ind (modSxt_ind (hC.mono (by decide)) h) (ite_ind (setSpeed_ind (hC.mono (by decide)) h) (correct_ind hC h))

theorem idxTaken_measure (h : IdxSeen s) :
    IdxTaken (s.idxObserved m stamp).sxt.theta stamp (s.measure true m stamp) := by
  have seen : IdxSeen (s.idxObserved m stamp) := idxObserved_ind (closed_idxSeen (by decide) (by decide) (by decide)) h
  have taken : IdxTaken (s.idxObserved m stamp).sxt.theta stamp
      ((s.idxObserved m stamp).modSxt fun x => { x with lastIdx := stamp, nIdx := x.nIdx + 1 }) := ⟨seen, rfl, rfl⟩
  rw [measure_idx]
  exact taken.sxtShow.history.follow.lockCheck.sxtShow

section
variable (ha : s.awake = true) (hp : s.pageOn 0x07 = true) (hu : s.idxUsed = true) (hi : s.sxt.lastIdx < (s.chan 8).newest)
include ha hp hu hi

theorem exec_idxMeasurement : exec .idxMeasurement s = .next ((s.setFld F.SXT_STAT_NOIDX 0).measure true
    (BitVec.ofNat 32 (s.fld F.SXT_ZERO_A)) (s.chan 8).newest) :=
  congrArg Host.Outcome.next (if_pos (by simp [ha, hp, hu, hi]))

theorem completes_idxMeasurement (hs : s.mapsWf = true) : completes .idxMeasurement s fun t =>
    t.on F.SXT_STAT_NOIDX = false ∧ t.sxt.lastIdx = (s.chan 8).newest ∧
    (s.locked = false → s.sxt.nIdx = 0 → t.sxt.theta = BitVec.ofNat 96 (s.sxt.theta.toNat / 2 ^ 64 * 2 ^ 64 +
      (BitVec.ofNat 32 (s.fld F.SXT_ZERO_A)).toNat * 2 ^ 32)) := by
  have seen : IdxSeen (s.setFld F.SXT_STAT_NOIDX 0) :=
    ⟨reads_setFld (mapsWf_regs hs) (by decide) (by decide), setFld_ind (P := fun t => t.gyroAlone = false)
      (closed_gyroAlone (by decide)) (gyroAlone_of_idxUsed hu)⟩
  obtain ⟨⟨noidx, _⟩, angle, stamp⟩ := idxTaken_measure (m := BitVec.ofNat 32 (s.fld F.SXT_ZERO_A)) (stamp := (s.chan 8).newest) seen
  refine ⟨_, exec_idxMeasurement ha hp hu hi, by rw [State.on, noidx.2]; rfl, stamp, fun hl hn => ?_⟩
  have acquiring : (s.setFld F.SXT_STAT_NOIDX 0).locked = false := by
    rwa [State.locked, State.on, fld_setFld_of_apart (mapsWf_regs hs) (by decide)]
  exact angle.trans (theta_idxObserved_first acquiring hn)

end

end

end Sys2Proof.Machine

/-! The Resampler (R300-R302): the entries of one queue stand while others are filled, and a channel between two points
makes its sample. -/

namespace Sys2Proof.Machine

section
variable {s : State} {q k c : Nat} {x : List Entry} {p : Producer}

/-! ## The entries of one queue -/

theorem closed_queue {l : List Part} (h : avoids l .queues = true) : Closed l fun t => t.queue q = x :=
  closed_of h fun _ _ (he : _ = _) ht => by rwa [State.queue, he]

theorem queue_push_ne {e : Entry} (hk : q ≠ k) : (s.push k e).queue q = s.queue q := mapGet_mapSet_ne hk

theorem queue_drainGaps_ne {l kept : List PendRec} (hk : q ≠ k) (h : s.queue q = x) : (drainGaps k p l kept s).queue q = x := by
  induction l generalizing kept s with
  | nil => exact h
  | cons r t ih =>
    unfold drainGaps
    split
    · exact ih h
    · refine ite_ind (Q := fun t : State => t.queue q = x) (ih h) (ite_ind (Q := fun t : State => t.queue q = x) (ih ?_) h)
      exact (queue_push_ne hk).trans h

theorem queue_enqueue_ne {n src ht : Nat} {b : Body} (hk : q ≠ k) (h : s.queue q = x) :
    (s.enqueue k p n b src ht).queue q = x := by
  unfold State.enqueue
  extract_lets drained
  have hdrained : drained.queue q = x := queue_drainGaps_ne hk h
  exact ite_ind (Q := fun t : State => t.queue q = x) ((queue_push_ne hk).trans hdrained) hdrained

theorem queue_copyAll_ne {i : Item} {l : List (Nat × Bool)} (hl : ∀ d ∈ l, q ≠ d.1) (h : s.queue q = x) :
    (s.copyAll p i l).queue q = x :=
  forEach_ind_mem (Q := fun t : State => t.queue q = x)
    (fun d hd _ ht => ite_ind (Q := fun t : State => t.queue q = x) (queue_enqueue_ne (hl d hd) ht) ht) h

/-! ## Page interrupts reach the intake queues alone -/

section
variable (hq : q < 0x48)
include hq

theorem queue_record_of_lt {t l ty page ht : Nat} {payload : List Byte} (h : s.queue q = x) :
    (s.record t l ty page ht payload).queue q = x :=
  when_ind (P := fun t => t.queue q = x)
    (fun _ ht => queue_enqueue_ne (by unfold qIntake; omega) ht) h

theorem queue_routeLine_of_lt {n : Nat} (h : s.queue q = x) : (s.routeLine n).queue q = x := by
  unfold State.routeLine
  extract_lets woken presented
  have hwoken : woken.queue q = x := ite_ind (Q := fun t : State => t.queue q = x) (wakeHost_ind (closed_queue (by decide)) h) h
  have hpresented : presented.queue q = x := by
    refine ite_ind (Q := fun t : State => t.queue q = x) ?_ hwoken
    split
    · exact hwoken
    · exact presentAt_ind (closed_queue (by decide)) hwoken
  exact ite_ind (Q := fun t : State => t.queue q = x) (queue_record_of_lt hq hpresented) hpresented

theorem queue_raise_of_lt {n b : Nat} (h : s.queue q = x) : (s.raise n b).queue q = x :=
  ite_ind (Q := fun t : State => t.queue q = x) (queue_routeLine_of_lt hq h) h

end

/-! ## The destinations of a channel -/

/-- A channel's entries go to its owner's lane and to Assay units, never to a Resampler channel (R302). -/
theorem qRsm_ne_of_mem_rsmDests {d : Nat × Bool} (hk : k < 8) (hd : d ∈ s.rsmDests c) : qRsm k ≠ d.1 := by
  rcases List.mem_append.mp hd with lane | consumer
  · split at lane
    · rw [List.mem_singleton.mp lane, qRsm, qIntake]
      omega
    · exact absurd lane List.not_mem_nil
  · simp only [State.rsmConsumers, State.consumers, List.append_nil, List.mem_map, State.unitsOn, List.mem_filter] at consumer
    obtain ⟨u, ⟨hu, _⟩, rfl⟩ := consumer
    have bound : u < 24 := List.mem_range.mp hu
    simp only [qRsm, qUnit]
    omega

/-! ## One output sample -/

/-- The channel's next target, its count of samples and its points. -/
def Rsm.shows (next : Option Int) (cnt : Nat) (pts : List RsmPoint) (r : Rsm) : Prop :=
  r.next = next ∧ r.outCnt = cnt ∧ r.points = pts

/-- The channel shows these, and has this input queue. -/
def RsmHas (c : Nat) (next : Option Int) (cnt : Nat) (pts : List RsmPoint) (x : List Entry) (t : State) : Prop :=
  t.mapsWf = true ∧ (t.rchan c).shows next cnt pts ∧ t.queue (qRsm c) = x

theorem rchan_modRchan {f : Rsm → Rsm} (hs : s.mapsWf = true) : (s.modRchan c f).rchan c = f (s.rchan c) :=
  mapGet_mapSet (mapsWf_rsm hs)

theorem mapsWf_modRchan {f : Rsm → Rsm} (hs : s.mapsWf = true) : (s.modRchan c f).mapsWf = true :=
  modRchan_ind (closed_mapsWf.mono (by decide)) hs

section
variable {next : Option Int} {cnt : Nat} {pts : List RsmPoint}

theorem closed_rchan {l : List Part} (h : avoids l .rsm = true) : Closed l fun t => (t.rchan c).shows next cnt pts :=
  closed_of h fun _ _ (he : _ = _) ht => by rwa [State.rchan, he]

theorem RsmHas.raise (hc : c < 8) (h : RsmHas c next cnt pts x s) : RsmHas c next cnt pts x (s.raise 0x08 9) := by
  obtain ⟨wf, chan, queue⟩ := h
  exact ⟨raise_ind (closed_mapsWf.mono (by decide)) wf,
    raise_ind (P := fun t => (t.rchan c).shows next cnt pts) (closed_rchan (by decide)) chan,
    queue_raise_of_lt (by unfold qRsm; omega) queue⟩

theorem RsmHas.close (hc : c < 8) (h : RsmHas c next cnt pts x s) : RsmHas c next cnt pts x (s.rsmClose c) := by
  unfold State.rsmClose
  extract_lets r k data i
  refine ite_ind h ?_
  obtain ⟨wf, chan, queue⟩ := h
  refine ⟨copyAll_ind (closed_mapsWf.mono (by decide)) (mapsWf_modRchan wf),
    copyAll_ind (P := fun t => (t.rchan c).shows next cnt pts) (closed_rchan (by decide)) ?_,
    queue_copyAll_ne (fun d hd => qRsm_ne_of_mem_rsmDests hc hd) queue⟩
  rw [rchan_modRchan wf]
  exact chan

end

/-- A sample moves the next target on and counts; filling and closing an entry leave the points and the input. -/
theorem rsmHas_rsmEmit {pts : List RsmPoint} {lo : Nat} {j : Int} (hs : s.mapsWf = true) (hc : c < 8) :
    RsmHas c (some (j + 1)) (min ((s.rchan c).outCnt + 1) 65535) (s.rchan c).points (s.queue (qRsm c)) (s.rsmEmit c pts lo j) := by
  unfold State.rsmEmit
  extract_lets p0 p1 n a f0 f1 cubic xs raw vals sat ht d ang fl made told
  have hmade : RsmHas c (some (j + 1)) (min ((s.rchan c).outCnt + 1) 65535) (s.rchan c).points (s.queue (qRsm c)) made := by
    refine ⟨mapsWf_modRchan hs, ?_, rfl⟩
    rw [rchan_modRchan hs]
    exact ⟨rfl, congrArg (fun n => min (n + 1) 65535) (ite_ind (Q := fun y : Rsm => y.outCnt = (s.rchan c).outCnt) rfl rfl),
      ite_ind (Q := fun y : Rsm => y.points = (s.rchan c).points) rfl rfl⟩
  have htold : RsmHas c (some (j + 1)) (min ((s.rchan c).outCnt + 1) 65535) (s.rchan c).points (s.queue (qRsm c)) told :=
    ite_ind (hmade.raise hc) hmade
  exact ite_ind (htold.close hc) htold

section
variable {ch : Nat} (hc : ch < 8) (hr : s.running = true) (hp : s.pageOn 0x08 = true) (he : s.on (F.RSM_CH_CFG_EN ch) = true)
include hc hr hp he

theorem exec_resamplerOutput : exec (.resamplerOutput ch) s = .next (rsmRun ch 4096 s) :=
  congrArg Host.Outcome.next (if_pos (by simp [hc, hr, hp, he]))

end

/-- Between two points of a linear channel, the first target is the first at or after the older point (R300). -/
theorem rsmStep_of_linear {u v : RsmPoint} {l : List RsmPoint} {a b j : Int} (hi : s.on (F.RSM_CH_CFG_INTERP c) = false)
    (hl : (s.rchan c).points = u :: v :: l) (hu : u.vals ≠ []) (hv : v.vals ≠ []) (ha : u.phi = some a) (hb : v.phi = some b)
    (hg : v.gap = none) (hn : (s.rchan c).next = none) (hj : j = s.rsmFirst c (s.rsmPhi c a))
    (hlt : j < s.rsmFirst c (nearAngle (s.rsmPhi c a) (s.rsmPhi c b))) :
    s.rsmStep c = some (s.rsmEmit c [u, v] 0 j, true) := by
  subst hj
  simp [State.rsmStep, hi, hl, hu, hv, ha, hb, hg, hn, firstWith, not_le.mpr hlt]

theorem rsmRun_of_sample {t : State} {n : Nat} (h : s.rsmStep c = some (t, true)) : rsmRun c (n + 1) s = t := by
  rw [rsmRun, h]

end

/-- Settles O43: each clause is the run of its event. Where a quotient's rounding is open, the bandwidth loop's bound holds
of either whole number beside it (log entry 11, the model's choice). -/
theorem sextantAndResampler : Obligations.SextantAndResampler := by
  unfold Obligations.SextantAndResampler
  refine ⟨fun s c hs ha hp hl hc => ⟨_, exec_sxtLockLost ha hp hc, sxtLose_shows (mapsWf_regs hs) hl⟩,
    fun s k hs => completes_angleComparatorFire (mapsWf_regs hs), fun s => completes_bandwidthUpdate,
    fun s => exec_idxMeasurement, fun s hs ha hp hu hi => completes_idxMeasurement ha hp hu hi hs,
    fun s ch => exec_resamplerOutput, fun s ch u v l a b j hs hc hr hp he hi hl hu hv ha hb hg hn hj hlt => ?_⟩
  have sample := rsmStep_of_linear hi hl hu hv ha hb hg hn hj hlt
  obtain ⟨_, ⟨next, cnt, points⟩, queue⟩ := rsmHas_rsmEmit (pts := [u, v]) (lo := 0) (j := j) hs hc
  exact ⟨_, (exec_resamplerOutput hc hr hp he).trans (congrArg Host.Outcome.next (rsmRun_of_sample sample)),
    next, cnt, points, queue⟩

end Sys2Proof.Machine

/-! The queues and their credits (R159-R167): no entry goes into a queue beyond its producer's base credits. -/

namespace Sys2Proof.Machine

section
variable {s : State} {q k n src ht : Nat} {p : Producer} {b : Body} {e : Entry} {l kept : List PendRec} {g : Gap}

/-! ## Slots and credits (R161, R167) -/

/-- All slots that the entries of a queue take. -/
def slotsIn (l : List Entry) : Nat := l.foldl (fun n e => n + e.slots) 0

theorem slotsIn_eq_sum (l : List Entry) : slotsIn l = (l.map Entry.slots).sum := by
  rw [List.sum_eq_foldl, List.foldl_map]
  rfl

theorem slotsOf_eq_sum (l : List Entry) : slotsOf l p = (l.map fun e => if e.prod = p then e.slots else 0).sum := by
  rw [List.sum_eq_foldl, List.foldl_map]
  refine congrArg (fun f => l.foldl f 0) (funext fun n => funext fun e => ?_)
  split <;> rfl

@[simp] theorem slotsIn_append (l m : List Entry) : slotsIn (l ++ m) = slotsIn l + slotsIn m := by simp [slotsIn_eq_sum]

@[simp] theorem slotsIn_cons (e : Entry) (l : List Entry) : slotsIn (e :: l) = e.slots + slotsIn l := by simp [slotsIn_eq_sum]

@[simp] theorem slotsIn_nil : slotsIn [] = 0 := rfl

@[simp] theorem slotsOf_append (l m : List Entry) : slotsOf (l ++ m) p = slotsOf l p + slotsOf m p := by simp [slotsOf_eq_sum]

@[simp] theorem slotsOf_cons (e : Entry) (l : List Entry) :
    slotsOf (e :: l) p = (if e.prod = p then e.slots else 0) + slotsOf l p := by simp [slotsOf_eq_sum]

@[simp] theorem slotsOf_nil : slotsOf [] p = 0 := rfl

theorem slotsOf_le_slotsIn (l : List Entry) : slotsOf l p ≤ slotsIn l := by
  induction l with
  | nil => exact le_rfl
  | cons e t ih =>
    rw [slotsOf_cons, slotsIn_cons]
    split <;> omega

/-- An entry that its producer's credits cover leaves the producer within its base credits, and an input queue, which has the
one producer that its input select names, within its slots. -/
theorem room_of_credits (h : n + 1 ≤ s.credits q p) :
    slotsOf (s.queue q) p + n ≤ queBase q p ∧ (isInput q = true → slotsIn (s.queue q) + n ≤ queBase q p) := by
  have le := slotsOf_le_slotsIn (p := p) (s.queue q)
  unfold State.credits at h
  change n + 1 ≤ (if isInput q = true then if s.feeder q = p then queBase q p - slotsIn (s.queue q) else 0 else _) at h
  split_ifs at h with hi hf
  · exact ⟨by omega, fun _ => by omega⟩
  · omega
  · exact ⟨by omega, fun ht => absurd ht hi⟩

theorem queBase_le_of_isInput (h : isInput q = true) : queBase q p ≤ 16 := by
  simp only [isInput, Bool.and_eq_true, decide_eq_true_eq] at h
  have fed : queBase q p = if p = .stamp ∨ p = .assay ∨ p = .resampler then 16 else 0 :=
    (if_neg (by omega)).trans (if_pos (by omega))
  rw [fed]
  split <;> decide

/-! ## The bound, and what keeps it -/

/-- Every producer's entries stay within its base credits, and an input queue within its 16 slots (R161, R167). -/
def WithinCredits (s : State) : Prop :=
  (∀ q p, slotsOf (s.queue q) p ≤ queBase q p) ∧ ∀ q, isInput q = true → slotsIn (s.queue q) ≤ 16

theorem closed_withinCredits {l : List Part} (h : avoids l .queues = true) : Closed l WithinCredits :=
  closed_of h fun s t (he : t.queues = s.queues) hs => by
    have same (q : Nat) : t.queue q = s.queue q := by rw [State.queue, he, State.queue]
    simpa only [WithinCredits, same] using hs

theorem mapsWf_setQueue {l : List Entry} (hs : s.mapsWf = true) : (s.setQueue q l).mapsWf = true :=
  setQueue_ind (closed_mapsWf.mono (by decide)) hs

theorem queue_setQueue {l : List Entry} (hs : s.mapsWf = true) : (s.setQueue q l).queue q = l := mapGet_mapSet (mapsWf_queues hs)

theorem queue_setQueue_ne {l : List Entry} (h : k ≠ q) : (s.setQueue q l).queue k = s.queue k := mapGet_mapSet_ne h

theorem queue_push (hs : s.mapsWf = true) : (s.push q e).queue q = s.queue q ++ [e] := queue_setQueue hs

theorem mapsWf_push (hs : s.mapsWf = true) : (s.push q e).mapsWf = true := mapsWf_setQueue hs

/-- A queue that is within its bounds after a change of its entries leaves the others as they were. -/
theorem WithinCredits.setQueue {l : List Entry} (hs : s.mapsWf = true) (h : WithinCredits s) (ho : ∀ p, slotsOf l p ≤ queBase q p)
    (hi : isInput q = true → slotsIn l ≤ 16) : WithinCredits (s.setQueue q l) := by
  refine ⟨fun k p => ?_, fun k hk => ?_⟩
  · by_cases e : k = q
    · subst e
      rw [queue_setQueue hs]
      exact ho p
    · rw [queue_setQueue_ne e]
      exact h.1 k p
  · by_cases e : k = q
    · subst e
      rw [queue_setQueue hs]
      exact hi hk
    · rw [queue_setQueue_ne e]
      exact h.2 k hk

theorem WithinCredits.push (hs : s.mapsWf = true) (h : WithinCredits s) (hc : n + 1 ≤ s.credits q p) :
    WithinCredits (s.push q ⟨p, n, b⟩) := by
  obtain ⟨own, all⟩ := room_of_credits hc
  refine h.setQueue hs (fun j => ?_) fun hi => ?_
  · have before := h.1 q j
    by_cases e : p = j
    · subst e
      simpa using own
    · simpa [e] using before
  · have room := all hi
    have base := queBase_le_of_isInput (p := p) hi
    simp only [slotsIn_append, slotsIn_cons, slotsIn_nil]
    omega

/-- Canonical maps, and the bound. -/
def Bounded (s : State) : Prop := s.mapsWf = true ∧ WithinCredits s

theorem closed_bounded {l : List Part} (h : avoids l .queues = true) (hl : needsAll l runParts = true) : Closed l Bounded :=
  closed_and (closed_mapsWf.mono hl) (closed_withinCredits h)

theorem Bounded.setPend (h : Bounded s) : Bounded (s.setPend q p l) := setPend_ind (closed_bounded rfl (by decide)) h

theorem Bounded.push (h : Bounded s) (hc : n + 1 ≤ s.credits q p) : Bounded (s.push q ⟨p, n, b⟩) :=
  ⟨mapsWf_push h.1, h.2.push h.1 hc⟩

theorem Bounded.gap (h : Bounded s) (hc : gapSlots g + 1 ≤ s.credits q p) :
    Bounded ((s.push q ⟨p, gapSlots g, .gaps [g]⟩).addSat F.QUE_STAT_GAPS 1) :=
  addSat_ind (closed_bounded rfl (by decide)) (h.push hc)

theorem Bounded.drainGaps (h : Bounded s) : Bounded (drainGaps q p l kept s) := by
  induction l generalizing kept s with
  | nil => exact h.setPend
  | cons r t ih =>
    unfold Machine.drainGaps
    split
    · exact ih h
    · exact ite_ind (ih h) (ite_with (fun hc => ih (h.gap hc)) fun _ => h.setPend)

theorem Bounded.drain (h : Bounded s) : Bounded (s.drain q p) := h.drainGaps

theorem Bounded.enqueue (h : Bounded s) : Bounded (s.enqueue q p n b src ht) := by
  unfold State.enqueue
  extract_lets drained
  have hdrained : Bounded drained := h.setPend.drain
  exact ite_with (fun hc => hdrained.push (of_decide_eq_true (Bool.and_eq_true_iff.mp hc).2)) fun _ => hdrained.setPend

theorem Bounded.forwardGap (h : Bounded s) : Bounded (s.forwardGap q p g) := by
  unfold State.forwardGap
  extract_lets drained
  have hdrained : Bounded drained := h.drain
  exact ite_with (fun hc => hdrained.gap (of_decide_eq_true (Bool.and_eq_true_iff.mp hc).2)) fun _ => hdrained.setPend

theorem popQueue_eq_some {t : State} (h : s.popQueue q = some (e, t)) : ∃ l, s.queue q = e :: l ∧ t = s.setQueue q l := by
  unfold State.popQueue at h
  split at h
  · cases h
  next x l hq =>
    cases h
    exact ⟨l, hq, rfl⟩

theorem popQueue_of_queue {l : List Entry} (h : s.queue q = e :: l) : s.popQueue q = some (e, s.setQueue q l) := by
  rw [State.popQueue, h]

theorem Bounded.popQueue {t : State} (h : Bounded s) (ht : s.popQueue q = some (e, t)) : Bounded t := by
  obtain ⟨l, hq, rfl⟩ := popQueue_eq_some ht
  obtain ⟨wf, within⟩ := h
  refine ⟨mapsWf_setQueue wf, within.setQueue wf (fun j => ?_) fun hi => ?_⟩
  · have before := within.1 q j
    rw [hq, slotsOf_cons] at before
    omega
  · have before := within.2 q hi
    rw [hq, slotsIn_cons] at before
    omega

/-! ## An item of a producer without pending records (R162, R163) -/

theorem pendOf_setPend (hs : s.mapsWf = true) : (s.setPend q p l).pendOf q p = l := mapGet_mapSet (mapsWf_pendg hs)

theorem mapsWf_setPend (hs : s.mapsWf = true) : (s.setPend q p l).mapsWf = true :=
  setPend_ind (closed_mapsWf.mono (by decide)) hs

/-- Where no record is pending, none is drained. -/
theorem drained_of_none_pending (hs : s.mapsWf = true) (hp : s.pendOf q p = []) :
    (s.setPend q p (endReset ht (s.pendOf q p))).drain q p = (s.setPend q p []).setPend q p [] := by
  rw [hp, State.drain, endReset, List.map_nil, pendOf_setPend hs]
  rfl

theorem enqueue_of_credits (hs : s.mapsWf = true) (hp : s.pendOf q p = []) (hc : n + 1 ≤ s.credits q p) :
    s.enqueue q p n b src ht = ((s.setPend q p []).setPend q p []).push q ⟨p, n, b⟩ := by
  have room : n + 1 ≤ ((s.setPend q p []).setPend q p []).credits q p := hc
  rw [State.enqueue, drained_of_none_pending hs hp, pendOf_setPend (mapsWf_setPend hs)]
  exact if_pos (by simpa using room)

theorem enqueue_of_no_credits (hs : s.mapsWf = true) (hp : s.pendOf q p = []) (hc : s.credits q p < n + 1) :
    s.enqueue q p n b src ht = ((s.setPend q p []).setPend q p []).skip q p src gcCREDIT none ht := by
  have full : ¬ n + 1 ≤ ((s.setPend q p []).setPend q p []).credits q p := Nat.not_le.mpr hc
  rw [State.enqueue, drained_of_none_pending hs hp]
  exact if_neg (by simpa using fun _ => Nat.lt_of_not_le full)

end

/-- Settles O40: an entry is put into a queue only where its producer's credits cover it, and that keeps the bound. -/
theorem queuesNeverOverdrawCredits : Obligations.QueuesNeverOverdrawCredits := by
  unfold Obligations.QueuesNeverOverdrawCredits
  intro within
  refine ⟨fun s q n src ht p b hs h => ?enqueue, fun s q p g hs h => ?forward, fun s q p hs h => ?drain,
    fun s t q e hs h ht => ?pop, fun s q n src ht p b hs hp hc => ?fits, fun s q n src ht p b hs hp hc => ?skipped⟩
  case enqueue => exact (Bounded.enqueue ⟨hs, h⟩).2
  case forward => exact (Bounded.forwardGap ⟨hs, h⟩).2
  case drain => exact (Bounded.drain ⟨hs, h⟩).2
  case pop => exact (Bounded.popQueue ⟨hs, h⟩ ht).2
  case fits =>
    rw [enqueue_of_credits hs hp hc]
    exact queue_push (mapsWf_setPend (mapsWf_setPend hs))
  case skipped =>
    have wf : ((s.setPend q p []).setPend q p []).mapsWf = true := mapsWf_setPend (mapsWf_setPend hs)
    rw [enqueue_of_no_credits hs hp hc]
    refine ⟨rfl, ?_⟩
    rw [State.skip, pendOf_setPend wf, pendOf_setPend (mapsWf_setPend hs)]
    rfl

end Sys2Proof.Machine

/-! What survives a record (R134, R164): a record enters its queue behind the pending GAP records, and of QUE_STAT it writes
the count of GAP records alone. -/

namespace Sys2Proof.Machine

section
variable {P Q : State → Prop} {s s₀ : State} {f g : Fld} {ps : List Nat} {p k q n v t i ty page src ht res : Nat}
  {e : Entry} {a : Producer} {y : Body} {payload : List Byte} {l kept : List PendRec}

/-- `P` survives what an interrupt and its record do: entries come behind those of a queue, GAP records are counted, and a
tenant's record counter moves on. -/
structure RecordSafe (P : State → Prop) : Prop where
  parts : Closed [.reg 0x154, .reg 0x178, .sys, .rose, .pendg] P
  pushed : ∀ s q e, P s → P (s.push q e)
  counted : ∀ s, P s → P (s.addSat F.QUE_STAT_GAPS 1)
  recorded : ∀ s t (u : Ten → Nat), P s → P (s.modTen t fun x => { x with recCnt := u x })

theorem RecordSafe.and (hP : RecordSafe P) (hQ : RecordSafe Q) : RecordSafe fun t => P t ∧ Q t where
  parts := closed_and hP.parts hQ.parts
  pushed s q e h := ⟨hP.pushed s q e h.1, hQ.pushed s q e h.2⟩
  counted s h := ⟨hP.counted s h.1, hQ.counted s h.2⟩
  recorded s t u h := ⟨hP.recorded s t u h.1, hQ.recorded s t u h.2⟩

theorem recordSafe_reads (ha : avoids [.reg 0x154, .reg 0x178] (.reg g.addr) = true) (hg : ApartFrom F.QUE_STAT_GAPS g) :
    RecordSafe (Reads g v) where
  parts := (closed_reads (l := [.reg 0x154, .reg 0x178]) ha (by decide)).append (closed_reads rfl (by decide))
  pushed _ _ _ h := h
  counted _ h := h.setFld hg
  recorded _ _ _ h := h

theorem recordSafe_mapsWf : RecordSafe fun t => t.mapsWf = true where
  parts := closed_mapsWf.mono (by decide)
  pushed _ _ _ h := mapsWf_push h
  counted _ h := mapsWf_setFld h
  recorded _ _ _ h := mapsWf_modTen h

/-- What is closed under the parts that an interrupt changes. -/
theorem recordSafe_of_closed (h : Closed irqParts P) : RecordSafe P where
  parts := h.mono (by decide)
  pushed _ _ _ hs := push_ind (h.mono (by decide)) hs
  counted _ hs := addSat_ind (h.mono (by decide)) hs
  recorded _ _ _ hs := modTen_ind (h.mono (by decide)) hs

/-! ## Records and interrupts -/

section
variable (hR : RecordSafe P)
include hR

theorem drainGaps_recordSafe (hs : P s) : P (drainGaps q a l kept s) := by
  induction l generalizing kept s with
  | nil => exact setPend_ind (hR.parts.mono (by decide)) hs
  | cons r t ih =>
    unfold drainGaps
    split
    · exact ih hs
    · exact ite_ind (ih hs) (ite_ind (ih (hR.counted _ (hR.pushed _ _ _ hs))) (setPend_ind (hR.parts.mono (by decide)) hs))

theorem enqueue_recordSafe (hs : P s) : P (s.enqueue q a n y src ht) := by
  unfold State.enqueue
  extract_lets drained
  have hdrained : P drained := drainGaps_recordSafe hR (setPend_ind (hR.parts.mono (by decide)) hs)
  exact ite_ind (hR.pushed _ _ _ hdrained) (skip_ind (hR.parts.mono (by decide)) hdrained)

theorem record_recordSafe (hs : P s) : P (s.record t i ty page ht payload) :=
  when_ind (fun _ h => enqueue_recordSafe hR (hR.recorded _ _ _ h)) hs

theorem routeLine_recordSafe (hs : P s) : P (s.routeLine p) := by
  unfold State.routeLine
  extract_lets woken presented
  have hwoken : P woken := ite_ind (wakeHost_ind (hR.parts.mono (by decide)) hs) hs
  have hpresented : P presented := by
    refine ite_ind ?_ hwoken
    split
    · exact hwoken
    · exact presentAt_ind (hR.parts.mono (by decide)) hwoken
  exact ite_ind (record_recordSafe hR hpresented) hpresented

/-- An interrupt of page `p`, for a property that survives the page's PIRQ register. -/
theorem raise_recordSafe (hp : Closed [.reg (256 * p + 0x18)] P) (hs : P s) : P (s.raise p k) :=
  have latched : P (s.setBit (F.PIRQ p) k) := setBit_ind hp hs
  ite_ind (routeLine_recordSafe hR latched) latched

/-! ## Granules and closing (R171, R367) -/

theorem poolMark_recordSafe (hs : P s) (hp : Closed [.reg 0x2018] P) (hl : ∀ s b, P s → P (s.putOn F.QUE_STAT_POOL_LOW b)) :
    P s.poolMark :=
  ite_ind (raise_recordSafe hR hp (hl _ _ hs)) (hl _ _ hs)

theorem takeGran_recordSafe (hr : Closed [.regs] P) (hs : P s) : P (s.takeGran t n res) :=
  poolMark_recordSafe hR (setFld_ind (hr.mono rfl) (setFld_ind (hr.mono rfl) hs)) (hr.mono rfl)
    fun _ _ h => putOn_ind (hr.mono rfl) h

theorem bndRise_recordSafe (hp : Closed [.reg 0x2118] P) (hs : P s) : P (s₀.bndRise s) := by
  unfold State.bndRise
  extract_lets reserved
  have hreserved : P reserved := ite_ind (raise_recordSafe hR hp hs) hs
  exact ite_ind (raise_recordSafe hR hp hreserved) hreserved

end

end
end Sys2Proof.Machine

/-! The Hallmark engine, the HEALTH record, the placement loop and uncorrectable memory errors (R174, R190, R371-R379). -/

namespace Sys2Proof.Machine

section
variable {P : State → Prop} {s : State} {g : Fld} {p k q n t i ty page src ht : Nat} {b : Bundle}
  {e : Entry} {a : Producer} {y : Body} {x : Item} {payload : List Byte}

/-! ## The seal queue (R374, R375) -/

theorem exec_sealStart_takes {rest : List (Nat × Nat)} (hr : s.running = true) (hw : s.hallmark.work = none)
    (hq : s.hallmark.queue = (k, q) :: rest)
    (hm : s.on F.TAM_LATCH_SEALSTOP = false ∨ (s.bundleAt k q).map (fun b => b.mode) = some 0) :
    exec .sealStart s = .next { s with hallmark := { s.hallmark with queue := rest, work := some (k, q) } } := by
  refine congrArg Host.Outcome.next ((if_pos (by simp [hr, hw])).trans ?_)
  simp only [hq]
  rcases hm with hm | hm
  · simp [hm]
  · obtain ⟨b, hb, hmode⟩ := Option.map_eq_some_iff.mp hm
    simp [hb, hmode]

theorem exec_sealStart_stops {rest : List (Nat × Nat)} (hr : s.running = true) (hw : s.hallmark.work = none)
    (hq : s.hallmark.queue = (k, q) :: rest) (hl : s.on F.TAM_LATCH_SEALSTOP = true) (hb : s.bundleAt k q = some b)
    (hm : b.mode ≠ 0) (hn : s.on F.BND_HSTAT_STOPPED = false) :
    exec .sealStart s = .next ((s.risen [0x21] (s.setFld F.BND_HSTAT_STOPPED 1)).raise 0x21 8) := by
  refine congrArg Host.Outcome.next ((if_pos (by simp [hr, hw])).trans ?_)
  simp [hq, hl, hb, hm, hn]

theorem on_of_reads (h : Reads g 1 s) : s.on g = true := by
  rw [State.on, h.2]
  rfl

theorem completes_sealStart_stops {rest : List (Nat × Nat)} (hs : s.mapsWf = true) (hr : s.running = true)
    (hw : s.hallmark.work = none) (hq : s.hallmark.queue = (k, q) :: rest) (hl : s.on F.TAM_LATCH_SEALSTOP = true)
    (hb : s.bundleAt k q = some b) (hm : b.mode ≠ 0) (hn : s.on F.BND_HSTAT_STOPPED = false) :
    completes .sealStart s fun t => t.on F.BND_HSTAT_STOPPED = true ∧ t.bit (F.PIRQ 0x21) 8 = true ∧ t.hallmark = s.hallmark := by
  refine ⟨_, exec_sealStart_stops hr hw hq hl hb hm hn, ?_⟩
  have closed : Closed (.reg 0x2118 :: irqParts) fun t => Reads F.BND_HSTAT_STOPPED 1 t ∧ t.hallmark = s.hallmark :=
    closed_and (closed_reads (by decide) (by decide)) (closed_of (p := .hallmark) (by decide) fun _ _ he h => Eq.trans he h)
  have stopped : Reads F.BND_HSTAT_STOPPED 1 (s.risen [0x21] (s.setFld F.BND_HSTAT_STOPPED 1)) ∧
      (s.risen [0x21] (s.setFld F.BND_HSTAT_STOPPED 1)).hallmark = s.hallmark :=
    risen_ind (closed.mono (by decide)) ⟨reads_setFld (mapsWf_regs hs) (by decide) (by decide), rfl⟩
  have raised := raise_ind (p := 0x21) (b := 8) closed stopped
  exact ⟨on_of_reads raised.1, bit_raise stopped.1.1 (by decide), raised.2⟩

/-! ## A bundle is finished (R371, R374) -/

/-- The bundle `q` of lane `k` is sealed, and counted where it has a tag. -/
def State.sealCounted (s : State) (k q : Nat) (b : Bundle) : State :=
  let finished := s.setClosed k ((s.closedOf k).map fun x => if x.seq = q then s.sealBundle (k / 4) x else x)
  if b.mode = 0 then finished else finished.addSat F.BND_SEALS_COUNT 1

/-- The engine is free, and the lane of the finished bundle may close again. -/
def State.sealed (s : State) (k q : Nat) (b : Bundle) : State :=
  { (s.sealCounted k q b).modLane k fun x => { x with credit := false } with hallmark := { s.hallmark with work := none } }

theorem exec_sealDone (hr : s.running = true) (hw : s.hallmark.work = some (k, q)) (hb : s.bundleAt k q = some b) :
    exec .sealDone s = .next (s.sealed k q b) := by
  refine congrArg Host.Outcome.next ((if_pos hr).trans ?_)
  by_cases hm : b.mode = 0 <;> simp [hw, hb, hm, State.sealed, State.sealCounted]

theorem lane_modLane {u : Lane → Lane} (hs : s.mapsWf = true) : (s.modLane k u).lane k = u (s.lane k) := mapGet_mapSet (mapsWf_lanes hs)

theorem closedOf_setClosed {l : List Bundle} (hs : s.mapsWf = true) : (s.setClosed k l).closedOf k = l :=
  mapGet_mapSet (mapsWf_closed hs)

theorem mapsWf_setClosed {l : List Bundle} (hs : s.mapsWf = true) : (s.setClosed k l).mapsWf = true :=
  setClosed_ind (closed_mapsWf.mono (by decide)) hs

theorem seals_sealCounted (hs : s.mapsWf = true) : (s.sealCounted k q b).fld F.BND_SEALS_COUNT =
    if b.mode = 0 then s.fld F.BND_SEALS_COUNT else min (s.fld F.BND_SEALS_COUNT + 1) (2 ^ 32 - 1) := by
  unfold State.sealCounted
  split
  · rfl
  · exact fld_addSat (mapsWf_regs (mapsWf_setClosed hs)) (by decide)

theorem lane_sealed (hs : (s.sealCounted k q b).mapsWf = true) :
    (s.sealed k q b).lane k = { (s.sealCounted k q b).lane k with credit := false } :=
  lane_modLane (u := fun x => { x with credit := false }) hs

theorem completes_sealDone (hs : s.mapsWf = true) (hr : s.running = true) (hw : s.hallmark.work = some (k, q))
    (hb : s.bundleAt k q = some b) : completes .sealDone s fun t => t.hallmark.work = none ∧ (t.lane k).credit = false ∧
      t.closedOf k = (s.closedOf k).map (fun x => if x.seq = q then s.sealBundle (k / 4) x else x) ∧
      t.fld F.BND_SEALS_COUNT = (if b.mode = 0 then s.fld F.BND_SEALS_COUNT else min (s.fld F.BND_SEALS_COUNT + 1) (2 ^ 32 - 1)) := by
  have finished := mapsWf_setClosed (k := k) (l := (s.closedOf k).map fun x => if x.seq = q then s.sealBundle (k / 4) x else x) hs
  have counted : (s.sealCounted k q b).mapsWf = true :=
    ite_ind (Q := fun t : State => t.mapsWf = true) finished (mapsWf_setFld finished)
  have bundles : (s.sealCounted k q b).closedOf k = (s.closedOf k).map fun x => if x.seq = q then s.sealBundle (k / 4) x else x :=
    ite_ind (Q := fun t : State => t.closedOf k = _) (closedOf_setClosed hs) (closedOf_setClosed hs)
  refine ⟨_, exec_sealDone hr hw hb, rfl, ?_, bundles, seals_sealCounted hs⟩
  rw [lane_sealed counted]

/-! ## HEALTH (R362, R379) -/

theorem exec_healthRecord (hr : s.running = true) (hp : s.on F.BND_HCFG_PER = true) :
    exec .healthRecord s = .next (s.record 0 2 0x08 0x21 s.ht s.encHealth) :=
  congrArg Host.Outcome.next (if_pos (by simp [hr, hp]))

/-- The state with other records of the tenants. -/
def State.withTens (s : State) (m : Map Ten) : State := { s with tens := m }

/-- What is drained into a queue does not depend on the tenants' records. -/
theorem drainGaps_withTens {l kept : List PendRec} {m : Map Ten} :
    drainGaps q a l kept (s.withTens m) = (drainGaps q a l kept s).withTens m := by
  induction l generalizing kept s with
  | nil => rfl
  | cons r t ih =>
    simp only [drainGaps]
    split
    · exact ih
    next g _ =>
      have push : ((s.withTens m).push q ⟨a, gapSlots g, .gaps [g]⟩).addSat F.QUE_STAT_GAPS 1 =
          ((s.push q ⟨a, gapSlots g, .gaps [g]⟩).addSat F.QUE_STAT_GAPS 1).withTens m := rfl
      have room : (s.withTens m).credits q a = s.credits q a := rfl
      rw [room, push, ih, ih]
      split_ifs <;> rfl

/-- The state in which an item of the producer is enqueued or skipped: its pending GAP records have gone first. -/
def State.drained (s : State) (q : Nat) (a : Producer) (ht : Nat) : State :=
  (s.setPend q a (endReset ht (s.pendOf q a))).drain q a

theorem enqueue_of_canPut (h : s.canPut q a n ht = true) : s.enqueue q a n y src ht = (s.drained q a ht).push q ⟨a, n, y⟩ :=
  if_pos h

theorem mapsWf_drained (hs : s.mapsWf = true) : (s.drained q a ht).mapsWf = true :=
  drainGaps_recordSafe recordSafe_mapsWf (mapsWf_setPend hs)

theorem drained_withTens {m : Map Ten} : (s.withTens m).drained q a ht = (s.drained q a ht).withTens m :=
  drainGaps_withTens (s := s.setPend q a (endReset ht (s.pendOf q a)))

theorem canPut_eq : s.canPut q a n ht =
    (((s.drained q a ht).pendOf q a).all (fun r => r.held) && decide (n + 1 ≤ (s.drained q a ht).credits q a)) := rfl

theorem credits_withTens {m : Map Ten} : (s.withTens m).credits q a = s.credits q a := rfl

theorem pendOf_withTens {m : Map Ten} : (s.withTens m).pendOf q a = s.pendOf q a := rfl

theorem modTen_eq_withTens {u : Ten → Ten} : s.modTen t u = s.withTens (mapMod (fun _ => ten0) s.tens t u) := rfl

/-- The room of a queue does not depend on the tenants' records. -/
theorem canPut_modTen {u : Ten → Ten} : (s.modTen t u).canPut q a n ht = s.canPut q a n ht := by
  rw [canPut_eq, canPut_eq, modTen_eq_withTens, drained_withTens, pendOf_withTens, credits_withTens]

theorem record_of_awake (h : s.dormant t = false) : s.record t i ty page ht payload =
    (s.modTen t fun x => { x with recCnt := (x.recCnt + 1) % 65536 }).intake t i .record
      ⟨ty, 0, srcPage page, (s.ten t).recCnt, ht, payload⟩ :=
  if_pos (by simp [h])

/-- A record that fits is the last entry of its queue, and has taken its number from the tenant. -/
theorem record_of_canPut (hs : s.mapsWf = true) (hd : s.dormant t = false)
    (hx : x = ⟨ty, 0, srcPage page, (s.ten t).recCnt, ht, payload⟩)
    (hc : s.canPut (qIntake t i) .record (itemSlots x) ht = true) :
    ((s.record t i ty page ht payload).ten t).recCnt = ((s.ten t).recCnt + 1) % 65536 ∧
      ∃ l, (s.record t i ty page ht payload).queue (qIntake t i) = l ++ [⟨.record, itemSlots x, .item x⟩] := by
  subst hx
  have counted : TenHas t (fun x => x.recCnt = ((s.ten t).recCnt + 1) % 65536)
      (s.modTen t fun x => { x with recCnt := (x.recCnt + 1) % 65536 }) :=
    ⟨mapsWf_modTen hs, congrArg Ten.recCnt (ten_modTen hs)⟩
  rw [record_of_awake hd]
  refine ⟨(intake_ind (closed_tenHas (by decide)) counted).2, ?_⟩
  rw [State.intake, enqueue_of_canPut (canPut_modTen.trans hc)]
  exact ⟨_, queue_push (mapsWf_drained counted.1)⟩

theorem completes_healthRecord (hs : s.mapsWf = true) (hr : s.running = true) (hp : s.on F.BND_HCFG_PER = true)
    (hd : s.dormant 0 = false) (hx : x = ⟨0x08, 0, srcPage 0x21, (s.ten 0).recCnt, s.ht, s.encHealth⟩)
    (hc : s.canPut (qIntake 0 2) .record (itemSlots x) s.ht = true) : completes .healthRecord s fun t =>
      (t.ten 0).recCnt = ((s.ten 0).recCnt + 1) % 65536 ∧
      ∃ q, t.queue (qIntake 0 2) = q ++ [⟨.record, itemSlots x, .item x⟩] :=
  ⟨_, exec_healthRecord hr hp, record_of_canPut hs hd hx hc⟩

/-! ## The placement loop (R174) -/

/-- S after a placement period: it follows the free granules of the pool. -/
def State.placed (s : State) : Int :=
  if s.poolFree < s.fld F.QUE_PLC_CFG_FREE then (s.loop loopPLC).out - (16 * s.loopStep loopPLC : Nat)
  else if s.capped ∧ s.fld F.QUE_PLC_CFG_FREE + 16 * s.loopStep loopPLC ≤ s.poolFree then
    (s.loop loopPLC).out + (16 * s.loopStep loopPLC : Nat)
  else (s.loop loopPLC).out

theorem exec_placementUpdate (hc : s.cclk = true) (hl : s.loopLive loopPLC = true) (hp : 0 < s.poolSize) :
    exec .placementUpdate s = .next { s.loopUpdate loopPLC s.placed with capped := false } :=
  congrArg Host.Outcome.next ((if_pos hc).trans (if_neg (by simp [hl, hp])))

theorem completes_placementUpdate (hs : s.mapsWf = true) (hc : s.cclk = true) (hl : s.loopLive loopPLC = true)
    (hp : 0 < s.poolSize) : completes .placementUpdate s fun t => t.capped = false ∧
      (s.poolFree < s.fld F.QUE_PLC_CFG_FREE → t.loop loopPLC =
        clampLoop (s.loopLo loopPLC) (s.loopHi loopPLC) ((s.loop loopPLC).out - (16 * s.loopStep loopPLC : Nat))) := by
  refine ⟨_, exec_placementUpdate hc hl hp, rfl, fun low => ?_⟩
  have less : s.placed = (s.loop loopPLC).out - (16 * s.loopStep loopPLC : Nat) := if_pos low
  exact less ▸ loop_loopUpdate hs

/-! ## Uncorrectable memory errors (R190) -/

/-- The error is shown, and the page told. -/
def State.eccMarked (s : State) : State := (s.risen [0x20] (s.setFld F.QUE_STAT_ECC_UNCORR 1)).raise 0x20 8

theorem eccMarked_recordSafe (hR : RecordSafe P) (hp : Closed [.reg 0x2018] P) (hs : P (s.setFld F.QUE_STAT_ECC_UNCORR 1)) :
    P s.eccMarked :=
  raise_recordSafe hR hp (forEach_ind_mem (fun _ hm _ ht => ite_ind
    (raise_recordSafe hR ((List.mem_singleton.mp hm).symm ▸ hp) ht) ht) hs)

/-- The error shows in QUE_STAT and in the interrupt of its page. -/
def EccShown (s : State) : Prop := Reads F.QUE_STAT_ECC_UNCORR 1 s ∧ Latched 0x20 8 s

theorem eccShown_eccMarked (hs : s.mapsWf = true) : EccShown s.eccMarked := by
  have shown : Reads F.QUE_STAT_ECC_UNCORR 1 (s.setFld F.QUE_STAT_ECC_UNCORR 1) :=
    reads_setFld (mapsWf_regs hs) (by decide) (by decide)
  have risen : (s.risen [0x20] (s.setFld F.QUE_STAT_ECC_UNCORR 1)).regsWf = true :=
    risen_ind (closed_regsWf.mono (by decide)) shown.1
  exact ⟨eccMarked_recordSafe (recordSafe_reads (by decide) (by decide)) (closed_reads (by decide) (by decide)) shown,
    regsWf_raise risen (by decide), bit_raise risen (by decide)⟩

theorem recordSafe_eccShown : RecordSafe EccShown :=
  (recordSafe_reads (by decide) (by decide)).and (recordSafe_of_closed (closed_latched (by decide) (by decide)))

/-- What the consumer of a capture, unit or Resampler queue does for a discarded entry: skips toward its outputs. -/
theorem eccSkip_ind_of_lt (hl : 0x20 ≤ q) (hh : q < 0x48) (hC : Closed [.pendg, .asy] P) (hs : P s) : P (s.eccSkip q e) := by
  unfold State.eccSkip
  extract_lets src ht each
  have heach (p : Producer) (owner : Nat) (l : List (Nat × Bool)) : P (each p owner l s) :=
    ite_ind (skip_ind (hC.mono (by decide)) hs) (forEach_ind (fun _ _ h => skip_ind (hC.mono (by decide)) h) hs)
  refine ite_with (fun _ => ite_ind (heach ..) (heach ..)) fun notCapture => ?_
  refine ite_with (fun _ => headGone_ind (hC.mono (by decide)) (heach ..)) fun notUnit => ?_
  exact ite_with (fun _ => heach ..) fun notResampler => by omega

theorem exec_eccUncorrectable_entry {l : List Entry} (hc : s.cclk = true) (hl : 0x20 ≤ q) (hh : q < 0x48) (hq : s.queue q = e :: l) :
    exec (.eccUncorrectable q) s = .next ((s.setQueue q l).eccMarked.eccSkip q e) := by
  refine congrArg Host.Outcome.next ((if_pos (by simp [hc]; omega)).trans ((if_neg (by omega)).trans ?_))
  rw [popQueue_of_queue hq]
  rfl

theorem queue_eccMarked_of_lt {l : List Entry} (hh : q < 0x48) (h : s.queue q = l) : s.eccMarked.queue q = l :=
  queue_raise_of_lt hh (forEach_ind (Q := fun t : State => t.queue q = l)
    (fun _ _ ht => ite_ind (Q := fun t : State => t.queue q = l) (queue_raise_of_lt hh ht) ht) h)

theorem completes_eccUncorrectable_entry {l : List Entry} (hs : s.mapsWf = true) (hc : s.cclk = true) (hl : 0x20 ≤ q)
    (hh : q < 0x48) (hq : s.queue q = e :: l) : completes (.eccUncorrectable q) s fun t => t.queue q = l ∧
      t.on F.QUE_STAT_ECC_UNCORR = true ∧ t.bit (F.PIRQ 0x20) 8 = true := by
  refine ⟨_, exec_eccUncorrectable_entry hc hl hh hq, ?_⟩
  have marked : EccShown (s.setQueue q l).eccMarked := eccShown_eccMarked (mapsWf_setQueue hs)
  have left : (s.setQueue q l).eccMarked.queue q = l := queue_eccMarked_of_lt hh (queue_setQueue hs)
  have closed : Closed [.pendg, .asy] fun t => t.queue q = l ∧ EccShown t := closed_and (closed_queue (by decide))
    (closed_and (closed_reads (by decide) (by decide)) (closed_latched (by decide) (by decide)))
  obtain ⟨left, shown, latched⟩ := eccSkip_ind_of_lt (e := e) hl hh closed ⟨left, marked⟩
  exact ⟨left, on_of_reads shown, latched.2⟩

/-- The record of a bundle with an uncorrectable error. -/
def State.eccBundleRecord (s : State) (q : Nat) (b : Bundle) : List Byte :=
  bytesLE 1 3 ++ bytesLE 1 1 ++ bytesLE 1 (q % 4) ++ [0] ++ bytesLE 4 0 ++ bytesLE 8 s.ht ++ bytesLE 6 b.seq ++ [0, 0]

theorem exec_eccUncorrectable_bundle {l : List Bundle} (hc : s.cclk = true) (hq : q < 0x20) (hb : s.closedOf q = b :: l) :
    exec (.eccUncorrectable q) s = .next
      ((s.setClosed q (spoil b :: l)).eccMarked.record (q / 4) 1 0x07 0x20 s.ht (s.eccBundleRecord q b)) := by
  refine congrArg Host.Outcome.next ((if_pos (by simp [hc]; omega)).trans ((if_pos hq).trans ?_))
  rw [hb]
  rfl

theorem closed_closedOf {l : List Part} {x : List Bundle} (h : avoids l .closed = true) : Closed l fun t => t.closedOf k = x :=
  closed_of h fun _ _ (he : _ = _) ht => by rwa [State.closedOf, he]

theorem completes_eccUncorrectable_bundle {l : List Bundle} (hs : s.mapsWf = true) (hc : s.cclk = true) (hq : q < 0x20)
    (hb : s.closedOf q = b :: l) : completes (.eccUncorrectable q) s fun t => t.closedOf q = spoil b :: l ∧
      t.on F.QUE_STAT_ECC_UNCORR = true ∧ t.bit (F.PIRQ 0x20) 8 = true := by
  refine ⟨_, exec_eccUncorrectable_bundle hc hq hb, ?_⟩
  have kept : RecordSafe fun t => t.closedOf q = spoil b :: l := recordSafe_of_closed (closed_closedOf (by decide))
  have spoiled : (s.setClosed q (spoil b :: l)).eccMarked.closedOf q = spoil b :: l :=
    eccMarked_recordSafe kept (closed_closedOf (by decide)) (closedOf_setClosed hs)
  obtain ⟨spoiled, shown, latched⟩ := record_recordSafe (t := q / 4) (i := 1) (ty := 0x07) (page := 0x20) (ht := s.ht)
    (payload := s.eccBundleRecord q b) (kept.and recordSafe_eccShown) ⟨spoiled, eccShown_eccMarked (mapsWf_setClosed hs)⟩
  exact ⟨spoiled, on_of_reads shown, latched.2⟩

end

/-- Settles O46: each clause is the run of its event. That a bundle with an uncorrectable error is kept, with whatever bytes
are stored, is the model's choice (log entry 95). -/
theorem sealsHealthAndMemoryErrors : Obligations.SealsHealthAndMemoryErrors := by
  unfold Obligations.SealsHealthAndMemoryErrors
  exact ⟨fun s k q rest hr hw hq hm => ⟨_, exec_sealStart_takes hr hw hq hm, rfl, rfl,
      upd_hallmark (closed_changesOnly (by decide)) (changesOnly_refl s)⟩,
    fun s k q b rest hs hr hw hq hl hb hm hn => completes_sealStart_stops hs hr hw hq hl hb hm hn,
    fun s k q b hs hr hw hb => completes_sealDone hs hr hw hb, fun s => exec_healthRecord,
    fun s i hs hr hp hd hx hc => completes_healthRecord hs hr hp hd hx hc,
    fun s hs hc hl hp => completes_placementUpdate hs hc hl hp,
    fun s q e l hs hc hl hh hq => completes_eccUncorrectable_entry hs hc hl hh hq,
    fun s q b l hs hc hq hb => completes_eccUncorrectable_bundle hs hc hq hb⟩

end Sys2Proof.Machine

/-! The two-wire target (R415, R416, R419-R423, R442): a transaction begins, stages its bytes, and ends. -/

namespace Sys2Proof.Machine

section
variable {s t u : State} {x y : Tx} {rq : Requester} {f g : Fld} {a k m n p v r regs denied code : Nat} {d : Done}
  {o c : Byte} {data l : List Byte} {read : Bool}

/-! ## The record of a transaction -/

theorem txOf_modTx {h : Tx → Tx} (hs : s.mapsWf = true) : (s.modTx p h).txOf p = (s.txOf p).map h := mapGet_mapSet (mapsWf_tx hs)

theorem mapsWf_modTx {h : Tx → Tx} (hs : s.mapsWf = true) : (s.modTx p h).mapsWf = true :=
  modTx_ind (closed_mapsWf.mono (by decide)) hs

theorem txOf_putPtr (hs : s.mapsWf = true) : (s.putPtr p x a).txOf p = (s.txOf p).map fun y => { y with ptr := a } := by
  unfold State.putPtr
  extract_lets moved
  exact ite_ind (Q := fun t : State => t.txOf p = _) (txOf_modTx hs) (txOf_modTx hs)

theorem mapsWf_putPtr (hs : s.mapsWf = true) : (s.putPtr p x a).mapsWf = true :=
  putPtr_ind (closed_mapsWf.mono (by decide)) hs

theorem Reads.putPtr (h : Reads g v s) (hp : ApartFrom F.HTW_STAT_PTR g) : Reads g v (s.putPtr p x a) := by
  unfold State.putPtr
  extract_lets moved shown
  have hmoved : Reads g v moved := h
  exact ite_ind (Q := Reads g v) (hmoved.setFld hp) hmoved

/-- The record of a transaction that begins. -/
def txBegun (rq : Requester) (a ptr : Nat) : Tx := ⟨rq, a, false, ptr, [], 0, none, [], 0, 0, none, 0, false, false, 0, []⟩

theorem txOf_openTx (hs : s.mapsWf = true) : (s.openTx p rq a n).txOf p = some (txBegun rq a n) := mapGet_mapSet (mapsWf_tx hs)

theorem mapsWf_openTx (hs : s.mapsWf = true) : (s.openTx p rq a n).mapsWf = true := openTx_ind (closed_mapsWf.mono (by decide)) hs

/-! ## HTW_START (R415, R420-R423) -/

/-- The transaction goes on in the direction of the START, from its requester's pointer, and shows both. -/
def State.phaseBegun (s : State) (rq : Requester) (read : Bool) : State :=
  ((s.modTx 0 fun x => { x with read := read, ptr := s.ptrOf rq }).setFld F.HTW_STAT_REQ (reqCode rq)).setFld
    F.HTW_STAT_PTR (s.ptrOf rq)

/-- A write phase: the pointer, and the bytes that are staged. -/
def State.written (s : State) (rq : Requester) (data : List Byte) : State :=
  ((s.phaseBegun rq false).setFld F.HTW_STAT_STATE 2).htwBytes rq data

theorem abortTx_of_none (h : s.txOf p = none) : s.abortTx p code = s := by
  rw [State.abortTx, h]

section
variable (hp : s.portServes = true)
include hp

theorem exec_htwStart_of_unknown (ht : s.txOf 0 = none) (ha : s.addrOf a = none) :
    exec (.htwStart a read data n) s = .next (s.addSat F.HTW_CNT_NACK 1) := by
  refine congrArg Host.Outcome.next ((if_pos (by simp [hp, ht])).trans ?_)
  simp [ht, abortTx_of_none ht, ha]

theorem exec_htwStart_write (ht : s.txOf 0 = none) (ha : s.addrOf a = some rq) :
    exec (.htwStart a false data n) s = .next ((s.openTx 0 rq a (s.ptrOf rq)).written rq data) := by
  refine congrArg Host.Outcome.next ((if_pos (by simp [hp, ht])).trans ?_)
  simp [ht, abortTx_of_none ht, ha, State.written, State.phaseBegun]

theorem exec_htwStart_read (ht : s.txOf 0 = none) (ha : s.addrOf a = some rq) :
    exec (.htwStart a true [] n) s =
      .next (State.sendBytes 0 n n (((s.openTx 0 rq a (s.ptrOf rq)).phaseBegun rq true).setFld F.HTW_STAT_STATE 3)) := by
  refine congrArg Host.Outcome.next ((if_pos (by simp [hp, ht])).trans ?_)
  simp [ht, abortTx_of_none ht, ha, State.phaseBegun]

theorem exec_htwStart_repeated (ht : s.txOf 0 = some x) (hn : x.stall = none) (hx : x.addr7 = a) (ha : s.addrOf a = some rq) :
    exec (.htwStart a false data n) s = .next (s.written rq data) := by
  refine congrArg Host.Outcome.next ((if_pos (by simp [hp, ht, hn])).trans ?_)
  simp [ht, hx, ha, State.written, State.phaseBegun]

theorem exec_htwStart_other_unknown (ht : s.txOf 0 = some x) (hn : x.stall = none) (hx : x.addr7 ≠ a)
    (ha : (s.abortTx 0 3).addrOf a = none) :
    exec (.htwStart a read data n) s = .next ((s.abortTx 0 3).addSat F.HTW_CNT_NACK 1) := by
  refine congrArg Host.Outcome.next ((if_pos (by simp [hp, ht, hn])).trans ?_)
  simp [ht, hx, ha]

theorem exec_htwStart_other (ht : s.txOf 0 = some x) (hn : x.stall = none) (hx : x.addr7 ≠ a)
    (ha : (s.abortTx 0 3).addrOf a = some rq) : exec (.htwStart a false data n) s =
      .next (((s.abortTx 0 3).openTx 0 rq a ((s.abortTx 0 3).ptrOf rq)).written rq data) := by
  refine congrArg Host.Outcome.next ((if_pos (by simp [hp, ht, hn])).trans ?_)
  simp [ht, hx, ha, State.written, State.phaseBegun]

end

theorem mapsWf_phaseBegun (hs : s.mapsWf = true) : (s.phaseBegun rq read).mapsWf = true :=
  mapsWf_setFld (mapsWf_setFld (mapsWf_modTx hs))

theorem txOf_phaseBegun (hs : s.mapsWf = true) :
    (s.phaseBegun rq read).txOf 0 = (s.txOf 0).map fun x => { x with read := read, ptr := s.ptrOf rq } := txOf_modTx hs

/-! ## Staged bytes (R416, R422) -/

/-- The bytes `l` that a transaction of `rq` at the address `a` has taken, the first of them for the byte address `b`. -/
structure Tx.Took (rq : Requester) (a b : Nat) (l : List Byte) (x : Tx) : Prop where
  req : x.req = rq
  addr7 : x.addr7 = a
  count : x.count = min 256 l.length
  bytes : x.staged.map (fun z => z.2) = l.take 256
  first : x.staged.head? = l.head?.map fun c => (b, c)
  result : x.result = if 256 < l.length then 4 else 0
  ptr : l = [] → x.ptr = b

/-- What a staged byte makes of a transaction, beside its pointer. -/
def Tx.stage (x : Tx) (c : Byte) : Tx :=
  if x.count < 256 then { x with staged := x.staged ++ [(x.ptr, c)], count := x.count + 1 } else { x with result := max x.result 4 }

theorem Tx.Took.stage {b : Nat} (h : x.Took rq a b l) (c : Byte) (n : Nat) : Tx.Took rq a b (l ++ [c]) { x.stage c with ptr := n } := by
  obtain ⟨req, addr7, count, bytes, first, result, ptr⟩ := h
  have elsewhere {q : Prop} (e : l ++ [c] = []) : q := absurd e (by simp)
  unfold Tx.stage
  split
  next hc =>
    have room : l.length < 256 := by omega
    refine ⟨req, addr7, ?_, ?_, ?_, ?_, elsewhere⟩
    · simp only [List.length_append, List.length_singleton]
      omega
    · rw [List.take_of_length_le room.le] at bytes
      rw [List.map_append, bytes, List.take_of_length_le (by simp only [List.length_append, List.length_singleton]; omega)]
      rfl
    · cases l with
      | nil =>
        have none_staged : x.staged = [] := List.head?_eq_none_iff.mp first
        rw [none_staged, ptr rfl]
        rfl
      | cons c' l' =>
        rw [List.head?_append, first]
        rfl
    · simp only [result, List.length_append, List.length_singleton, if_neg (by omega : ¬ 256 < l.length),
        if_neg (by omega : ¬ 256 < l.length + 1)]
  next hc =>
    have full : 256 ≤ l.length := by omega
    refine ⟨req, addr7, ?_, ?_, ?_, ?_, elsewhere⟩
    · simp only [List.length_append, List.length_singleton]
      omega
    · rw [bytes, List.take_append_of_le_length full]
    · rw [first, List.head?_append]
      cases l with
      | nil => exact absurd full (by decide)
      | cons c' l' => rfl
    · simp only [result, List.length_append, List.length_singleton, if_pos (by omega : 256 < l.length + 1)]
      split <;> rfl

/-- Port 0 is in a write phase whose transaction has taken the bytes `l`. -/
def Staged (rq : Requester) (a b : Nat) (l : List Byte) (s : State) : Prop :=
  s.mapsWf = true ∧ s.fld F.HTW_STAT_STATE = 2 ∧ ∃ x, s.txOf 0 = some x ∧ x.Took rq a b l

theorem stageByte_of_txOf (h : s.txOf p = some x) :
    s.stageByte p c = (s.modTx p fun x => x.stage c).putPtr p x (s.movePtr x true x.ptr 1) := by
  rw [State.stageByte, h]
  rfl

theorem Staged.stageByte {b : Nat} (h : Staged rq a b l s) : Staged rq a b (l ++ [c]) (s.stageByte 0 c) := by
  obtain ⟨wf, writes, x, hx, took⟩ := h
  rw [stageByte_of_txOf hx]
  have wf' : (s.modTx 0 fun x => x.stage c).mapsWf = true := mapsWf_modTx wf
  have reads : Reads F.HTW_STAT_STATE 2 (s.modTx 0 fun x => x.stage c) := ⟨mapsWf_regs wf', writes⟩
  refine ⟨mapsWf_putPtr wf', (reads.putPtr (by decide)).2, _, ?_, took.stage c (s.movePtr x true x.ptr 1)⟩
  rw [txOf_putPtr wf', txOf_modTx wf, hx]
  rfl

theorem Staged.all {b : Nat} (h : Staged rq a b [] s) (l : List Byte) :
    Staged rq a b l (forEach l (fun c s => s.stageByte 0 c) s) := by
  induction l using List.reverseRecOn with
  | nil => exact h
  | append_singleton l c ih =>
    rw [forEach, List.foldl_append]
    exact ih.stageByte

theorem htwBytes_window (h : s.txOf 0 = some x) : s.htwBytes (.window m) (o :: data) =
    forEach data (fun c s => s.stageByte 0 c) (s.putPtr 0 x (0x3000 + 256 * m + o.toNat)) := by
  rw [State.htwBytes, h]

theorem htwBytes_nil : s.htwBytes rq [] = s := by
  unfold State.htwBytes
  cases s.txOf 0 with
  | none => rfl
  | some x => cases rq <;> rfl

theorem staged_written (hs : s.mapsWf = true) : Staged (.window m) a (0x3000 + 256 * m + o.toNat) data
    ((s.openTx 0 (.window m) a n).written (.window m) (o :: data)) := by
  have begun : (s.openTx 0 (.window m) a n).mapsWf = true := mapsWf_openTx hs
  have phase := mapsWf_phaseBegun (rq := .window m) (read := false) begun
  have wf := mapsWf_setFld (f := F.HTW_STAT_STATE) (v := 2) phase
  have tx : (((s.openTx 0 (.window m) a n).phaseBegun (.window m) false).setFld F.HTW_STAT_STATE 2).txOf 0 =
      some (txBegun (.window m) a ((s.openTx 0 (.window m) a n).ptrOf (.window m))) :=
    (txOf_phaseBegun begun).trans (by rw [txOf_openTx hs]; rfl)
  rw [State.written, htwBytes_window tx]
  refine Staged.all ⟨mapsWf_putPtr wf, ?_, _, (txOf_putPtr wf).trans (congrArg _ tx), rfl, rfl, rfl, rfl, rfl, rfl, fun _ => rfl⟩ data
  exact (Reads.putPtr (reads_setFld (mapsWf_regs phase) (by decide) (by decide)) (by decide)).2

theorem completes_htwStart_write (hs : s.mapsWf = true) (hp : s.portServes = true) (ht : s.txOf 0 = none)
    (ha : s.addrOf a = some (.window m)) : completes (.htwStart a false (o :: data) n) s fun t =>
      (t.txOf 0).map (fun y => (y.req, y.addr7, y.count)) = some (.window m, a, min 256 data.length) ∧
      (t.txOf 0).map (fun y => y.staged.map (fun x => x.2)) = some (data.take 256) ∧
      (t.txOf 0).bind (fun y => y.staged.head?) = data.head?.map (fun b => (0x3000 + 256 * m + o.toNat, b)) ∧
      (t.txOf 0).map (fun y => y.result) = some (if 256 < data.length then 4 else 0) ∧ t.fld F.HTW_STAT_STATE = 2 := by
  refine ⟨_, exec_htwStart_write hp ht ha, ?_⟩
  obtain ⟨_, writes, x, hx, req, addr7, count, bytes, first, result, _⟩ :=
    staged_written (a := a) (m := m) (o := o) (data := data) (n := s.ptrOf (.window m)) hs
  rw [hx]
  exact ⟨by simp [req, addr7, count], by simp [bytes], by simpa using first, by simp [result], writes⟩

theorem completes_htwStart_repeated (hs : s.mapsWf = true) (hp : s.portServes = true) (ht : s.txOf 0 = some x)
    (hn : x.stall = none) (hx : x.addr7 = a) (ha : s.addrOf a = some rq) : completes (.htwStart a false [] n) s fun t =>
      t.txOf 0 = some { x with read := false, ptr := s.ptrOf rq } := by
  refine ⟨_, exec_htwStart_repeated hp ht hn hx ha, ?_⟩
  rw [State.written, htwBytes_nil]
  exact (txOf_phaseBegun hs).trans (by rw [ht]; rfl)

/-! ## The end of a transaction (R419, R442) -/

/-- What the end of a two-wire transaction shows, with `n` transactions counted. -/
def EndShown (r regs denied n : Nat) (s : State) : Prop :=
  Reads F.HTW_LAST_RESULT (r % 256) s ∧ Reads F.HTW_LAST_REGS (min regs 255) s ∧ Reads F.HTW_LAST_DENIED (min denied 255) s ∧
    Reads F.HTW_STAT_STATE 0 s ∧ Reads F.HTW_CNT_TRANS n s

theorem closed_endShown {l : List Part} (hl : avoids l (.reg 0xd4c) = true) (hs : avoids l (.reg 0xd48) = true)
    (hc : avoids l (.reg 0xd50) = true) (hw : needsAll l runParts = true) : Closed l (EndShown r regs denied n) :=
  closed_and (closed_reads hl hw) (closed_and (closed_reads hl hw) (closed_and (closed_reads hl hw)
    (closed_and (closed_reads hs hw) (closed_reads hc hw))))

theorem reads_result (hs : s.regsWf = true) : Reads F.HTW_LAST_RESULT (r % 256) (s.setFld F.HTW_LAST_RESULT r) :=
  ⟨regsWf_setFld hs, fld_setFld hs (by decide)⟩

theorem reads_addSat (hs : s.regsWf = true) (hf : f.lo + f.w ≤ 32) :
    Reads f (min (s.fld f + n) (2 ^ f.w - 1)) (s.addSat f n) := ⟨regsWf_setFld hs, fld_addSat hs hf⟩

theorem min_255_lt : min n 255 < 2 ^ 8 := by omega

/-- The end of a two-wire transaction, up to its count. -/
def State.endTold (s : State) (x : Tx) (r regs denied : Nat) : State :=
  ((((s.setFld F.HTW_LAST_RESULT r).setFld F.HTW_LAST_REGS (min regs 255)).setFld F.HTW_LAST_DENIED (min denied 255)).setFld
    F.HTW_LAST_ADDR x.addr7).setFld F.HTW_STAT_STATE 0

/-- The end of a transaction counts beside the aborts. -/
theorem Reads.endTold (h : Reads g v s) (hg : g.addr = 0xd50 ∧ g.lo + g.w ≤ 32) : Reads g v (s.endTold x r regs denied) := by
  have apart {f : Fld} (hf : 0xd50 ≠ f.addr) : ApartFrom f g := ⟨hg.2, .inl (hg.1 ▸ hf)⟩
  exact ((((h.setFld (apart (by decide))).setFld (apart (by decide))).setFld (apart (by decide))).setFld
    (apart (by decide))).setFld (apart (by decide))

theorem endShown_showEnd (hs : s.regsWf = true) :
    EndShown r regs denied (min (s.fld F.HTW_CNT_TRANS + 1) (2 ^ F.HTW_CNT_TRANS.w - 1)) (s.showEnd 0 x r regs denied) := by
  have result : Reads F.HTW_LAST_RESULT (r % 256) (s.setFld F.HTW_LAST_RESULT r) := reads_result hs
  have written := reads_setFld (f := F.HTW_LAST_REGS) result.1 (by decide) (min_255_lt (n := regs))
  have lost := reads_setFld (f := F.HTW_LAST_DENIED) written.1 (by decide) (min_255_lt (n := denied))
  have address := regsWf_setFld (f := F.HTW_LAST_ADDR) (v := x.addr7) lost.1
  have idle := reads_setFld (f := F.HTW_STAT_STATE) (v := 0) address (by decide) (by decide)
  have before : (s.endTold x r regs denied).fld F.HTW_CNT_TRANS = s.fld F.HTW_CNT_TRANS :=
    (Reads.endTold ⟨hs, rfl⟩ (by decide)).2
  have counted := reads_addSat (s := s.endTold x r regs denied) (f := F.HTW_CNT_TRANS) (n := 1) idle.1 (by decide)
  rw [before] at counted
  refine ⟨((((result.setFld ?_).setFld ?_).setFld ?_).setFld ?_).setFld ?_, (((written.setFld ?_).setFld ?_).setFld ?_).setFld ?_,
    ((lost.setFld ?_).setFld ?_).setFld ?_, idle.setFld ?_, counted⟩ <;> decide

/-- The result of a proper end. -/
def endResult (x : Tx) (d : Done) : Nat :=
  max x.result (if d.denied.any (fun y => y.2 == dcPARTIAL) then 2 else if x.denied + d.denied.length = 0 then 0 else 1)

/-- A proper end within the run: what the commit left, and the result. -/
theorem properEnd_of_sameRun (ht : s.txOf 0 = some x) (hu : u = (s.retire x).dropTx 0 x)
    (hd : d = u.commit x.req (u.stagedWrites x)) (hr : s.sameRun d.state = true) : s.properEnd 0 =
      if d.denied.any (fun y => y.2 == dcPARTIAL) then
        (d.state.showEnd 0 x (endResult x d) d.regs (x.denied + d.denied.length)).raise 0x0D 9
      else d.state.showEnd 0 x (endResult x d) d.regs (x.denied + d.denied.length) := by
  subst hu hd
  rw [State.properEnd, ht]
  exact if_pos hr

theorem endShown_properEnd (ht : s.txOf 0 = some x) (hu : u = (s.retire x).dropTx 0 x)
    (hd : d = u.commit x.req (u.stagedWrites x)) (hr : s.sameRun d.state = true) (hw : d.state.regsWf = true) :
    EndShown (endResult x d) d.regs (x.denied + d.denied.length)
      (min (d.state.fld F.HTW_CNT_TRANS + 1) (2 ^ F.HTW_CNT_TRANS.w - 1)) (s.properEnd 0) := by
  rw [properEnd_of_sameRun ht hu hd hr]
  have shown := endShown_showEnd (x := x) (r := endResult x d) (regs := d.regs) (denied := x.denied + d.denied.length) hw
  exact ite_ind (raise_ind (closed_endShown (by decide) (by decide) (by decide) (by decide)) shown) shown

theorem exec_htwStop (hc : s.cclk = true) (ht : s.txOf 0 = some x) (hn : x.stall = none) : exec .htwStop s = .next (s.properEnd 0) :=
  congrArg Host.Outcome.next (if_pos (by simp [hc, ht, hn]))

theorem completes_htwStop (hs : s.mapsWf = true) (hc : s.cclk = true) (ht : s.txOf 0 = some x) (hn : x.stall = none)
    (hu : u = (s.retire x).dropTx 0 x) (hd : d = u.commit x.req (u.stagedWrites x)) (hr : s.sameRun d.state = true) :
    completes .htwStop s fun t => t.fld F.HTW_LAST_RESULT = max x.result (if d.denied.any (fun y => y.2 == dcPARTIAL) then 2
        else if x.denied + d.denied.length = 0 then 0 else 1) % 256 ∧
      t.fld F.HTW_LAST_REGS = min d.regs 255 ∧ t.fld F.HTW_LAST_DENIED = min (x.denied + d.denied.length) 255 ∧
      t.fld F.HTW_STAT_STATE = 0 ∧ t.fld F.HTW_CNT_TRANS = min (d.state.fld F.HTW_CNT_TRANS + 1) (2 ^ F.HTW_CNT_TRANS.w - 1) := by
  refine ⟨_, exec_htwStop hc ht hn, ?_⟩
  have wf : d.state.regsWf = true := by
    have dropped : u.regsWf = true := hu ▸ dropTx_ind (closed_regsWf.mono (by decide)) (retire_ind (closed_regsWf.mono (by decide))
      (mapsWf_regs hs))
    exact hd ▸ commit_ind (closed_regsWf.mono (by decide)) dropped
  obtain ⟨result, written, lost, idle, counted⟩ := endShown_properEnd ht hu hd hr wf
  exact ⟨result.2, written.2, lost.2, idle.2, counted.2⟩

/-! ## The abort of a transaction (R185, R415) -/

/-- Each of the bundles is shown as rewound. -/
def State.rewound (s : State) (l : List (Nat × Nat × Nat)) : State :=
  forEach l (fun b s => s.setFld (F.QUE_PSTAT_REWOUND (b.1 / 4)) 1) s

theorem abortTx_of_txOf (ht : s.txOf 0 = some x) : s.abortTx 0 code =
    (((((s.rewound x.bundles).dropTx 0 x).showEnd 0 x (max x.result code) 0 x.denied).addSat F.HTW_CNT_ABORT 1).raise 0x0D 8) := by
  rw [State.abortTx, ht]
  rfl

theorem Reads.rewound {l : List (Nat × Nat × Nat)} (h : Reads g v s) (hg : g.addr < 0x20e0 ∧ g.lo + g.w ≤ 32) :
    Reads g v (s.rewound l) :=
  forEach_ind (fun _ _ h => h.setFld ⟨hg.2, .inl (Nat.ne_of_lt (Nat.lt_add_right _ hg.1))⟩) h

theorem rewound_of_mem {l : List (Nat × Nat × Nat)} {b : Nat × Nat × Nat} (hs : s.regsWf = true) (hb : b ∈ l) :
    Reads (F.QUE_PSTAT_REWOUND (b.1 / 4)) 1 (s.rewound l) := by
  refine forEach_ind_at (I := fun t : State => t.regsWf = true) (Q := Reads (F.QUE_PSTAT_REWOUND (b.1 / 4)) 1) hb
    (fun t ht => reads_setFld ht (by decide : 9 + 1 ≤ 32) (by decide : 1 < 2 ^ 1)) (fun _ _ => regsWf_setFld) (fun c t h => ?_) hs
  by_cases e : c.1 / 4 = b.1 / 4
  · rw [e]
    exact reads_setFld h.1 (by decide : 9 + 1 ≤ 32) (by decide : 1 < 2 ^ 1)
  · refine h.setFld ⟨(by decide : 9 + 1 ≤ 32), .inl ?_⟩
    show 0x20e0 + 4 * (b.1 / 4) ≠ 0x20e0 + 4 * (c.1 / 4)
    omega

/-- What an abort changes after it has shown its bundles as rewound lies below their registers. -/
theorem closed_rewound : Closed ([.reg 0xd50, .reg 0xd48, .reg 0xd4c, .reg 0xe4c, .reg 0xe44, .reg 0xe48, .reg 0xd18, .streams, .tx] ++
    irqParts) (Reads (F.QUE_PSTAT_REWOUND k) v) := by
  have elsewhere : ∀ c < 0x20e0, c ≠ 0x20e0 + 4 * k := by omega
  exact closed_reads (by simp [avoids, irqParts, Part.covers, F.QUE_PSTAT_REWOUND, elsewhere]) (by decide)

/-- What the abort of the two-wire transaction `x` leaves. -/
def Aborted (x : Tx) (s : State) (code : Nat) (t : State) : Prop :=
  Reads F.HTW_LAST_RESULT (max x.result code % 256) t ∧
    Reads F.HTW_CNT_ABORT (min (s.fld F.HTW_CNT_ABORT + 1) (2 ^ F.HTW_CNT_ABORT.w - 1)) t ∧ t.closed = s.closed

theorem closed_aborted {l : List Part} (hl : avoids l (.reg 0xd4c) = true) (hc : avoids l (.reg 0xd50) = true)
    (hb : avoids l .closed = true) (hw : needsAll l runParts = true) : Closed l (Aborted x s code) :=
  closed_and (closed_reads hl hw) (closed_and (closed_reads hc hw) (closed_of hb fun _ _ he h => Eq.trans he h))

section
variable (hs : s.mapsWf = true) (ht : s.txOf 0 = some x)
include ht

theorem exec_htwIdleAbort (hc : s.cclk = true) (hn : x.stall = none) : exec .htwIdleAbort s = .next (s.abortTx 0 3) :=
  congrArg Host.Outcome.next (if_pos (by simp [hc, ht, hn]))

include hs

theorem aborted_abortTx : Aborted x s code (s.abortTx 0 code) := by
  have kept : Reads F.HTW_CNT_ABORT (s.fld F.HTW_CNT_ABORT) (s.rewound x.bundles) :=
    Reads.rewound ⟨mapsWf_regs hs, rfl⟩ (by decide)
  have bundles : (s.rewound x.bundles).closed = s.closed := forEach_ind (Q := fun t : State => t.closed = s.closed) (fun _ _ h => h) rfl
  have dropped : Reads F.HTW_CNT_ABORT (s.fld F.HTW_CNT_ABORT) ((s.rewound x.bundles).dropTx 0 x) :=
    dropTx_ind (closed_reads (by decide) (by decide)) kept
  obtain ⟨result, _⟩ := endShown_showEnd (x := x) (r := max x.result code) (regs := 0) (denied := x.denied) dropped.1
  have ended : Reads F.HTW_CNT_ABORT (s.fld F.HTW_CNT_ABORT)
      (((s.rewound x.bundles).dropTx 0 x).showEnd 0 x (max x.result code) 0 x.denied) :=
    (dropped.endTold (by decide)).setFld (by decide)
  have counted := reads_addSat (f := F.HTW_CNT_ABORT) (n := 1) ended.1 (by decide)
  rw [ended.2] at counted
  rw [abortTx_of_txOf ht]
  exact raise_ind (closed_aborted (by decide) (by decide) (by decide) (by decide)) ⟨result.setFld (by decide), counted, bundles⟩

/-- What an abort has shown stands while another transaction begins and stages its bytes. -/
theorem completes_htwStart_other (hp : s.portServes = true) (hn : x.stall = none) (hx : x.addr7 ≠ a) :
    completes (.htwStart a false data n) s (Aborted x s 3) := by
  have aborted : Aborted x s 3 (s.abortTx 0 3) := aborted_abortTx hs ht
  cases ha : (s.abortTx 0 3).addrOf a with
  | none =>
    obtain ⟨result, count, bundles⟩ := aborted
    exact ⟨_, exec_htwStart_other_unknown hp ht hn hx ha, result.setFld (by decide), count.setFld (by decide), bundles⟩
  | some rq =>
    refine ⟨_, exec_htwStart_other hp ht hn hx ha, ?_⟩
    have closed : Closed [.port, .tx, .ptrs, .reg 0xd48] (Aborted x s 3) :=
      closed_aborted (by decide) (by decide) (by decide) (by decide)
    have opened := openTx_ind (p := 0) (rq := rq) (addr7 := a) (ptr := (s.abortTx 0 3).ptrOf rq) (closed.mono (by decide)) aborted
    exact htwBytes_ind (closed.mono (by decide)) (setFld_ind (closed.mono (by decide)) (setFld_ind (closed.mono (by decide))
      (setFld_ind (closed.mono (by decide)) (modTx_ind (closed.mono (by decide)) opened))))

theorem rewound_abortTx {b : Nat × Nat × Nat} (hb : b ∈ x.bundles) :
    Reads (F.QUE_PSTAT_REWOUND (b.1 / 4)) 1 (s.abortTx 0 code) := by
  have shown := rewound_of_mem (mapsWf_regs hs) hb
  rw [abortTx_of_txOf ht]
  exact raise_ind (closed_rewound.mono (by decide)) (setFld_ind (closed_rewound.mono (by decide))
    (showEnd_ind (closed_rewound.mono (by decide)) (dropTx_ind (closed_rewound.mono (by decide)) shown)))

theorem irq_abortTx : (s.abortTx 0 code).bit (F.PIRQ 0x0D) 8 = true := by
  have rewound : (s.rewound x.bundles).regsWf = true :=
    forEach_ind (Q := fun t : State => t.regsWf = true) (fun _ _ => regsWf_setFld) (mapsWf_regs hs)
  have dropped : ((s.rewound x.bundles).dropTx 0 x).regsWf = true := dropTx_ind (closed_regsWf.mono (by decide)) rewound
  rw [abortTx_of_txOf ht]
  exact bit_raise (regsWf_setFld (showEnd_ind (closed_regsWf.mono (by decide)) dropped)) (by decide)

theorem completes_htwIdleAbort (hc : s.cclk = true) (hn : x.stall = none) :
    completes .htwIdleAbort s fun t => t.txOf 0 = none ∧ t.fld F.HTW_LAST_RESULT = max x.result 3 % 256 ∧
      t.fld F.HTW_CNT_ABORT = min (s.fld F.HTW_CNT_ABORT + 1) (2 ^ F.HTW_CNT_ABORT.w - 1) ∧ t.closed = s.closed ∧
      t.bit (F.PIRQ 0x0D) 8 = true ∧ ∀ b ∈ x.bundles, t.on (F.QUE_PSTAT_REWOUND (b.1 / 4)) = true := by
  obtain ⟨result, count, bundles⟩ := aborted_abortTx (code := 3) hs ht
  exact ⟨_, exec_htwIdleAbort ht hc hn, (txOf_abortTx hs).trans (if_pos rfl), result.2, count.2, bundles, irq_abortTx hs ht,
    fun b hb => on_of_reads (rewound_abortTx hs ht hb)⟩

end

end

/-- Settles O52: each clause is the run of its command; what the abort or the commit shows stands through the interrupt that
follows it. -/
theorem theTwoWireTarget : Obligations.TheTwoWireTarget := by
  unfold Obligations.TheTwoWireTarget
  exact ⟨fun s a n read data hp ht ha => exec_htwStart_of_unknown hp ht ha,
    fun s a n m o rest hs hp ht ha => completes_htwStart_write hs hp ht ha,
    fun s a n rq hp ht ha => exec_htwStart_read hp ht ha,
    fun s a n rq x hs hp ht hn hx ha => completes_htwStart_repeated hs hp ht hn hx ha,
    fun s a n data x hs hp ht hn hx => completes_imp (completes_htwStart_other hs ht hp hn hx)
      fun t ⟨result, count, bundles⟩ => ⟨result.2, count.2, bundles⟩,
    fun s x hc ht hn => exec_htwStop hc ht hn,
    fun s u x d hs hc ht hn hu hd hr => completes_htwStop hs hc ht hn hu hd hr,
    fun s x hs hc ht hn => completes_htwIdleAbort hs ht hc hn⟩

end Sys2Proof.Machine

/-! Pops, the command assembly and TNn_XDAT (R180-R183, R430, R435, R438). -/

namespace Sys2Proof.Machine

section
variable {s t u : State} {x y : Tx} {rq : Requester} {b : Bundle} {w : Word} {a e j k m n p v : Nat} {via : Bool} {l : List Byte}

/-! ## Words and bytes (R2) -/

theorem numLE_lt (l : List Byte) : numLE l < 256 ^ l.length := by
  induction l with
  | nil => decide
  | cons c t ih =>
    have hc : c.toNat < 256 := c.isLt
    rw [numLE, List.length_cons, pow_succ]
    omega

theorem fieldLE_lt {o : Nat} : fieldLE l o 4 < 2 ^ 32 :=
  (numLE_lt _).trans_le (Nat.pow_le_pow_right (by decide : 0 < 256) (List.length_take_le _ _))

theorem length_bytesLE : (bytesLE n v).length = n := by
  induction n generalizing v with
  | zero => rfl
  | succ n ih => rw [bytesLE, List.length_cons, ih]

/-- A whole word of a bundle, as it is sent. -/
theorem wordBytes_field {o : Nat} : wordBytes (BitVec.ofNat 32 (fieldLE l o 4)) 0 4 = bytesLE 4 (fieldLE l o 4) := by
  rw [wordBytes, BitVec.toNat_ofNat, Nat.mod_eq_of_lt fieldLE_lt, sliceB, List.drop_zero, List.take_of_length_le length_bytesLE.le]

/-! ## The pop register (R180) -/

/-- The pop register of a tenant, as the requester's transaction reaches it. -/
def popReg (rq : Requester) (n : Nat) : Nat :=
  match rq with
  | .window _ => A.TN_POP n
  | _ => A.QUE_POP n

theorem popReg_cases (rq : Requester) (n : Nat) : popReg rq n = 0x3040 + 256 * n ∨ popReg rq n = 0x20c0 + 4 * n := by
  cases rq
  case window => exact .inl rfl
  all_goals exact .inr rfl

theorem popReg_mod_four : popReg rq n % 4 = 0 := by
  rcases popReg_cases rq n with h | h <;> omega

section
variable (hn : n < 8)
include hn

theorem popTenant_popReg : popTenant (popReg rq n) = some n := by
  unfold popTenant A.QUE_POP isTn
  rcases popReg_cases rq n with h | h <;> rw [h]
  · rw [if_neg (by omega), if_pos (by simp; omega)]
    exact congrArg some (by omega)
  · rw [if_pos (by omega)]
    exact congrArg some (by omega)

/-- The pop register is not the window TNn_XDAT. -/
theorem target_popReg : s.target rq (popReg rq n) = (false, popReg rq n) := by
  refine if_neg fun h => ?_
  simp only [isTn, Bool.and_eq_true, decide_eq_true_eq, beq_iff_eq] at h
  obtain ⟨⟨⟨lo, _⟩, off⟩, _⟩ := h
  rcases popReg_cases rq n with e | e <;> omega

end

/-! ## The word of a pop (R181, R183) -/

/-- What a pop of the tenant `n` makes of a transaction: the bundle is delivered up to its byte `e`. -/
def Tx.popped (x : Tx) (k seq n e : Nat) : Tx := { x with bundles := deliver x.bundles k seq e, popT := some n }

theorem popWord_of_next (ht : s.txOf p = some x) (hz : x.zero = false) (hm : muted x = false)
    (hn : s.popNext p x n = some (k, b, m)) : s.popWord p n e = some
      (BitVec.ofNat 32 (fieldLE (bundleBytes b) (ceilDiv m 4 * 4) 4), s.modTx p fun x => x.popped k b.seq n (ceilDiv m 4 * 4 + e)) := by
  simp only [State.popWord, ht, hz, hm, hn]
  rfl

/-- The transaction keeps the word as its sample of the register. -/
def Tx.kept (x : Tx) (a : Nat) (w : Word) : Tx := { x with samples := (a, w) :: x.samples.filter fun z => z.1 != a }

/-- A transaction whose pointer is at its pop register gets the next word of the tenant's bundle. -/
theorem portRead_pop (hn : n < 8) (ht : s.txOf p = some y) (hz : y.zero = false) (hm : muted y = false)
    (hd : s.deniesRead y.req false (popReg y.req n) = false) (hp : s.popNext p y n = some (k, b, m)) :
    s.portRead p y (popReg y.req n) 0 4 = some (BitVec.ofNat 32 (fieldLE (bundleBytes b) (ceilDiv m 4 * 4) 4),
      (s.modTx p fun x => x.popped k b.seq n (ceilDiv m 4 * 4 + 4)).modTx p fun x =>
        x.kept (popReg y.req n) (BitVec.ofNat 32 (fieldLE (bundleBytes b) (ceilDiv m 4 * 4) 4))) := by
  have fresh : s.sampled y (popReg y.req n) 0 = none := if_pos (.inl rfl)
  have read := popWord_of_next (e := 0 + 4) ht hz hm hp
  simp only [State.portRead, fresh, State.freshRead, target_popReg hn, hd, popTenant_popReg hn, read]
  rfl

theorem sent_port (hs : s.mapsWf = true) : mapGet (fun _ => []) (s.sent p l).port p = mapGet (fun _ => []) s.port p ++ l :=
  mapGet_mapSet (mapsWf_port hs)

theorem txOf_sent : (s.sent p l).txOf n = s.txOf n := rfl

theorem mapsWf_sent (hs : s.mapsWf = true) : (s.sent p l).mapsWf = true := sent_ind (closed_mapsWf.mono (by decide)) hs

theorem port_putPtr : (s.putPtr p x a).port = s.port := by
  unfold State.putPtr
  extract_lets
  split <;> rfl

/-- A whole register is read from its byte 0: its word is sent, and the pointer moves on. -/
theorem sendBytes_word (ht : s.txOf p = some y) (hm : muted y = false) (ha : y.ptr % 4 = 0)
    (hr : s.portRead p y y.ptr 0 4 = some (w, u)) (run : s.sameRun u = true) :
    State.sendBytes p 4 4 s = (u.sent p (wordBytes w 0 4)).putPtr p y (s.movePtr y false y.ptr 4) := by
  have word : y.ptr / 4 * 4 = y.ptr := by omega
  have none_left {v : State} : State.sendBytes p 3 0 v = v := if_pos rfl
  rw [State.sendBytes]
  simp [ht, hm, ha, word, hr, run, none_left]

/-- The four bytes of a pop: the word is sent, and the bundle is delivered up to its end. -/
theorem sendBytes_pop (hs : s.mapsWf = true) (hn : n < 8) (ht : s.txOf p = some y) (ha : y.ptr = popReg y.req n)
    (hz : y.zero = false) (hm : muted y = false) (hd : s.deniesRead y.req false (popReg y.req n) = false)
    (hp : s.popNext p y n = some (k, b, m)) :
    ((State.sendBytes p 4 4 s).txOf p).map (fun z => (z.bundles, z.popT, z.stall)) =
        some (deliver y.bundles k b.seq (ceilDiv m 4 * 4 + 4), some n, y.stall) ∧
      mapGet (fun _ => []) (State.sendBytes p 4 4 s).port p =
        mapGet (fun _ => []) s.port p ++ bytesLE 4 (fieldLE (bundleBytes b) (ceilDiv m 4 * 4) 4) := by
  have popped : (s.modTx p fun x => x.popped k b.seq n (ceilDiv m 4 * 4 + 4)).mapsWf = true := mapsWf_modTx hs
  have read := portRead_pop hn ht hz hm hd hp
  have sent := sendBytes_word ht hm (ha ▸ popReg_mod_four) (ha ▸ read) (by exact sameRun_refl (s := s))
  rw [sent, wordBytes_field, port_putPtr, txOf_putPtr (mapsWf_sent (mapsWf_modTx popped)), txOf_sent, txOf_modTx popped,
    txOf_modTx hs, ht]
  exact ⟨rfl, sent_port (mapsWf_modTx popped)⟩

/-! ## POP_READ (R180, R181) -/

theorem exec_popRead (hc : s.cclk = true) (hp : p < 2) (hn : n < 8) (ht : s.txOf p = some x) (hx : x.stall = none) :
    exec (.popRead p n) s = .next (State.sendBytes p 4 4 (s.putPtr p x (popReg x.req n))) := by
  refine congrArg Host.Outcome.next ((if_pos (by simp [hc, hp, hn])).trans ?_)
  simp only [ht, hx]
  rfl

/-- What a delivered word leaves of its transaction and of the bytes of the port. -/
def Popped (s : State) (p k m n : Nat) (x : Tx) (b : Bundle) (t : State) : Prop :=
  (t.txOf p).map (fun z => (z.bundles, z.popT, z.stall)) = some (deliver x.bundles k b.seq (ceilDiv m 4 * 4 + 4), some n, none) ∧
    mapGet (fun _ => []) t.port p = mapGet (fun _ => []) s.port p ++ bytesLE 4 (fieldLE (bundleBytes b) (ceilDiv m 4 * 4) 4)

theorem completes_popRead (hs : s.mapsWf = true) (hc : s.cclk = true) (hp : p < 2) (hn : n < 8) (ht : s.txOf p = some x)
    (hx : x.stall = none) (hz : x.zero = false) (hm : muted x = false) (ha : a = popReg x.req n) (hu : u = s.putPtr p x a)
    (hy : u.txOf p = some y) (hd : u.deniesRead x.req false a = false) (hb : u.popNext p y n = some (k, b, m)) :
    completes (.popRead p n) s (Popped s p k m n x b) := by
  subst ha hu
  obtain rfl : { x with ptr := popReg x.req n } = y := Option.some.inj ((by rw [txOf_putPtr hs, ht]; rfl : _ = _).symm.trans hy)
  obtain ⟨record, bytes⟩ := sendBytes_pop (mapsWf_putPtr hs) hn hy rfl hz hm hd hb
  exact ⟨_, exec_popRead hc hp hn ht hx, record.trans (by rw [hx]), bytes.trans (by rw [port_putPtr])⟩

/-! ## The stalled read (R182) -/

/-- The stalled transaction of the two-wire target goes on. -/
def State.unstalled (s : State) : State :=
  (s.modTx 0 fun x => { x with stall := none, left := 0 }).setFld F.HTW_STAT_STATE 3

section
variable (hc : s.cclk = true) (hp : p < 2) (ht : s.txOf p = some x) (hx : x.stall = some n)
include hc hp ht hx

theorem exec_popStallResume_waits (hw : s.popWaits p x n = true) : exec (.popStallResume p) s = .next s := by
  refine congrArg Host.Outcome.next ((if_pos (by simp [hc, hp])).trans ?_)
  simp [ht, hx, hw]

theorem exec_popStallResume (hw : s.popWaits p x n = false) : exec (.popStallResume p) s = .next (s.popResume p x) := by
  refine congrArg Host.Outcome.next ((if_pos (by simp [hc, hp])).trans ?_)
  simp [ht, hx, hw]

theorem exec_popStallTimeout_resumes (hw : s.popWaits p x n = false) :
    exec (.popStallTimeout p) s = .next (s.popResume p x) := by
  refine congrArg Host.Outcome.next ((if_pos (by simp [hc, hp])).trans ?_)
  simp [ht, hx, hw]

end

theorem completes_popStallResume (hs : s.mapsWf = true) (hc : s.cclk = true) (hn : n < 8) (ht : s.txOf 0 = some x)
    (hx : x.stall = some n) (hl : x.left = 4) (ha : x.ptr = popReg x.req n) (hz : x.zero = false) (hm : muted x = false)
    (hu : u = s.unstalled) (hy : u.txOf 0 = some y) (hw : s.popWaits 0 x n = false)
    (hd : u.deniesRead x.req false (popReg x.req n) = false) (hb : u.popNext 0 y n = some (k, b, m)) :
    completes (.popStallResume 0) s (Popped s 0 k m n x b) := by
  subst hu
  obtain rfl : { x with stall := none, left := 0 } = y :=
    Option.some.inj (((txOf_modTx hs).trans (by rw [ht]; rfl)).symm.trans hy)
  have resumed : s.popResume 0 x = State.sendBytes 0 4 4 s.unstalled := by
    rw [State.popResume, hl]
    rfl
  exact ⟨_, (exec_popStallResume hc (by decide) ht hx hw).trans (congrArg _ resumed),
    sendBytes_pop (mapsWf_setFld (mapsWf_modTx hs)) hn hy ha hz hm hd hb⟩

/-- The stall has reached its limit: the tenant is shown as empty, and the transaction waits no longer. -/
def State.stallEnded (s : State) (p n : Nat) : State :=
  (s.setFld (F.QUE_PSTAT_EMPTY n) 1).modTx p fun x => { x with stall := none, left := 0, result := max x.result 7 }

/-- What the end of a stall sends. -/
def State.stallSent (s : State) (p : Nat) (x : Tx) : State :=
  if p = 1 then s.sent 1 ([0x5A] ++ bytesLE 1 x.opc ++ bytesLE 2 x.ptr ++ [0, 0])
  else (s.sent 0 (List.replicate x.left 0)).setFld F.HTW_STAT_STATE 3

theorem txOf_stallSent : (s.stallSent p x).txOf n = s.txOf n :=
  ite_ind (Q := fun t : State => t.txOf n = s.txOf n) rfl rfl

theorem Reads.stallSent (h : Reads g v s) (hg : ApartFrom F.HTW_STAT_STATE g) : Reads g v (s.stallSent p x) :=
  ite_ind (Q := Reads g v) h (Reads.setFld (s := s.sent 0 (List.replicate x.left 0)) h hg)

theorem exec_popStallTimeout (hc : s.cclk = true) (hp : p < 2) (ht : s.txOf p = some x) (hx : x.stall = some n)
    (hw : s.popWaits p x n = true) : exec (.popStallTimeout p) s = .next ((s.stallEnded p n).stallSent p x) := by
  refine congrArg Host.Outcome.next ((if_pos (by simp [hc, hp])).trans ?_)
  simp only [ht, hx, hw]
  rfl

theorem completes_popStallTimeout (hs : s.mapsWf = true) (hc : s.cclk = true) (hp : p < 2) (ht : s.txOf p = some x)
    (hx : x.stall = some n) (hw : s.popWaits p x n = true) :
    completes (.popStallTimeout p) s fun t => t.on (F.QUE_PSTAT_EMPTY n) = true ∧
      (t.txOf p).map (fun y => (y.stall, y.result)) = some (none, max x.result 7) := by
  refine ⟨_, exec_popStallTimeout hc hp ht hx hw, ?_, ?_⟩
  · have empty : Reads (F.QUE_PSTAT_EMPTY n) 1 (s.stallEnded p n) :=
      reads_setFld (mapsWf_regs hs) (by decide : 8 + 1 ≤ 32) (by decide : 1 < 2 ^ 1)
    refine on_of_reads (empty.stallSent ⟨(by decide : 8 + 1 ≤ 32), .inl ?_⟩)
    show 0x20e0 + 4 * n ≠ 0xd48
    omega
  · rw [txOf_stallSent, State.stallEnded, txOf_modTx (mapsWf_setFld hs)]
    exact congrArg _ (congrArg _ ht)

/-! ## COMMAND_ENQUEUE (R438) -/

/-- The envelope of a complete assembly. -/
def envelope (b : List Byte) : Envelope := ⟨b.take 16, sliceB b 16 (fieldLE b 4 2), b.drop (16 + fieldLE b 4 2)⟩

/-- The assembly of tenant `n` has become the envelope. -/
def State.enveloped (s : State) (n : Nat) : State :=
  ({ s with env := some (envelope (s.asmOf n).bytes) }.setAsm n asm0).setFld (F.TN_CSTAT_STATE n) 3

/-- The payload goes to the command queue. -/
def State.commanded (s : State) (body : List Byte) (len : Nat) : State :=
  if len = 0 then s else s.setQueue qCmd [⟨.host, ceilDiv len 32, .command body⟩]

theorem exec_commandEnqueue (hc : s.cclk = true) (hq : s.queue qCmd = []) (he : s.env = none) (hn : s.nextAssembly = some n) :
    exec .commandEnqueue s = .next ((s.enveloped n).commanded (sliceB (s.asmOf n).bytes 16 (fieldLE (s.asmOf n).bytes 4 2))
      (fieldLE (s.asmOf n).bytes 4 2)) := by
  refine congrArg Host.Outcome.next ((if_pos (by simp [hc, hq, he])).trans ?_)
  simp only [hn]
  rfl

theorem mapsWf_enveloped (hs : s.mapsWf = true) : (s.enveloped n).mapsWf = true :=
  mapsWf_setFld (setAsm_ind (s := { s with env := some (envelope (s.asmOf n).bytes) }) (closed_mapsWf.mono (by decide)) hs)

theorem asmOf_enveloped (hs : s.mapsWf = true) : (s.enveloped n).asmOf n = asm0 := mapGet_mapSet (mapsWf_asm hs)

theorem state_enveloped (hs : s.mapsWf = true) : (s.enveloped n).fld (F.TN_CSTAT_STATE n) = 3 := by
  have before : ({ s with env := some (envelope (s.asmOf n).bytes) }.setAsm n asm0).regsWf = true := mapsWf_regs (s := s) hs
  exact fld_setFld_of_lt before (by decide : 0 + 3 ≤ 32) (by decide : 3 < 2 ^ 3)

theorem queue_commanded {body : List Byte} {len : Nat} (hs : s.mapsWf = true) (hq : s.queue qCmd = []) :
    (s.commanded body len).queue qCmd = if len = 0 then [] else [⟨.host, ceilDiv len 32, .command body⟩] := by
  unfold State.commanded
  split
  · exact hq
  · exact queue_setQueue hs

/-- The payload touches the queues alone. -/
theorem commanded_beside {P : State → Prop} {body : List Byte} {len : Nat} (hC : Closed [.queues] P) (h : P s) :
    P (s.commanded body len) := ite_ind h (setQueue_ind hC h)

theorem completes_commandEnqueue (hs : s.mapsWf = true) (hc : s.cclk = true) (hq : s.queue qCmd = []) (he : s.env = none)
    (hn : s.nextAssembly = some n) : completes .commandEnqueue s fun t =>
      t.env = some (envelope (s.asmOf n).bytes) ∧ t.asmOf n = asm0 ∧ t.fld (F.TN_CSTAT_STATE n) = 3 ∧
      t.queue qCmd = (if fieldLE (s.asmOf n).bytes 4 2 = 0 then []
        else [⟨.host, ceilDiv (fieldLE (s.asmOf n).bytes 4 2) 32,
          .command (sliceB (s.asmOf n).bytes 16 (fieldLE (s.asmOf n).bytes 4 2))⟩]) := by
  refine ⟨_, exec_commandEnqueue hc hq he hn, ?_, ?_, ?_, queue_commanded (mapsWf_enveloped hs) hq⟩
  · exact commanded_beside (P := fun t => t.env = _) (closed_of (p := .env) (by decide) fun _ _ e h => Eq.trans e h) rfl
  · exact commanded_beside (P := fun t => t.asmOf n = asm0)
      (closed_of (p := .asm) (by decide) fun _ _ e h => (congrArg (mapGet (fun _ => asm0) · n) e).trans h) (asmOf_enveloped hs)
  · exact commanded_beside (P := fun t => t.fld (F.TN_CSTAT_STATE n) = 3)
      (closed_of (p := .regs) (by decide) fun _ _ e h => by rwa [State.fld, State.reg, e]) (state_enveloped hs)

/-! ## TNn_XDAT (R435) -/

theorem exec_xdatAccess_write (hr : s.reachable rq = true) (hn : n < 8) :
    exec (.xdatAccess rq n (some w)) s = .next (s.commit rq [⟨A.TN_XDAT n, w.toNat, false, false⟩]).state :=
  congrArg Host.Outcome.next (if_pos (by simp [hr, hn]))

theorem exec_xdatAccess_read (hr : s.reachable rq = true) (hn : n < 8) (ht : popTenant (s.target rq (A.TN_XDAT n)).2 = none) :
    exec (.xdatAccess rq n none) s = .next ((s.readReg rq (s.target rq (A.TN_XDAT n)).1 (s.target rq (A.TN_XDAT n)).2).2.latch
      (s.readReg rq (s.target rq (A.TN_XDAT n)).1 (s.target rq (A.TN_XDAT n)).2).1) := by
  refine congrArg Host.Outcome.next ((if_pos (by simp [hr, hn])).trans ?_)
  simp only [ht]

theorem readReg_of_plain (hd : s.readDenied rq via a = none) (hk : lockNo a = none) (hb : s.streamBytes rq a = none) :
    s.readReg rq via a = (s.view rq a, s.sample rq a) := by
  simp only [State.readReg, hd, hk, hb]

theorem sampOf_setSamp (hs : s.mapsWf = true) : (s.setSamp a rq v).sampOf a rq = v := mapGet_mapSet (mapsWf_samp hs)

theorem sampOf_setSamp_ne (h : j ≠ a) : (s.setSamp a rq v).sampOf j rq = s.sampOf j rq :=
  mapGet_mapSet_ne fun e => h (by unfold selKey at e; omega)

/-- Each register that the read samples holds its own value for the requester, as it stood before the read. -/
theorem sampOf_sample (hs : s.mapsWf = true) (hj : j ∈ sampledBy a) : (s.sample rq a).sampOf j rq = s.blockView rq j + 1 := by
  have put {t : State} (ht : t.mapsWf = true) : (t.setSamp j rq (s.blockView rq j + 1)).mapsWf = true ∧
      (t.setSamp j rq (s.blockView rq j + 1)).sampOf j rq = s.blockView rq j + 1 :=
    ⟨setSamp_ind (closed_mapsWf.mono (by decide)) ht, sampOf_setSamp ht⟩
  have all : (s.sample rq a).mapsWf = true ∧ (s.sample rq a).sampOf j rq = s.blockView rq j + 1 := by
    unfold State.sample
    refine forEach_ind_at (I := fun t : State => t.mapsWf = true)
      (Q := fun t : State => t.mapsWf = true ∧ t.sampOf j rq = s.blockView rq j + 1) hj
      (fun t ht => put ht) (fun _ _ ht => setSamp_ind (closed_mapsWf.mono (by decide)) ht) (fun c t ⟨ht, held⟩ => ?_) hs
    by_cases e : j = c
    · subst e
      exact put ht
    · exact ⟨setSamp_ind (closed_mapsWf.mono (by decide)) ht, (sampOf_setSamp_ne e).trans held⟩
  exact all.2

theorem completes_xdatAccess_plain (hs : s.mapsWf = true) (hr : s.reachable rq = true) (hn : n < 8)
    (ht : s.target rq (A.TN_XDAT n) = (via, a)) (hp : popTenant a = none) (hd : s.readDenied rq via a = none)
    (hk : lockNo a = none) (hb : s.streamBytes rq a = none) : completes (.xdatAccess rq n none) s fun t =>
      t.rdata = s.view rq a ∧ (∀ b ∈ sampledBy a, t.sampOf b rq = s.blockView rq b + 1) ∧ changesOnly [.rdata, .samp] s t := by
  have read := exec_xdatAccess_read (s := s) (rq := rq) hr hn (by rw [ht]; exact hp)
  rw [ht, readReg_of_plain hd hk hb] at read
  have frame := closed_changesOnly (l := [.rdata, .samp]) (s := s) (by decide)
  exact ⟨_, read, rfl, fun b hb => sampOf_sample hs hb,
    latch_ind (frame.mono (by decide)) (sample_ind (frame.mono (by decide)) (changesOnly_refl s))⟩

/-! ### A pop through TNn_XDAT outside a transaction (log entry 118) -/

/-- The next word of the bundle under delivery, after which more of it remains. -/
theorem popAlone_of_underDelivery (hx : s.txOf alone = some x) (h0 : s.otherPops 0 k = false) (h1 : s.otherPops 1 k = false)
    (hb : s.underDelivery x k = some (j, b, m)) (hm : m + 4 < (bundleBytes b).length) :
    s.popAlone rq k = (BitVec.ofNat 32 (fieldLE (bundleBytes b) m 4),
      s.setTx alone (some { x with bundles := x.bundles.filter (fun y => y.1 / 4 != k) ++ [(j, b.seq, m + 4)] })) := by
  simp [State.popAlone, hx, h0, h1, hb, if_neg (Nat.not_le.mpr hm)]

theorem completes_xdatAccess_pop (hr : s.reachable rq = true) (hn : n < 8) (ht : s.target rq (A.TN_XDAT n) = (via, a))
    (hp : popTenant a = some k) (hd : s.deniesRead rq via a = false) (hport : s.txPort rq = none) (h0 : s.otherPops 0 k = false)
    (h1 : s.otherPops 1 k = false) (hx : s.txOf alone = some x) (hb : s.underDelivery x k = some (j, b, m))
    (hm : m + 4 < (bundleBytes b).length) : completes (.xdatAccess rq n none) s fun t =>
      t.rdata = BitVec.ofNat 32 (fieldLE (bundleBytes b) m 4) ∧ changesOnly [.rdata, .tx] s t := by
  have pop : exec (.xdatAccess rq n none) s = .next ((s.popAlone rq k).2.latch (s.popAlone rq k).1) := by
    refine congrArg Host.Outcome.next ((if_pos (by simp [hr, hn])).trans ?_)
    simp [ht, hp, hd, hport]
  rw [popAlone_of_underDelivery hx h0 h1 hb hm] at pop
  have frame := closed_changesOnly (l := [.rdata, .tx]) (s := s) (by decide)
  exact ⟨_, pop, rfl, latch_ind (frame.mono (by decide)) (setTx_ind (frame.mono (by decide)) (changesOnly_refl s))⟩

end

/-- Settles O54: each clause is the run of its command. That a requester without a transaction pops a bundle of its own is the
model's choice (log entry 118). -/
theorem popsAndAssembliesRun : Obligations.PopsAndAssembliesRun := by
  unfold Obligations.PopsAndAssembliesRun
  exact ⟨fun s p n x hc hp hn ht hx => exec_popRead hc hp hn ht hx,
    fun s u p n k m a x y b hs hc hp hn ht hx hz hm ha hu hy hd hb => completes_popRead hs hc hp hn ht hx hz hm ha hu hy hd hb,
    fun s p n e k m x b hs ht hz hm hb => ⟨_, popWord_of_next ht hz hm hb, by rw [txOf_modTx hs, ht]; rfl⟩,
    fun s p n x hc hp ht hx => ⟨exec_popStallResume_waits hc hp ht hx, exec_popStallResume hc hp ht hx⟩,
    fun s u n k m a x y b hs hc hn ht hx hl hxa hz hm ha hu hy hw hd hb =>
      completes_popStallResume hs hc hn ht hx hl (hxa.trans ha) hz hm hu hy hw ((show a = popReg x.req n from ha) ▸ hd) hb,
    fun s p n x hs hc hp hn ht hx => ⟨completes_popStallTimeout hs hc hp ht hx, fun hw =>
      (exec_popStallTimeout_resumes hc hp ht hx hw).trans (exec_popStallResume hc hp ht hx hw).symm⟩,
    fun s n hs hc hq he hn => completes_commandEnqueue hs hc hq he hn,
    fun s rq n w hr hn => exec_xdatAccess_write hr hn,
    fun s rq n a via hs hr hn ht hp hd hk hb => completes_xdatAccess_plain hs hr hn ht hp hd hk hb,
    fun s rq n k a j m via b x _ hr hn _ ht hp hd hport h0 h1 hx hb hm =>
      completes_xdatAccess_pop hr hn ht hp hd hport h0 h1 hx hb hm,
    fun s rq n hr hn ht => exec_xdatAccess_read hr hn ht⟩

end Sys2Proof.Machine

/-! The Rose (R344-R349): an event reaches its consumer; flares are set, cleared and pulsed. -/

namespace Sys2Proof.Machine

section
variable {P : State → Prop} {s : State} {x : RoseEvent} {d : RoseDest} {e : Option (Nat × Nat)} {b : Bool} {a c f k v n : Nat} {g : Fld}

/-! ## ROSE_EVENT of one event (R344) -/

/-- The events presented have been taken. -/
def State.roseEmptied (s : State) : State := { s with rose := [] }

section
variable (hc : s.cclk = true) (hr : s.rose = [x])
include hc hr

theorem exec_roseEvent_of_consumer (hx : s.roseReach x = some (c, d, e, b)) (hd : ∀ f, d ≠ .flare f) :
    exec .roseEvent s = .next (s.roseEmptied.consume c d e) := by
  refine congrArg Host.Outcome.next ((if_pos hc).trans ?_)
  cases d
  case flare f => exact absurd rfl (hd f)
  all_goals simp [hr, hx, insertEvent, consumeAll, forEach, State.flareEvents, State.roseEmptied]

theorem exec_roseEvent_of_flare (hx : s.roseReach x = some (c, .flare f, e, b)) (hf : f < 2) :
    exec .roseEvent s = .next (s.roseEmptied.flareEvents f [(c, b)]) := by
  have idle {t : State} {j : Nat} : t.flareEvents j [] = t := rfl
  refine congrArg Host.Outcome.next ((if_pos hc).trans ?_)
  interval_cases f <;> simp [hr, hx, insertEvent, consumeAll, forEach, idle, State.roseEmptied]

end

/-! ## What an interrupt of the Rose leaves -/

/-- Page 0x0C's own registers lie apart from what its interrupts change. -/
theorem avoids_rosePage (lo : 0x0c40 ≤ a) (hi : a < 0x2000) : avoids (.reg 0x0c18 :: irqParts) (.reg a) = true := by
  have apart : 0x0c18 ≠ a ∧ 0x154 ≠ a ∧ 0x178 ≠ a ∧ 0x2048 ≠ a := by omega
  simp [avoids, irqParts, Part.covers, apart]

/-- The channel's event is shown, in a canonical register file. -/
def EventShown (c : Nat) (s : State) : Prop := s.regsWf = true ∧ s.bit (F.ROS_EVT_BITS (c / 32)) (c % 32) = true

theorem eventShown_roseTaken (hs : s.regsWf = true) : EventShown c (s.roseTaken c) :=
  ⟨regsWf_setFld hs, bit_setBit hs (by decide : 0 + 32 ≤ 32) (Nat.mod_lt _ (by decide))⟩

theorem closed_eventShown {l : List Part} (h : avoids l (.reg (F.ROS_EVT_BITS (c / 32)).addr) = true)
    (hl : needsAll l runParts = true) : Closed l (EventShown c) := closed_and (closed_regsWf.mono hl) (closed_bit h)

/-! ## The host wake (R344) -/

theorem Reads.wakeHost (hs : s.regsWf = true) : Reads F.SYS_HWAKE_ROSE 1 (s.wakeHost F.SYS_HWAKE_ROSE) := by
  have woken : Reads F.SYS_HWAKE_ROSE 1 (s.setFld F.SYS_HWAKE_ROSE 1) := reads_setFld hs (by decide) (by decide)
  exact ite_ind (Q := Reads F.SYS_HWAKE_ROSE 1) woken (woken.setFld (f := F.SYS_WDOG_STAT_SUSPENDED) (w := 0) (by decide))

theorem completes_roseEvent_wakes (hs : s.mapsWf = true) (hc : s.cclk = true) (hr : s.rose = [x])
    (hx : s.roseReach x = some (c, .hostWake, e, b)) (hw : s.on F.SYS_HWAKE_ROSE = false) :
    completes .roseEvent s fun t => t.on F.SYS_HWAKE_ROSE = true ∧ t.bit (F.ROS_EVT_BITS (c / 32)) (c % 32) = true := by
  have taken : s.roseEmptied.consume c .hostWake e = (s.roseEmptied.wakeHost F.SYS_HWAKE_ROSE).roseTaken c :=
    if_neg (by rw [show s.roseEmptied.on F.SYS_HWAKE_ROSE = false from hw]; decide)
  have woken := Reads.wakeHost (s := s.roseEmptied) (mapsWf_regs hs)
  refine ⟨_, (exec_roseEvent_of_consumer hc hr hx fun f h => by cases h).trans (congrArg _ taken), ?_, (eventShown_roseTaken woken.1).2⟩
  refine on_of_reads (woken.setFld ⟨by decide, .inl ?_⟩)
  show 0x0154 ≠ 0x0cd0 + 4 * (c / 32)
  omega

/-! ## Flares (R349) -/

theorem regsWf_setPulse (hs : s.regsWf = true) : (s.setPulse f b).regsWf = true := hs

theorem reads_flareState (hs : s.regsWf = true) (hf : f < 2) :
    Reads (F.ROS_FLR_STATE f) (if b then 1 else 0) (s.flareState f b) := by
  have put : Reads (F.ROS_FLR_STATE f) (if b then 1 else 0) (s.putOn (F.ROS_FLR_STATE f) b) :=
    reads_setFld hs (by decide : 4 + 1 ≤ 32) (show _ < 2 ^ 1 by split <;> decide)
  have closed : Closed (.reg 0x0c18 :: irqParts) (Reads (F.ROS_FLR_STATE f) (if b then 1 else 0)) :=
    closed_reads (avoids_rosePage (by show 0x0c40 ≤ 0x0c64 + 4 * f; omega) (by show 0x0c64 + 4 * f < 0x2000; omega)) (by decide)
  exact ite_ind (raise_ind closed put) put

theorem eventShown_flareState (h : EventShown c s) (hc : c < 64) (hf : f < 2) : EventShown c (s.flareState f b) := by
  have apart : 0x0c64 + 4 * f ≠ 0x0cd0 + 4 * (c / 32) := by omega
  have state : Closed [.reg (F.ROS_FLR_STATE f).addr] (EventShown c) :=
    closed_eventShown (by simp [avoids, Part.covers, F.ROS_FLR_STATE, F.ROS_EVT_BITS, apart]) rfl
  have page : Closed (.reg 0x0c18 :: irqParts) (EventShown c) :=
    closed_eventShown (avoids_rosePage (by show 0x0c40 ≤ 0x0cd0 + 4 * (c / 32); omega)
      (by show 0x0cd0 + 4 * (c / 32) < 0x2000; omega)) (by decide)
  have put : EventShown c (s.putOn (F.ROS_FLR_STATE f) b) := putOn_ind state h
  exact ite_ind (raise_ind page put) put

/-- The flare after the one event of a cycle: a CLEAR where its `ARG` is not 0. -/
def State.flared (s : State) (f : Nat) (b : Bool) : State :=
  if b then (s.setPulse f false).flareClear f else s.flareSet f

theorem flareEvents_of_taken (hr : s.on (F.ROS_FLR_REL f) = true)
    (hm : s.on (F.ROS_FLR_MODE f) = false ∨ s.pulsing f = false ∨ b = true) :
    s.flareEvents f [(c, b)] = (s.roseTaken c).flared f b := by
  cases b
  case true => simp [State.flareEvents, hr, forEach, State.flared]
  case false =>
    have free : (s.on (F.ROS_FLR_MODE f) && s.pulsing f) = false := by
      rcases hm with h | h | h
      · simp [h]
      · simp [h]
      · cases h
    simp [State.flareEvents, hr, forEach, State.flared, free]

section
variable (hs : s.regsWf = true) (hf : f < 2)
include hs hf

theorem reads_flared : Reads (F.ROS_FLR_STATE f) (if b then 0 else 1) (s.flared f b) := by
  cases b
  case true => exact reads_flareState (b := false) (s := (s.setPulse f false).setPulse f false) hs hf
  case false =>
    exact ite_ind (Q := fun t : State => Reads (F.ROS_FLR_STATE f) 1 (t.flareState f true))
      (reads_flareState (b := true) (s := s.setPulse f true) hs hf) (reads_flareState (b := true) hs hf)

end

theorem eventShown_flared (h : EventShown c s) (hc : c < 64) (hf : f < 2) : EventShown c (s.flared f b) := by
  cases b
  case true => exact eventShown_flareState (b := false) (s := (s.setPulse f false).setPulse f false) h hc hf
  case false =>
    exact ite_ind (Q := fun t : State => EventShown c (t.flareState f true))
      (eventShown_flareState (s := s.setPulse f true) h hc hf) (eventShown_flareState h hc hf)

theorem completes_roseEvent_flare (hs : s.mapsWf = true) (hc : s.cclk = true) (hr : s.rose = [x]) (hch : c < 64) (hf : f < 2)
    (hx : s.roseReach x = some (c, .flare f, e, b)) (hrel : s.on (F.ROS_FLR_REL f) = true)
    (hm : s.on (F.ROS_FLR_MODE f) = false ∨ s.pulsing f = false ∨ b = true) : completes .roseEvent s fun t =>
      t.fld (F.ROS_FLR_STATE f) = (if b then 0 else 1) ∧ t.bit (F.ROS_EVT_BITS (c / 32)) (c % 32) = true := by
  have event := eventShown_roseTaken (s := s.roseEmptied) (c := c) (mapsWf_regs hs)
  exact ⟨_, (exec_roseEvent_of_flare hc hr hx hf).trans (congrArg _ (flareEvents_of_taken (s := s.roseEmptied) hrel hm)),
    (reads_flared event.1 hf).2, (eventShown_flared event hch hf).2⟩

theorem testBit_sub_and_two_pow : (n - (n &&& 2 ^ k)).testBit k = false := by
  rw [Nat.and_two_pow]
  cases h : n.testBit k
  case false => simpa using h
  case true =>
    rw [Nat.testBit_eq_decide_div_mod_eq, decide_eq_true_eq] at h
    rw [Nat.testBit_eq_decide_div_mod_eq, decide_eq_false_iff_not]
    have less : (n - 2 ^ k) / 2 ^ k = n / 2 ^ k - 1 := by simpa using Nat.sub_mul_div n (2 ^ k) 1
    simp only [Bool.toNat_true, Nat.one_mul]
    omega

theorem exec_flarePulseEnd (hf : f < 2) (hc : s.cclk = true) (hp : s.pulsing f = true) :
    exec (.flarePulseEnd f) s = .next (s.flareClear f) := congrArg Host.Outcome.next (if_pos (by simp [hf, hc, hp]))

theorem pulsing_flareClear : (s.flareClear f).pulsing f = false := testBit_sub_and_two_pow

theorem completes_flarePulseEnd (hs : s.mapsWf = true) (hf : f < 2) (hc : s.cclk = true) (hp : s.pulsing f = true) :
    completes (.flarePulseEnd f) s fun t => t.pulsing f = false ∧ t.fld (F.ROS_FLR_STATE f) = 0 :=
  ⟨_, exec_flarePulseEnd hf hc hp, pulsing_flareClear, (reads_flareState (b := false) (regsWf_setPulse (mapsWf_regs hs)) hf).2⟩

end
end Sys2Proof.Machine

/-! The Bundler (R164, R176, R177, R366-R369): items enter lanes, bundles close, pending GAP records enter their queues. -/

namespace Sys2Proof.Machine

section
variable {P : State → Prop} {s t : State} {k n q v res age m : Nat} {p : Producer} {i : Item} {l : List Entry} {e : Entry} {g : Gap}
  {r : PendRec} {items : List Item} {bundles : List Bundle} {ln : Lane} {seals : List (Nat × Nat)}

/-! ## What the Bundler's bookkeeping leaves -/

/-- The open bundle of a lane holds the items, in so many bytes. -/
def LaneHolds (k : Nat) (items : List Item) (n : Nat) (s : State) : Prop :=
  s.mapsWf = true ∧ (s.lane k).items = items ∧ (s.lane k).len = n

theorem closed_laneHolds {l : List Part} (h : avoids l .lanes = true) (hl : needsAll l runParts = true) :
    Closed l (LaneHolds k items n) :=
  closed_and (closed_mapsWf.mono hl) (closed_of h fun s t (he : t.lanes = s.lanes) hs => by rwa [State.lane, he])

/-- A queue begins with the entries. -/
def QueueStarts (q : Nat) (l : List Entry) (s : State) : Prop := s.mapsWf = true ∧ ∃ r, s.queue q = l ++ r

theorem closed_queueStarts {l : List Entry} {ps : List Part} (h : avoids ps .queues = true) (hl : needsAll ps runParts = true) :
    Closed ps (QueueStarts q l) :=
  closed_and (closed_mapsWf.mono hl) (closed_of h fun s t (he : t.queues = s.queues) hs => by rwa [State.queue, he])

/-- An entry comes behind those of its queue. -/
theorem QueueStarts.push (h : QueueStarts q l s) : QueueStarts q l (s.push k e) := by
  obtain ⟨wf, r, hr⟩ := h
  refine ⟨mapsWf_push wf, ?_⟩
  by_cases hk : q = k
  · subst hk
    exact ⟨r ++ [e], by rw [queue_push wf, hr, List.append_assoc]⟩
  · exact ⟨r, (queue_setQueue_ne hk).trans hr⟩

theorem recordSafe_queueStarts : RecordSafe (QueueStarts q l) where
  parts := closed_queueStarts rfl (by decide)
  pushed _ _ _ h := h.push
  counted _ h := addSat_ind (closed_queueStarts rfl (by decide)) h
  recorded _ _ _ h := modTen_ind (closed_queueStarts rfl (by decide)) h

/-- What survives a record and the registers survives an item that enters a lane, when it survives the lanes' bookkeeping. -/
theorem append_recordSafe (hR : RecordSafe P) (hr : Closed [.regs] P) (hl : Closed [.lanes] P) (hs : P s) : P (s.append k i res) := by
  unfold State.append
  extract_lets old held taken
  have htaken : P taken := takeGran_recordSafe hR hr (modLane_ind hl hs)
  exact ite_ind (bndRise_recordSafe hR (hr.mono rfl) (modLane_ind hl htaken)) htaken

theorem LaneHolds.askClose (h : LaneHolds k items n s) : LaneHolds k items n (s.askClose k) := by
  refine bndRise_ind (closed_laneHolds (by decide) (by decide)) ⟨modLane_ind (closed_mapsWf.mono (by decide)) h.1, ?_⟩
  rw [lane_modLane h.1]
  split <;> exact h.2

/-- An item is the last of its lane. -/
theorem laneHolds_append (hs : s.mapsWf = true) :
    LaneHolds k ((s.lane k).items ++ [i]) ((s.lane k).len + itemBytes i) (s.append k i res) := by
  unfold State.append
  extract_lets old held taken
  have hheld : LaneHolds k ((s.lane k).items ++ [i]) ((s.lane k).len + itemBytes i) held := by
    refine ⟨modLane_ind (closed_mapsWf.mono (by decide)) hs, ?_⟩
    rw [lane_modLane hs]
    exact ⟨rfl, rfl⟩
  have htaken : LaneHolds k ((s.lane k).items ++ [i]) ((s.lane k).len + itemBytes i) taken :=
    takeGran_ind (closed_laneHolds (by decide) (by decide)) hheld
  exact ite_ind htaken.askClose htaken

/-! ## An item for a lane without pending records (R177) -/

/-- The lane's list of pending records, found empty, has been drained. -/
def State.noneDrained (s : State) (k : Nat) : State := (s.setPend k .bundler []).setPend k .bundler []

theorem addLaneSkip_ne_nil {src : Nat} {x : GapPart} {l : List PendRec} : addLaneSkip src x l ≠ [] := by
  cases l with
  | nil => exact List.cons_ne_nil _ _
  | cons r t =>
    rw [addLaneSkip]
    split <;> exact List.cons_ne_nil _ _

theorem mapsWf_noneDrained (hs : s.mapsWf = true) : (s.noneDrained k).mapsWf = true := mapsWf_setPend (mapsWf_setPend hs)

/-- The hypotheses under which no eviction and no record comes before an item of lane `k`. -/
structure PlainIntake (s : State) (k : Nat) (i : Item) : Prop where
  wf : s.mapsWf = true
  low : k % 4 ≠ 3
  none_pending : s.pendOf k .bundler = []
  keeps : s.on (F.QUE_TCFG_L3_NEWEST (k / 4)) = false
  below : s.overLimit k (itemBytes i) = false

section
variable (h : PlainIntake s k i)
include h

theorem drainLane_of_plain : (s.setPend k .bundler (endReset i.ht (s.pendOf k .bundler))).drainLane k = s.noneDrained k := by
  have unchanged {t : State} : t.drainEvict k = t := if_neg h.low
  rw [h.none_pending, State.drainLane, unchanged, endReset, List.map_nil, pendOf_setPend h.wf]
  rfl

theorem itemFits_noneDrained : (s.noneDrained k).itemFits k (itemBytes i) = s.allows (k / 4) (s.laneNeed k (itemBytes i)) := by
  have clear : (s.noneDrained k).laneClear k = true := by
    rw [State.laneClear, State.noneDrained, pendOf_setPend (mapsWf_setPend h.wf)]
    simp [h.low]
  rw [State.itemFits, clear, Bool.true_and]
  rfl

theorem intakeItem_of_plain : s.intakeItem k i =
    if s.allows (k / 4) (s.laneNeed k (itemBytes i)) then (s.noneDrained k).append k i ((s.noneDrained k).laneReserve (k / 4))
    else if ((s.noneDrained k).laneSkip k gcQUOTA i).fld (F.QUE_TUSE_USED (k / 4)) <
        16 * ((s.noneDrained k).laneSkip k gcQUOTA i).fld (F.QUE_TQ_MAX (k / 4)) then
      { (s.noneDrained k).laneSkip k gcQUOTA i with capped := true }
    else (s.noneDrained k).laneSkip k gcQUOTA i := by
  have room : (s.noneDrained k).makeRoom k (itemBytes i) = s.noneDrained k :=
    if_neg (by rw [show (s.noneDrained k).on (F.QUE_TCFG_L3_NEWEST (k / 4)) = false from h.keeps]; decide)
  have below : (s.noneDrained k).overLimit k (itemBytes i) = false := h.below
  rw [State.intakeItem, drainLane_of_plain h]
  simp only [below, room, itemFits_noneDrained h]
  rfl

theorem laneHolds_intakeItem (ha : s.allows (k / 4) (s.laneNeed k (itemBytes i)) = true) :
    LaneHolds k ((s.lane k).items ++ [i]) ((s.lane k).len + itemBytes i) (s.intakeItem k i) := by
  rw [intakeItem_of_plain h, if_pos ha]
  exact laneHolds_append (s := s.noneDrained k) (mapsWf_noneDrained h.wf)

theorem queueStarts_intakeItem (ha : s.allows (k / 4) (s.laneNeed k (itemBytes i)) = true) :
    QueueStarts q (s.queue q) (s.intakeItem k i) := by
  rw [intakeItem_of_plain h, if_pos ha]
  exact append_recordSafe recordSafe_queueStarts (closed_queueStarts (by decide) (by decide)) (closed_queueStarts (by decide) (by decide))
    ⟨mapsWf_noneDrained h.wf, [], (List.append_nil _).symm⟩

/-- An item that the lane's allowance does not cover is pending as a skip. -/
theorem intakeItem_of_not_allowed (ha : s.allows (k / 4) (s.laneNeed k (itemBytes i)) = false) :
    (s.intakeItem k i).lanes = s.lanes ∧ (s.intakeItem k i).pendOf k .bundler ≠ [] := by
  have pending : ((s.noneDrained k).laneSkip k gcQUOTA i).pendOf k .bundler ≠ [] := by
    rw [State.laneSkip, pendOf_setPend (mapsWf_noneDrained h.wf)]
    exact addLaneSkip_ne_nil
  rw [intakeItem_of_plain h, if_neg (by simp [ha])]
  exact ite_ind (Q := fun t : State => t.lanes = s.lanes ∧ t.pendOf k .bundler ≠ []) ⟨rfl, pending⟩ ⟨rfl, pending⟩

end

/-! ## BUNDLER_INTAKE (R366) -/

theorem lt_of_mem_intakeOrder {rr : Nat} (h : k ∈ intakeOrder rr) : k < 32 := by
  simp only [intakeOrder, List.mem_append, List.mem_map, List.mem_range, qOut] at h
  omega

theorem firstWith_congr {f g : Nat → Bool} {l : List Nat} (h : ∀ j ∈ l, f j = g j) : firstWith f l = firstWith g l := by
  induction l with
  | nil => rfl
  | cons j t ih => rw [firstWith, firstWith, h j List.mem_cons_self, ih fun y hy => h y (List.mem_cons_of_mem j hy)]

/-- The round robin of the lanes goes on from place `n`. -/
def State.turnedTo (s : State) (n : Nat) : State := { s with hallmark := { s.hallmark with rr := n } }

/-- The head of lane `k`'s intake queue has been taken, `l` remaining; beyond L0 the round robin moves on. -/
def State.intakeTaken (s : State) (k : Nat) (l : List Entry) : State :=
  if k % 4 = 0 then s.setQueue (qIntake (k / 4) (k % 4)) l
  else (s.setQueue (qIntake (k / 4) (k % 4)) l).turnedTo ((3 * (k / 4) + k % 4) % 24)

theorem exec_bundlerIntake (hr : s.running = true) (hw : ∀ j, j < 32 → s.mustWait j = false)
    (hk : firstWith (fun j => !(s.queue (qIntake (j / 4) (j % 4))).isEmpty) (intakeOrder s.hallmark.rr) = some k)
    (hq : s.queue (qIntake (k / 4) (k % 4)) = ⟨p, n, .item i⟩ :: l) :
    exec .bundlerIntake s = .next ((s.intakeTaken k l).intakeItem k i) := by
  have free : (intakeOrder s.hallmark.rr).filter (fun j => s.mustWait j) = [] :=
    List.filter_eq_nil_iff.mpr fun j hj => by simp [hw j (lt_of_mem_intakeOrder hj)]
  have first : firstWith (fun j => !(s.queue (qIntake (j / 4) (j % 4))).isEmpty && !(s.mustWait j)) (intakeOrder s.hallmark.rr) = some k :=
    (firstWith_congr fun j hj => by simp [hw j (lt_of_mem_intakeOrder hj)]).trans hk
  refine congrArg Host.Outcome.next ((if_pos hr).trans ?_)
  simp only [free, forEach, List.foldl_nil, first, popQueue_of_queue hq]
  rfl

theorem PlainIntake.setQueue (h : PlainIntake s k i) : PlainIntake (s.setQueue q l) k i where
  wf := mapsWf_setQueue h.wf
  low := h.low
  none_pending := h.none_pending
  keeps := h.keeps
  below := h.below

theorem PlainIntake.turnedTo (h : PlainIntake s k i) : PlainIntake (s.turnedTo n) k i where
  wf := upd_hallmark (P := fun t : State => t.mapsWf = true) (closed_mapsWf.mono (by decide)) h.wf
  low := h.low
  none_pending := h.none_pending
  keeps := h.keeps
  below := h.below

theorem plainIntake_intakeTaken (h : PlainIntake s k i) : PlainIntake (s.intakeTaken k l) k i :=
  ite_ind (Q := fun t => PlainIntake t k i) h.setQueue h.setQueue.turnedTo

theorem lane_intakeTaken : (s.intakeTaken k l).lane k = s.lane k := ite_ind (Q := fun t : State => t.lane k = s.lane k) rfl rfl

theorem allows_intakeTaken : (s.intakeTaken k l).allows (k / 4) ((s.intakeTaken k l).laneNeed k n) = s.allows (k / 4) (s.laneNeed k n) :=
  ite_ind (Q := fun t : State => t.allows (k / 4) (t.laneNeed k n) = s.allows (k / 4) (s.laneNeed k n)) rfl rfl

theorem queue_intakeTaken (hs : s.mapsWf = true) : (s.intakeTaken k l).queue (qIntake (k / 4) (k % 4)) = l :=
  ite_ind (Q := fun t : State => t.queue (qIntake (k / 4) (k % 4)) = l) (queue_setQueue hs) (queue_setQueue hs)

theorem completes_bundlerIntake (hr : s.running = true) (hw : ∀ j, j < 32 → s.mustWait j = false)
    (hk : firstWith (fun j => !(s.queue (qIntake (j / 4) (j % 4))).isEmpty) (intakeOrder s.hallmark.rr) = some k)
    (hq : s.queue (qIntake (k / 4) (k % 4)) = ⟨p, n, .item i⟩ :: l) (h : PlainIntake s k i)
    (ha : s.allows (k / 4) (s.laneNeed k (itemBytes i)) = true) : completes .bundlerIntake s fun t =>
      (t.lane k).items = (s.lane k).items ++ [i] ∧ (t.lane k).len = (s.lane k).len + itemBytes i ∧
      ∃ r, t.queue (qIntake (k / 4) (k % 4)) = l ++ r := by
  have plain := plainIntake_intakeTaken (l := l) h
  have allowed := (allows_intakeTaken (l := l)).trans ha
  obtain ⟨_, items, len⟩ := laneHolds_intakeItem plain allowed
  have starts := queueStarts_intakeItem (q := qIntake (k / 4) (k % 4)) plain allowed
  rw [lane_intakeTaken] at items len
  rw [queue_intakeTaken h.wf] at starts
  exact ⟨_, exec_bundlerIntake hr hw hk hq, items, len, starts.2⟩

/-! ## BUNDLE_AGE_EXPIRY (R367) -/

theorem exec_bundleAgeExpiry {a : Nat} (hr : s.running = true) (hn : n < 8) (h1 : 1 ≤ a) (h4 : a < 4)
    (hc : s.on (F.BND_LCFG_AGE (qOut n a)) = true) (hd : s.ageDue (qOut n a) 0 = true) :
    exec (.bundleAgeExpiry n a) s = .next (s.askClose (qOut n a)) :=
  congrArg Host.Outcome.next (if_pos (by simp [hr, hn, h1, h4, hc, hd]))

/-- The lane with its close condition, where it has items. -/
def Lane.asked (x : Lane) : Lane := if x.items.isEmpty then x else { x with closeReq := true }

theorem lane_askClose (hs : s.mapsWf = true) : (s.askClose k).lane k = (s.lane k).asked :=
  bndRise_ind (P := fun t : State => t.lane k = (s.lane k).asked)
    (closed_of (p := .lanes) (by decide) fun s t (he : t.lanes = s.lanes) h => by rwa [State.lane, he])
    (lane_modLane (u := Lane.asked) hs)

theorem closeReq_asked {x : Lane} : x.asked.closeReq = true ↔ x.closeReq = true ∨ x.items ≠ [] := by
  unfold Lane.asked
  split
  next h => simp [List.isEmpty_iff.mp h]
  next h => simpa using Or.inr (fun e => h (List.isEmpty_iff.mpr e))

theorem items_asked {x : Lane} : x.asked.items = x.items := by
  unfold Lane.asked
  split <;> rfl

theorem changes_askClose : changesBesideIrq [.lanes, .reg 0x2118] s (s.askClose k) :=
  askClose_ind ((closed_changesOnly (l := irqParts ++ [.lanes, .reg 0x2118]) (by decide)).mono (by decide)) (changesOnly_refl s)

/-! ## BUNDLE_CLOSE (R368, R369, R374) -/

/-- What the closing of lane `k` turns on: its closed bundles, its open one, the seal queue, and the tenant's next sequence. -/
def Closing (k : Nat) (bundles : List Bundle) (ln : Lane) (seals : List (Nat × Nat)) (n : Nat) (s : State) : Prop :=
  s.mapsWf = true ∧ s.closedOf k = bundles ∧ s.lane k = ln ∧ s.hallmark.queue = seals ∧ (s.ten (k / 4)).seqNext = n

theorem closed_closing {l : List Part} (h : avoids l .closed = true ∧ avoids l .lanes = true ∧ avoids l .hallmark = true ∧
    avoids l .tens = true) (hl : needsAll l runParts = true) : Closed l (Closing k bundles ln seals n) := by
  obtain ⟨hclosed, hlanes, hseals, htens⟩ := h
  exact closed_and (closed_mapsWf.mono hl)
    (closed_and (closed_of hclosed fun s t (he : t.closed = s.closed) h => by rwa [State.closedOf, he])
    (closed_and (closed_of hlanes fun s t (he : t.lanes = s.lanes) h => by rwa [State.lane, he])
    (closed_and (closed_of hseals fun s t (he : t.hallmark = s.hallmark) h => by rwa [he])
    (closed_of htens fun s t (he : t.tens = s.tens) h => by rwa [State.ten, he]))))

theorem Closing.modTen {u : Ten → Ten} (h : Closing k bundles ln seals n s) (hu : ∀ x, (u x).seqNext = x.seqNext) :
    Closing k bundles ln seals n (s.modTen m u) := by
  obtain ⟨wf, bundles, lane, seals, next⟩ := h
  refine ⟨mapsWf_modTen wf, bundles, lane, seals, ?_⟩
  by_cases e : k / 4 = m
  · subst e
    rw [ten_modTen wf, hu, next]
  · rw [ten_modTen_ne e, next]

theorem recordSafe_closing : RecordSafe (Closing k bundles ln seals n) where
  parts := closed_closing (by decide) (by decide)
  pushed _ _ _ h := push_ind (closed_closing (by decide) (by decide)) h
  counted _ h := addSat_ind (closed_closing (by decide) (by decide)) h
  recorded _ _ _ h := h.modTen fun _ => rfl

/-- A further reservation that is requested is noted beside the seal queue. -/
theorem Closing.reserveSeq (h : Closing k bundles ln seals n s) : Closing k bundles ln seals n (s.reserveSeq m) := by
  have closed : Closed [.reg 0x158, .stw] (Closing k bundles ln seals n) := closed_closing (by decide) (by decide)
  obtain ⟨wf, bundles, lane, seals, next⟩ := h
  exact ite_ind (nvRequest_ind closed ⟨upd_hallmark (P := fun t : State => t.mapsWf = true) (closed_mapsWf.mono (by decide)) wf,
    bundles, lane, seals, next⟩) ⟨wf, bundles, lane, seals, next⟩

/-- The granules of the closing tag are taken beside the lane. -/
theorem closing_takeGran (hs : s.mapsWf = true) :
    Closing k (s.closedOf k) (s.lane k) s.hallmark.queue (s.ten (k / 4)).seqNext (s.takeGran m n res) :=
  takeGran_recordSafe recordSafe_closing (closed_closing (by decide) (by decide)) ⟨hs, rfl, rfl, rfl, rfl⟩

/-- A lane without items whose seal credit is out. -/
def lentLane : Lane := { lane0 with credit := true }

/-- The lane opens again with its seal credit out, and the bundle `b` stands last in its closed ones. -/
def State.laneClosed (s : State) (k : Nat) (b : Bundle) : State :=
  (s.modLane k fun _ => lentLane).setClosed k (s.closedOf k ++ [b])

/-- The bundle is to be sealed. -/
def State.sealQueued (s : State) (k seq : Nat) : State :=
  { s with hallmark := { s.hallmark with queue := s.hallmark.queue ++ [(k, seq)] } }

/-- The tenant's next sequence, with one more bundle counted. -/
def State.seqUsed (s : State) (n : Nat) : State :=
  s.modTen n fun x => { x with seqNext := x.seqNext + 1, bundles := min (x.bundles + 1) (2 ^ 32 - 1) }

theorem closeLane_eq : s.closeLane k = (s.bndRise ((((s.takeGran (k / 4) (s.tagNeed k) (s.heldBack k (s.tagNeed k))).laneClosed k
    (s.makeBundle k)).sealQueued k (s.makeBundle k).seq).seqUsed (k / 4))).reserveSeq (k / 4) := rfl

theorem Closing.laneClosed {b : Bundle} (h : Closing k bundles ln seals n s) :
    Closing k (bundles ++ [b]) lentLane seals n (s.laneClosed k b) := by
  obtain ⟨wf, rfl, _, seals, next⟩ := h
  have opened : (s.modLane k fun _ => lentLane).mapsWf = true := modLane_ind (closed_mapsWf.mono (by decide)) wf
  exact ⟨mapsWf_setClosed opened, closedOf_setClosed opened, lane_modLane (u := fun _ => lentLane) wf, seals, next⟩

theorem Closing.sealQueued (h : Closing k bundles ln seals n s) :
    Closing k bundles ln (seals ++ [(k, q)]) n (s.sealQueued k q) := by
  obtain ⟨wf, bundles, lane, rfl, next⟩ := h
  exact ⟨upd_hallmark (P := fun t : State => t.mapsWf = true) (closed_mapsWf.mono (by decide)) wf, bundles, lane, rfl, next⟩

theorem Closing.seqUsed (h : Closing k bundles ln seals n s) : Closing k bundles ln seals (n + 1) (s.seqUsed (k / 4)) := by
  obtain ⟨wf, bundles, lane, seals, rfl⟩ := h
  exact ⟨mapsWf_modTen wf, bundles, lane, seals, congrArg Ten.seqNext (ten_modTen wf)⟩

theorem closing_closeLane (hs : s.mapsWf = true) : Closing k (s.closedOf k ++ [s.makeBundle k]) lentLane
    (s.hallmark.queue ++ [(k, (s.ten (k / 4)).seqNext)]) ((s.ten (k / 4)).seqNext + 1) (s.closeLane k) := by
  rw [closeLane_eq]
  exact Closing.reserveSeq (bndRise_recordSafe recordSafe_closing (closed_closing (by decide) (by decide))
    (closing_takeGran hs).laneClosed.sealQueued.seqUsed)

theorem exec_bundleClose (hr : s.running = true)
    (hk : firstWith (fun j => (s.lane j).closeReq && !(s.lane j).items.isEmpty && s.canClose j) closeOrder = some k) :
    exec .bundleClose s = .next (s.closeLane k) := by
  refine congrArg Host.Outcome.next ((if_pos hr).trans ?_)
  simp only [hk]

/-! ## GAP_RECORD_ENQUEUE (R164) -/

section
variable (hr : s.running = true) (hp : prodOf n = some p)
include hr hp

theorem exec_gapRecordEnqueue_lane (hq : q < 0x20) (hb : p = .bundler) : exec (.gapRecordEnqueue q n) s = .next (s.drainLane q) := by
  refine congrArg Host.Outcome.next ((if_pos hr).trans ?_)
  simp [hp, hq, hb]

theorem exec_gapRecordEnqueue_internal (hlo : 0x20 ≤ q) (hhi : q < 0x68) : exec (.gapRecordEnqueue q n) s = .next (s.drain q p) := by
  refine congrArg Host.Outcome.next ((if_pos hr).trans ?_)
  simp only [hp, if_neg (Nat.not_lt.mpr hlo), if_neg (by omega : ¬ (0x70 ≤ q ∧ q < 0x78)), if_pos hhi]

theorem exec_gapRecordEnqueue_dispatch (hlo : 0x70 ≤ q) (hhi : q < 0x78) (hb : p = .psq) :
    exec (.gapRecordEnqueue q n) s = .next (s.psqGaps (q - 0x70)) := by
  refine congrArg Host.Outcome.next ((if_pos hr).trans ?_)
  simp only [hp, if_neg (by omega : ¬ q < 0x20), if_pos (And.intro hlo hhi), if_pos hb]

end

/-- The one pending record of a producer has entered the queue. -/
def State.gapEntered (s : State) (q : Nat) (p : Producer) (g : Gap) : State :=
  ((s.push q ⟨p, gapSlots g, .gaps [g]⟩).addSat F.QUE_STAT_GAPS 1).setPend q p []

theorem drain_of_one (h : s.pendOf q p = [r]) (hh : r.held = false) (hg : r.gap = some g) (hc : gapSlots g + 1 ≤ s.credits q p) :
    s.drain q p = s.gapEntered q p g := by
  rw [State.drain, h, drainGaps, hg]
  simp [hh, hc, drainGaps, State.gapEntered]

theorem completes_gapRecordEnqueue (hs : s.mapsWf = true) (hr : s.running = true) (hp : prodOf n = some p) (hlo : 0x20 ≤ q)
    (hhi : q < 0x68) (h : s.pendOf q p = [r]) (hh : r.held = false) (hg : r.gap = some g) (hc : gapSlots g + 1 ≤ s.credits q p) :
    completes (.gapRecordEnqueue q n) s fun t => t.queue q = s.queue q ++ [⟨p, gapSlots g, .gaps [g]⟩] ∧ t.pendOf q p = [] ∧
      t.fld F.QUE_STAT_GAPS = min (s.fld F.QUE_STAT_GAPS + 1) (2 ^ F.QUE_STAT_GAPS.w - 1) ∧
      changesOnly [.queues, .pendg, .reg F.QUE_STAT_GAPS.addr] s t := by
  have pushed : (s.push q ⟨p, gapSlots g, .gaps [g]⟩).mapsWf = true := mapsWf_push hs
  have frame := closed_changesOnly (l := [.queues, .pendg, .reg F.QUE_STAT_GAPS.addr]) (s := s) (by decide)
  exact ⟨_, (exec_gapRecordEnqueue_internal hr hp hlo hhi).trans (congrArg _ (drain_of_one h hh hg hc)), queue_push hs,
    pendOf_setPend (mapsWf_setFld pushed), fld_addSat (mapsWf_regs pushed) (by decide),
    setPend_ind (frame.mono (by decide)) (addSat_ind (frame.mono (by decide)) (push_ind (frame.mono (by decide)) (changesOnly_refl s)))⟩

end

/-- Settles O45: the Rose's clauses and the Bundler's, each the run of its command; what an item's lane or a closed bundle
holds stands through the granules that it takes and the interrupts that follow. -/
theorem roseAndBundlerRun : Obligations.RoseAndBundlerRun := by
  unfold Obligations.RoseAndBundlerRun
  refine ⟨fun s x c d e b hc hr hx => ⟨exec_roseEvent_of_consumer hc hr hx,
      fun f hf hd => exec_roseEvent_of_flare hc hr (hd ▸ hx) hf⟩,
    fun s x c e b hs hc hr _ hx hw => completes_roseEvent_wakes hs hc hr hx hw,
    fun s x c f e b hs hc hr hch hf hx hrel hm => completes_roseEvent_flare hs hc hr hch hf hx hrel hm,
    fun s f hs hf hc hp => completes_flarePulseEnd hs hf hc hp,
    fun s k n p i l hr hw hk hq => exec_bundlerIntake hr hw hk hq,
    fun s k n p i l hs hr hw hk hq hlow hp hkeep hb ha => completes_bundlerIntake hr hw hk hq ⟨hs, hlow, hp, hkeep, hb⟩ ha,
    fun s k i hs hlow hp hkeep hb => ?intake, fun s n l hs hr hn h1 h4 hc hd => ?age, fun s k hs hr hk => ?close,
    fun s q n p hr hp => ⟨exec_gapRecordEnqueue_lane hr hp, exec_gapRecordEnqueue_internal hr hp, exec_gapRecordEnqueue_dispatch hr hp⟩,
    fun s q n p r g hs hr hp hlo hhi h hh hg hc => completes_gapRecordEnqueue hs hr hp hlo hhi h hh hg hc⟩
  case intake =>
    have plain : PlainIntake s k i := ⟨hs, hlow, hp, hkeep, hb⟩
    exact ⟨fun ha => (laneHolds_intakeItem plain ha).2, intakeItem_of_not_allowed plain⟩
  case age =>
    refine ⟨_, exec_bundleAgeExpiry hr hn h1 h4 hc hd, ?_, ?_, changes_askClose⟩
    · rw [lane_askClose hs]
      exact closeReq_asked
    · rw [lane_askClose hs, items_asked]
  case close =>
    obtain ⟨_, bundles, lane, seals, next⟩ := closing_closeLane (k := k) hs
    exact ⟨_, exec_bundleClose hr hk, bundles, lane, seals, next⟩

end Sys2Proof.Machine

/-! The sensor ports (R193-R195, R203-R206, R211, R245, R246): a request is dispatched and taken, a transfer begins and ends, and
the bus of a two-wire port is stuck, free or recovered. -/

namespace Sys2Proof.Machine

section
variable {s : State} {p code done f n r m d : Nat} {b : Bool} {x : Xfer} {q : Request} {data : List Byte} {l : List Part}
  {Q R : Port → Prop}

/-! ## A port's state -/

/-- The maps are well-formed, and `Q` holds of the state of port `p`. -/
def PortHas (p : Nat) (Q : Port → Prop) (s : State) : Prop := s.mapsWf = true ∧ Q (s.prt p)

theorem prt_modPrt {u : Port → Port} (hs : s.mapsWf = true) : (s.modPrt p u).prt p = u (s.prt p) :=
  mapGet_mapSet (mapsWf_ports hs)

theorem mapsWf_modPrt {u : Port → Port} (hs : s.mapsWf = true) : (s.modPrt p u).mapsWf = true :=
  modPrt_ind (P := fun t : State => t.mapsWf = true) (closed_mapsWf.mono (by decide)) hs

theorem PortHas.modPrt {u : Port → Port} (h : PortHas p Q s) (hu : ∀ y, Q y → R (u y)) : PortHas p R (s.modPrt p u) :=
  ⟨mapsWf_modPrt h.1, by rw [prt_modPrt h.1]; exact hu _ h.2⟩

/-- What the operations of the ports change beside the ports. -/
def besidePorts : List Part :=
  [.clk, .sys, .rose, .queues, .pendg, .tens, .loops, .regs, .charge, .chargeLast, .chainDue, .descs]

theorem closed_portHas (h : needsAll l besidePorts = true) : Closed l (PortHas p Q) := by
  have port : Closed besidePorts fun t => Q (t.prt p) :=
    closed_of (p := .ports) (by decide) fun s t (he : _ = _) h => by rwa [State.prt, he]
  exact (closed_and (closed_mapsWf.mono (by decide)) port).mono h

/-! ## The end of a transfer (R53, R195, R211, R248) -/

/-- The port has no transfer, and is blocked or not as `b` says. -/
def Port.Idle (b : Bool) (y : Port) : Prop := y.xfer = none ∧ y.blocked = b

/-- The transfer of an idle port has ended, and the bus is not yet known to be free (R204). -/
def Port.Ended (b : Bool) (y : Port) : Prop := y.Idle b ∧ y.busFree = false

theorem idle_portIdle (h : PortHas p (·.blocked = b) s) : PortHas p (Port.Idle b) (s.portIdle p x) := by
  unfold State.portIdle
  extract_lets freed owed
  have hfreed : PortHas p (Port.Idle b) freed := h.modPrt fun _ hb => ⟨rfl, hb⟩
  have howed : PortHas p (Port.Idle b) owed :=
    ite_ind (hfreed.modPrt fun _ => id) (chargeShare_ind (closed_portHas (by decide)) hfreed)
  exact setFloor_ind (closed_portHas (by decide))
    (portCount_ind (closed_portHas (by decide)) (portState_ind (closed_portHas (by decide)) howed))

/-- The transfer `x` ends: the port is idle and its bus busy until BUS_FREE. -/
def State.transferOver (s : State) (p : Nat) (x : Xfer) : State := (s.portIdle p x).modPrt p fun y => { y with busFree := false }

theorem ended_transferOver (h : PortHas p (·.blocked = b) s) : PortHas p (Port.Ended b) (s.transferOver p x) :=
  (idle_portIdle h).modPrt fun _ hi => ⟨hi, rfl⟩

theorem ended_transferFail (hx : s.xfer p = some x) (h : PortHas p (·.blocked = b) s) :
    PortHas p (Port.Ended b) (s.transferFail p code done data) := by
  unfold State.transferFail
  split
  next hn => cases hx.symm.trans hn
  extract_lets words posted target fences faulted fenced full flags recorded captured completed
  have hfaulted : PortHas p (·.blocked = b) faulted := portFault_ind (closed_portHas (by decide)) h
  have hfenced : PortHas p (·.blocked = b) fenced :=
    ite_ind (raise_ind (closed_portHas rfl) (hfaulted.modPrt fun _ => id)) hfaulted
  have hfull : PortHas p (·.blocked = b) full := ite_ind (portFault_ind (closed_portHas (by decide)) hfenced) hfenced
  have hrecorded : PortHas p (·.blocked = b) recorded := record_ind (closed_portHas (by decide)) hfull
  have hcaptured : PortHas p (·.blocked = b) captured :=
    ite_ind (captureRead_ind (closed_portHas (by decide)) hrecorded) hrecorded
  have hcompleted : PortHas p (·.blocked = b) completed :=
    ite_ind hcaptured (complete_ind (closed_portHas (by decide)) hcaptured)
  exact ended_transferOver hcompleted

/-- The rise time and the setup margin of a two-wire transfer are recorded at its end (R207, R208). -/
def State.edgesTaken (s : State) (p : Nat) (x : Xfer) (rise m : Nat) (good : Bool) : State :=
  if p < 4 then s.edgeRate p x rise m good else s

theorem edgesTaken_portHas (h : PortHas p Q s) : PortHas p Q (s.edgesTaken p x r m b) :=
  ite_ind (edgeRate_ind (closed_portHas (by decide)) h) h

theorem transferBreak_of_xfer (hx : s.xfer p = some x) : s.transferBreak p code done data =
    (s.edgesTaken p x (Config.riseTime p s.ht) 0 false).transferFail p code done data := by
  rw [State.transferBreak, hx]
  rfl

theorem ended_transferBreak (hx : s.xfer p = some x) (h : PortHas p (·.blocked = b) s) :
    PortHas p (Port.Ended b) (s.transferBreak p code done data) := by
  rw [transferBreak_of_xfer hx]
  have taken : PortHas p (fun y => y.xfer = some x ∧ y.blocked = b) (s.edgesTaken p x (Config.riseTime p s.ht) 0 false) :=
    edgesTaken_portHas ⟨h.1, hx, h.2⟩
  exact ended_transferFail taken.2.1 ⟨taken.1, taken.2.2⟩

theorem PortHas.blocked_self (hs : s.mapsWf = true) : PortHas p (·.blocked = (s.prt p).blocked) s := ⟨hs, rfl⟩

/-! ## TRANSFER_END, STRETCH_TIMEOUT and ARB_LOST (R195, R203, R206) -/

theorem exists_xfer_of_driving (h : s.driving p = true) : ∃ x, s.xfer p = some x := by
  unfold State.driving at h
  split at h
  · cases h
  next x hx => exact ⟨x, hx⟩

theorem driving_of_xfer (hx : s.xfer p = some x) : s.driving p = !x.waitFree := by rw [State.driving, hx]

/-- A transfer succeeds: its capture entry and the completion of its request (R195, R212). -/
def State.succeeded (s : State) (p : Nat) (x : Xfer) (data : List Byte) : State :=
  let captured := if dKind x.req.words = 0 then s.captureRead p x (dataOf (dLen x.req.words) data) false else s
  if dKind x.req.words = 2 then captured else captured.complete x.req.idx true

theorem succeeded_portHas (h : PortHas p Q s) : PortHas p Q (s.succeeded p x data) := by
  unfold State.succeeded
  extract_lets captured
  have hcaptured : PortHas p Q captured := ite_ind (captureRead_ind (closed_portHas (by decide)) h) h
  exact ite_ind hcaptured (complete_ind (closed_portHas (by decide)) hcaptured)

theorem exec_transferEnd (hp : p < 7) (hd : s.driving p = true) (hx : s.xfer p = some x) (hf : f = 0 ∨ p < 4 ∧ f ≤ 2) :
    exec (.transferEnd p data f n r m) s = .next (if f ≠ 0 then (s.edgesTaken p x r m (f == 0)).transferFail p f n data
      else ((s.edgesTaken p x r m (f == 0)).succeeded p x data).transferOver p x) := by
  refine congrArg Host.Outcome.next ((if_pos (by simp [hp, hd, hf])).trans ?_)
  simp only [hx]
  rfl

theorem completes_transferEnd (hs : s.mapsWf = true) (hp : p < 7) (hd : s.driving p = true) (hf : f = 0 ∨ p < 4 ∧ f ≤ 2) :
    completes (.transferEnd p data f n r m) s fun t => t.xfer p = none ∧ (t.prt p).busFree = false := by
  obtain ⟨x, hx⟩ := exists_xfer_of_driving hd
  have taken : PortHas p (fun y => y.xfer = some x ∧ y.blocked = (s.prt p).blocked) (s.edgesTaken p x r m (f == 0)) :=
    edgesTaken_portHas ⟨hs, hx, rfl⟩
  have blocked : PortHas p (·.blocked = (s.prt p).blocked) (s.edgesTaken p x r m (f == 0)) := ⟨taken.1, taken.2.2⟩
  obtain ⟨_, ⟨idle, _⟩, busy⟩ := ite_ind (Q := PortHas p (Port.Ended (s.prt p).blocked)) (c := f ≠ 0)
    (ended_transferFail (code := f) (done := n) (data := data) taken.2.1 blocked)
    (ended_transferOver (x := x) (succeeded_portHas (x := x) (data := data) blocked))
  exact ⟨_, exec_transferEnd hp hd hx hf, idle, busy⟩

theorem completes_stretchTimeout (hs : s.mapsWf = true) (hp : p < 4) (hd : s.driving p = true) :
    completes (.stretchTimeout p data) s fun t => t.xfer p = none := by
  obtain ⟨x, hx⟩ := exists_xfer_of_driving hd
  obtain ⟨_, ⟨idle, _⟩, _⟩ := ended_transferBreak (code := 3) (done := data.length) (data := data) hx (.blocked_self hs)
  exact completes_when rfl (by simp [hp, hd]) fun _ => idle

/-- A transfer that has lost arbitration once more waits for a free bus, to be repeated (R206). -/
def Xfer.lost (x : Xfer) : Xfer := { x with losses := x.losses + 1, waitFree := true }

/-- The retries that ARB_RETRY allowed at the start of a transfer. -/
def Xfer.retries (x : Xfer) : Nat := getBits (x.cfg.getD 0 0) 4 4

/-- The port waits to repeat the transfer `x` on a free bus. -/
def State.awaitsBus (s : State) (p : Nat) (x : Xfer) : State :=
  ((s.setXfer p (some x.lost)).portState p 2).modPrt p fun y => { y with busFree := false }

theorem exec_arbLost (hp : p < 4) (hx : s.xfer p = some x) (hw : x.waitFree = false) :
    exec (.arbLost ⟨p, data⟩) s = .next (if x.retries ≤ x.losses then
      (s.addSat (F.TWC_CNT_ARB p) 1).transferBreak p 4 data.length data else (s.addSat (F.TWC_CNT_ARB p) 1).awaitsBus p x) := by
  refine congrArg Host.Outcome.next ((if_pos (by simp [hp, driving_of_xfer hx, hw])).trans ?_)
  simp only [hx]
  rfl

theorem awaitsBus_waits (hs : s.mapsWf = true) : PortHas p (·.xfer = some x.lost) (s.awaitsBus p x) := by
  have stored : PortHas p (·.xfer = some x.lost) (s.setXfer p (some x.lost)) :=
    PortHas.modPrt (Q := fun _ => True) ⟨hs, trivial⟩ fun _ _ => rfl
  exact (portState_ind (closed_portHas (by decide)) stored).modPrt fun _ => id

theorem completes_arbLost (hs : s.mapsWf = true) (hp : p < 4) (hx : s.xfer p = some x) (hw : x.waitFree = false) :
    completes (.arbLost ⟨p, data⟩) s fun t => (x.retries ≤ x.losses → t.xfer p = none) ∧
      (x.losses < x.retries → t.xfer p = some x.lost ∧ t.driving p = false) := by
  refine ⟨_, exec_arbLost hp hx hw, fun h => ?_, fun h => ?_⟩
  · rw [if_pos h]
    obtain ⟨_, ⟨idle, _⟩, _⟩ := ended_transferBreak (s := s.addSat (F.TWC_CNT_ARB p) 1) (code := 4) (done := data.length)
      (data := data) hx (.blocked_self (mapsWf_setFld hs))
    exact idle
  · rw [if_neg (Nat.not_le.mpr h)]
    obtain ⟨_, waits⟩ := awaitsBus_waits (s := s.addSat (F.TWC_CNT_ARB p) 1) (p := p) (x := x) (mapsWf_setFld hs)
    exact ⟨waits, driving_of_xfer waits⟩

/-! ## BUS_STUCK (R205) -/

/-- The port is blocked, and its transfer has failed; without one its fault bit says so (R205, R217). -/
def State.stuck (s : State) (p : Nat) (data : List Byte) : State :=
  let s1 := s.modPrt p fun y => { y with blocked := true, busFree := false }
  if (s1.xfer p).isSome then s1.transferBreak p 5 data.length data else s1.portFault p 4

theorem idle_stuck (hs : s.mapsWf = true) : PortHas p (Port.Idle true) (s.stuck p data) := by
  unfold State.stuck
  extract_lets blocked
  have hblocked : PortHas p (·.blocked = true) blocked := PortHas.modPrt (.blocked_self hs) fun _ _ => rfl
  refine ite_with (fun h => ?_) fun h => ?_
  · obtain ⟨x, hx⟩ := Option.isSome_iff_exists.mp h
    obtain ⟨wf, idle, _⟩ := ended_transferBreak (code := 5) (done := data.length) (data := data) hx hblocked
    exact ⟨wf, idle⟩
  · exact portFault_ind (closed_portHas (by decide)) ⟨hblocked.1, Option.not_isSome_iff_eq_none.mp h, hblocked.2⟩

theorem latched_checkPorts {ps : List Nat} {k : Nat} (hp : p < 4) (h : Latched (portPage p) k s) :
    Latched (portPage p) k (s.checkPorts ps) := by
  refine checkPorts_ind (closed_latched ?_ (by decide)) h
  rcases (by omega : p = 0 ∨ p = 1 ∨ p = 2 ∨ p = 3) with rfl | rfl | rfl | rfl <;> decide

theorem completes_busStuck (hs : s.mapsWf = true) (hp : p < 4) (hl : s.portLive p = true) (hb : (s.prt p).blocked = false) :
    completes (.busStuck p data) s fun t =>
      (t.prt p).blocked = true ∧ t.xfer p = none ∧ t.bit (F.PIRQ (portPage p)) 10 = true := by
  refine completes_when rfl (by simp [hp, hl, hb]) fun _ => ?_
  have shown : PortHas p (Port.Idle true) ((s.stuck p data).portState p 4) :=
    portState_ind (closed_portHas (by decide)) (idle_stuck hs)
  have latched : Latched (portPage p) 10 (((s.stuck p data).portState p 4).raise (portPage p) 10) :=
    ⟨mapsWf_regs (raise_ind (closed_portHas rfl) shown).1, bit_raise (mapsWf_regs shown.1) (by decide)⟩
  obtain ⟨_, idle, blocked⟩ := checkPorts_ind (ps := [p]) (closed_portHas (by decide))
    (raise_ind (p := portPage p) (b := 10) (closed_portHas rfl) shown)
  exact ⟨blocked, idle, (latched_checkPorts hp latched).2⟩

/-! ## BUS_FREE and BUS_RECOVERY (R204) -/

/-- The bus is free, and the last transfer is charged (R204, R248). -/
def State.busFreed (s : State) (p : Nat) : State := (s.modPrt p fun y => { y with blocked := false, busFree := true }).portPaid p

/-- A port whose bus is free and whose last transfer is charged, with the transfer `o`. -/
def Port.Free (o : Option Xfer) (y : Port) : Prop := y.xfer = o ∧ y.blocked = false ∧ y.busFree = true ∧ y.owed = none

theorem free_busFreed (hs : s.mapsWf = true) : PortHas p (Port.Free (s.xfer p)) (s.busFreed p) := by
  have freed : PortHas p (fun y => y.xfer = s.xfer p ∧ y.blocked = false ∧ y.busFree = true)
      (s.modPrt p fun y => { y with blocked := false, busFree := true }) :=
    PortHas.modPrt (Q := (·.xfer = s.xfer p)) ⟨hs, rfl⟩ fun _ h => ⟨h, rfl, rfl⟩
  rw [State.busFreed, State.portPaid]
  split
  next ho => exact ⟨freed.1, freed.2.1, freed.2.2.1, freed.2.2.2, ho⟩
  next => exact chargeShare_ind (closed_portHas (by decide)) (freed.modPrt fun _ h => ⟨h.1, h.2.1, h.2.2, rfl⟩)

theorem ht_busFreed : (s.busFreed p).ht = s.ht :=
  portPaid_ind (P := fun t => t.ht = s.ht) (closed_of (p := .rck) (by decide) fun _ _ (he : _ = _) h => by rwa [State.ht, he]) rfl

/-- The waiting repeat of `x` drives its START on the free bus (R206). -/
def State.repeated (s : State) (p : Nat) (x : Xfer) : State :=
  (s.setXfer p (some { x with waitFree := false, start := s.ht, hold := s.on F.CLK_SYN_HOLDOVER })).portState p 1

theorem free_repeated {o : Option Xfer} (h : PortHas p (Port.Free o) s) : PortHas p
    (Port.Free (some { x with waitFree := false, start := s.ht, hold := s.on F.CLK_SYN_HOLDOVER })) (s.repeated p x) :=
  portState_ind (closed_portHas (by decide)) (h.modPrt fun _ hf => ⟨rfl, hf.2⟩)

section
variable (hs : s.mapsWf = true) (hp : p < 4) (hl : s.portLive p = true) (hd : s.driving p = false)
include hs hp hl hd

theorem exec_busFree_of_none (hx : s.xfer p = none) : exec (.busFree p) s = .next ((s.busFreed p).portState p 0) := by
  have idle : (s.busFreed p).xfer p = none := (free_busFreed hs).2.1.trans hx
  refine congrArg Host.Outcome.next ((if_pos (by simp [hp, hl, hd])).trans ?_)
  rw [State.busFreed] at idle ⊢
  simp only [idle]

theorem exec_busFree_of_xfer (hx : s.xfer p = some x) : exec (.busFree p) s = .next ((s.busFreed p).repeated p x) := by
  have waiting : (s.busFreed p).xfer p = some x := (free_busFreed hs).2.1.trans hx
  refine congrArg Host.Outcome.next ((if_pos (by simp [hp, hl, hd])).trans ?_)
  rw [State.busFreed] at waiting ⊢
  simp only [waiting]
  rfl

theorem completes_busFree : completes (.busFree p) s fun t =>
    (t.prt p).blocked = false ∧ (t.prt p).busFree = true ∧ (t.prt p).owed = none ∧
      ∀ x, s.xfer p = some x → (t.xfer p).map (fun y => (y.req, y.waitFree, y.start)) = some (x.req, false, s.ht) := by
  have free := free_busFreed (p := p) hs
  cases hx : s.xfer p with
  | none =>
    obtain ⟨_, _, blocked, bus, owed⟩ := portState_ind (v := 0) (closed_portHas (by decide)) free
    exact ⟨_, exec_busFree_of_none hs hp hl hd hx, blocked, bus, owed, by simp⟩
  | some x =>
    obtain ⟨_, shown, blocked, bus, owed⟩ := free_repeated (x := x) free
    refine ⟨_, exec_busFree_of_xfer hs hp hl hd hx, blocked, bus, owed, fun y hy => ?_⟩
    cases hy
    rw [State.xfer, shown, ← ht_busFreed (s := s) (p := p)]
    rfl

end

/-- A recovery is counted; the STOP that follows will free the bus (R204). -/
def State.recovering (s : State) (p : Nat) : State :=
  (s.addSat (F.TWC_CNT_RECOV p) 1).modPrt p fun y => { y with blocked := false, busFree := false }

theorem recovering_shows (hs : s.mapsWf = true) :
    PortHas p (fun y => y.blocked = false ∧ y.busFree = false) (s.recovering p) ∧
    Reads (F.TWC_CNT_RECOV p) (min (s.fld (F.TWC_CNT_RECOV p) + 1) (2 ^ (F.TWC_CNT_RECOV p).w - 1)) (s.recovering p) :=
  ⟨PortHas.modPrt (.blocked_self (mapsWf_setFld hs)) fun _ _ => ⟨rfl, rfl⟩,
    reads_addSat (mapsWf_regs hs) (show 24 + 8 ≤ 32 by decide)⟩

theorem completes_busRecovery (hs : s.mapsWf = true) (hp : p < 4) (hl : s.portLive p = true) (hd : s.driving p = false) :
    completes (.busRecovery p) s fun t => (t.prt p).blocked = false ∧ (t.prt p).busFree = false ∧
      t.fld (F.TWC_CNT_RECOV p) = min (s.fld (F.TWC_CNT_RECOV p) + 1) (2 ^ (F.TWC_CNT_RECOV p).w - 1) ∧
      t.fld (F.TWC_STAT_STATE p) = 3 := by
  obtain ⟨port, counted⟩ := recovering_shows (p := p) hs
  have shown : (s.recovering p).portState p 3 = (s.recovering p).setFld (F.TWC_STAT_STATE p) 3 := if_pos hp
  have apart : ApartFrom (F.TWC_STAT_STATE p) (F.TWC_CNT_RECOV p) :=
    ⟨show 24 + 8 ≤ 32 by decide, .inl (show 0x1068 + 256 * p ≠ 0x1060 + 256 * p by omega)⟩
  obtain ⟨_, blocked, bus⟩ := portState_ind (v := 3) (closed_portHas (by decide)) port
  refine completes_when rfl (by simp [hp, hl, hd]) fun _ => ⟨blocked, bus, ?_⟩
  show ((s.recovering p).portState p 3).fld _ = _ ∧ ((s.recovering p).portState p 3).fld _ = _
  rw [shown]
  exact ⟨(counted.setFld apart).2, fld_setFld_of_lt counted.1 (show 0 + 3 ≤ 32 by decide) (show 3 < 2 ^ 3 by decide)⟩

/-! ## DISPATCH (R245, R246, R252) -/

/-- What goes ahead of the dispatch of `q`: the GAP records of its port, and the placement of its descriptor (R252, R257). -/
def State.beforeDispatch (s : State) (q : Request) : State :=
  ((s.setPend (qDisp (dPort q.words)) .psq ((s.pendOf (qDisp (dPort q.words)) .psq).map fun x =>
    if x.src = srcDesc q.idx then (endReset q.trig [x]).headD x else x)).psqGaps (dPort q.words)).place q.idx q

theorem mapsWf_beforeDispatch (hs : s.mapsWf = true) : (s.beforeDispatch q).mapsWf = true :=
  place_ind (P := fun t : State => t.mapsWf = true) (closed_mapsWf.mono (by decide))
    (psqGaps_ind (closed_mapsWf.mono (by decide)) (mapsWf_setPend hs))

/-- The request leaves its descriptor for the dispatch queue of its port, and is counted. -/
def State.dispatched (s : State) (q : Request) : State :=
  ((s.modDesc q.idx fun x => { x with pend := none }).push (qDisp (dPort q.words)) ⟨.psq, 1, .request q⟩).addSat
    F.PSQ_DISP_COUNT 1

theorem exec_dispatch (hr : s.running = true) (hq : s.nextRequest = some q) :
    exec .dispatch s = .next ((s.beforeDispatch q).dispatched q) := by
  refine congrArg Host.Outcome.next ((if_pos hr).trans ?_)
  simp only [hq]
  rfl

theorem desc_modDesc {u : Desc → Desc} (hs : s.mapsWf = true) : (s.modDesc d u).desc d = u (s.desc d) :=
  mapGet_mapSet (mapsWf_descs hs)

theorem pend_dispatched (hs : s.mapsWf = true) : ((s.dispatched q).desc q.idx).pend = none :=
  congrArg Desc.pend (desc_modDesc (u := fun x => { x with pend := none }) hs)

theorem queue_dispatched (hs : s.mapsWf = true) :
    (s.dispatched q).queue (qDisp (dPort q.words)) = s.queue (qDisp (dPort q.words)) ++ [⟨.psq, 1, .request q⟩] :=
  queue_push (s := s.modDesc q.idx _) (modDesc_ind (P := fun t : State => t.mapsWf = true) (closed_mapsWf.mono (by decide)) hs)

/-! ## TRANSFER_START (R193, R194) -/

section
variable {j : Producer} {es : List Entry} (hp : p < 7) (ht : s.canTake p = true)
  (hq : s.queue (qDisp p) = ⟨j, n, .request q⟩ :: es)
include hp ht hq

theorem exec_transferStart : exec (.transferStart p) s = .next (if gearLt s.cycleGear (s.portFloor p q.words) then s.regear
    else (s.setQueue (qDisp p) es).takeRequest p q) := by
  refine congrArg Host.Outcome.next ((if_pos (by simp [hp, ht])).trans ?_)
  simp only [popQueue_of_queue hq]

theorem exec_transferStart_slow (hg : gearLt s.cycleGear (s.portFloor p q.words) = true) :
    exec (.transferStart p) s = .next s.regear := (exec_transferStart hp ht hq).trans (congrArg _ (if_pos hg))

theorem exec_transferStart_read (hg : gearLt s.cycleGear (s.portFloor p q.words) = false) (hk : dKind q.words = 0)
    (hc : (s.setQueue (qDisp p) es).canPut (qCap p) .port (ceilDiv (16 + dLen q.words) 32) s.ht = true) :
    ∃ b, exec (.transferStart p) s = .next ((s.setQueue (qDisp p) es).drive p q b) :=
  have taken := (if_pos hk).trans (if_pos hc)
  ⟨_, (exec_transferStart hp ht hq).trans (congrArg _ ((if_neg (by simp [hg])).trans taken))⟩

end

theorem drive_begins (hs : s.mapsWf = true) :
    PortHas p (fun y => y.xfer.map (fun x => (x.req, x.start)) = some (q, s.ht)) (s.drive p q b) := by
  unfold State.drive
  extract_lets begun
  have stored : PortHas p (fun y => y.xfer.map (fun x => (x.req, x.start)) = some (q, s.ht)) (s.setXfer p (some begun)) :=
    PortHas.modPrt (.blocked_self hs) fun _ _ => rfl
  exact setFloor_ind (closed_portHas (by decide)) (portTarget_ind (closed_portHas (by decide))
    (portState_ind (closed_portHas (by decide)) stored))

end

/-- Settles O38: a dispatch moves one request from its descriptor to its port's queue, behind the GAP records that go ahead of
it; a start takes the head of that queue, and its transfer stands through the floor that it sets. A cycle slower than that floor
asks for the upshift instead (R53, R54); how a gear request below the floors is held is the model's choice (log entry 14). -/
theorem dispatchAndStart : Obligations.DispatchAndStart := by
  unfold Obligations.DispatchAndStart
  refine ⟨fun s q hs hr hq => ?dispatch, fun s p n j q es hs hp ht hq hg hk hc => ?start,
    fun s p n j q es hp ht hq hg => exec_transferStart_slow hp ht hq hg⟩
  case dispatch =>
    have before := mapsWf_beforeDispatch (q := q) hs
    exact ⟨_, exec_dispatch hr hq, pend_dispatched before, _, queue_dispatched before⟩
  case start =>
    obtain ⟨b, begun⟩ := exec_transferStart_read hp ht hq hg hk hc
    exact ⟨_, begun, (drive_begins (mapsWf_setQueue hs)).2⟩

/-- Settles O39: a transfer ends in one update of its port, which stands through what the end tells the other blocks; each
condition of the bus is one more update of the port. That every end takes the bus's freedom away (log entry 46) and that a repeat
stamps its own START (log entry 47) are the model's choices. -/
theorem transfersEnd : Obligations.TransfersEnd := by
  unfold Obligations.TransfersEnd
  exact ⟨fun s p data f n r m hs hp hd hf => completes_transferEnd hs hp hd hf,
    fun s p data hs hp hd => completes_stretchTimeout hs hp hd,
    fun s p data x hs hp hx hw => completes_arbLost hs hp hx hw,
    fun s p data hs hp hl hb => completes_busStuck hs hp hl hb,
    fun s p hs hp hl hd => completes_busFree hs hp hl hd,
    fun s p hs hp hl hd => completes_busRecovery hs hp hl hd⟩

end Sys2Proof.Machine

/-! The analog front end (R221-R231): a conversion is taken, a request is drained, the excitation settles, fails or is found open,
and the Touchstone check and the calibration of a channel begin or wait for each other. -/

namespace Sys2Proof.Machine

section
variable {s : State} {ch k n v : Nat} {raw : Int} {ovr last : Bool} {f g : Fld} {l : List Part} {Q R : AfeCh → Prop} {x : Afe}

/-! ## A channel and the front end as a whole -/

/-- The maps are well-formed, and `Q` holds of the state of channel `ch`. -/
def AchHas (ch : Nat) (Q : AfeCh → Prop) (s : State) : Prop := s.mapsWf = true ∧ Q (s.ach ch)

theorem ach_modAch {u : AfeCh → AfeCh} (hs : s.mapsWf = true) : (s.modAch ch u).ach ch = u (s.ach ch) :=
  mapGet_mapSet (mapsWf_afeCh hs)

theorem ach_modAch_ne {u : AfeCh → AfeCh} (h : k ≠ ch) : (s.modAch ch u).ach k = s.ach k := mapGet_mapSet_ne h

theorem mapsWf_modAch {u : AfeCh → AfeCh} (hs : s.mapsWf = true) : (s.modAch ch u).mapsWf = true :=
  modAch_ind (P := fun t : State => t.mapsWf = true) (closed_mapsWf.mono (by decide)) hs

theorem AchHas.modAch {u : AfeCh → AfeCh} (h : AchHas ch Q s) (hu : ∀ c, Q c → R (u c)) : AchHas ch R (s.modAch ch u) :=
  ⟨mapsWf_modAch h.1, by rw [ach_modAch h.1]; exact hu _ h.2⟩

theorem AchHas.modAch_ne {u : AfeCh → AfeCh} (h : AchHas k Q s) (hk : k ≠ ch) : AchHas k Q (s.modAch ch u) :=
  ⟨mapsWf_modAch h.1, by rw [ach_modAch_ne hk]; exact h.2⟩

theorem AchHas.self (hs : s.mapsWf = true) : AchHas ch (· = s.ach ch) s := ⟨hs, rfl⟩

theorem closed_achHas (h : avoids l .afeCh = true := by decide) (hl : needsAll l runParts = true := by decide) :
    Closed l (AchHas ch Q) :=
  closed_and (closed_mapsWf.mono hl) (closed_of h fun s t (he : _ = _) hq => by rwa [State.ach, he])

theorem AchHas.afeShow (h : AchHas ch Q s) : AchHas ch Q s.afeShow := afeShow_ind closed_achHas h

theorem closed_afe (h : avoids l .afe = true := by decide) : Closed l fun t => t.afe = x :=
  closed_of h fun _ _ (he : _ = _) hs => he.trans hs

@[simp] theorem afe_afeShow : s.afeShow.afe = s.afe := afeShow_ind (P := fun t => t.afe = s.afe) closed_afe rfl

@[simp] theorem afe_afeFault : (s.afeFault f k).afe = s.afe :=
  afeFault_ind (P := fun t => t.afe = s.afe) closed_afe rfl

@[simp] theorem afe_afeRecord : (s.afeRecord n ch).afe = s.afe :=
  afeRecord_ind (P := fun t => t.afe = s.afe) closed_afe rfl

/-! ## A latched fault -/

/-- The maps are well-formed, and bit `k` of the fault field `f` is set. -/
def FaultShown (f : Fld) (k : Nat) (s : State) : Prop := s.mapsWf = true ∧ s.bit f k = true

theorem closed_faultShown (ha : avoids l (.reg f.addr) = true) (hl : needsAll l runParts = true) : Closed l (FaultShown f k) :=
  closed_and (closed_mapsWf.mono hl) (closed_bit ha)

theorem FaultShown.setFld (h : FaultShown f k s) (ha : ApartFrom g f) : FaultShown f k (s.setFld g v) :=
  ⟨mapsWf_setFld h.1, by rw [State.bit, fld_setFld_of_apart (mapsWf_regs h.1) ha]; exact h.2⟩

theorem FaultShown.raise (hf : f.addr = A.AFE_FAULT) (h : FaultShown f k s) : FaultShown f k (s.raise 0x17 n) :=
  raise_ind (closed_faultShown (hf ▸ by decide) (by decide)) h

/-- A fault that is told is latched, whether or not it stood before. -/
theorem faultShown_afeFault (hf : f.addr = A.AFE_FAULT) (hw : f.lo + f.w ≤ 32) (hk : k < f.w) (hs : s.mapsWf = true) :
    FaultShown f k (s.afeFault f k) := by
  refine ite_with (fun h => ⟨hs, h⟩) fun _ => ?_
  exact FaultShown.raise hf ⟨mapsWf_setFld hs, bit_setBit (mapsWf_regs hs) hw hk⟩

theorem FaultShown.afeRecord (hf : f.addr = A.AFE_FAULT) (h : FaultShown f k s) : FaultShown f k (s.afeRecord n ch) :=
  afeRecord_ind (closed_faultShown (hf ▸ by decide) (by decide)) h

theorem FaultShown.afeShow (hf : f.addr = A.AFE_FAULT) (hw : f.lo + f.w ≤ 32) (h : FaultShown f k s) :
    FaultShown f k s.afeShow := by
  have apart {g : Fld} (hg : A.AFE_FAULT ≠ g.addr) : ApartFrom g f := ⟨hw, .inl (hf ▸ hg)⟩
  unfold State.afeShow
  extract_lets state states fills shown
  have hstates : FaultShown f k states := (h.setFld (apart (by decide))).setFld (apart (by decide))
  have hfills : FaultShown f k fills := (hstates.setFld (apart (by decide))).setFld (apart (by decide))
  have hshown : FaultShown f k shown := hfills.setFld (apart (by decide))
  exact forEach_ind (fun c _ ht => ite_ind (ht.setFld (apart (show 0x1758 ≠ 0x175c + 4 * c by omega))) ht) hshown

/-! ## A conversion takes no OVR back (R221) -/

/-- OVR of channel `k` is latched. -/
abbrev OvrShown (k : Nat) (s : State) : Prop := FaultShown F.AFE_FAULT_OVR k s

theorem closed_ovrShown (ha : avoids l (.reg A.AFE_FAULT) = true := by decide)
    (hl : needsAll l runParts = true := by decide) : Closed l (OvrShown k) := closed_faultShown ha hl

theorem OvrShown.afeFault (h : OvrShown k s) (ha : ApartFrom f F.AFE_FAULT_OVR) : OvrShown k (s.afeFault f n) :=
  ite_ind h (FaultShown.raise rfl (FaultShown.setFld h ha))

theorem OvrShown.bufferResult (h : OvrShown k s) {code : Int} {flags ht : Nat} :
    OvrShown k (s.bufferResult ch code flags ht) := by
  unfold State.bufferResult
  extract_lets result channel drained stored
  have hdrained : OvrShown k drained :=
    drain_ind closed_ovrShown (skip_ind closed_ovrShown h)
  have hstored : OvrShown k stored := ite_ind ((hdrained.afeFault (by decide)).setFld (by decide)) h
  exact presentAt_ind closed_ovrShown
    (modAch_ind closed_ovrShown hstored)

theorem OvrShown.intervalEnd (h : OvrShown k s) : OvrShown k (s.intervalEnd ch) :=
  intervalEnd_ind closed_ovrShown h

theorem OvrShown.touchResult (h : OvrShown k s) {dev : Option Int} : OvrShown k (s.touchResult ch dev) := by
  have apart {g : Fld} (hg : 0x1758 ≠ g.addr) : ApartFrom g F.AFE_FAULT_OVR := ⟨by decide, .inl hg⟩
  have result : 0x1758 ≠ 0x1768 + 4 * ch := by omega
  unfold State.touchResult
  extract_lets ok word shown told
  have hshown : OvrShown k shown :=
    ((FaultShown.setFld h (apart result)).setFld (apart result)).setFld (apart result)
  have htold : OvrShown k told := ite_ind hshown (FaultShown.afeRecord rfl (hshown.afeFault (by decide)))
  exact FaultShown.raise rfl htold

theorem OvrShown.touchStep (h : OvrShown k s) : OvrShown k (s.touchStep ch raw ovr) := by
  unfold State.touchStep
  extract_lets channel code counted half
  have hcounted : OvrShown k counted := modAch_ind closed_ovrShown h.bufferResult
  exact ite_ind hcounted.touchResult.intervalEnd hcounted

theorem OvrShown.loopUpdate (h : OvrShown k s) {r : Int} : OvrShown k (s.loopUpdate n r) := by
  refine putLoop_ind (closed_ovrShown ?_ rfl) h
  simp [avoids, Part.covers, A.AFE_FAULT]
  omega

theorem OvrShown.calStep (h : OvrShown k s) : OvrShown k (s.calStep ch raw) := by
  unfold State.calStep
  extract_lets channel counted loop shift out updated err gain sum corrected ended
  have hcounted : OvrShown k counted := modAch_ind closed_ovrShown h.bufferResult
  have hcorrected : OvrShown k corrected :=
    hcounted.loopUpdate.setFld ⟨by decide, .inl (show 0x1758 ≠ 0x1774 + 4 * ch by omega)⟩
  have hended : OvrShown k ended := ite_ind (ite_ind (hcorrected.afeFault (by decide)) hcorrected) hcounted
  exact ite_ind (OvrShown.intervalEnd (FaultShown.raise rfl hended)) hcounted

theorem OvrShown.chopReverse (h : OvrShown k s) : OvrShown k s.chopReverse :=
  chopReverse_ind closed_ovrShown h

theorem OvrShown.chopStep (h : OvrShown k s) : OvrShown k (s.chopStep ch raw ovr) := by
  unfold State.chopStep
  extract_lets channel count counted kept
  have hcounted : OvrShown k counted := modAch_ind closed_ovrShown h
  have hkept : OvrShown k kept := by
    refine ite_ind (modAch_ind closed_ovrShown hcounted) ?_
    split
    · exact hcounted
    · exact OvrShown.bufferResult (modAch_ind closed_ovrShown hcounted)
  exact ite_ind hcounted.chopReverse hkept.chopReverse

theorem OvrShown.plainStep (h : OvrShown k s) : OvrShown k (s.plainStep ch raw ovr) :=
  ite_ind (modAch_ind closed_ovrShown h)
    (OvrShown.bufferResult (modAch_ind closed_ovrShown h))

/-! ## AFE_CONVERSION (R221, R222) -/

/-- The result of a conversion goes where the channel's mode tells (R221, R228, R230, R231). -/
def State.conversionTaken (s : State) (ch : Nat) (raw : Int) (ovr : Bool) : State :=
  let told := if ovr then s.afeFault F.AFE_FAULT_OVR ch else s
  let code := rangeCode ovr raw (s.corrected ch raw)
  if (s.ach ch).touch ≠ 0 then told.touchStep ch raw ovr
  else if (s.ach ch).cal ≠ 0 then told.calStep ch raw
  else if s.afe.mode == 2 && s.afe.excOn then told.chopStep ch code ovr
  else if s.afe.mode == 2 then told.plainStep ch (s.ach ch).lastGood false
  else told.plainStep ch code ovr

/-- What waits for the boundary of a conversion takes effect; the `last` one of a disabled page stops its channel (R222, R233). -/
def State.conversionEnded (s : State) (ch : Nat) (last : Bool) : State :=
  let restarted := if (s.ach ch).restartWait then s.filterRestart ch else s
  let changed := if (restarted.afe.mclkWait || restarted.afe.modeWait) && (ch == 0 || !(restarted.converts 0)) then
    restarted.afeBoundary else restarted
  let noted := changed.modAfe fun a => { a with excLow := a.excLow && changed.excStarved }
  if last then ((noted.modAch ch fun c => { c with final := false }).afeFloor).afeShow else noted.afeShow

theorem exec_afeConversion : exec (.afeConversion ch raw ovr) s = .next (s.when
    (decide (ch < 2) && s.running && s.converts ch && !s.afe.settling)
    fun s => (s.conversionTaken ch raw ovr).conversionEnded ch (s.ach ch).final) := rfl

theorem ovrShown_conversionTaken (hs : s.mapsWf = true) (hc : ch < 2) : OvrShown ch (s.conversionTaken ch raw true) := by
  unfold State.conversionTaken
  extract_lets told code
  have htold : OvrShown ch told := faultShown_afeFault rfl (by decide) hc hs
  exact ite_ind htold.touchStep (ite_ind htold.calStep (ite_ind htold.chopStep (ite_ind htold.plainStep htold.plainStep)))

theorem OvrShown.conversionEnded (h : OvrShown k s) : OvrShown k (s.conversionEnded ch last) := by
  unfold State.conversionEnded
  extract_lets restarted changed noted
  have hrestarted : OvrShown k restarted := ite_ind (filterRestart_ind closed_ovrShown h) h
  have hchanged : OvrShown k changed :=
    ite_ind (afeBoundary_ind closed_ovrShown hrestarted) hrestarted
  have hnoted : OvrShown k noted := modAfe_ind closed_ovrShown hchanged
  have hstopped : OvrShown k ((noted.modAch ch fun c => { c with final := false }).afeFloor) :=
    afeFloor_ind closed_ovrShown (modAch_ind closed_ovrShown hnoted)
  exact ite_ind (FaultShown.afeShow rfl (by decide) hstopped) (FaultShown.afeShow rfl (by decide) hnoted)

theorem conversionTaken_of_discard (ht : (s.ach ch).touch = 0) (hc : (s.ach ch).cal = 0) (hm : s.afe.mode ≠ 2)
    (hd : (s.ach ch).discard ≠ 0) :
    s.conversionTaken ch raw false = s.modAch ch fun c => { c with discard := c.discard - 1 } := by
  simp [State.conversionTaken, State.plainStep, ht, hc, hm, hd]

/-- Where nothing waits for the boundary, the end of a conversion only shows what stands and stops the last one's channel. -/
theorem AchHas.conversionEnded (h : AchHas ch Q s) (hr : (s.ach ch).restartWait = false) (hk : s.afe.mclkWait = false)
    (hm : s.afe.modeWait = false) (hQ : ∀ c, Q c → Q { c with final := false }) : AchHas ch Q (s.conversionEnded ch last) := by
  unfold State.conversionEnded
  extract_lets restarted changed noted
  have still : restarted = s := if_neg (by simp [hr])
  have unchanged : changed = s := (if_neg (by simp [still, hk, hm])).trans still
  have hnoted : AchHas ch Q noted := modAfe_ind closed_achHas (unchanged ▸ h)
  exact ite_ind (AchHas.afeShow (afeFloor_ind closed_achHas (hnoted.modAch hQ))) hnoted.afeShow

section
variable (hs : s.mapsWf = true) (hc : ch < 2) (hr : s.running = true) (hv : s.converts ch = true) (he : s.afe.settling = false)
include hs hc hr hv he

theorem completes_afeConversion_ovr :
    completes (.afeConversion ch raw true) s fun t => t.bit F.AFE_FAULT_OVR ch = true :=
  completes_when exec_afeConversion (by simp [hc, hr, hv, he]) fun _ => (ovrShown_conversionTaken hs hc).conversionEnded.2

theorem completes_afeConversion_discard (ht : (s.ach ch).touch = 0) (hl : (s.ach ch).cal = 0) (hm : s.afe.mode ≠ 2)
    (hk : s.afe.mclkWait = false) (hw : s.afe.modeWait = false) (hf : (s.ach ch).restartWait = false)
    (hd : (s.ach ch).discard ≠ 0) : completes (.afeConversion ch raw false) s fun t =>
      (t.ach ch).discard = (s.ach ch).discard - 1 ∧ (t.ach ch).buf = (s.ach ch).buf := by
  refine completes_when exec_afeConversion (by simp [hc, hr, hv, he]) fun _ => ?_
  rw [conversionTaken_of_discard ht hl hm hd]
  have counted : AchHas ch (fun c => c.discard = (s.ach ch).discard - 1 ∧ c.buf = (s.ach ch).buf)
      (s.modAch ch fun c => { c with discard := c.discard - 1 }) := (AchHas.self hs).modAch fun c e => e ▸ ⟨rfl, rfl⟩
  exact (counted.conversionEnded ((congrArg AfeCh.restartWait (ach_modAch hs)).trans hf) hk hw fun _ => id).2

end

/-! ## AFE_DRAIN (R225) -/

section
variable {q : Producer} {r : Request} {es : List Entry}

/-- The request `r` leaves the dispatch queue, with `es` behind it, for the charge of one cycle; it drains nothing (R225). -/
def State.drainCharged (s : State) (r : Request) (es : List Entry) : State :=
  (s.setQueue (qDisp 7) es).chargeAdd 7 r.tenant s.ht (s.cyclesHt 1)

theorem fld_drainCharged : (s.drainCharged r es).fld g = s.fld g :=
  chargeAdd_ind (P := fun t => t.fld g = s.fld g) (closed_fld (by simp [avoids, Part.covers])) rfl

section
variable (hs : s.mapsWf = true)
include hs

theorem queue_drainCharged : (s.drainCharged r es).queue (qDisp 7) = es :=
  chargeAdd_ind (P := fun t : State => t.queue (qDisp 7) = es) (closed_queue (by decide)) (queue_setQueue hs)

theorem regsWf_drainCharged : (s.drainCharged r es).regsWf = true :=
  chargeAdd_ind (P := fun t : State => t.regsWf = true) (closed_regsWf.mono (by decide)) (mapsWf_regs (mapsWf_setQueue hs))

end

section
variable (hr : s.running = true) (hp : s.pageOn 0x17 = true) (ho : s.railOff 7 = false)
  (hq : s.queue (qDisp 7) = ⟨q, k, .request r⟩ :: es) (hb : (s.ach (dSel r.words)).buf = [])
include hr hp ho hq hb

theorem exec_afeDrain_of_empty :
    exec .afeDrain s = .next (((s.drainCharged r es).addSat F.AFE_CNT_EMPTY 1).complete r.idx true) := by
  refine congrArg Host.Outcome.next ((if_pos (by simp [hr, hp, ho])).trans ?_)
  simp only [popQueue_of_queue hq, hb, List.length_nil, Nat.min_zero, if_true]
  rfl

theorem completes_afeDrain_of_empty (hs : s.mapsWf = true) : completes .afeDrain s fun t =>
    t.fld F.AFE_CNT_EMPTY = min (s.fld F.AFE_CNT_EMPTY + 1) (2 ^ F.AFE_CNT_EMPTY.w - 1) ∧ t.queue (qDisp 7) = es := by
  obtain ⟨_, counted⟩ := reads_addSat (n := 1) (f := F.AFE_CNT_EMPTY) (regsWf_drainCharged (r := r) (es := es) hs) (by decide)
  rw [fld_drainCharged] at counted
  exact ⟨_, exec_afeDrain_of_empty hr hp ho hq hb, counted, queue_drainCharged hs⟩

end

end

/-! ## The excitation (R227, R229) -/

/-- The SET pause is over (R227). -/
def State.settled (s : State) : State := s.modAfe fun a => { a with settling := false }

/-- The filter of a channel restarts with the excitation (R227). -/
def AfeCh.restarted (c : AfeCh) : AfeCh := { c with discard := 2, first := true, phaseConv := 0 }

theorem exec_excSettleEnd : exec .excSettleEnd s = .next (s.when (s.running && s.afe.settling) fun s =>
    ((s.settled.modAch 0 AfeCh.restarted).modAch 1 AfeCh.restarted).afeShow) := rfl

theorem completes_excSettleEnd (hs : s.mapsWf = true) (hr : s.running = true) (he : s.afe.settling = true) :
    completes .excSettleEnd s fun t => t.afe.settling = false ∧ (t.ach 0).discard = 2 ∧ (t.ach 1).discard = 2 := by
  have restarts {t : State} {c : Nat} (h : t.mapsWf = true) : AchHas c (·.discard = 2) (t.modAch c AfeCh.restarted) :=
    (AchHas.self h).modAch fun _ _ => rfl
  have zero : AchHas 0 (·.discard = 2) (s.settled.modAch 0 AfeCh.restarted) := restarts hs
  exact completes_when exec_excSettleEnd (by simp [hr, he]) fun _ =>
    ⟨congrArg Afe.settling afe_afeShow, (zero.modAch_ne (by decide)).afeShow.2, (restarts zero.1).afeShow.2⟩

/-- The excitation is off and kept off, and a CHOP pair under way is abandoned (R229). -/
def State.excTripped (s : State) : State :=
  forEach [0, 1] (fun ch s => s.modAch ch fun c => { c with plus := none, phaseConv := 0 })
    (s.modAfe fun a => { a with excOn := false, excBlocked := true, settling := false, negPhase := false })

theorem exec_excOvercurrent : exec .excOvercurrent s = .next (s.when (s.running && s.afe.excOn) fun s =>
    ((s.excTripped.afeFault F.AFE_FAULT_EXC_OC 0).afeRecord 9 0).afeShow) := rfl

section
variable (hs : s.mapsWf = true) (hr : s.running = true) (ho : s.afe.excOn = true)
include hs hr ho

theorem completes_excOvercurrent : completes .excOvercurrent s fun t =>
    t.afe.excOn = false ∧ t.afe.excBlocked = true ∧ t.bit F.AFE_FAULT_EXC_OC 0 = true := by
  have tripped : s.excTripped.mapsWf = true := mapsWf_modAch (mapsWf_modAch hs)
  have latched : FaultShown F.AFE_FAULT_EXC_OC 0 (s.excTripped.afeFault F.AFE_FAULT_EXC_OC 0) :=
    faultShown_afeFault rfl (by decide) (by decide) tripped
  have off : (((s.excTripped.afeFault F.AFE_FAULT_EXC_OC 0).afeRecord 9 0).afeShow).afe = s.excTripped.afe := by simp
  exact completes_when exec_excOvercurrent (by simp [hr, ho]) fun _ =>
    ⟨congrArg Afe.excOn off, congrArg Afe.excBlocked off, ((latched.afeRecord rfl).afeShow rfl (by decide)).2⟩

theorem completes_excOpen : completes .excOpen s fun t =>
    t.bit F.AFE_FAULT_EXC_OPEN 0 = true ∧ t.afe = { s.afe with excLow := true } := by
  have latched : FaultShown F.AFE_FAULT_EXC_OPEN 0
      ((s.modAfe fun a => { a with excLow := true }).afeFault F.AFE_FAULT_EXC_OPEN 0) :=
    faultShown_afeFault rfl (by decide) (by decide) hs
  exact completes_when rfl (by simp [hr, ho]) fun _ => ⟨(latched.afeRecord rfl).2, afe_afeRecord.trans afe_afeFault⟩

end

/-! ## The Touchstone check and the calibration (R230, R231) -/

section
variable (he : s.afe.excOn = true) (ht : (s.ach ch).touch = 0)
include he ht

theorem touchStart_of_idle (hc : (s.ach ch).cal = 0) : s.touchStart ch =
    (s.modAch ch fun c => { c with touch := 6, plus := none, phaseConv := 0 }).afeShow := by
  simp [State.touchStart, he, ht, hc]

theorem touchStart_of_due_together (hc : (s.ach ch).cal = 6) (ha : (s.ach ch).calAt = s.ht) :
    s.touchStart ch = s.modAch ch fun c => { c with touch := 6, cal := 0, calWait := true } := by
  simp [State.touchStart, he, ht, hc, ha]

theorem touchStart_of_calibrating (hc : (s.ach ch).cal ≠ 0) (ha : ¬((s.ach ch).cal = 6 ∧ (s.ach ch).calAt = s.ht)) :
    s.touchStart ch = s.modAch ch fun c => { c with touchWait := true } := by
  simp [State.touchStart, he, ht, hc, ha]

theorem completes_touchstoneStart (hs : s.mapsWf = true) (hn : ch < 2) (hr : s.running = true) (hv : s.converts ch = true)
    (hp : s.on F.AFE_TS_PER = true) : completes (.touchstoneStart ch) s fun t =>
      ((s.ach ch).cal = 0 → (t.ach ch).touch = 6) ∧
      ((s.ach ch).cal = 6 → (s.ach ch).calAt = s.ht →
        (t.ach ch).touch = 6 ∧ (t.ach ch).cal = 0 ∧ (t.ach ch).calWait = true) ∧
      ((s.ach ch).cal ≠ 0 → ¬((s.ach ch).cal = 6 ∧ (s.ach ch).calAt = s.ht) → (t.ach ch).touchWait = true) := by
  refine completes_when rfl (by simp [hn, hr, hv, hp]) fun _ => ⟨fun hc => ?idle, fun hc ha => ?together, fun hc ha => ?waits⟩
  case idle =>
    rw [touchStart_of_idle he ht hc]
    exact ((AchHas.self hs).modAch (R := (·.touch = 6)) fun _ _ => rfl).afeShow.2
  case together =>
    rw [touchStart_of_due_together he ht hc ha, ach_modAch hs]
    exact ⟨rfl, rfl, rfl⟩
  case waits => rw [touchStart_of_calibrating he ht hc ha, ach_modAch hs]

end

/-- A calibration of the channel falls due (R231). -/
def State.calDue (s : State) (ch : Nat) : State :=
  if (s.ach ch).cal ≠ 0 then s
  else if (s.ach ch).touch ≠ 0 ∨ (s.ach ch).touchWait then s.modAch ch fun c => { c with calWait := true }
  else (s.modAch ch fun c => { c with cal := 6, calAt := s.ht, plus := none, phaseConv := 0 }).afeShow

theorem exec_afeCalStart : exec (.afeCalStart ch) s = .next (s.when
    (decide (ch < 2) && s.running && s.converts ch && s.on F.AFE_CALPER_SEC && s.loopLive (loopCAL ch)) (·.calDue ch)) := rfl

theorem calDue_of_idle (hc : (s.ach ch).cal = 0) (ht : (s.ach ch).touch = 0) (hw : (s.ach ch).touchWait = false) :
    s.calDue ch = (s.modAch ch fun c => { c with cal := 6, calAt := s.ht, plus := none, phaseConv := 0 }).afeShow := by
  simp [State.calDue, hc, ht, hw]

theorem calDue_of_check (hc : (s.ach ch).cal = 0) (ht : (s.ach ch).touch ≠ 0) :
    s.calDue ch = s.modAch ch fun c => { c with calWait := true } := by
  simp [State.calDue, hc, ht]

theorem completes_afeCalStart (hs : s.mapsWf = true) (hn : ch < 2) (hr : s.running = true) (hv : s.converts ch = true)
    (hp : s.on F.AFE_CALPER_SEC = true) (hl : s.loopLive (loopCAL ch) = true) (hc : (s.ach ch).cal = 0) :
    completes (.afeCalStart ch) s fun t =>
      ((s.ach ch).touch = 0 ∧ (s.ach ch).touchWait = false → (t.ach ch).cal = 6) ∧
      ((s.ach ch).touch ≠ 0 → (t.ach ch).calWait = true) := by
  refine completes_when exec_afeCalStart (by simp [hn, hr, hv, hp, hl]) fun _ => ⟨fun ⟨ht, hw⟩ => ?idle, fun ht => ?waits⟩
  case idle =>
    rw [calDue_of_idle hc ht hw]
    exact ((AchHas.self hs).modAch (R := (·.cal = 6)) fun _ _ => rfl).afeShow.2
  case waits => rw [calDue_of_check hc ht, ach_modAch hs]

end

/-- Settles O41: a conversion's OVR stands through every way its result can take; each other event is one update of a channel or
of the front end, which the show of AFE_STAT leaves alone. The noted low current (log entry 53), and that a check waits for a
calibration that runs and a calibration for a check (log entry 54; R231 orders only those due together), are the model's choices. -/
theorem analogFrontEndRuns : Obligations.AnalogFrontEndRuns := by
  unfold Obligations.AnalogFrontEndRuns
  exact ⟨fun s ch raw hs hc hr hv he => completes_afeConversion_ovr hs hc hr hv he,
    fun s ch raw hc hr hv he ht hl hm hk hw hf hd hs => completes_afeConversion_discard hs hc hr hv he ht hl hm hk hw hf hd,
    fun s q n r es hs hr hp ho hq hb => completes_afeDrain_of_empty hr hp ho hq hb hs,
    fun s hs hr he => completes_excSettleEnd hs hr he,
    fun s hs hr ho => completes_excOvercurrent hs hr ho,
    fun s hs hr ho => completes_excOpen hs hr ho,
    fun s ch hs hn hr hv hp he ht => completes_touchstoneStart he ht hs hn hr hv hp,
    fun s ch hs hn hr hv hp hl hc => completes_afeCalStart hs hn hr hv hp hl hc⟩

end Sys2Proof.Machine

/-! The Poll Sequencer's triggers and skips (R239-R244, R247, R248, R252, R255): what a skip and a trigger leave in a descriptor,
the requests and targets that are withdrawn or skipped, and the end of a share window. -/

namespace Sys2Proof.Machine

section
variable {s t : State} {d j k n q p h cause : Nat} {o : Option Nat} {e : Option (Nat × Nat)} {x : Desc} {r : Request}
  {ds : List Nat} {hit : Nat → Desc → Bool} {Q R : Desc → Prop}

/-! ## A descriptor -/

/-- The maps are well-formed, and `Q` holds of descriptor `d`. -/
def DescHas (d : Nat) (Q : Desc → Prop) (s : State) : Prop := s.mapsWf = true ∧ Q (s.desc d)

theorem desc_modDesc_ne {u : Desc → Desc} (hj : j ≠ d) : (s.modDesc d u).desc j = s.desc j := mapGet_mapSet_ne hj

theorem mapsWf_modDesc {u : Desc → Desc} (hs : s.mapsWf = true) : (s.modDesc d u).mapsWf = true :=
  modDesc_ind (P := fun t : State => t.mapsWf = true) (closed_mapsWf.mono (by decide)) hs

theorem desc_congr (he : t.descs = s.descs) : t.desc d = s.desc d := congrArg (fun m => mapGet (fun _ => desc0) m d) he

theorem closed_descs {l : List Part} {m : Map Desc} (ha : avoids l .descs = true) : Closed l fun t => t.descs = m :=
  closed_of ha fun _ _ (he : _ = _) hm => he.trans hm

theorem DescHas.modDesc {u : Desc → Desc} (hd : DescHas d Q s) (hu : ∀ x, Q x → R (u x)) : DescHas d R (s.modDesc d u) :=
  ⟨mapsWf_modDesc hd.1, by rw [desc_modDesc hd.1]; exact hu _ hd.2⟩

/-- A key that the map does not list reads as the default. -/
theorem mapGet_of_unlisted {α : Type} {f : Nat → α} {m : Map α} (hj : j ∉ m.map fun x => x.1) : mapGet f m j = f j := by
  induction m with
  | nil => rfl
  | cons x m ih =>
    rw [List.map_cons, List.mem_cons, not_or] at hj
    exact (if_neg hj.1).trans (ih hj.2)

theorem desc_of_not_live (hd : d ∉ s.liveDescs) : s.desc d = desc0 := mapGet_of_unlisted hd

/-! ## What a skip leaves (R247, R252) -/

/-- The descriptor with `n` more skips, of this cause and detail. -/
def Desc.skipped (x : Desc) (n cause : Nat) (o : Option Nat) : Desc :=
  { x with skips := min (x.skips + n) (2 ^ 32 - 1), lastCause := cause, lastDetail := o.getD 0 }

/-- Skips are told in the pending record of a dispatch queue, by their count and by the interrupt of page 0x18. -/
def State.skipsTold (s : State) (k n : Nat) (l : List PendRec) : State :=
  ((s.setPend k .psq l).addSat F.PSQ_SKIP_COUNT n).raise 0x18 8

theorem descs_skipsTold {l : List PendRec} : (s.skipsTold k n l).descs = s.descs :=
  raise_ind (P := fun t => t.descs = s.descs) (closed_descs (by decide)) rfl

theorem bit_skipsTold {l : List PendRec} (hs : s.mapsWf = true) : (s.skipsTold k n l).bit (F.PIRQ 0x18) 8 = true :=
  bit_raise (regsWf_setFld (mapsWf_regs (mapsWf_setPend hs))) (by decide)

theorem descs_psqSkip : (s.psqSkip p d cause o).descs = (s.modDesc d (·.skipped 1 cause o)).descs := descs_skipsTold

theorem descs_psqReset (hn : n ≠ 0) : (s.psqReset d n).descs = (s.modDesc d (·.skipped n gcRESET none)).descs := by
  rw [State.psqReset, if_neg hn]
  exact descs_skipsTold

/-- Skips that are counted together each move the stream sequence on (R240, R244). -/
theorem descs_psqSkips (hn : n ≠ 0) : (s.psqSkips d cause o n).descs =
    (s.modDesc d fun x => { x.skipped n cause o with seq := (x.seq + n) % 2 ^ 32 }).descs := by
  rw [State.psqSkips, if_neg hn]
  exact descs_skipsTold

theorem mapsWf_psqSkip (hs : s.mapsWf = true) : (s.psqSkip p d cause o).mapsWf = true :=
  psqSkip_ind (P := fun t : State => t.mapsWf = true) (closed_mapsWf.mono (by decide)) hs

theorem DescHas.psqSkip (hd : DescHas d Q s) (hu : ∀ x, Q x → R (x.skipped 1 cause o)) :
    DescHas d R (s.psqSkip p d cause o) :=
  ⟨mapsWf_psqSkip hd.1, by rw [desc_congr descs_psqSkip]; exact (hd.modDesc hu).2⟩

theorem DescHas.psqReset (hd : DescHas d Q s) (hn : n ≠ 0) (hu : ∀ x, Q x → R (x.skipped n gcRESET none)) :
    DescHas d R (s.psqReset d n) :=
  ⟨psqReset_ind (P := fun t : State => t.mapsWf = true) (closed_mapsWf.mono (by decide)) hd.1,
    by rw [desc_congr (descs_psqReset hn)]; exact (hd.modDesc hu).2⟩

theorem bit_psqSkip (hs : s.mapsWf = true) : (s.psqSkip p d cause o).bit (F.PIRQ 0x18) 8 = true :=
  bit_skipsTold (mapsWf_modDesc hs)

theorem bit_psqSkips (hs : s.mapsWf = true) (hn : n ≠ 0) : (s.psqSkips d cause o n).bit (F.PIRQ 0x18) 8 = true := by
  rw [State.psqSkips, if_neg hn]
  exact bit_skipsTold (mapsWf_modDesc hs)

/-- Skips counted together move the stream sequence on by their number, none not at all. -/
theorem seq_psqSkips (hd : DescHas d (·.seq = q % 2 ^ 32) s) : ((s.psqSkips d cause o n).desc d).seq = (q + n) % 2 ^ 32 := by
  by_cases hn : n = 0
  · rw [State.psqSkips, if_pos hn, hn]
    exact hd.2
  · rw [desc_congr (descs_psqSkips hn), desc_modDesc hd.1]
    exact (congrArg (fun m => (m + n) % 2 ^ 32) hd.2).trans (Nat.mod_add_mod q _ n)

/-! ## A trigger (R243, R244, R247) -/

/-- The descriptor's next target is `n`, and its stream sequence `q`. -/
def Desc.At (n q : Nat) (x : Desc) : Prop := x.next = n ∧ x.seq = q

/-- Whatever becomes of its request, a trigger moves the stream sequence on by 1 and leaves the next target. -/
theorem at_trigger (hs : s.mapsWf = true) :
    DescHas d (Desc.At (s.desc d).next (((s.desc d).seq + 1) % 2 ^ 32)) (s.trigger d e) := by
  unfold State.trigger
  extract_lets x seq moved req
  have hmoved : DescHas d (Desc.At x.next seq) moved := DescHas.modDesc (Q := (· = x)) ⟨hs, rfl⟩ fun _ hx => hx ▸ ⟨rfl, rfl⟩
  refine ite_ind (hmoved.psqReset Nat.one_ne_zero fun _ => id) ?_
  split
  · exact hmoved.psqSkip fun _ => id
  split
  · exact hmoved.modDesc fun _ => id
  · exact ite_ind (DescHas.psqSkip (Q := Desc.At x.next seq) (hmoved.modDesc fun _ => id) fun _ => id) (hmoved.psqSkip fun _ => id)

/-- Where nothing refuses or meets it, the request of a trigger is left pending. -/
theorem pend_trigger (hs : s.mapsWf = true) (hr : s.resetting (dOwner (s.desc d).words) = false)
    (hp : s.portRefuses (dPort (s.desc d).words) = none) (hn : (s.desc d).pend = none) : ((s.trigger d e).desc d).pend =
      some ⟨d, (s.desc d).words, dOwner (s.desc d).words, ((s.desc d).seq + 1) % 2 ^ 32, s.ht, e⟩ := by
  simp only [State.trigger, hr, hp, hn, Bool.false_eq_true, if_false]
  rw [desc_modDesc (mapsWf_modDesc hs)]

/-! ## TIME_TRIGGER, CHAIN_TRIGGER and ANGLE_TRIGGER (R239, R240, R242) -/

/-- The next target of a TIME descriptor moves on by PERIOD. -/
def State.periodOn (s : State) (d : Nat) : State := s.modDesc d fun y => { y with next := y.next + dPeriod y.words * 256 }

theorem desc_periodOn (hs : s.mapsWf = true) :
    (s.periodOn d).desc d = { s.desc d with next := (s.desc d).next + dPeriod (s.desc d).words * 256 } := desc_modDesc hs

theorem completes_timeTrigger (hs : s.mapsWf = true) (hr : s.running = true) (ha : (s.desc d).armed = true)
    (he : dEn (s.desc d).words = true) (ht : dTrig (s.desc d).words = 0) (hd : (s.desc d).next + htUs (s.desc d).ofs ≤ s.ht) :
    completes (.timeTrigger d) s fun t => (t.desc d).next = (s.desc d).next + dPeriod (s.desc d).words * 256 ∧
      (t.desc d).seq = ((s.desc d).seq + 1) % 2 ^ 32 ∧ (s.resetting (dOwner (s.desc d).words) = false →
        s.portRefuses (dPort (s.desc d).words) = none → (s.desc d).pend = none →
        (t.desc d).pend.map (fun r => (r.idx, r.seq, r.trig)) = some (d, ((s.desc d).seq + 1) % 2 ^ 32, s.ht)) := by
  have onward : (s.periodOn d).mapsWf = true := mapsWf_modDesc hs
  obtain ⟨_, next, seq⟩ := at_trigger (d := d) (e := none) onward
  have pends := pend_trigger (d := d) (e := none) onward
  rw [desc_periodOn hs] at next seq pends
  exact completes_when rfl (by simp [hr, ha, he, ht, hd]) fun _ => ⟨next, seq, fun hreset hport hpend =>
    congrArg (Option.map fun r : Request => (r.idx, r.seq, r.trig)) (pends hreset hport hpend)⟩

theorem chainDue_trigger : (s.trigger d e).chainDue = s.chainDue :=
  trigger_ind (P := fun t => t.chainDue = s.chainDue)
    (closed_of (p := .chainDue) (by decide) fun _ _ (hk : _ = _) hc => hk.trans hc) rfl

theorem completes_chainTrigger (hs : s.mapsWf = true) (hr : s.running = true) (hc : s.chainDue.contains d = true)
    (he : dEn (s.desc d).words = true) (ht : dTrig (s.desc d).words = 3) : completes (.chainTrigger d) s fun t =>
      t.chainDue = s.chainDue.erase d ∧ (t.desc d).seq = ((s.desc d).seq + 1) % 2 ^ 32 := by
  have taken : ({ s with chainDue := s.chainDue.erase d } : State).mapsWf = true := hs
  exact completes_when rfl (by simp [hr, he, ht, List.contains_iff_mem.mp hc]) fun _ =>
    ⟨chainDue_trigger, (at_trigger (d := d) taken).2.2⟩

/-- The next target of the descriptor is `n`. -/
def State.targetAt (s : State) (d n : Nat) : State := s.modDesc d fun y => { y with next := n }

theorem mapsWf_targetAt (hs : s.mapsWf = true) : (s.targetAt d n).mapsWf = true := mapsWf_modDesc hs

theorem desc_targetAt (hs : s.mapsWf = true) : (s.targetAt d n).desc d = { s.desc d with next := n } := desc_modDesc hs

theorem seq_trigger_targetAt (hs : s.mapsWf = true) :
    DescHas d (·.seq = ((s.desc d).seq + 1) % 2 ^ 32) ((s.targetAt d n).trigger d e) := by
  obtain ⟨wf, _, seq⟩ := at_trigger (d := d) (e := e) (mapsWf_targetAt (d := d) (n := n) hs)
  rw [desc_targetAt hs] at seq
  exact ⟨wf, seq⟩

theorem anglePast_of_locked (hl : s.locked = true) : s.anglePast n =
    if s.on F.SXT_STAT_NEG then -(BitVec.ofNat 64 s.outAngle - BitVec.ofNat 64 n).toInt
    else (BitVec.ofNat 64 s.outAngle - BitVec.ofNat 64 n).toInt := by
  have lock : s.on F.SXT_STAT_LOCK = true := hl
  simp only [State.anglePast, State.angleNow, State.angleBack, lock, if_true]

theorem completes_angleTrigger (hs : s.mapsWf = true) (hr : s.running = true) (ha : (s.desc d).armed = true)
    (he : dEn (s.desc d).words = true) (ht : dTrig (s.desc d).words = 1) (hl : s.locked = true)
    (hg : 0 ≤ s.anglePast (s.desc d).next) : completes (.angleTrigger d) s fun t => (t.desc d).seq =
      ((s.desc d).seq + 1 + (s.anglePast (s.desc d).next).toNat / dStep (s.desc d).words) % 2 ^ 32 :=
  completes_when rfl (by simp [hr, ha, he, ht, hl, hg]) fun _ => seq_psqSkips (seq_trigger_targetAt hs)

/-! ## Requests that are withdrawn (R243, R255) -/

theorem withdraw_of_pend (hp : (s.desc d).pend = some r) : s.withdraw d cause o =
    (s.modDesc d fun x => { x with pend := none }).psqSkip (dPort r.words) d cause o := by rw [State.withdraw, hp]

/-- A withdrawn request is gone and counted. -/
theorem descHas_withdraw (hs : s.mapsWf = true) (hp : (s.desc d).pend = some r) :
    DescHas d (fun x => x.pend = none ∧ x.skips = min ((s.desc d).skips + 1) (2 ^ 32 - 1)) (s.withdraw d cause o) := by
  rw [withdraw_of_pend hp]
  have gone : DescHas d (fun x => x.pend = none ∧ x.skips = (s.desc d).skips) (s.modDesc d fun x => { x with pend := none }) :=
    DescHas.modDesc (Q := (· = s.desc d)) ⟨hs, rfl⟩ fun _ hx => hx ▸ ⟨rfl, rfl⟩
  exact gone.psqSkip fun _ ⟨hpend, hskips⟩ => ⟨hpend, hskips ▸ rfl⟩

theorem desc_withdraw_ne (hj : j ≠ d) : (s.withdraw d cause o).desc j = s.desc j := by
  unfold State.withdraw
  split
  · rfl
  · rw [desc_congr descs_psqSkip, desc_modDesc_ne hj, desc_modDesc_ne hj]

theorem completes_jitDeadline (hs : s.mapsWf = true) (hr : s.running = true) (hp : (s.desc d).pend = some r)
    (hd : deadline r = some h) (hh : h ≤ s.ht) (hn : s.portReady (dPort r.words) = false) :
    completes (.jitDeadline d) s fun t => (t.desc d).pend = none ∧
      (t.desc d).skips = min ((s.desc d).skips + 1) (2 ^ 32 - 1) ∧ t.bit (F.PIRQ 0x18) 8 = true := by
  have withdrawn : exec (.jitDeadline d) s = .next (s.withdraw d gcSEQ (some 1)) := by
    refine congrArg Host.Outcome.next ((if_pos hr).trans ?_)
    simp [hp, hd, hh, hn]
  obtain ⟨_, gone, counted⟩ := descHas_withdraw (cause := gcSEQ) (o := some 1) hs hp
  refine ⟨_, withdrawn, gone, counted, ?_⟩
  rw [withdraw_of_pend hp]
  exact bit_psqSkip (mapsWf_modDesc hs)

/-- The maps are well-formed, and outside the list no descriptor has a request that `hit` names. -/
def ClearBeside (hit : Nat → Desc → Bool) (ds : List Nat) (s : State) : Prop :=
  s.mapsWf = true ∧ ∀ d, d ∉ ds → hit d (s.desc d) = false

section
variable (hnone : ∀ d x, x.pend = none → hit d x = false)
include hnone

theorem pend_of_hit (hd : hit d x = true) : ∃ r, x.pend = some r :=
  Option.ne_none_iff_exists'.mp fun hn => Bool.false_ne_true ((hnone d x hn).symm.trans hd)

/-- A withdrawal where `hit` names the request takes its descriptor off the list of those to look at. -/
theorem ClearBeside.withdraw (hc : ClearBeside hit (d :: ds) s) :
    ClearBeside hit ds (if hit d (s.desc d) then s.withdraw d cause o else s) := by
  obtain ⟨hs, clear⟩ := hc
  refine ite_with (fun named => ?_) fun unnamed => ⟨hs, fun j hj => ?_⟩
  · obtain ⟨r, hr⟩ := pend_of_hit hnone named
    obtain ⟨wf, gone, _⟩ := descHas_withdraw (cause := cause) (o := o) hs hr
    refine ⟨wf, fun j hj => ?_⟩
    by_cases e : j = d
    · exact hnone _ _ (e ▸ gone)
    · rw [desc_withdraw_ne e]
      exact clear j (List.not_mem_cons_of_ne_of_not_mem e hj)
  · by_cases e : j = d
    · exact e ▸ Bool.eq_false_of_not_eq_true unnamed
    · exact clear j (List.not_mem_cons_of_ne_of_not_mem e hj)

/-- After `withdrawAll`, no descriptor has a request that `hit` names. -/
theorem hit_withdrawAll (hs : s.mapsWf = true) : hit d ((s.withdrawAll hit cause o).desc d) = false := by
  have each (l : List Nat) {t : State} (hc : ClearBeside hit l t) :
      ClearBeside hit [] (forEach l (fun d t => if hit d (t.desc d) then t.withdraw d cause o else t) t) := by
    induction l generalizing t with
    | nil => exact hc
    | cons d l ih => exact ih (hc.withdraw hnone)
  have begun : ClearBeside hit s.liveDescs s := ⟨hs, fun d hd => hnone d _ (by rw [desc_of_not_live hd]; rfl)⟩
  exact (each s.liveDescs begun).2 d List.not_mem_nil

end

/-- The descriptor's pending request is one of an ANGLE descriptor. -/
def Desc.waitsForAngle (x : Desc) : Bool :=
  match x.pend with
  | some r => dTrig r.words == 1
  | none => false

theorem waitsForAngle_of_none (hn : x.pend = none) : x.waitsForAngle = false := by rw [Desc.waitsForAngle, hn]

theorem waitsForAngle_of_pend (hp : x.pend = some r) : x.waitsForAngle = (dTrig r.words == 1) := by
  rw [Desc.waitsForAngle, hp]

theorem exec_angleWithdraw : exec .angleWithdraw s = .next (s.when (s.running && !(s.locked))
    fun s => s.withdrawAll (fun _ x => x.waitsForAngle) gcSEQ (some 4)) := rfl

theorem completes_angleWithdraw (hs : s.mapsWf = true) (hr : s.running = true) (hl : s.locked = false) :
    completes .angleWithdraw s fun t => ∀ d r, (t.desc d).pend = some r → dTrig r.words ≠ 1 := by
  refine completes_when exec_angleWithdraw (by simp [hr, hl]) fun _ d r hp => ?_
  have clear := hit_withdrawAll (d := d) (cause := gcSEQ) (o := some 4) (fun _ _ => waitsForAngle_of_none) hs
  rw [waitsForAngle_of_pend hp] at clear
  simpa using clear

/-! ## NO_LOCK_TARGET_SKIP (R255) -/

theorem completes_noLockTargetSkip (hs : s.mapsWf = true) (hr : s.running = true) (ha : (s.desc d).armed = true)
    (hk : (s.desc d).lockSeen = true) (he : dEn (s.desc d).words = true) (ht : dTrig (s.desc d).words = 1)
    (hl : s.locked = false) (hg : 0 ≤ s.anglePast (s.desc d).next) : completes (.noLockTargetSkip d) s fun t =>
      (t.desc d).next = s.angleOn (s.desc d).next (dStep (s.desc d).words) ∧
      (t.desc d).seq = ((s.desc d).seq + 1) % 2 ^ 32 ∧ (t.desc d).skips = min ((s.desc d).skips + 1) (2 ^ 32 - 1) ∧
      t.bit (F.PIRQ 0x18) 8 = true := by
  have skipped {n : Nat} : ((s.targetAt d n).psqSkips d gcSEQ (some 4) 1).desc d =
      { (s.desc d).skipped 1 gcSEQ (some 4) with next := n, seq := ((s.desc d).seq + 1) % 2 ^ 32 } := by
    rw [desc_congr (descs_psqSkips Nat.one_ne_zero), desc_modDesc (mapsWf_targetAt hs), desc_targetAt hs]
    rfl
  exact completes_when rfl (by simp [hr, ha, hk, he, ht, hl, hg]) fun _ => ⟨congrArg Desc.next skipped,
    congrArg Desc.seq skipped, congrArg Desc.skips skipped, bit_psqSkips (mapsWf_targetAt hs) Nat.one_ne_zero⟩

/-! ## SHARE_WINDOW_END (R248) -/

theorem charge_shareTurn (hj : j ≠ shareMark) : mapGet (fun _ => 0) s.shareTurn.charge j = 0 := mapGet_mapSet_ne hj

theorem shareNow_shareTurn : s.shareTurn.shareNow = shareWindow s.ht := mapGet_mapSet mapWf_nil

theorem shareDue_shareTurn : s.shareTurn.shareDue = false := bne_eq_false_iff_eq.mpr shareNow_shareTurn

theorem chargeOf_shareTurn (hj : j ≠ shareMark) : s.shareTurn.chargeOf j = 0 :=
  (if_neg (by simp [shareDue_shareTurn])).trans (charge_shareTurn hj)

theorem chargeWas_shareTurn : s.shareTurn.chargeWas j =
    mapGet (fun _ => 0) (if s.shareNow + 1 = shareWindow s.ht then s.charge else []) j :=
  if_pos (by simp [shareDue_shareTurn])

theorem changes_shareTurn : changesOnly [.charge, .chargeLast] s s.shareTurn :=
  shareTurn_ind (closed_changesOnly (by decide)) (changesOnly_refl s)

theorem completes_shareWindowEnd (hc : s.cclk = true) (hd : s.shareDue = true) : completes .shareWindowEnd s fun t =>
    t.shareNow = shareWindow s.ht ∧ (∀ k, k ≠ shareMark → t.chargeOf k = 0) ∧
    (s.shareNow + 1 = shareWindow s.ht → ∀ k, t.chargeWas k = mapGet (fun _ => 0) s.charge k) ∧
    (s.shareNow + 1 ≠ shareWindow s.ht → ∀ k, t.chargeWas k = 0) ∧ changesOnly [.charge, .chargeLast] s t := by
  refine completes_when rfl (by simp [hc, hd]) fun _ => ⟨shareNow_shareTurn, fun _ => chargeOf_shareTurn,
    fun hn k => ?just_before, fun hn k => ?earlier, changes_shareTurn⟩
  case just_before => rw [chargeWas_shareTurn, if_pos hn]
  case earlier =>
    rw [chargeWas_shareTurn, if_neg hn]
    rfl

end

/-- Settles O36: whatever becomes of its request, a trigger moves the stream sequence on by 1 and leaves the target that its
command has set; the ANGLE targets passed beyond the first are skips of one more each. That NEG turns the sign of the passed
angle is the model's choice (log entry 62). -/
theorem triggersMoveTheStream : Obligations.TriggersMoveTheStream := by
  unfold Obligations.TriggersMoveTheStream
  refine ⟨fun s d hs hr ha he ht hd => completes_timeTrigger hs hr ha he ht hd,
    fun s d hs hr hc he ht => completes_chainTrigger hs hr hc he ht, fun s d g hs hr ha he ht hl hg h0 => ?angle⟩
  have past : g = s.anglePast (s.desc d).next := hg.trans (anglePast_of_locked hl).symm
  subst past
  exact completes_angleTrigger hs hr ha he ht hl h0

/-- Settles O37: a withdrawal clears one descriptor's request and counts one skip, and over all live descriptors it leaves none
that is named; a target without lock is one counted skip, and a window's end one update of the charges. The direction in which
ANGLE targets are passed (log entry 62) and that a two-wire port whose bus is not free is not ready (log entry 150) are the
model's choices. -/
theorem requestsAreWithdrawnAndSkipped : Obligations.RequestsAreWithdrawnAndSkipped := by
  unfold Obligations.RequestsAreWithdrawnAndSkipped
  exact ⟨fun s d r h hs hr hp hd hh hn => completes_jitDeadline hs hr hp hd hh hn,
    fun s d hs hr ha hk he ht hl hg => completes_noLockTargetSkip hs hr ha hk he ht hl hg,
    fun s hs hr hl => completes_angleWithdraw hs hr hl, fun s _ hc hd => completes_shareWindowEnd hc hd⟩

end Sys2Proof.Machine

/-! What every step keeps: canonical maps, and the queue of waiting commands; the idle cycle, the state after reset, and fields
after a write. -/

namespace Sys2Proof.Machine

section
variable {s : State} {c : Instr} {n : Nat}

/-! ## Every command answers -/

/-- A command answers a next state, whatever the state before it. -/
theorem exec_answers : Answers (exec c s) fun t => t.pending = s.pending :=
  have closed {l : List Part} (h : avoids l .pending = true) : Closed l fun t => t.pending = s.pending :=
    closed_of h fun _ _ h₂ h₁ => Part.same_trans (p := .pending) h₂ h₁
  exec_ind (closed rfl) (fun _ => closed rfl) (fun _ => closed rfl) rfl

theorem step_answers (s : State) : ∃ t, step s = .next t := by
  unfold step
  split
  · exact ⟨_, rfl⟩
  · obtain ⟨t, ht, _⟩ := exec_answers
    exact ⟨t, ht⟩

theorem safeRun_of_answers (h : ∀ s, ∃ t, step s = .next t) (s : State) : safeRun n s = true := by
  induction n generalizing s with
  | zero => rfl
  | succ n ih =>
    obtain ⟨t, ht⟩ := h s
    rw [safeRun, ht]
    exact ih t

/-! ## The idle cycle (R45, R261) -/

theorem step_of_idle (h : s.pending = []) : step s = .next s.idle := by rw [step, h]

theorem changes_idle : changesOnly [.rck, .sxt, .sys] s s.idle :=
  idle_ind ((closed_changesOnly (by decide)).mono (by decide)) (changesOnly_refl s)

theorem idle_of_stopped (h : s.cclk = false) : s.idle = s := by rw [State.idle, h]; rfl

/-- What the cycle does after the advance of Hub Time leaves the accumulator. -/
theorem rck_idle (h : s.cclk = true) : s.idle.rck = s.advance.rck := by
  have after : Closed [.sxt, .sys] fun t => t.rck = s.advance.rck :=
    closed_of (p := .rck) (by decide) fun _ _ h₂ h₁ => h₂.trans h₁
  have advanced (k n : Nat) : ((s.advance.predict k).wdogTick n).rck = s.advance.rck :=
    wdogTick_ind (after.mono (by decide)) (predict_ind (after.mono (by decide)) rfl)
  rw [State.idle, State.when, if_pos h]
  dsimp only
  exact when_ind (P := fun t => t.rck = s.advance.rck) (fun _ => modSys_ind (after.mono (by decide)) rfl rfl) (advanced _ _)

end

/-- Settles O5: a canonical map stays canonical through every change that the model makes of it, a FULL reset among them. -/
theorem stepKeepsMapsCanonical : Obligations.StepKeepsMapsCanonical := by
  unfold Obligations.StepKeepsMapsCanonical
  intro s t hs h
  rcases step_cases h with ⟨_, rfl⟩ | ⟨c, rest, u, _, hu, h⟩
  case inl => exact idle_ind (closed_mapsWf.mono (by decide)) hs
  case inr =>
    have canonical : u.mapsWf = true := hu ▸ hs
    exact of_exec (closed_mapsWf.mono (by decide)) (fun _ => closed_mapsWf.mono (by decide))
      (fun _ => closed_mapsWf.mono (by decide)) h canonical

/-- Settles O3: no arm of `exec` ends in a fault or a refusal, and no part that a command can change is the queue of waiting
commands. That a command whose event cannot happen answers all the same is the model's choice (log entry 13). -/
theorem everyCommandAnswersAndKeepsTheQueue : Obligations.EveryCommandAnswersAndKeepsTheQueue := by
  unfold Obligations.EveryCommandAnswersAndKeepsTheQueue
  exact fun _ _ => exec_answers

/-- Settles O4, by induction on the number of steps. That every command answers on every state is the model's choice (log
entry 13). -/
theorem everyRunIsSafe : Obligations.EveryRunIsSafe := by
  unfold Obligations.EveryRunIsSafe
  exact fun _ s => safeRun_of_answers step_answers s

/-- Settles O9: a write of a field is a write of its register, which stands at its own address only. -/
theorem registersReadBack : Obligations.RegistersReadBack := by
  unfold Obligations.RegistersReadBack
  exact ⟨fun _ _ _ _ hs => ⟨reg_setReg (mapsWf_regs hs), reg_setReg_ne⟩,
    fun _ _ _ _ hs hf hg => ⟨fld_setFld (mapsWf_regs hs) hf, fun apart => fld_setFld_of_apart (mapsWf_regs hs) ⟨hg, apart⟩⟩⟩

/-- Settles O1: the front of the queue is the one case of `step` that is no idle cycle. -/
theorem stepRunsTheFrontCommand : Obligations.StepRunsTheFrontCommand := by
  unfold Obligations.StepRunsTheFrontCommand
  intro s c rest h
  rw [step, h]

/-- Settles O2: the cycle advances Hub Time first, and what follows leaves the accumulator. That a step without a command is a
cycle is the model's choice (log entry 3). -/
theorem emptyQueueRunsOneCycle : Obligations.EmptyQueueRunsOneCycle := by
  unfold Obligations.EmptyQueueRunsOneCycle
  intro s hp
  obtain ⟨phase, pstate⟩ := changes_idle (s := s) .mode rfl
  refine ⟨s.idle, step_of_idle hp, (changes_idle .pending rfl).trans hp, idle_of_stopped, fun hc => ?_, changes_idle, phase,
    pstate⟩
  rw [rck_idle hc]
  rfl

/-- Settles O7: `State.reset` is one concrete state. That it is the first power-up, unpowered and without a clock, is the
model's choice (log entry 9). -/
theorem resetIsWellFormed : Obligations.ResetIsWellFormed := by
  unfold Obligations.ResetIsWellFormed
  exact ⟨mapsWf_reset, rfl, rfl, rfl, rfl⟩

end Sys2Proof.Machine

/-! Reads that take samples (R263, R273, R284, R307, R379, R414): what a requester's sample holds after one, and what a sampled
register shows. -/

namespace Sys2Proof.Machine

section
variable {s t : State} {rq q : Requester} {a : Nat}

/-! ## A read that takes samples -/

theorem readCmd_of_shows (h : s.shows rq a) : s.readCmd rq a = (s.sample rq a).latch (s.view rq a) := by
  obtain ⟨hr, hd, hl, hb⟩ := h
  simp [State.readCmd, State.when, State.readReg, hr, hd, hl, hb]

theorem changes_readCmd (h : s.shows rq a) : changesOnly [.rdata, .samp] s (s.readCmd rq a) := by
  have hC : Closed [.rdata, .samp] (changesOnly [.rdata, .samp] s) := closed_changesOnly (by decide)
  rw [readCmd_of_shows h]
  exact latch_ind (hC.mono (by decide)) (sample_ind (hC.mono (by decide)) (changesOnly_refl s))

/-- What a read shows, and the samples that it leaves to its requester. -/
structure ShowsAndSamples (rq : Requester) (a : Nat) (s t : State) : Prop where
  shown : t.rdata = s.view rq a
  samples : ∀ b ∈ sampledBy a, t.sampOf b rq = s.blockView rq b + 1
  frame : changesOnly [.rdata, .samp] s t

theorem readCmd_showsAndSamples (hs : s.mapsWf = true) (h : s.shows rq a) : ShowsAndSamples rq a s (s.readCmd rq a) where
  shown := by rw [readCmd_of_shows h]; rfl
  samples _ hb := by
    rw [readCmd_of_shows h]
    exact sampOf_sample hs hb
  frame := changes_readCmd h

theorem exec_stampLoSample {ch : Nat} (h : ch < 12) : exec (.stampLoSample rq ch) s = .next (s.readCmd rq (A.STP_CH_LO ch)) :=
  congrArg Host.Outcome.next (if_pos h)

/-! ## Hub Time (R263) -/

theorem view_htLo : s.view rq A.RCK_HT_LO = BitVec.ofNat 32 (s.ht % 2 ^ 32) := rfl

theorem blockView_htHi : s.blockView rq A.RCK_HT_HI = s.ht / 2 ^ 32 := rfl

theorem view_htHi : s.view rq A.RCK_HT_HI =
    match s.sampOf A.RCK_HT_HI rq with | 0 => resetOf A.RCK_HT_HI | n + 1 => BitVec.ofNat 32 n := rfl

theorem view_htHi_of_sampOf {n : Nat} (h : s.sampOf A.RCK_HT_HI rq = n + 1) : s.view rq A.RCK_HT_HI = BitVec.ofNat 32 n := by
  rw [view_htHi, h]

theorem view_htHi_of_no_sample (h : s.sampOf A.RCK_HT_HI rq = 0) : s.view rq A.RCK_HT_HI = 0#32 := by
  rw [view_htHi, h]
  decide

theorem view_htHi_congr (h : s.sampOf A.RCK_HT_HI rq = t.sampOf A.RCK_HT_HI rq) :
    s.view rq A.RCK_HT_HI = t.view rq A.RCK_HT_HI := by
  rw [view_htHi, view_htHi, h]

/-- A read of RCK_HT_LO takes one sample, under its own requester's key. -/
theorem sampOf_readCmd_htLo (h : s.shows rq A.RCK_HT_LO) (hq : reqKey q ≠ reqKey rq) :
    (s.readCmd rq A.RCK_HT_LO).sampOf A.RCK_HT_HI q = s.sampOf A.RCK_HT_HI q := by
  have one : s.sample rq A.RCK_HT_LO = s.setSamp A.RCK_HT_HI rq (s.blockView rq A.RCK_HT_HI + 1) := rfl
  rw [readCmd_of_shows h, one]
  exact mapGet_mapSet_ne fun e => hq (Nat.add_left_cancel e)

end

/-- Settles O24: the read is one sample of the whole of HT, and RCK_HT_HI is a function of its reader's sample. -/
theorem hubTimeReadsAsOneSample : Obligations.HubTimeReadsAsOneSample := by
  unfold Obligations.HubTimeReadsAsOneSample
  refine ⟨fun s rq hs h => ?_, fun _ _ _ => view_htHi_congr, fun _ _ => view_htHi_of_no_sample⟩
  obtain ⟨shown, samples, frame⟩ := readCmd_showsAndSamples hs h
  have sampled := samples A.RCK_HT_HI (by decide)
  rw [blockView_htHi] at sampled
  exact ⟨_, rfl, shown.trans view_htLo, view_htHi_of_sampOf sampled, fun q hq => view_htHi_congr (sampOf_readCmd_htLo h hq),
    frame⟩

/-- Settles O25: each of the commands is one read of a register that takes samples. -/
theorem sampledReadsShowAndSample : Obligations.SampledReadsShowAndSample := by
  unfold Obligations.SampledReadsShowAndSample
  intro sampled s rq hs
  have read (a : Nat) (h : s.shows rq a) : sampled rq a s (s.readCmd rq a) :=
    have r := readCmd_showsAndSamples hs h
    ⟨r.shown, r.samples, r.frame⟩
  exact ⟨fun h => ⟨_, rfl, read _ h⟩, fun ch hc h => ⟨_, exec_stampLoSample hc, read _ h⟩, fun h => ⟨_, rfl, read _ h⟩,
    fun h => ⟨_, rfl, read _ h⟩, fun h => ⟨_, rfl, read _ h⟩, fun h => ⟨_, rfl, read _ h⟩, fun h => ⟨_, rfl, read _ h⟩⟩

end Sys2Proof.Machine

/-! Flares that are released (R347, R348), and the Logbook of a retired hub (R468). -/

namespace Sys2Proof.Machine

section
variable {s : State} {g : Fld} {f v : Nat} {b : Bool}

/-! ## The level of a flare's ball (R347) -/

theorem flareLevel_of_held (h : s.on (F.ROS_FLR_REL f) = false) : s.flareLevel f = s.on (F.ROS_FLR_RSTLVL f) := by
  simp [State.flareLevel, h]

theorem flareLevel_of_released (h : s.on (F.ROS_FLR_REL f) = true) :
    s.flareLevel f = (s.on (F.ROS_FLR_STATE f) == s.on (F.ROS_FLR_ACT f)) := if_pos h

/-! ## The release (R348) -/

theorem on_of_fld {t : State} (h : t.fld g = s.fld g) : t.on g = s.on g := congrArg (· != 0) h

theorem on_flareState (hs : s.regsWf = true) (hf : f < 2) : (s.flareState f b).on (F.ROS_FLR_STATE f) = b := by
  rw [State.on, (reads_flareState hs hf).2]
  cases b <;> rfl

/-- The other fields of a flare's register stand when its state changes. -/
theorem fld_flareState (hs : s.regsWf = true) (hf : f < 2) (ha : g.addr = 0x0c64 + 4 * f) (hg : g.lo + g.w ≤ 4) :
    (s.flareState f b).fld g = s.fld g := by
  have beside : ApartFrom (F.ROS_FLR_STATE f) g := ⟨by omega, .inr (.inr hg)⟩
  have put : (s.putOn (F.ROS_FLR_STATE f) b).fld g = s.fld g := fld_putOn_of_apart hs beside
  have own : avoids (.reg 0x0c18 :: irqParts) (.reg g.addr) = true := avoids_rosePage (by omega) (by omega)
  exact ite_ind (Q := fun t : State => t.fld g = s.fld g) ((fld_raise_of_avoids own).trans put) put

theorem flares_flareState : (s.flareState f b).sys.flares = s.sys.flares :=
  have route : RouteSafe fun t => t.sys.flares = s.sys.flares := routeSafe_sys (Q := fun y => y.flares = s.sys.flares) fun _ h => h
  ite_ind (Q := fun t : State => t.sys.flares = s.sys.flares) (raise_safe route (fun _ _ h => h) rfl) rfl

theorem pulsing_flareReleased : (s.flareReleased f).pulsing f = false :=
  (congrArg (·.testBit f) flares_flareState).trans testBit_sub_and_two_pow

section
variable (hs : s.mapsWf = true) (hf : f < 2)
include hs hf

theorem state_flareReleased : (s.flareReleased f).on (F.ROS_FLR_STATE f) =
    (s.on (F.ROS_FLR_RSTLVL f) == s.on (F.ROS_FLR_ACT f)) :=
  on_flareState (regsWf_setPulse (mapsWf_regs hs)) hf

theorem on_flareReleased (ha : g.addr = 0x0c64 + 4 * f) (hg : g.lo + g.w ≤ 4) : (s.flareReleased f).on g = s.on g :=
  on_of_fld (fld_flareState (s := s.setPulse f false) (regsWf_setPulse (mapsWf_regs hs)) hf ha hg)

/-- The level is STATE's comparison with ACT, and STATE is RSTLVL's. -/
theorem flareLevel_flareReleased (hr : s.on (F.ROS_FLR_REL f) = true) :
    (s.flareReleased f).flareLevel f = s.on (F.ROS_FLR_RSTLVL f) := by
  have act : (s.flareReleased f).on (F.ROS_FLR_ACT f) = s.on (F.ROS_FLR_ACT f) :=
    on_flareReleased hs hf rfl (show 1 + 1 ≤ 4 by decide)
  have released : (s.flareReleased f).on (F.ROS_FLR_REL f) = true :=
    (on_flareReleased hs hf rfl (show 0 + 1 ≤ 4 by decide)).trans hr
  rw [flareLevel_of_released released, state_flareReleased hs hf, act]
  cases s.on (F.ROS_FLR_RSTLVL f) <;> cases s.on (F.ROS_FLR_ACT f) <;> rfl

end

/-! ## The Logbook in RETIRED (R468) -/

theorem logEntry_of_retired {ty sub aud level data : Nat} (h : s.life = 0xE) :
    s.logEntry ty sub aud level data = s.addSat F.LOG_CNT_LOST 1 := if_pos (by simp [h])

end

/-- Settles O60: the level is a function of four fields of the flare's register, of which the release sets STATE alone. -/
theorem flareLevelsAndTheRetiredLog : Obligations.FlareLevelsAndTheRetiredLog := by
  unfold Obligations.FlareLevelsAndTheRetiredLog
  refine ⟨fun _ _ => flareLevel_of_held, fun s f h => ?follows, fun s f hs hf hr => ?released, fun s ty sub aud level data hs h => ?retired⟩
  case follows =>
    rw [flareLevel_of_released h]
    cases s.on (F.ROS_FLR_STATE f)
    case false => exact Bool.false_beq _
    case true => exact Bool.true_beq _
  case released => exact ⟨state_flareReleased hs hf, flareLevel_flareReleased hs hf hr, pulsing_flareReleased⟩
  case retired =>
    intro t
    have counted : t = s.addSat F.LOG_CNT_LOST 1 := logEntry_of_retired h
    rw [counted]
    exact ⟨fld_addSat (mapsWf_regs hs) (by decide), addSat_ind (closed_changesOnly (by decide)) (changesOnly_refl s)⟩

end Sys2Proof.Machine

/-! Occurrences of a tamper class (R446, R456-R460): what one records, what its response below HOLD leaves as it is, and the
level in force. -/

namespace Sys2Proof.Machine

section
variable {P : State → Prop} {s : State} {f g : Fld} {p k v n t l c cls req page off aud lv : Nat} {was : Bool}

/-! ## What survives a response below HOLD -/

/-- What a response below HOLD may change beside flags that it raises and registers of the queues and the TN pages. -/
def respParts : List Part :=
  [.stw, .asm, .env, .asy, .log, .reg 0x158, .reg 0x2458, .hallmark, .lanes, .closed, .tx] ++ irqParts

/-- Registers by tenant on the QUE page and on the TN pages, that a response can write. -/
abbrev TenantReg (a : Nat) : Prop := (0x20a0 ≤ a ∧ a < 0x2100 ∨ 0x3000 ≤ a) ∧ 0x40 ≤ a % 256

/-- `P` survives whatever a response below HOLD does: of PIRQ and TAM_LATCH it raises flags only. -/
structure TamperSafe (P : State → Prop) : Prop where
  parts : Closed respParts P
  entry : ∀ (s : State) x y, P s → P { s with tam := { s.tam with entryAt := x, auds := y } }
  pirq : ∀ s p k, P s → P (s.setBit (F.PIRQ p) k)
  tenant : ∀ s a w, TenantReg a → P s → P (s.setReg a w)
  stopped : ∀ s, P s → P (s.setFld F.TAM_LATCH_SEALSTOP 1)
  zeroized : ∀ s, P s → P (s.setFld F.TAM_LATCH_ZEROIZED 1)

theorem tenantReg_tuse (h : t < 8) : TenantReg (0x20a0 + 4 * t) := ⟨by omega, by omega⟩

theorem tenantReg_pstat (h : t < 8) : TenantReg (0x20e0 + 4 * t) := ⟨by omega, by omega⟩

theorem tenantReg_cstat : TenantReg (0x304c + 256 * n) := ⟨by omega, by omega⟩

section
variable (hT : TamperSafe P)
include hT

theorem raise_tamper (hs : P s) : P (s.raise p k) :=
  have latched : P (s.setBit (F.PIRQ p) k) := hT.pirq _ _ _ hs
  ite_ind (routeLine_ind (hT.parts.mono (by decide)) latched) latched

theorem risen_tamper {s₀ : State} {ps : List Nat} (hs : P s) : P (State.risen s₀ ps s) :=
  forEach_ind (fun _ _ h => ite_ind (raise_tamper hT h) h) hs

theorem poolMark_tamper (hs : P s) : P s.poolMark :=
  have shown : P (s.putOn F.QUE_STAT_POOL_LOW (decide (s.poolFree < s.fld F.QUE_PLC_CFG_FREE))) :=
    putOn_ind (hT.parts.mono (by decide)) hs
  ite_ind (raise_tamper hT shown) shown

theorem flushLane_tamper (ht : t < 8) (hs : P s) : P (s.flushLane t l k) := by
  unfold State.flushLane
  extract_lets -merge -underBinder i kept gone lane span spans free hit zeroed flagged dropped engine removed freed
  clear_value spans
  have hzeroed : P zeroed := forEach_ind (fun _ _ h => setTx_ind (hT.parts.mono (by decide)) h) hs
  have hflagged : P flagged := ite_ind hzeroed (raise_tamper hT (hT.tenant _ _ _ (tenantReg_pstat ht) hzeroed))
  have hdropped : P dropped :=
    modLane_ind (hT.parts.mono (by decide)) (setClosed_ind (hT.parts.mono (by decide)) hflagged)
  have hfreed : P freed := poolMark_tamper hT (hT.tenant _ _ _ (tenantReg_tuse ht) (hT.tenant _ _ _ (tenantReg_tuse ht)
    (upd_hallmark (hT.parts.mono (by decide)) hdropped)))
  split
  · exact hfreed
  · exact setPend_ind (hT.parts.mono (by decide)) hfreed

theorem zeroizeVolatile_tamper (hs : P (s.setFld F.TAM_LATCH_ZEROIZED 1)) : P s.zeroizeVolatile := by
  unfold State.zeroizeVolatile
  extract_lets -merge -underBinder zeroized queues lanes assemblies tenants
  have hqueues : P queues := forEach_ind (fun _ _ h => flushQueue_ind (hT.parts.mono (by decide)) h)
    (setQueue_ind (hT.parts.mono (by decide)) hs)
  have hlanes : P lanes := forEach_ind_mem (fun k hk _ h => flushLane_tamper hT
    (Nat.div_lt_of_lt_mul (List.mem_range.mp hk)) h) hqueues
  have hassemblies : P assemblies := forEach_ind (fun _ _ h =>
    ite_ind h (hT.tenant _ _ _ tenantReg_cstat (hT.tenant _ _ _ tenantReg_cstat h))) hlanes
  have htenants : P tenants := forEach_ind (fun _ _ h => modTen_ind (hT.parts.mono (by decide)) h) hassemblies
  have hcleared : P { tenants with asm := [], env := none } :=
    upd_env (s := { tenants with asm := [] }) (hT.parts.mono (by decide))
      (upd_asm (hT.parts.mono (by decide)) htenants fun _ => rfl)
  exact nvStart_ind (hT.parts.mono (by decide)) (deferShow_ind (hT.parts.mono (by decide)) hcleared)

theorem logEntry_tamper {ty sub level data : Nat} (hs : P s) : P (s.logEntry ty sub aud level data) := by
  unfold State.logEntry
  have counted : P (s.addSat F.LOG_CNT_LOST 1) := addSat_ind (hT.parts.mono (by decide)) hs
  exact ite_ind counted (ite_ind (raise_tamper hT (upd_log (hT.parts.mono (by decide)) counted))
    (nvRequest_ind (hT.parts.mono (by decide)) (upd_log (hT.parts.mono (by decide)) hs)))

theorem tamEntry_tamper (hs : P s) : P (s.tamEntry was cls lv aud) :=
  ite_ind (hT.entry _ _ _ (logEntry_tamper hT hs)) (ite_ind (hT.entry _ _ _ (logEntry_tamper hT hs)) hs)

end

/-! ## The course of an occurrence -/

/-- The occurrence latched, counted and shown in TAM_LAST, with its condition. -/
def State.tamShown (s : State) (cls req page off : Nat) : State :=
  let t := ((s.setBit F.TAM_LATCH_LATCHED (cls - 1)).addSat (F.TAM_CNT_CNT (cls - 1)) 1).tamLast cls (s.respOf cls) req page off
  if cls = tcDOUBLE ∨ cls = tcNVINTEG then t else t.setBit F.TAM_LATCH_COND (cls - 1)

/-- The occurrence told, with the faults of the pages it changes and its Logbook entry. -/
def State.tamTold (s : State) (cls req page off aud : Nat) : State :=
  (State.risen s [0x23, 0x24, 0x25, 0x26] (s.tamShown cls req page off)).tamEntry (s.latched cls) cls (s.respOf cls) aud

/-- ALERT: PIRQ bit 8, and a wake from Stow. -/
def State.tamAlert (s : State) (lv : Nat) : State :=
  let t := if 1 ≤ lv then s.raise 0x23 8 else s
  if 1 ≤ lv ∧ t.sys.phase = .stow then { t with sys := { t.sys with wakes := t.sys.wakes ||| 2 ^ 16 } } else t

/-- SEAL_STOP, where the level in force asks for it. -/
def State.tamStop (s : State) : State := if 2 ≤ s.levelInForce then s.setFld F.TAM_LATCH_SEALSTOP 1 else s

/-- The response of a level below HOLD. -/
def State.respond (s : State) (lv : Nat) : State :=
  if 3 ≤ lv then (s.tamAlert lv).tamStop.zeroizeVolatile else (s.tamAlert lv).tamStop

theorem occur_of_below (hh : s.halted = false) (hr : s.respOf cls < 4) :
    occur cls req page off aud s = (s.tamTold cls req page off aud).respond (s.respOf cls) := by
  unfold occur
  rw [State.when, if_pos (by simp [hh])]
  exact if_neg (Nat.not_le.mpr hr)

theorem occur_of_hold (hh : s.halted = false) (hr : 4 ≤ s.respOf cls) :
    ∃ u, occur cls req page off aud s = fullReset .hold cls u := by
  unfold occur
  rw [State.when, if_pos (by simp [hh])]
  exact ⟨_, if_pos hr⟩

section
variable (hT : TamperSafe P)
include hT

theorem tamTold_tamper (h : P (s.tamShown cls req page off)) : P (s.tamTold cls req page off aud) :=
  tamEntry_tamper hT (risen_tamper hT h)

theorem tamAlert_tamper (hs : P s) : P (s.tamAlert lv) := by
  have raised : P (if 1 ≤ lv then s.raise 0x23 8 else s) := ite_ind (raise_tamper hT hs) hs
  exact ite_ind (upd_sys (hT.parts.mono (by decide)) rfl rfl raised) raised

theorem tamStop_tamper (hs : P s) : P s.tamStop := ite_ind (hT.stopped _ hs) hs

theorem respond_of_stop (h : P (s.tamAlert lv).tamStop) : P (s.respond lv) :=
  ite_ind (zeroizeVolatile_tamper hT (hT.zeroized _ h)) h

/-- What holds once an occurrence is shown, and survives the response, holds after the occurrence. -/
theorem occur_tamper (hh : s.halted = false) (hr : s.respOf cls < 4) (h : P (s.tamShown cls req page off)) :
    P (occur cls req page off aud s) := by
  rw [occur_of_below hh hr]
  exact respond_of_stop hT (tamStop_tamper hT (tamAlert_tamper hT (tamTold_tamper hT h)))

end

/-! ## Properties that survive -/

/-- A register that a response does not write, or TAM_LATCH. -/
abbrev TamperApart (a : Nat) : Prop := avoids respParts (.reg a) = true ∧ a % 256 ≠ 0x18 ∧ ¬ TenantReg a

theorem Reads.setTenant {a : Nat} {w : Word} (h : Reads g v s) (ha : ¬ TenantReg g.addr) (hw : TenantReg a) :
    Reads g v (s.setReg a w) :=
  ⟨regsWf_setReg h.1, (fld_setReg_ne fun (e : g.addr = a) => ha (e ▸ hw)).trans h.2⟩

theorem tamperSafe_of (ha : TamperApart g.addr) (hg : g.lo + g.w ≤ 32)
    (stopped : ∀ s, Reads g v s → Reads g v (s.setFld F.TAM_LATCH_SEALSTOP 1))
    (zeroized : ∀ s, Reads g v s → Reads g v (s.setFld F.TAM_LATCH_ZEROIZED 1)) : TamperSafe (Reads g v) where
  parts := closed_reads ha.1 (by decide)
  entry _ _ _ h := h
  pirq s p k h := h.setFld ⟨hg, .inl fun e => ha.2.1 (by rw [e, pirq_addr]; omega)⟩
  tenant _ _ _ hw h := h.setTenant ha.2.2 hw
  stopped := stopped
  zeroized := zeroized

theorem tamperSafe_reads (ha : TamperApart g.addr) (hstop : ApartFrom F.TAM_LATCH_SEALSTOP g)
    (hzero : ApartFrom F.TAM_LATCH_ZEROIZED g) : TamperSafe (Reads g v) :=
  tamperSafe_of ha hstop.1 (fun _ h => h.setFld hstop) fun _ h => h.setFld hzero

theorem tamperApart_of_page {a : Nat} (lo : 0x2340 ≤ a) (hi : a < 0x2400) : TamperApart a := by
  have apart : 0x158 ≠ a ∧ 0x2458 ≠ a ∧ 0x154 ≠ a ∧ 0x178 ≠ a ∧ 0x2048 ≠ a := by omega
  exact ⟨by simp [avoids, respParts, irqParts, Part.covers, apart], by omega, fun h => by unfold TenantReg at h; omega⟩

theorem latched_setReg {a : Nat} {w : Word} (h : Latched p k s) (ha : a % 256 ≠ 0x18) : Latched p k (s.setReg a w) := by
  refine ⟨regsWf_setReg h.1, ?_⟩
  rw [State.bit, fld_setReg_ne (by rw [pirq_addr]; omega)]
  exact h.2

theorem latched_setBit {j : Nat} (h : Latched p k s) : Latched p k (s.setBit (F.PIRQ n) j) := by
  by_cases e : p = n
  case pos =>
    subst e
    exact ⟨regsWf_setFld h.1, bit_setBit_of_bit h.1 (by decide : 0 + 32 ≤ 32) h.2⟩
  case neg =>
    refine ⟨regsWf_setFld h.1, ?_⟩
    rw [State.bit, State.setBit, fld_setFld_ne (by rw [pirq_addr, pirq_addr]; omega)]
    exact h.2

theorem tamperSafe_latched : TamperSafe (Latched p k) where
  parts := by
    have apart : 0x158 ≠ 256 * p + 0x18 ∧ 0x2458 ≠ 256 * p + 0x18 ∧ 0x154 ≠ 256 * p + 0x18 ∧ 0x178 ≠ 256 * p + 0x18 ∧
        0x2048 ≠ 256 * p + 0x18 := by omega
    exact closed_latched (by simp [avoids, respParts, irqParts, Part.covers, apart]) (by decide)
  entry _ _ _ h := h
  pirq _ _ _ h := latched_setBit h
  tenant _ _ _ hw h := latched_setReg h (by unfold TenantReg at hw; omega)
  stopped _ h := latched_setReg h (by decide)
  zeroized _ h := latched_setReg h (by decide)

theorem tamperSafe_sealStop : TamperSafe (Reads F.TAM_LATCH_SEALSTOP 1) :=
  tamperSafe_of (tamperApart_of_page (by decide) (by decide)) (by decide)
    (fun _ h => reads_setFld h.1 (by decide) (by decide)) fun _ h => h.setFld (by decide)

theorem tamperSafe_zeroizedFlag : TamperSafe (Reads F.TAM_LATCH_ZEROIZED 1) :=
  tamperSafe_of (tamperApart_of_page (by decide) (by decide)) (by decide) (fun _ h => h.setFld (by decide))
    fun _ h => reads_setFld h.1 (by decide) (by decide)

/-! ## What an occurrence shows (R446) -/

theorem regsWf_tamShown (hs : s.regsWf = true) : (s.tamShown cls req page off).regsWf = true :=
  have shown : (((s.setBit F.TAM_LATCH_LATCHED (cls - 1)).addSat (F.TAM_CNT_CNT (cls - 1)) 1).tamLast cls (s.respOf cls) req page
      off).regsWf = true := tamLast_ind (closed_regsWf.mono (by decide)) (regsWf_setFld (regsWf_setFld hs))
  ite_ind (Q := fun t : State => t.regsWf = true) shown (regsWf_setFld shown)

/-- The flag of the condition is a field of its own. -/
theorem fld_tamShown (hs : s.regsWf = true) (hc : ApartFrom F.TAM_LATCH_COND g) :
    (s.tamShown cls req page off).fld g = (((s.setBit F.TAM_LATCH_LATCHED (cls - 1)).addSat (F.TAM_CNT_CNT (cls - 1)) 1).tamLast
      cls (s.respOf cls) req page off).fld g :=
  have shown := tamLast_ind (closed_regsWf.mono (by decide)) (regsWf_setFld (regsWf_setFld hs))
  ite_ind (Q := fun t : State => t.fld g = _) rfl (fld_setFld_of_apart shown hc)

theorem fld_tamLast_of_ne (h : g.addr ≠ A.TAM_LAST) : (s.tamLast cls lv req page off).fld g = s.fld g :=
  tamLast_ind (P := fun t => t.fld g = s.fld g)
    (closed_fld (by simp [avoids, Part.covers, show ¬ (0x234c = g.addr) from fun e => h e.symm])) rfl

/-- The fields of TAM_LAST do not overlap. -/
structure ShowsLast (cls lv req page off : Nat) (s : State) : Prop where
  cls : s.fld F.TAM_LAST_CLASS = cls % 16
  level : s.fld F.TAM_LAST_LEVEL = lv % 8
  req : s.fld F.TAM_LAST_REQ = req % 16
  page : s.fld F.TAM_LAST_PAGE = page % 256
  off : s.fld F.TAM_LAST_OFFSET = off % 256

theorem tamLast_shows (hs : s.regsWf = true) : ShowsLast cls lv req page off (s.tamLast cls lv req page off) := by
  have wf {t : State} {f : Fld} {v : Nat} (h : t.regsWf = true) : (t.setFld f v).regsWf = true := regsWf_setFld h
  have put {t : State} {f : Fld} {v : Nat} (h : t.regsWf = true) (hf : f.lo + f.w ≤ 32) : Reads f (v % 2 ^ f.w) (t.setFld f v) :=
    ⟨wf h, fld_setFld h hf⟩
  unfold State.tamLast
  exact {
    cls := ((((put hs (by decide)).setFld (by decide)).setFld (by decide)).setFld (by decide)).setFld (by decide) |>.2
    level := (((put (wf hs) (by decide)).setFld (by decide)).setFld (by decide)).setFld (by decide) |>.2
    req := ((put (wf (wf hs)) (by decide)).setFld (by decide)).setFld (by decide) |>.2
    page := (put (wf (wf (wf hs))) (by decide)).setFld (by decide) |>.2
    off := (put (wf (wf (wf (wf hs)))) (by decide)).2 }

theorem tamShown_shows (hs : s.regsWf = true) :
    ShowsLast cls (s.respOf cls) req page off (s.tamShown cls req page off) := by
  obtain ⟨hc, hl, hr, hp, ho⟩ := tamLast_shows (cls := cls) (lv := s.respOf cls) (req := req) (page := page) (off := off)
    (regsWf_setFld (f := F.TAM_CNT_CNT (cls - 1)) (regsWf_setFld (f := F.TAM_LATCH_LATCHED) hs))
  exact ⟨(fld_tamShown hs (by decide)).trans hc, (fld_tamShown hs (by decide)).trans hl, (fld_tamShown hs (by decide)).trans hr,
    (fld_tamShown hs (by decide)).trans hp, (fld_tamShown hs (by decide)).trans ho⟩

/-! The counters lie behind TAM_LAST, four in a word; TAM_LATCH before it. -/

theorem addr_cnt (n : Nat) : (F.TAM_CNT_CNT n).addr = 0x2350 + 4 * (n / 4) := rfl

theorem cnt_within (n : Nat) : (F.TAM_CNT_CNT n).lo + (F.TAM_CNT_CNT n).w ≤ 32 := by
  show 8 * (n % 4) + 8 ≤ 32
  omega

theorem tamperApart_cnt (h : n < 7) : TamperApart (F.TAM_CNT_CNT n).addr :=
  tamperApart_of_page (by rw [addr_cnt]; omega) (by rw [addr_cnt]; omega)

theorem cnt_apart (h : f.addr < 0x2350) : ApartFrom f (F.TAM_CNT_CNT n) := ⟨cnt_within n, .inl (by rw [addr_cnt]; omega)⟩

theorem apart_cnt (h : g.addr < 0x2350) (hg : g.lo + g.w ≤ 32) : ApartFrom (F.TAM_CNT_CNT n) g :=
  ⟨hg, .inl (by rw [addr_cnt]; omega)⟩

theorem apart_cnt_cnt (h : k ≠ n) : ApartFrom (F.TAM_CNT_CNT n) (F.TAM_CNT_CNT k) := by
  refine ⟨cnt_within k, ?_⟩
  show 0x2350 + 4 * (k / 4) ≠ 0x2350 + 4 * (n / 4) ∨ 8 * (n % 4) + 8 ≤ 8 * (k % 4) ∨ 8 * (k % 4) + 8 ≤ 8 * (n % 4)
  omega

theorem cnt_tamShown (hs : s.regsWf = true) : (s.tamShown cls req page off).fld (F.TAM_CNT_CNT (cls - 1)) =
    min (s.fld (F.TAM_CNT_CNT (cls - 1)) + 1) 255 := by
  rw [fld_tamShown hs (cnt_apart (by decide)), fld_tamLast_of_ne (by rw [addr_cnt]; show _ ≠ 0x234c; omega),
    State.setBit, fld_addSat (regsWf_setFld hs) (cnt_within _), fld_setFld_of_apart hs (cnt_apart (by decide))]
  rfl

/-- A field of another register than TAM_LATCH and TAM_LAST, and no counter of the class. -/
theorem fld_tamShown_of_apart (hs : s.regsWf = true) (hl : g.addr ≠ A.TAM_LATCH) (ht : g.addr ≠ A.TAM_LAST)
    (hc : ApartFrom (F.TAM_CNT_CNT (cls - 1)) g) : (s.tamShown cls req page off).fld g = s.fld g := by
  rw [fld_tamShown hs ⟨hc.1, .inl hl⟩, fld_tamLast_of_ne ht, State.addSat, State.setBit,
    fld_setFld_of_apart (regsWf_setFld hs) hc, fld_setFld_of_apart hs ⟨hc.1, .inl hl⟩]

theorem latched_tamShown (hs : s.regsWf = true) (h1 : 1 ≤ cls) (h : 1 ≤ c) (h7 : c ≤ 7) :
    (s.tamShown cls req page off).latched c = (s.latched c || decide (c = cls)) := by
  have one : c - 1 < 7 := by omega
  have same : (cls - 1 = c - 1) ↔ (c = cls) := by omega
  rw [State.latched, State.bit, fld_tamShown hs (by decide), fld_tamLast_of_ne (by decide), State.addSat,
    State.setBit, fld_setFld_of_apart (regsWf_setFld hs) (apart_cnt (by decide) (by decide)), fld_setFld hs (by decide),
    Nat.testBit_mod_two_pow, Nat.testBit_or, Nat.testBit_two_pow]
  simp [State.latched, State.bit, F.TAM_LATCH_LATCHED, one, same]

/-! ## The level in force (R458) -/

theorem foldl_max_le_iff {l : List Nat} {b : Nat → Bool} {f : Nat → Nat} {m : Nat} :
    l.foldl (fun m i => if b i then max m (f i) else m) m ≤ n ↔ m ≤ n ∧ ∀ i ∈ l, b i = true → f i ≤ n := by
  induction l generalizing m with
  | nil => simp
  | cons i l ih =>
    rw [List.foldl_cons, ih, List.forall_mem_cons]
    cases b i <;> simp [and_assoc]

theorem levelInForce_le_iff : s.levelInForce ≤ n ↔ ∀ c, 1 ≤ c → c ≤ 7 → s.latched c = true → s.respOf c ≤ n := by
  refine foldl_max_le_iff.trans ⟨fun h c h1 h7 => ?_, fun h => ⟨Nat.zero_le n, fun i hi => ?_⟩⟩
  case refine_1 =>
    have at_c := h.2 (c - 1) (List.mem_range.mpr (by omega))
    rwa [Nat.sub_add_cancel h1] at at_c
  case refine_2 => exact h (i + 1) (Nat.le_add_left 1 i) (List.mem_range.mp hi)

theorem respOf_le_levelInForce (h1 : 1 ≤ c) (h7 : c ≤ 7) (hl : s.latched c = true) : s.respOf c ≤ s.levelInForce :=
  levelInForce_le_iff.mp le_rfl c h1 h7 hl

/-! ## An occurrence below HOLD (R446, R456) -/

theorem addr_resp (h : n < 7) : (F.TAM_RESP_LEVEL n).addr = 0x2340 := by
  show 0x2340 + 4 * (n / 8) = 0x2340
  omega

theorem resp_within (n : Nat) : (F.TAM_RESP_LEVEL n).lo + (F.TAM_RESP_LEVEL n).w ≤ 32 := by
  show 4 * (n % 8) + 3 ≤ 32
  omega

theorem resp_apart (h : n < 7) (hf : f.addr ≠ 0x2340) : ApartFrom f (F.TAM_RESP_LEVEL n) :=
  ⟨resp_within n, .inl (by rw [addr_resp h]; exact hf.symm)⟩

theorem tamperSafe_resp (h : n < 7) : TamperSafe (Reads (F.TAM_RESP_LEVEL n) v) :=
  tamperSafe_reads (by rw [addr_resp h]; exact tamperApart_of_page (by decide) (by decide)) (resp_apart h (by decide))
    (resp_apart h (by decide))

theorem tamperSafe_latch : TamperSafe (Reads F.TAM_LATCH_LATCHED v) :=
  tamperSafe_reads (tamperApart_of_page (by decide) (by decide)) (by decide) (by decide)

theorem regsWf_tamTold (hs : s.regsWf = true) : (s.tamTold cls req page off aud).regsWf = true :=
  (tamTold_tamper tamperSafe_latch ⟨regsWf_tamShown hs, rfl⟩).1

theorem regsWf_tamAlert (hs : s.regsWf = true) : (s.tamAlert lv).regsWf = true :=
  (tamAlert_tamper tamperSafe_latch ⟨hs, rfl⟩).1

theorem regsWf_tamStop (hs : s.regsWf = true) : s.tamStop.regsWf = true := (tamStop_tamper tamperSafe_latch ⟨hs, rfl⟩).1

/-- The response's own level is in force when it comes to SEAL_STOP. -/
theorem respOf_le_level_tamAlert (hs : s.regsWf = true) (h1 : 1 ≤ cls) (h7 : cls ≤ 7) :
    s.respOf cls ≤ ((s.tamTold cls req page off aud).tamAlert lv).levelInForce := by
  have wf : (s.tamShown cls req page off).regsWf = true := regsWf_tamShown hs
  obtain ⟨_, latch⟩ := tamAlert_tamper tamperSafe_latch (lv := lv) (tamTold_tamper tamperSafe_latch (aud := aud) ⟨wf, rfl⟩)
  have safe := tamperSafe_resp (v := s.respOf cls) (show cls - 1 < 7 by omega)
  have shown : (s.tamShown cls req page off).respOf cls = s.respOf cls :=
    fld_tamShown_of_apart hs (by rw [addr_resp (by omega)]; decide) (by rw [addr_resp (by omega)]; decide)
      (apart_cnt (by rw [addr_resp (by omega)]; decide) (resp_within _))
  obtain ⟨_, resp⟩ := tamAlert_tamper safe (lv := lv) (tamTold_tamper safe (aud := aud) ⟨wf, shown⟩)
  rw [← resp]
  refine respOf_le_levelInForce h1 h7 ?_
  rw [State.latched, State.bit, latch]
  exact (latched_tamShown hs h1 h1 h7).trans (by simp)

section
variable (hs : s.regsWf = true) (hh : s.halted = false) (hr : s.respOf cls < 4)
include hs hh hr

/-- The response leaves the fields of its page as the occurrence shows them, but for the two flags of a level. -/
theorem fld_occur (ha : TamperApart g.addr) (hstop : ApartFrom F.TAM_LATCH_SEALSTOP g)
    (hzero : ApartFrom F.TAM_LATCH_ZEROIZED g) :
    (occur cls req page off aud s).fld g = (s.tamShown cls req page off).fld g :=
  (occur_tamper (tamperSafe_reads ha hstop hzero) hh hr ⟨regsWf_tamShown hs, rfl⟩).2

theorem latched_occur : (occur cls req page off aud s).latched c = (s.tamShown cls req page off).latched c :=
  congrArg (Nat.testBit · (c - 1))
    (fld_occur hs hh hr (g := F.TAM_LATCH_LATCHED) (tamperApart_of_page (by decide) (by decide)) (by decide) (by decide))

theorem occur_showsLast : ShowsLast cls (s.respOf cls) req page off (occur cls req page off aud s) := by
  have apart : TamperApart A.TAM_LAST := tamperApart_of_page (by decide) (by decide)
  obtain ⟨hc, hl, hq, hp, ho⟩ := tamShown_shows (cls := cls) (req := req) (page := page) (off := off) hs
  exact ⟨(fld_occur hs hh hr apart (by decide) (by decide)).trans hc, (fld_occur hs hh hr apart (by decide) (by decide)).trans hl,
    (fld_occur hs hh hr apart (by decide) (by decide)).trans hq, (fld_occur hs hh hr apart (by decide) (by decide)).trans hp,
    (fld_occur hs hh hr apart (by decide) (by decide)).trans ho⟩

theorem cnt_occur (h7 : cls ≤ 7) (h1 : 1 ≤ cls) : (occur cls req page off aud s).fld (F.TAM_CNT_CNT (cls - 1)) =
    min (s.fld (F.TAM_CNT_CNT (cls - 1)) + 1) 255 :=
  (fld_occur hs hh hr (tamperApart_cnt (by omega)) (cnt_apart (by decide)) (cnt_apart (by decide))).trans (cnt_tamShown hs)

theorem latched_occur_self (h1 : 1 ≤ cls) (h7 : cls ≤ 7) : (occur cls req page off aud s).latched cls = true := by
  rw [latched_occur hs hh hr, latched_tamShown hs h1 h1 h7]
  simp

theorem sealStop_occur (h1 : 1 ≤ cls) (h7 : cls ≤ 7) (hl : 2 ≤ s.respOf cls) :
    (occur cls req page off aud s).on F.TAM_LATCH_SEALSTOP = true := by
  have stop : Reads F.TAM_LATCH_SEALSTOP 1 ((s.tamTold cls req page off aud).tamAlert (s.respOf cls)).tamStop := by
    rw [State.tamStop, if_pos (hl.trans (respOf_le_level_tamAlert hs h1 h7))]
    exact reads_setFld (regsWf_tamAlert (regsWf_tamTold hs)) (by decide) (by decide)
  rw [occur_of_below hh hr]
  exact on_of_reads (respond_of_stop tamperSafe_sealStop stop)

theorem alert_occur (hl : 1 ≤ s.respOf cls) : Latched 0x23 8 (occur cls req page off aud s) := by
  have told : (s.tamTold cls req page off aud).regsWf = true := regsWf_tamTold hs
  have raised : Latched 0x23 8 ((s.tamTold cls req page off aud).raise 0x23 8) :=
    ⟨raise_ind (closed_regsWf.mono (by decide)) told, bit_raise told (by decide)⟩
  have alert : Latched 0x23 8 ((s.tamTold cls req page off aud).tamAlert (s.respOf cls)) := by
    rw [State.tamAlert, if_pos hl]
    exact ite_ind (Q := Latched 0x23 8) raised raised
  rw [occur_of_below hh hr]
  exact respond_of_stop tamperSafe_latched (tamStop_tamper tamperSafe_latched alert)

end

/-! ## ZEROIZE_VOLATILE (R456, R459) -/

theorem env_zeroizeVolatile : s.zeroizeVolatile.env = none :=
  have closed {l : List Part} (h : avoids l .env = true) : Closed l fun t => t.env = none :=
    closed_of h fun _ _ (he : _ = _) h => he.trans h
  nvStart_ind (closed rfl) (deferShow_ind (closed rfl) rfl)

theorem asm_zeroizeVolatile : s.zeroizeVolatile.asm = [] :=
  have closed {l : List Part} (h : avoids l .asm = true) : Closed l fun t => t.asm = [] :=
    closed_of h fun _ _ (he : _ = _) h => he.trans h
  nvStart_ind (closed rfl) (deferShow_ind (closed rfl) rfl)

theorem zeroized_zeroizeVolatile (hs : s.regsWf = true) : s.zeroizeVolatile.on F.TAM_LATCH_ZEROIZED = true :=
  on_of_reads (zeroizeVolatile_tamper tamperSafe_zeroizedFlag (reads_setFld hs (by decide) (by decide)))

theorem occur_of_zeroize (hh : s.halted = false) (hl : s.respOf cls = 3) :
    occur cls req page off aud s = ((s.tamTold cls req page off aud).tamAlert 3).tamStop.zeroizeVolatile := by
  rw [occur_of_below hh (by omega), hl]
  rfl

end

/-- Settles O49: an occurrence is shown first, and its response takes nothing back; at HOLD a FULL reset follows; the level in
force is a maximum over the latched classes. -/
theorem tamperClassesRespond : Obligations.TamperClassesRespond := by
  unfold Obligations.TamperClassesRespond
  refine ⟨fun s c rq p o aud hs h1 h7 hh hr => ?below, fun s c rq p o aud hr hh => ?hold, fun s n => levelInForce_le_iff⟩
  case below =>
    intro t
    have wf := mapsWf_regs hs
    obtain ⟨cls, level, req, page, off⟩ : ShowsLast c (s.respOf c) rq p o t := occur_showsLast wf hh hr
    refine ⟨latched_occur_self wf hh hr h1 h7, cnt_occur wf hh hr h7 h1, cls.trans (Nat.mod_eq_of_lt (by omega)),
      level.trans (Nat.mod_eq_of_lt (by omega)), req, page, off, fun hl => (alert_occur wf hh hr hl).2,
      sealStop_occur wf hh hr h1 h7, fun hl => ?_⟩
    rw [show t = _ from occur_of_zeroize hh hl]
    exact ⟨env_zeroizeVolatile, asm_zeroizeVolatile,
      zeroized_zeroizeVolatile (regsWf_tamStop (regsWf_tamAlert (regsWf_tamTold wf)))⟩
  case hold =>
    intro t
    obtain ⟨u, hu⟩ := occur_of_hold (cls := c) (req := rq) (page := p) (off := o) (aud := aud) hh hr
    rw [show t = _ from hu]
    exact ⟨rfl, rfl, rfl, rfl, fun _ => rfl⟩

end Sys2Proof.Machine

/-! The tamper monitor's events (R447-R454, R466, R477), each the run of its command. -/

namespace Sys2Proof.Machine

section
variable {P : State → Prop} {s t : State} {f g : Fld} {p k v n c cls req page off aud a : Nat} {b : Bool} {tj : Int}

/-! ## What an occurrence below HOLD leaves -/

theorem tam_tamShown : (s.tamShown cls req page off).tam = s.tam := ite_ind (Q := fun t : State => t.tam = s.tam) rfl rfl

theorem sys_tamShown : (s.tamShown cls req page off).sys = s.sys := ite_ind (Q := fun t : State => t.sys = s.sys) rfl rfl

theorem latched_irq_tamShown (h : Latched p k s) (h7 : cls ≤ 7) : Latched p k (s.tamShown cls req page off) := by
  have counted : Latched p k ((s.setBit F.TAM_LATCH_LATCHED (cls - 1)).addSat (F.TAM_CNT_CNT (cls - 1)) 1) :=
    latched_setReg (latched_setReg h (by decide)) (by rw [addr_cnt]; omega)
  have shown : Latched p k (((s.setBit F.TAM_LATCH_LATCHED (cls - 1)).addSat (F.TAM_CNT_CNT (cls - 1)) 1).tamLast cls (s.respOf cls)
      req page off) := latched_setReg (latched_setReg (latched_setReg (latched_setReg (latched_setReg counted (by decide))
        (by decide)) (by decide)) (by decide)) (by decide)
  exact ite_ind (Q := Latched p k) shown (latched_setReg shown (by decide))

theorem tamperSafe_phase {x : Phase} : TamperSafe fun t => t.sys.phase = x where
  parts := closed_of (p := .mode) (by decide) fun _ _ he h => he.1.trans h
  entry _ _ _ h := h
  pirq _ _ _ h := h
  tenant _ _ _ _ h := h
  stopped _ h := h
  zeroized _ h := h

/-- What depends on the monitor's samples and decisions, but not on the times of its entries. -/
theorem tamperSafe_tam {Q : Tam → Prop} (hQ : ∀ x e l, Q x → Q { x with entryAt := e, auds := l }) :
    TamperSafe fun t => Q t.tam where
  parts := closed_of (p := .tam) (by decide) fun _ _ (he : _ = _) h => he ▸ h
  entry s e l h := hQ s.tam e l h
  pirq _ _ _ h := h
  tenant _ _ _ _ h := h
  stopped _ h := h
  zeroized _ h := h

theorem halted_congr (hp : t.sys.phase = s.sys.phase) (hb : t.fld F.SYS_BOOT_STAGE = s.fld F.SYS_BOOT_STAGE) :
    t.halted = s.halted := by rw [State.halted, State.halted, hp, hb]

/-- The occurrence as its class shows it. -/
structure OccursAs (cls : Nat) (s t : State) : Prop where
  latched : t.latched cls = true
  counted : t.fld (F.TAM_CNT_CNT (cls - 1)) = min (s.fld (F.TAM_CNT_CNT (cls - 1)) + 1) 255
  last : t.fld F.TAM_LAST_CLASS = cls

section
variable (hs : s.regsWf = true) (hh : s.halted = false) (hr : s.respOf cls < 4)
include hs hh hr

theorem occursAs_occur (h1 : 1 ≤ cls) (h7 : cls ≤ 7) : OccursAs cls s (occur cls req page off aud s) where
  latched := latched_occur_self hs hh hr h1 h7
  counted := cnt_occur hs hh hr h7 h1
  last := (occur_showsLast hs hh hr).cls.trans (Nat.mod_eq_of_lt (by omega))

theorem regsWf_occur : (occur cls req page off aud s).regsWf = true :=
  (occur_tamper tamperSafe_latch hh hr ⟨regsWf_tamShown hs, rfl⟩).1

/-- A register that is none of an occurrence's own. -/
theorem fld_occur_of_apart (ha : TamperApart g.addr) (hl : g.addr ≠ A.TAM_LATCH) (ht : g.addr ≠ A.TAM_LAST)
    (hc : ApartFrom (F.TAM_CNT_CNT (cls - 1)) g) : (occur cls req page off aud s).fld g = s.fld g :=
  (fld_occur hs hh hr ha ⟨hc.1, .inl hl⟩ ⟨hc.1, .inl hl⟩).trans (fld_tamShown_of_apart hs hl ht hc)

theorem latched_occur_of_latched (h1 : 1 ≤ cls) (hc : 1 ≤ c) (h7 : c ≤ 7) (hl : s.latched c = true) :
    (occur cls req page off aud s).latched c = true := by
  rw [latched_occur hs hh hr, latched_tamShown hs h1 hc h7, hl]
  rfl

omit hs in
theorem phase_occur : (occur cls req page off aud s).sys.phase = s.sys.phase :=
  occur_tamper tamperSafe_phase hh hr (congrArg Sys.phase sys_tamShown)

theorem halted_occur : (occur cls req page off aud s).halted = false :=
  (halted_congr (phase_occur hh hr) (fld_occur_of_apart hs hh hr (by decide) (by decide) (by decide)
    (apart_cnt (by decide) (by decide)))).trans hh

omit hs in
theorem thermal1_occur : (occur cls req page off aud s).tam.thermal1 = s.tam.thermal1 :=
  occur_tamper (tamperSafe_tam (Q := fun x => x.thermal1 = s.tam.thermal1) fun _ _ _ h => h) hh hr
    (congrArg Tam.thermal1 tam_tamShown)

theorem respOf_occur (hc : c ≤ 7) (h1 : 1 ≤ c) : (occur cls req page off aud s).respOf c = s.respOf c := by
  have addr : (F.TAM_RESP_LEVEL (c - 1)).addr = 0x2340 := addr_resp (by omega)
  exact fld_occur_of_apart hs hh hr (by rw [addr]; decide) (by rw [addr]; decide) (by rw [addr]; decide)
    (apart_cnt (by rw [addr]; decide) (resp_within _))

end

/-! ## THERMAL_SECOND_DECISION (R449, R450) -/

/-- The first decision is taken back. -/
def State.decidedAgain (s : State) : State := s.modTam fun x => { x with thermal1 := false }

/-- The second decision agrees: the occurrence. -/
def State.thermalSeen (s : State) : State := occur tcTHERMAL 15 0 0 0 s.decidedAgain

theorem exec_thermalSecondDecision (hc : s.cclk = true) (ht : s.tam.thermal1 = true) :
    exec (.thermalSecondDecision b) s = .next (if b ∨ s.thermalSeen.sys.phase ≠ s.sys.phase
      then s.thermalSeen
      else occur tcDOUBLE 15 0 0 0 s.thermalSeen) :=
  congrArg Host.Outcome.next (if_pos (by simp [hc, ht]))

/-- What the two decisions leave: THERMAL, and DOUBLE where they disagree. -/
theorem completes_thermalSecondDecision (hs : s.regsWf = true) (hc : s.cclk = true) (ht : s.tam.thermal1 = true)
    (hh : s.halted = false) (hr : s.respOf tcTHERMAL < 4) (hd : s.respOf tcDOUBLE < 4) :
    completes (.thermalSecondDecision b) s fun t => t.tam.thermal1 = false ∧ t.latched tcTHERMAL = true ∧
      t.fld (F.TAM_CNT_CNT (tcTHERMAL - 1)) = min (s.fld (F.TAM_CNT_CNT (tcTHERMAL - 1)) + 1) 255 ∧
      t.fld F.TAM_LAST_CLASS = (if b then tcTHERMAL else tcDOUBLE) ∧ (b = false → t.latched tcDOUBLE = true) := by
  have first : OccursAs tcTHERMAL s.decidedAgain s.thermalSeen :=
    occursAs_occur hs hh hr (by decide) (by decide)
  have off : s.thermalSeen.tam.thermal1 = false := thermal1_occur (s := s.decidedAgain) hh hr
  refine ⟨_, exec_thermalSecondDecision hc ht, ?_⟩
  cases b
  case true => exact ⟨off, first.latched, first.counted, first.last, fun h => absurd h (by decide)⟩
  case false =>
    have phase : s.thermalSeen.sys.phase = s.sys.phase := phase_occur (s := s.decidedAgain) hh hr
    rw [if_neg (by simp [phase])]
    have wf : s.thermalSeen.regsWf = true := regsWf_occur (s := s.decidedAgain) hs hh hr
    have runs : s.thermalSeen.halted = false := halted_occur (s := s.decidedAgain) hs hh hr
    have below : s.thermalSeen.respOf tcDOUBLE < 4 :=
      (respOf_occur (s := s.decidedAgain) hs hh hr (by decide) (by decide)).trans_lt hd
    have second := occursAs_occur (req := 15) (page := 0) (off := 0) (aud := 0) wf runs below (by decide) (by decide)
    exact ⟨(thermal1_occur runs below).trans off, latched_occur_of_latched wf runs below (by decide) (by decide) (by decide) first.latched,
      (fld_occur_of_apart wf runs below (tamperApart_cnt (by decide)) (by decide) (by decide) (apart_cnt_cnt (by decide))).trans first.counted,
      second.last, fun _ => second.latched⟩

/-! ## SUPPLY_GLITCH (R453) -/

/-- The detector: VSTORE above 5.9 V, or VCORE below 0.50 V. -/
def supplyFld (b : Bool) : Fld := if b then F.TAM_SUP_VSTORE_OV else F.TAM_SUP_VCORE_GL

theorem addr_supplyFld (b : Bool) : (supplyFld b).addr = 0x2378 := by cases b <;> rfl

theorem supplyFld_within (b : Bool) : (supplyFld b).lo + (supplyFld b).w ≤ 32 ∧ (supplyFld b).w = 1 := by cases b <;> decide

def State.supplyMarked (s : State) (b : Bool) : State :=
  s.modTam fun x => if b then { x with vstoreHigh := true } else { x with vcoreLow := true }

def State.supplySeen (s : State) (b : Bool) : State := (s.supplyMarked b).setFld (supplyFld b) 1

theorem exec_supplyGlitch (hu : s.sys.phase ≠ .unpowered) (hr : s.sys.phase ≠ .inReset) :
    exec (.supplyGlitch b) s = .next (occur tcSUPPLY 15 0 0 0 (s.supplySeen b)) := by
  have acts : execSupplyGlitch b s = .next (occur tcSUPPLY 15 0 0 0 (s.supplySeen b)) := by
    rw [execSupplyGlitch, if_neg hu]
    exact congrArg Host.Outcome.next (if_neg hr)
  exact acts

theorem exec_supplyGlitch_inReset (hr : s.sys.phase = .inReset) : exec (.supplyGlitch b) s = .next (s.supplyMarked b) := by
  have acts : execSupplyGlitch b s = .next (s.supplyMarked b) := by
    rw [execSupplyGlitch, if_neg (by simp [hr])]
    exact congrArg Host.Outcome.next (if_pos hr)
  exact acts

theorem completes_supplyGlitch (hs : s.regsWf = true) (hu : s.sys.phase ≠ .unpowered) (hi : s.sys.phase ≠ .inReset)
    (hh : s.halted = false) (hr : s.respOf tcSUPPLY < 4) : completes (.supplyGlitch b) s fun t => t.latched tcSUPPLY = true ∧
      t.fld F.TAM_LAST_CLASS = tcSUPPLY ∧ t.fld (supplyFld b) = 1 ∧
      t.fld (F.TAM_CNT_CNT (tcSUPPLY - 1)) = min (s.fld (F.TAM_CNT_CNT (tcSUPPLY - 1)) + 1) 255 := by
  have addr := addr_supplyFld b
  obtain ⟨inWord, one⟩ := supplyFld_within b
  have elsewhere {g : Fld} (h : g.addr ≠ 0x2378) : (s.supplySeen b).fld g = s.fld g := fld_setFld_ne (by rwa [addr])
  have shown : (s.supplySeen b).fld (supplyFld b) = 1 := by
    rw [State.supplySeen, fld_setFld (s := s.supplyMarked b) hs inWord, one]
    rfl
  have runs : (s.supplySeen b).halted = false := (halted_congr (t := s.supplySeen b) (s := s) rfl (elsewhere (by decide))).trans hh
  have below : (s.supplySeen b).respOf tcSUPPLY < 4 := by
    rwa [State.respOf, elsewhere (by decide)]
  have wf : (s.supplySeen b).regsWf = true := regsWf_setFld (s := s.supplyMarked b) hs
  have occurs := occursAs_occur (req := 15) (page := 0) (off := 0) (aud := 0) wf runs below (by decide) (by decide)
  refine ⟨_, exec_supplyGlitch hu hi, occurs.latched, occurs.last, ?detector, ?counted⟩
  case detector =>
    exact (fld_occur_of_apart wf runs below (by rw [addr]; decide) (by rw [addr]; decide) (by rw [addr]; decide)
      ⟨inWord, .inl (by rw [addr]; decide)⟩).trans shown
  case counted => rw [occurs.counted, elsewhere (by decide)]

/-! ## Probes and the TAP (R454) -/

theorem completes_probeWindowEnd (hs : s.regsWf = true) (hc : s.cclk = true) : completes .probeWindowEnd s fun t =>
    t.fld F.TAM_PCNT_CUR = 0 ∧ t.tam.probeRaised = false ∧ t.bit F.TAM_LATCH_COND (tcPROBE - 1) = false := by
  have emptied : (s.setFld F.TAM_PCNT_CUR 0).fld F.TAM_PCNT_CUR = 0 := fld_setFld hs (by decide)
  exact completes_when rfl hc fun _ => ⟨condEnd_ind (P := fun t => t.fld F.TAM_PCNT_CUR = 0) (closed_fld (by decide)) emptied,
    condEnd_ind (P := fun t => t.tam.probeRaised = false)
      (closed_of (p := .tam) (by decide) fun _ _ (he : _ = _) h => (congrArg Tam.probeRaised he).trans h) rfl,
    bit_clrBit (s := (s.setFld F.TAM_PCNT_CUR 0).modTam _) (regsWf_setFld hs) (by decide)⟩

/-- A denial within the threshold of its window is counted, and no more. -/
theorem probe_of_within (h : s.fld F.TAM_PCNT_CUR + 1 ≤ max 1 (s.fld F.TAM_PROBE_THR)) :
    s.probe req page off aud = s.addSat F.TAM_PCNT_CUR 1 := by
  have within : decide (max 1 (s.fld F.TAM_PROBE_THR) < s.fld F.TAM_PCNT_CUR + 1) = false :=
    decide_eq_false (Nat.not_lt.mpr h)
  rw [State.probe, within, Bool.and_false]
  rfl

theorem completes_tapInstruction (hs : s.regsWf = true) (hp : s.portServes = true) (hf : s.fielded = true)
    (h : s.fld F.TAM_PCNT_CUR + 1 ≤ max 1 (s.fld F.TAM_PROBE_THR)) : completes (.tapInstruction false) s fun t =>
      t.fld F.TAM_PCNT_CUR = s.fld F.TAM_PCNT_CUR + 1 ∧ changesOnly [.reg A.TAM_PCNT] s t := by
  refine completes_when rfl (by simp [hp, hf]) fun _ => ?_
  have threshold : s.fld F.TAM_PROBE_THR < 2 ^ 16 := fld_lt
  rw [probe_of_within h]
  refine ⟨(fld_addSat hs (by decide)).trans (min_eq_left ?_), addSat_ind (closed_changesOnly (by decide)) (changesOnly_refl s)⟩
  show s.fld F.TAM_PCNT_CUR + 1 ≤ 65535
  omega

/-! ## TEMP_SAMPLE (R450, R452) -/

theorem warn_keeps {o back : Bool} {sub : Nat} (hlog : ∀ (s : State) d, P s → P (s.logEntry 8 sub 0 0 d))
    (hirq : ∀ s : State, P s → P (s.raise 0x23 9)) (hf : ∀ (s : State) v, P s → P (s.setFld f v)) (hs : P s) :
    P (s.warn f sub o back tj) :=
  ite_ind (hirq _ (hlog _ _ (hf _ _ hs))) (ite_ind (hf _ _ hs) hs)

/-- A Logbook entry reaches the watchdog through its interrupts only. -/
theorem logEntry_safe {ty sub level data : Nat} (hR : RouteSafe P) (hP : Closed [.log, .stw, .reg 0x158, .reg 0x2458, .reg 0x2418] P)
    (hs : P s) : P (s.logEntry ty sub aud level data) := by
  have counted : P (s.addSat F.LOG_CNT_LOST 1) := addSat_ind (hP.mono (by decide)) hs
  exact ite_ind counted (ite_ind (raise_safe hR (hP.part (.reg 0x2418) (by decide)) (upd_log (hP.mono (by decide)) counted))
    (nvRequest_ind (hP.mono (by decide)) (upd_log (hP.mono (by decide)) hs)))

def State.tempShown (s : State) (tj : Int) : State :=
  ((s.modSys (fun y => { y with temp := tj })).setFld F.TAM_TEMP_TJ (code 16 tj)).modTam (fun t =>
    { t with t0 := t.t1, t1 := tj, nSamples := min 2 (t.nSamples + 1) })

def State.tempWarned (s : State) (tj : Int) : State :=
  let wl := tenths (s.fld F.TAM_TWARN_WLO)
  let wh := tenths (s.fld F.TAM_TWARN_WHI)
  (s.warn F.TAM_TEMP_WLO 1 (decide (tj < wl)) (decide (wl + 20 ≤ tj)) tj).warn F.TAM_TEMP_WHI 2 (decide (wh < tj))
    (decide (tj ≤ wh - 20)) tj

/-- Two samples in a row lie beyond one limit. -/
def State.tripped (s : State) (tj : Int) : Bool :=
  let lo := tenths (s.fld F.TAM_TLIM_LO)
  let hi := tenths (s.fld F.TAM_TLIM_HI)
  decide (s.tam.nSamples = 2) &&
    ((decide (s.tam.t0 < lo) && decide (tj < lo)) || (decide (hi < s.tam.t0) && decide (hi < tj)))

/-- The condition ends, goes on, or is decided for the first time. -/
def State.tempDecided (s : State) (tj : Int) : State :=
  if s.bit F.TAM_LATCH_COND (tcTHERMAL - 1) then
    (if tenths (s.fld F.TAM_TLIM_LO) + 50 ≤ tj ∧ tj ≤ tenths (s.fld F.TAM_TLIM_HI) - 50 then s.condEnd tcTHERMAL else s)
  else if s.tripped tj then s.modTam (fun t => { t with thermal1 := true })
  else s

theorem exec_tempSample : exec (.tempSample tj) s =
    .next (s.when s.cclk fun s => ((s.tempShown tj).tempWarned tj).tempDecided tj) := rfl

theorem tempWarned_tamper (hT : TamperSafe P) (hl : ∀ (s : State) v, P s → P (s.setFld F.TAM_TEMP_WLO v))
    (hh : ∀ (s : State) v, P s → P (s.setFld F.TAM_TEMP_WHI v)) (hs : P s) : P (s.tempWarned tj) :=
  have warned {s : State} {f : Fld} {sub : Nat} {o back : Bool} (hf : ∀ (s : State) v, P s → P (s.setFld f v)) (hs : P s) :
      P (s.warn f sub o back tj) := warn_keeps (fun _ _ h => logEntry_tamper hT h) (fun _ h => raise_tamper hT h) hf hs
  warned hh (warned hl hs)

theorem temp_tempWarned : (s.tempWarned tj).sys.temp = s.sys.temp := by
  have route : RouteSafe fun t => t.sys.temp = s.sys.temp := routeSafe_sys (Q := fun y => y.temp = s.sys.temp) fun _ h => h
  have log {t : State} {sub d : Nat} (h : t.sys.temp = s.sys.temp) : (t.logEntry 8 sub 0 0 d).sys.temp = s.sys.temp :=
    logEntry_safe route (closed_of (p := .sys) (by decide) fun _ _ (he : _ = _) h => (congrArg Sys.temp he).trans h) h
  have warned {t : State} {f : Fld} {sub : Nat} {o back : Bool} (h : t.sys.temp = s.sys.temp) :
      (t.warn f sub o back tj).sys.temp = s.sys.temp :=
    warn_keeps (P := fun t => t.sys.temp = s.sys.temp) (fun _ _ h => log h)
      (fun _ h => raise_safe route (fun _ _ h => h) h) (fun _ _ h => h) h
  exact warned (warned rfl)

/-- A field of the monitor's page apart from the warnings. -/
theorem fld_tempWarned (hs : s.regsWf = true) (ha : TamperApart g.addr) (hstop : ApartFrom F.TAM_LATCH_SEALSTOP g)
    (hzero : ApartFrom F.TAM_LATCH_ZEROIZED g) (hl : ApartFrom F.TAM_TEMP_WLO g) (hh : ApartFrom F.TAM_TEMP_WHI g) :
    (s.tempWarned tj).fld g = s.fld g :=
  (tempWarned_tamper (tamperSafe_reads ha hstop hzero) (fun _ _ h => h.setFld hl) (fun _ _ h => h.setFld hh) ⟨hs, rfl⟩).2

theorem tam_tempWarned {Q : Tam → Prop} (hQ : ∀ x e l, Q x → Q { x with entryAt := e, auds := l }) (hs : Q s.tam) :
    Q (s.tempWarned tj).tam :=
  tempWarned_tamper (tamperSafe_tam hQ) (fun _ _ h => h) (fun _ _ h => h) hs

theorem tempDecided_keeps (hcond : Closed [.reg 0x2344] P) (htam : ∀ s : State, P s → P (s.modTam fun t => { t with thermal1 := true }))
    (hs : P s) : P (s.tempDecided tj) :=
  ite_ind (ite_ind (condEnd_ind hcond hs) hs) (ite_ind (htam _ hs) hs)

theorem code_lt : code n tj < 2 ^ n := by
  have positive : (0 : Int) < 2 ^ n := by positivity
  have below : tj % 2 ^ n < 2 ^ n := Int.emod_lt_of_pos tj positive
  rw [code]
  exact_mod_cast (Int.toNat_lt (Int.emod_nonneg tj positive.ne')).mpr below

theorem completes_tempSample (hs : s.regsWf = true) (hc : s.cclk = true) : completes (.tempSample tj) s fun t =>
    t.fld F.TAM_TEMP_TJ = code 16 tj ∧ t.tam.t1 = tj ∧ t.sys.temp = tj ∧
    (s.bit F.TAM_LATCH_COND (tcTHERMAL - 1) = false → 1 ≤ s.tam.nSamples →
      (s.tam.t1 < tenths (s.fld F.TAM_TLIM_LO) ∧ tj < tenths (s.fld F.TAM_TLIM_LO)) ∨
      (tenths (s.fld F.TAM_TLIM_HI) < s.tam.t1 ∧ tenths (s.fld F.TAM_TLIM_HI) < tj) → t.tam.thermal1 = true) := by
  have wf : (s.tempShown tj).regsWf = true := regsWf_setFld (s := s.modSys _) hs
  have shown : (s.tempShown tj).fld F.TAM_TEMP_TJ = code 16 tj :=
    (fld_setFld (s := s.modSys _) hs (by decide)).trans (Nat.mod_eq_of_lt code_lt)
  have limit {g : Fld} (ha : TamperApart g.addr) (hstop : ApartFrom F.TAM_LATCH_SEALSTOP g) (hzero : ApartFrom F.TAM_LATCH_ZEROIZED g)
      (hn : g.addr ≠ 0x2364) : ((s.tempShown tj).tempWarned tj).fld g = s.fld g :=
    (fld_tempWarned wf ha hstop hzero ⟨hstop.1, .inl hn⟩ ⟨hstop.1, .inl hn⟩).trans (fld_setFld_ne (s := s.modSys _) hn)
  refine completes_when exec_tempSample hc fun _ => ⟨?shown, ?last, ?temp, fun hb hn htwo => ?trip⟩
  case shown =>
    exact tempDecided_keeps (P := fun t => t.fld F.TAM_TEMP_TJ = code 16 tj) (closed_fld (by decide)) (fun _ h => h)
      ((fld_tempWarned wf (by decide) (by decide) (by decide) (by decide) (by decide)).trans shown)
  case last =>
    exact tempDecided_keeps (P := fun t => t.tam.t1 = tj)
      (closed_of (p := .tam) (by decide) fun _ _ (he : _ = _) h => (congrArg Tam.t1 he).trans h) (fun _ h => h)
      (tam_tempWarned (Q := fun x => x.t1 = tj) (fun _ _ _ h => h) rfl)
  case temp =>
    exact tempDecided_keeps (P := fun t => t.sys.temp = tj)
      (closed_of (p := .sys) (by decide) fun _ _ (he : _ = _) h => (congrArg Sys.temp he).trans h) (fun _ h => h)
      temp_tempWarned
  case trip =>
    have samples := tam_tempWarned (s := s.tempShown tj) (tj := tj) (Q := fun x => x.t0 = s.tam.t1 ∧ x.nSamples = 2)
      (fun _ _ _ h => h) ⟨rfl, show min 2 (s.tam.nSamples + 1) = 2 by omega⟩
    have none_yet : ((s.tempShown tj).tempWarned tj).bit F.TAM_LATCH_COND (tcTHERMAL - 1) = false :=
      (congrArg (Nat.testBit · (tcTHERMAL - 1)) (limit (g := F.TAM_LATCH_COND) (by decide) (by decide) (by decide) (by decide))).trans hb
    have trips : ((s.tempShown tj).tempWarned tj).tripped tj = true := by
      rw [State.tripped, limit (by decide) (by decide) (by decide) (by decide), limit (by decide) (by decide) (by decide) (by decide),
        samples.1, samples.2]
      simpa using htwo
    rw [State.tempDecided, none_yet, trips]
    rfl

/-! ## TRNG (R448) -/

/-- FAIL is set, with the flag of the test that failed. -/
def State.trngMarked (s : State) (n : Nat) : State :=
  let t := ((s.setFld F.TAM_TRNG_FAIL 1).setFld F.ASY_CRIT_TRNG_FIX 1).addSat F.TAM_TRNG_FAILS 1
  if n = 1 then t.setFld F.TAM_TRNG_RCT 1 else if n = 2 then t.setFld F.TAM_TRNG_APT 1 else t

theorem trngFail_eq : s.trngFail n = ((s.trngMarked n).logEntry 7 n 0 0 0).raise 0x23 10 := rfl

theorem trngMarked_shows (hs : s.regsWf = true) : Reads F.TAM_TRNG_FAIL 1 (s.trngMarked n) ∧
    Reads F.TAM_TRNG_FAILS (min (s.fld F.TAM_TRNG_FAILS + 1) 65535) (s.trngMarked n) := by
  have failing : Reads F.TAM_TRNG_FAIL 1 (s.setFld F.TAM_TRNG_FAIL 1) := reads_setFld hs (by decide) (by decide)
  have fixed : Reads F.TAM_TRNG_FAIL 1 ((s.setFld F.TAM_TRNG_FAIL 1).setFld F.ASY_CRIT_TRNG_FIX 1) := failing.setFld (by decide)
  have before : ((s.setFld F.TAM_TRNG_FAIL 1).setFld F.ASY_CRIT_TRNG_FIX 1).fld F.TAM_TRNG_FAILS = s.fld F.TAM_TRNG_FAILS :=
    (fld_setFld_ne (by decide)).trans (fld_setFld_of_apart hs (by decide))
  have counted : Reads F.TAM_TRNG_FAILS (min (s.fld F.TAM_TRNG_FAILS + 1) 65535)
      (((s.setFld F.TAM_TRNG_FAIL 1).setFld F.ASY_CRIT_TRNG_FIX 1).addSat F.TAM_TRNG_FAILS 1) :=
    before ▸ reads_addSat fixed.1 (by decide)
  have kept : Reads F.TAM_TRNG_FAIL 1 (((s.setFld F.TAM_TRNG_FAIL 1).setFld F.ASY_CRIT_TRNG_FIX 1).addSat F.TAM_TRNG_FAILS 1) :=
    fixed.setFld (by decide)
  exact ⟨ite_ind (Q := Reads F.TAM_TRNG_FAIL 1) (kept.setFld (by decide)) (ite_ind (kept.setFld (by decide)) kept),
    ite_ind (Q := Reads F.TAM_TRNG_FAILS _) (counted.setFld (by decide)) (ite_ind (counted.setFld (by decide)) counted)⟩

theorem trngFail_tamper (hT : TamperSafe P) (h : P (s.trngMarked n)) : P (s.trngFail n) :=
  raise_tamper hT (logEntry_tamper hT h)

theorem trngFail_shows (hs : s.regsWf = true) : (s.trngFail n).on F.TAM_TRNG_FAIL = true ∧
    (s.trngFail n).fld F.TAM_TRNG_FAILS = min (s.fld F.TAM_TRNG_FAILS + 1) 65535 ∧ (s.trngFail n).bit (F.PIRQ 0x23) 10 = true := by
  obtain ⟨failing, counted⟩ := trngMarked_shows (n := n) hs
  have logged : ((s.trngMarked n).logEntry 7 n 0 0 0).regsWf = true := logEntry_ind (closed_regsWf.mono (by decide)) failing.1
  exact ⟨on_of_reads (trngFail_tamper (tamperSafe_reads (by decide) (by decide) (by decide)) failing),
    (trngFail_tamper (tamperSafe_reads (by decide) (by decide) (by decide)) counted).2, bit_raise logged (by decide)⟩

theorem completes_trngHealthFail (hs : s.regsWf = true) (hc : s.cclk = true) (h1 : 1 ≤ n) (h3 : n ≤ 3) :
    completes (.trngHealthFail n) s fun t => t.on F.TAM_TRNG_FAIL = true ∧
      t.fld F.TAM_TRNG_FAILS = min (s.fld F.TAM_TRNG_FAILS + 1) 65535 ∧ t.bit (F.PIRQ 0x23) 10 = true :=
  completes_when rfl (by simp [hc, h1, h3]) fun _ => trngFail_shows hs

/-- A retest that passes clears FAIL and the flags, and fixes no unit any more. -/
def State.trngCleared (s : State) : State :=
  (((s.setFld F.TAM_TRNG_FAIL 0).setFld F.TAM_TRNG_RCT 0).setFld F.TAM_TRNG_APT 0).setFld F.ASY_CRIT_TRNG_FIX 0

theorem exec_trngRetest (hc : s.cclk = true) (hf : s.on F.TAM_TRNG_FAIL = true) :
    exec (.trngRetest b) s = .next (if b then s.trngCleared else s.trngFail 3) :=
  congrArg Host.Outcome.next (if_pos (by simp [hc, hf]))

theorem trngCleared_shows (hs : s.regsWf = true) : Reads F.TAM_TRNG_FAIL 0 s.trngCleared ∧
    Reads F.TAM_TRNG_FAILS (s.fld F.TAM_TRNG_FAILS) s.trngCleared := by
  have off : Reads F.TAM_TRNG_FAIL 0 (s.setFld F.TAM_TRNG_FAIL 0) := reads_setFld hs (by decide) (by decide)
  have count : Reads F.TAM_TRNG_FAILS (s.fld F.TAM_TRNG_FAILS) s := ⟨hs, rfl⟩
  exact ⟨((off.setFld (by decide)).setFld (by decide)).setFld (by decide),
    (((count.setFld (by decide)).setFld (by decide)).setFld (by decide)).setFld (by decide)⟩

theorem completes_trngRetest (hs : s.regsWf = true) (hc : s.cclk = true) (hf : s.on F.TAM_TRNG_FAIL = true) :
    completes (.trngRetest b) s fun t => t.on F.TAM_TRNG_FAIL = !b ∧
      t.fld F.TAM_TRNG_FAILS = (if b then s.fld F.TAM_TRNG_FAILS else min (s.fld F.TAM_TRNG_FAILS + 1) 65535) := by
  refine ⟨_, exec_trngRetest hc hf, ?_⟩
  cases b
  case true =>
    obtain ⟨off, count⟩ := trngCleared_shows hs
    exact ⟨by rw [State.on, if_pos rfl, off.2]; rfl, count.2⟩
  case false =>
    obtain ⟨failing, counted, _⟩ := trngFail_shows (n := 3) hs
    exact ⟨failing, counted⟩

/-! ## SHADOW_MISMATCH (R447) -/

/-- The register is a shadowed one that belongs to no single unit, channel or descriptor. -/
structure PlainShadow (a k : Nat) : Prop where
  desc : a ≠ A.DSC_W 0
  owner : a % 256 ≠ 0x20
  shadowed : (shadowMask a).testBit k = true
  banked : a / 256 ∉ [0x06, 0x08, 0x0A, 0x0B]
  units : ¬ (0x1A ≤ a / 256 ∧ a / 256 < 0x20)
  urg : a ≠ A.PLN_URG
  rck : a ≠ A.RCK_CTRL

theorem exec_shadowMismatch (hc : s.cclk = true) (h : PlainShadow a k) :
    exec (.shadowMismatch a k) s = .next (s.shadow a (s.shadowAud a)) := by
  obtain ⟨hdesc, howner, hshadowed, hbanked, hunits, hurg, hrck⟩ := h
  simp only [List.mem_cons, List.not_mem_nil, or_false, not_or] at hbanked
  have acts : execShadowMismatch a k s = .next (s.shadow a (s.shadowAud a)) := by
    simp [execShadowMismatch, State.when, hc, hdesc, howner, hshadowed, hbanked, hunits, hurg, hrck, ← and_assoc]
  exact acts

theorem exec_shadowMismatch_desc (hc : s.cclk = true) (hn : n < 256) :
    exec (.shadowMismatch (A.DSC_W 0) n) s = .next (s.dscShadow n) := by
  have acts : execShadowMismatch (A.DSC_W 0) n s = .next (s.dscShadow n) := by
    simp [execShadowMismatch, State.when, hc, hn]
  exact acts

/-- The mismatch is recorded in the page's PSHD, and its interrupt raised. -/
def State.shadowSeen (s : State) (a : Nat) : State :=
  (((s.setFld (F.PSHD_MISM (a / 256)) 1).addSat (F.PSHD_COUNT (a / 256)) 1).setFld (F.PSHD_LAST_OFF (a / 256)) (a % 256)).raise
    (a / 256) 1

theorem shadow_eq : s.shadow a aud = occur tcSHADOW 15 (a / 256) (a % 256) aud (s.shadowSeen a) := rfl

theorem avoids_pshd : avoids (.reg (256 * p + 0x18) :: irqParts) (.reg (256 * p + 0x24)) = true := by
  have apart : 0x154 ≠ 256 * p + 0x24 ∧ 0x178 ≠ 256 * p + 0x24 ∧ 0x2048 ≠ 256 * p + 0x24 := by omega
  simp [avoids, irqParts, Part.covers, apart]

theorem tamperApart_pshd : TamperApart (256 * p + 0x24) := by
  have apart : 0x158 ≠ 256 * p + 0x24 ∧ 0x2458 ≠ 256 * p + 0x24 ∧ 0x154 ≠ 256 * p + 0x24 ∧ 0x178 ≠ 256 * p + 0x24 ∧
      0x2048 ≠ 256 * p + 0x24 := by omega
  exact ⟨by simp [avoids, respParts, irqParts, Part.covers, apart], by omega, fun h => by omega⟩

section
variable (hs : s.regsWf = true)
include hs

theorem shadowSeen_shows : Reads (F.PSHD_MISM (a / 256)) 1 (s.shadowSeen a) ∧
    Reads (F.PSHD_LAST_OFF (a / 256)) (a % 256) (s.shadowSeen a) ∧ Latched (a / 256) 1 (s.shadowSeen a) := by
  have mism : Reads (F.PSHD_MISM (a / 256)) 1 (s.setFld (F.PSHD_MISM (a / 256)) 1) :=
    reads_setFld hs (show 0 + 1 ≤ 32 by decide) (show 1 < 2 ^ 1 by decide)
  have counted : Reads (F.PSHD_MISM (a / 256)) 1 ((s.setFld (F.PSHD_MISM (a / 256)) 1).addSat (F.PSHD_COUNT (a / 256)) 1) :=
    mism.setFld ⟨show 0 + 1 ≤ 32 by decide, .inr (.inr (show 0 + 1 ≤ 8 by decide))⟩
  have last := reads_setFld (f := F.PSHD_LAST_OFF (a / 256)) (v := a % 256) counted.1 (show 16 + 8 ≤ 32 by decide)
    (show a % 256 < 2 ^ 8 by omega)
  have kept := counted.setFld (f := F.PSHD_LAST_OFF (a / 256)) (w := a % 256)
    ⟨show 0 + 1 ≤ 32 by decide, .inr (.inr (show 0 + 1 ≤ 16 by decide))⟩
  have seen : (s.shadowSeen a).regsWf = true :=
    (raise_ind (P := Reads (F.PSHD_MISM (a / 256)) 1) (closed_reads avoids_pshd (by simp [needsAll, runParts, Part.needs])) kept).1
  exact ⟨⟨seen, (fld_raise_of_avoids avoids_pshd).trans kept.2⟩, ⟨seen, (fld_raise_of_avoids avoids_pshd).trans last.2⟩,
    seen, bit_raise last.1 (by decide)⟩

omit hs in
/-- Registers behind the page headers stand. -/
theorem fld_shadowSeen (hg : 0x40 ≤ g.addr % 256) (ha : avoids irqParts (.reg g.addr) = true) :
    (s.shadowSeen a).fld g = s.fld g := by
  have header {t : State} {f : Fld} {v : Nat} (hf : f.addr = 256 * (a / 256) + 0x24) : (t.setFld f v).fld g = t.fld g :=
    fld_setFld_ne (by omega)
  have raised {t : State} : (t.raise (a / 256) 1).fld g = t.fld g := by
    have own : ¬ 256 * (a / 256) + 0x18 = g.addr := by omega
    refine fld_raise_of_avoids ?_
    simpa [avoids, Part.covers, own] using ha
  exact raised.trans ((header rfl).trans ((header rfl).trans (header rfl)))

omit hs in
theorem phase_shadowSeen : (s.shadowSeen a).sys.phase = s.sys.phase :=
  have route : RouteSafe fun t => t.sys.phase = s.sys.phase := routeSafe_sys (Q := fun y => y.phase = s.sys.phase) fun _ h => h
  raise_safe route (fun _ _ h => h) rfl

theorem completes_shadowMismatch (hc : s.cclk = true) (h : PlainShadow a k) (hh : s.halted = false)
    (hr : s.respOf tcSHADOW < 4) : completes (.shadowMismatch a k) s fun t =>
      t.fld (F.PSHD_MISM (a / 256)) = 1 ∧ t.fld (F.PSHD_LAST_OFF (a / 256)) = a % 256 ∧ t.bit (F.PIRQ (a / 256)) 1 = true ∧
      t.latched tcSHADOW = true := by
  obtain ⟨mism, off, irq⟩ := shadowSeen_shows (a := a) hs
  have runs : (s.shadowSeen a).halted = false :=
    (halted_congr (phase_shadowSeen) (fld_shadowSeen (by decide) (by decide))).trans hh
  have below : (s.shadowSeen a).respOf tcSHADOW < 4 := by
    rwa [State.respOf, fld_shadowSeen (by decide) (by decide)]
  have header {g : Fld} (ha : g.addr = 256 * (a / 256) + 0x24) (hg : g.lo + g.w ≤ 32) :
      (s.shadow a (s.shadowAud a)).fld g = (s.shadowSeen a).fld g :=
    fld_occur_of_apart mism.1 runs below (by rw [ha]; exact tamperApart_pshd) (by rw [ha]; show _ ≠ 0x2344; omega)
      (by rw [ha]; show _ ≠ 0x234c; omega) ⟨hg, .inl (by rw [ha, addr_cnt]; show _ ≠ 0x2350; omega)⟩
  refine ⟨_, exec_shadowMismatch hc h, (header rfl (show 0 + 1 ≤ 32 by decide)).trans mism.2,
    (header rfl (show 16 + 8 ≤ 32 by decide)).trans off.2, ?irq, latched_occur_self mism.1 runs below (by decide) (by decide)⟩
  case irq =>
    exact (occur_tamper tamperSafe_latched runs below (latched_irq_tamShown irq (by decide))).2

end

/-! ## LOGBOOK_SCAN (R466) -/

/-- The highest sequence among entries. -/
def highestSeq (l : List LogSlot) : Nat := l.foldl (fun m e => max m (fieldLE e.bytes 4 4)) 0

theorem highestSeq_lt {l : List LogSlot} : highestSeq l < 2 ^ 32 :=
  List.foldlRecOn l _ (motive := (· < 2 ^ 32)) (by decide) fun _ hm _ _ => max_lt hm fieldLE_lt

theorem logBad_nil : s.logBad [] = s := rfl

theorem logLost_nil : s.logLost [] = s := rfl

/-- The registers after a scan that finds the head at `n`, and no bad entry. -/
def State.headShown (s : State) (n : Nat) : State :=
  ((s.setFld F.LOG_STATUS_SCAN 0).setFld F.LOG_SEQ_SEQ n).addSat F.LOG_CNT_MACBAD 0

def State.scanned (s : State) (n : Nat) : State :=
  { s.headShown n with nv := { (s.headShown n).nv with logSeq := n }, log := { (s.headShown n).log with clean := true } }

theorem fld_scanned : (s.scanned n).fld g = (s.headShown n).fld g := by
  have regs : (s.scanned n).regs = (s.headShown n).regs := rfl
  rw [State.fld, State.fld, State.reg, State.reg, regs]

theorem headShown_shows (hs : s.regsWf = true) (hn : n < 2 ^ 32) :
    Reads F.LOG_STATUS_SCAN 0 (s.headShown n) ∧ Reads F.LOG_SEQ_SEQ n (s.headShown n) := by
  have width : F.LOG_SEQ_SEQ.w = 32 := rfl
  have ended : Reads F.LOG_STATUS_SCAN 0 (s.setFld F.LOG_STATUS_SCAN 0) := reads_setFld hs (by decide) (by decide)
  have head : Reads F.LOG_SEQ_SEQ n ((s.setFld F.LOG_STATUS_SCAN 0).setFld F.LOG_SEQ_SEQ n) :=
    reads_setFld ended.1 (by decide) (by rwa [width])
  exact ⟨(ended.setFld (by decide)).setFld (by decide), head.setFld (by decide)⟩

/-- The head of a Logbook whose entries are all good. -/
def State.logHead (s : State) : Nat := highestSeq ((s.nv.log.map (fun x => x.2)) ++ s.nv.fly)

theorem exec_logbookScan (hc : s.cclk = true) (ho : s.on F.LOG_STATUS_SCAN = true)
    (hl : ∀ e ∈ s.nv.log, e.2.good = true ∧ s.macGood e.2 = true) : exec .logbookScan s = .next (s.scanned s.logHead) := by
  have readable : s.nv.log.filter (fun x => x.2.good) = s.nv.log := List.filter_eq_self.mpr fun e he => (hl e he).1
  have lost : s.nv.log.filter (fun x => !x.2.good) = [] := List.filter_eq_nil_iff.mpr fun e he => by simp [(hl e he).1]
  have bad : s.nv.log.filter (fun x => !(s.macGood x.2)) = [] := List.filter_eq_nil_iff.mpr fun e he => by simp [(hl e he).2]
  have verified : (s.nv.log.map (fun x => x.2)).filter (fun e => s.macGood e) = s.nv.log.map (fun x => x.2) :=
    List.filter_eq_self.mpr fun e he => by
      obtain ⟨x, hx, rfl⟩ := List.mem_map.mp he
      exact (hl x hx).2
  have acts : execLogbookScan s = .next (s.scanned s.logHead) := by
    rw [execLogbookScan, State.when, if_pos (by simp [hc, ho])]
    simp only [readable, lost, bad, verified, logBad_nil, logLost_nil, ite_self]
    rfl
  exact acts

theorem completes_logbookScan (hs : s.regsWf = true) (hc : s.cclk = true) (ho : s.on F.LOG_STATUS_SCAN = true)
    (hl : ∀ e ∈ s.nv.log, e.2.good = true ∧ s.macGood e.2 = true) : completes .logbookScan s fun t =>
      t.on F.LOG_STATUS_SCAN = false ∧ t.nv.logSeq = s.logHead ∧ t.fld F.LOG_SEQ_SEQ = s.logHead ∧ t.log.clean = true := by
  obtain ⟨ended, head⟩ := headShown_shows (n := s.logHead) hs highestSeq_lt
  refine ⟨_, exec_logbookScan hc ho hl, ?_, rfl, fld_scanned.trans head.2, rfl⟩
  rw [State.on, fld_scanned, ended.2]
  rfl

/-! ## TST_DONE (R477) -/

def State.testEnded (s : State) (pass : Bool) (a : Nat) : State :=
  ((s.setFld F.TST_RES_DONE 1).putOn F.TST_RES_PASS pass).setFld F.TST_RES_FAIL_ADDR (if pass then 0 else a)

theorem testEnded_shows (hs : s.regsWf = true) : Reads F.TST_RES_DONE 1 (s.testEnded b a) ∧
    Reads F.TST_RES_PASS (if b then 1 else 0) (s.testEnded b a) ∧
    Reads F.TST_RES_FAIL_ADDR (if b then 0 else a % 2 ^ 24) (s.testEnded b a) := by
  have done : Reads F.TST_RES_DONE 1 (s.setFld F.TST_RES_DONE 1) := reads_setFld hs (by decide) (by decide)
  have pass : Reads F.TST_RES_PASS (if b then 1 else 0) ((s.setFld F.TST_RES_DONE 1).putOn F.TST_RES_PASS b) :=
    ⟨regsWf_putOn done.1, fld_putOn done.1 (by decide)⟩
  have addr : (s.testEnded b a).fld F.TST_RES_FAIL_ADDR = (if b then 0 else a) % 2 ^ 24 := fld_setFld pass.1 (by decide)
  exact ⟨(done.putOn (by decide)).setFld (by decide), pass.setFld (by decide), regsWf_setFld pass.1,
    addr.trans (by cases b <;> rfl)⟩

theorem completes_tstDone (hs : s.regsWf = true) (hc : s.cclk = true) (hb : s.blankOpen = true)
    (hm : s.on F.TST_MODE_MODE = true) (hd : s.on F.TST_RES_DONE = false) : completes (.tstDone b a) s fun t =>
      t.on F.TST_RES_DONE = true ∧ t.on F.TST_RES_PASS = b ∧ t.fld F.TST_RES_FAIL_ADDR = (if b then 0 else a % 2 ^ 24) ∧
      changesOnly [.reg A.TST_RES] s t := by
  obtain ⟨done, pass, addr⟩ := testEnded_shows (b := b) (a := a) hs
  have frame : Closed [.reg A.TST_RES] (changesOnly [.reg A.TST_RES] s) := closed_changesOnly (by decide)
  refine completes_when (f := fun s => s.testEnded b a) rfl (by simp [hc, hb, hm, hd]) fun _ => ⟨on_of_reads done, ?_, addr.2,
    setFld_ind frame (putOn_ind frame (setFld_ind frame (changesOnly_refl s)))⟩
  rw [State.on, pass.2]
  cases b <;> rfl

end

/-- Settles O48: each clause is the run of its event; an occurrence is shown first, and its response below HOLD takes nothing
back. That a retest which fails counts again, and the course of a failure, are the model's choices (log entries 121 and 123). -/
theorem tamperMonitorRuns : Obligations.TamperMonitorRuns := by
  unfold Obligations.TamperMonitorRuns
  refine ⟨fun s tj hs hc => completes_tempSample (mapsWf_regs hs) hc,
    fun s hc ht => congrArg Host.Outcome.next (if_pos (by simp [hc, ht])),
    fun s b hs hc ht hh hr hd => completes_thermalSecondDecision (mapsWf_regs hs) hc ht hh hr hd,
    fun s b hu hi => exec_supplyGlitch hu hi,
    fun s b hs hu hi hh hr => completes_supplyGlitch (mapsWf_regs hs) hu hi hh hr,
    fun s b hi => ⟨_, exec_supplyGlitch_inReset hi, ?detector, upd_tam (closed_changesOnly (by decide)) (changesOnly_refl s)⟩,
    fun s hs hc => completes_probeWindowEnd (mapsWf_regs hs) hc,
    fun s hs hp hf h => completes_tapInstruction (mapsWf_regs hs) hp hf h,
    fun s n hs hc h1 h3 => completes_trngHealthFail (mapsWf_regs hs) hc h1 h3,
    fun s b hs hc hf => completes_trngRetest (mapsWf_regs hs) hc hf,
    fun s a k hc h1 h2 h3 h4 h5 h6 h7 => exec_shadowMismatch hc ⟨h1, h2, h3, h4, h5, h6, h7⟩,
    fun s a k hs hc h1 h2 h3 h4 h5 h6 h7 hh hr =>
      completes_shadowMismatch (mapsWf_regs hs) hc ⟨h1, h2, h3, h4, h5, h6, h7⟩ hh hr,
    fun s d hc hd => exec_shadowMismatch_desc hc hd,
    fun s hs hc ho hl => completes_logbookScan (mapsWf_regs hs) hc ho hl,
    fun s b a hs hc hb hm hd => completes_tstDone (mapsWf_regs hs) hc hb hm hd⟩
  case detector => cases b <;> rfl

end Sys2Proof.Machine

/-! How the Steward decides a command before any row runs it (R393, R396, R397, R399). -/

namespace Sys2Proof.Machine

section
variable {s : State} {c : Cmd} {i : Instr} {op st : Nat} {past7 : Bool} {mine : Cmd → Bool}
  {body : Cmd → Ticket → State → State}

theorem command_of_refuse (ht : s.takes op c) (hm : mine c = true) (hr : s.check c = .refuse st past7) :
    s.command mine body = (s.decided c).refused c st past7 := by
  obtain ⟨clocked, idle, envelope, -⟩ := ht
  obtain ⟨e, he, rfl⟩ := Option.map_eq_some_iff.mp envelope
  simp [State.command, State.when, clocked, idle, he, hm, hr]

theorem command_of_reissue (ht : s.takes op c) (hm : mine c = true) (hr : s.check c = .reissue) :
    s.command mine body = (s.decided c).reissued c := by
  obtain ⟨clocked, idle, envelope, -⟩ := ht
  obtain ⟨e, he, rfl⟩ := Option.map_eq_some_iff.mp envelope
  simp [State.command, State.when, clocked, idle, he, hm, hr]

/-- A row leaves a command that is not its own in the envelope. -/
theorem command_of_other (ht : s.takes op c) (hm : mine c = false) : s.command mine body = s := by
  obtain ⟨clocked, idle, envelope, -⟩ := ht
  obtain ⟨e, he, rfl⟩ := Option.map_eq_some_iff.mp envelope
  simp [State.command, State.when, clocked, idle, he, hm]

/-- The row `i` of opcode `op` decides a command of its own by the checks, and leaves one of another row's alone. -/
def RowDecides (op : Nat) (i : Instr) : Prop :=
  ∀ (s : State) (c : Cmd),
    (s.takes op c → (∀ (st : Nat) (p7 : Bool), s.check c = .refuse st p7 → exec i s = .next ((s.decided c).refused c st p7)) ∧
      (s.check c = .reissue → exec i s = .next ((s.decided c).reissued c))) ∧
    (∀ other, other ≠ op → (opRule other).isSome = true → s.takes other c → exec i s = .next s)

/-- A row decides so when it takes up the commands of its opcode, and of no other that a row has. -/
theorem rowDecides_of_command (e : ∀ s, exec i s = .next (s.command mine body))
    (own : ∀ c : Cmd, c.opcode = op → mine c = true)
    (other : ∀ c : Cmd, c.opcode ≠ op → (opRule c.opcode).isSome = true → mine c = false) : RowDecides op i := by
  intro s c
  refine ⟨fun ht => ⟨fun st p7 hr => ?_, fun hr => ?_⟩, fun o ho hrow ht => ?_⟩
  · rw [e, command_of_refuse ht (own c (opcode_of_takes ht)) hr]
  · rw [e, command_of_reissue ht (own c (opcode_of_takes ht)) hr]
  · have opcode := opcode_of_takes ht
    rw [e, command_of_other ht (other c (opcode ▸ ho) (opcode ▸ hrow))]

theorem rowDecides_of_opIs (e : ∀ s, exec i s = .next (s.command (opIs op) body)) : RowDecides op i :=
  rowDecides_of_command e (fun _ h => beq_iff_eq.mpr h) fun _ h _ => beq_eq_false_iff_ne.mpr h

/-- WRITE also takes up the commands whose opcode is no row's. -/
theorem rowDecides_write : RowDecides 0x01 .write := by
  refine rowDecides_of_command (fun _ => rfl) (fun c h => ?_) fun c h row => ?_
  · rw [h]
    rfl
  · rw [beq_eq_false_iff_ne.mpr h, Option.isNone_eq_false_iff.mpr row]
    rfl

end

/-- Settles O18: a row runs a command through the checks, which refuse it, re-issue its response, or let its body run. That
the checks decide in one step (log entry 97), and that a row with another opcode leaves the state as it is (log entry 13), is
the model's choice. -/
theorem stewardDecidesBeforeItRuns : Obligations.StewardDecidesBeforeItRuns := by
  unfold Obligations.StewardDecidesBeforeItRuns
  refine List.forall_mem_cons.mpr ⟨rowDecides_write, ?_⟩
  simp only [List.forall_mem_cons, List.not_mem_nil, false_implies, implies_true, and_true]
  and_intros
  all_goals exact rowDecides_of_opIs fun _ => rfl

end Sys2Proof.Machine

/-! The commands that begin a key update, and the removal of a tenant (R381-R383, R388-R391). -/

namespace Sys2Proof.Machine

section
variable {s : State} {c : Cmd} {k : Ticket} {r b : Bool} {Q : Ten → Prop} {w : Ticket → NvJob} {j : NvJob}
  {key hash tk : List Byte} {a : KeySlot} {n gen : Nat}

/-! ## What NV writes leave of a tenant's record -/

theorem closed_tenHas_of_nv : Closed [.regs, .stw, .nv, .log, .hallmark] (TenHas n Q) := by
  have wf : Closed [.regs, .stw, .nv, .log, .hallmark] fun t => t.mapsWf = true := closed_mapsWf.mono (by decide)
  have record : Closed [.regs, .stw, .nv, .log, .hallmark] fun t => Q (t.ten n) :=
    closed_of (p := .tens) (by decide) fun s t (he : _ = _) h => by rwa [State.ten, he]
  exact closed_and wf record

theorem tenHas_deferShow (hs : TenHas n Q s) : TenHas n Q s.deferShow := deferShow_ind (closed_tenHas_of_nv.mono (by decide)) hs

theorem tenHas_nvRequest (hs : TenHas n Q s) : TenHas n Q (s.nvRequest j) :=
  nvRequest_ind (closed_tenHas_of_nv.mono (by decide)) hs

theorem mapsWf_pendAnswer (hs : s.mapsWf = true) : (s.pendAnswer k).1.mapsWf = true :=
  pendAnswer_ind (P := fun t : State => t.mapsWf = true) (closed_mapsWf.mono (by decide)) hs

/-- What no answer writes in a record stands when PENDING is answered. -/
theorem tenHas_pendAnswer (hQ : ∀ x i, Q x → Q { x with recCnt := i })
    (hA : ∀ x m i, Q x → Q { x with response := m, execRsp := m, last := i }) (hs : TenHas n Q s) :
    TenHas n Q (s.pendAnswer k).1 := by
  refine ite_with (Q := fun p : State × Ticket => TenHas n Q p.1) (fun _ => hs) fun _ => ?_
  refine answer_above (routeSafe_tenHas hQ) closedAbove_tenHas fun m => ?_
  by_cases e : n = k.tenant
  · exact e ▸ hs.modTen fun x => hA x m _
  · exact ⟨mapsWf_modTen hs.1, by rw [ten_modTen_ne e]; exact hs.2⟩

theorem tenHas_cmdWrite (hQ : ∀ x i, Q x → Q { x with recCnt := i })
    (hA : ∀ x m i, Q x → Q { x with response := m, execRsp := m, last := i }) (hs : TenHas n Q s) :
    TenHas n Q (s.cmdWrite k w) :=
  ite_ind (tenHas_nvRequest (tenHas_pendAnswer hQ hA hs)) (tenHas_nvRequest hs)

/-! ## The beginning of a key update (R388, R389) -/

/-- An update is under way to generation `gen` of slot `b`, with this key and hash, not yet written. -/
def Updating (gen : Nat) (key hash : List Byte) (b : Bool) (x : Ten) : Prop :=
  ∃ k behind asked deferred, x.update = some ⟨gen, key, hash, b, false, k, behind, asked, deferred⟩

theorem updating_keyStart (hs : s.mapsWf = true) (hg : gen ≤ 65535) (hw : (s.slot n b).writes < 20000) :
    TenHas n (Updating gen key hash b) (s.keyStart k n gen key hash b) := by
  have begins : ¬ (65535 < gen ∨ 20000 ≤ (s.slot n b).writes) := by omega
  unfold State.keyStart
  rw [if_neg begins]
  extract_lets answered asked numbered
  have wf : answered.1.mapsWf = true := by
    unfold answered
    split
    · exact mapsWf_pendAnswer hs
    · exact hs
  have counted : TenHas n (fun _ => True) numbered :=
    ⟨upd_stw (P := fun t : State => t.mapsWf = true) (closed_mapsWf.mono (by decide)) wf, trivial⟩
  exact tenHas_deferShow (counted.modTen fun x _ => ⟨_, _, _, _, rfl⟩)

theorem completes_keyEstablish (hs : s.mapsWf = true) (ht : s.takes 0x10 c) (hr : s.check c = .run r)
    (hg : (s.begun c r).activeGen c.tenant + 1 ≤ 65535)
    (hw : ((s.begun c r).slot c.tenant ((s.begun c r).otherSlot c.tenant)).writes < 20000) :
    completes .keyEstablish s fun t => (t.ten c.tenant).update.map (fun x => (x.gen, x.hash, x.slotB, x.written)) =
      some ((s.begun c r).activeGen c.tenant + 1, Config.sha256 c.payload, (s.begun c r).otherSlot c.tenant, false) := by
  refine completes_of_run rfl ht (opIs_of_takes ht) hr ?_
  obtain ⟨-, _, _, _, _, update⟩ := updating_keyStart (k := s.ticketOf c) (mapsWf_begun hs) hg hw
  exact congrArg (Option.map _) update

theorem completes_keyRotate (hs : s.mapsWf = true) (ht : s.takes 0x11 c) (hr : s.check c = .run r)
    (ha : (s.begun c r).activeSlot c.tenant = some a)
    (hk : Config.kwUnwrap ((s.begun c r).wrapKey c.tenant a.gen a.key) c.payload = some tk) (hg : a.gen + 1 ≤ 65535)
    (hw : ((s.begun c r).slot c.tenant ((s.begun c r).otherSlot c.tenant)).writes < 20000) :
    completes .keyRotate s fun t => (t.ten c.tenant).update.map (fun x => (x.gen, x.key, x.slotB, x.written)) =
      some (a.gen + 1, tk, (s.begun c r).otherSlot c.tenant, false) := by
  refine completes_of_run rfl ht (opIs_of_takes ht) hr ?_
  simp only [ha, hk]
  obtain ⟨-, _, _, _, _, update⟩ := updating_keyStart (k := s.ticketOf c) (key := tk) (hash := []) (mapsWf_begun hs) hg hw
  exact congrArg (Option.map _) update

/-! ## Tenants (R381-R383) -/

theorem nv_poolMark : s.poolMark.nv = s.nv :=
  poolMark_ind (P := fun t => t.nv = s.nv) (closed_of (p := .nv) (by decide) fun _ _ (he : _ = _) h => he.trans h) rfl

/-- The state in which TENANT_CREATE has set the quotas. -/
def State.quotaSet (s : State) (n w : Nat) : State :=
  (s.setReg (A.QUE_TQ n) (BitVec.ofNat 32 (normWord (A.QUE_TQ n) w))).poolMark

theorem mapsWf_quotaSet {w : Nat} (hs : s.mapsWf = true) : (s.quotaSet n w).mapsWf = true :=
  poolMark_ind (P := fun t : State => t.mapsWf = true) (closed_mapsWf.mono (by decide))
    (closed_mapsWf.part .regs (by decide) s _ _ hs)

theorem slot_quotaSet {w : Nat} : (s.quotaSet n w).slot n b = s.slot n b := by
  have nv : (s.quotaSet n w).nv = s.nv := nv_poolMark
  simp only [State.slot, State.tnv, nv]

theorem completes_tenantCreate (hs : s.mapsWf = true) (ht : s.takes 0x20 c) (hr : s.check c = .run r)
    (he : (s.begun c r).tenExists (c.byte 0) = false) (hq : (s.begun c r).badQuota (c.byte 0) (quotaWord c) = false)
    (h0 : fieldLE c.payload 2 2 ≠ 0) (hmin : fieldLE c.payload 2 2 < 4096) (hmax : fieldLE c.payload 4 2 < 4096)
    (hw : ((s.begun c r).slot (c.byte 0) false).writes < 20000) : completes .tenantCreate s fun t =>
      (t.ten (c.byte 0)).update.map (fun x => (x.gen, x.slotB, x.written)) = some (1, false, false) := by
  have good : ((s.begun c r).badQuota (c.byte 0) (quotaWord c) || fieldLE c.payload 2 2 == 0 ||
      decide (4096 ≤ fieldLE c.payload 2 2) || decide (4096 ≤ fieldLE c.payload 4 2)) = false := by
    simp [hq, h0, hmin, hmax]
  refine completes_of_run rfl ht (opIs_of_takes ht) hr ?_
  dsimp only
  rw [if_neg (by simp [he]), if_neg (by simp [good]), if_neg (Nat.not_le.mpr hw)]
  obtain ⟨-, _, _, _, _, update⟩ := updating_keyStart (s := (s.begun c r).quotaSet (c.byte 0) (quotaWord c))
    (k := { s.ticketOf c with concern := c.byte 0 }) (gen := 1)
    (key := (s.begun c r).keyFrom (c.byte 0) 1 (c.payload.drop 8))
    (hash := Config.sha256 (c.payload.drop 8))
    (mapsWf_quotaSet (mapsWf_begun hs)) (by decide) (slot_quotaSet ▸ hw)
  exact congrArg (Option.map _) update

theorem completes_tenantEnrol (hs : s.mapsWf = true) (ht : s.takes 0x21 c) (hr : s.check c = .run r)
    (he : (s.begun c r).tenExists (c.byte 0) = true)
    (hgen : gen = (match (s.begun c r).bestSlot (c.byte 0) with
      | none => 0 | some b => ((s.begun c r).slot (c.byte 0) b).gen) + 1)
    (hb : b = (match (s.begun c r).bestSlot (c.byte 0) with | none => false | some b => !b)) (hg : gen ≤ 65535)
    (hw : ((s.begun c r).slot (c.byte 0) b).writes < 20000) : completes .tenantEnrol s fun t =>
      (t.ten (c.byte 0)).update.map (fun x => (x.gen, x.slotB, x.written)) = some (gen, b, false) := by
  refine completes_of_body rfl ht (opIs_of_takes ht) hr (if_neg (by simp [he])) ?_
  subst hgen hb
  obtain ⟨-, _, _, _, _, update⟩ := updating_keyStart (k := { s.ticketOf c with concern := c.byte 0 })
    (key := (s.begun c r).keyFrom (c.byte 0) _ (c.payload.drop 8)) (hash := Config.sha256 (c.payload.drop 8))
    (mapsWf_begun hs) hg hw
  exact congrArg (Option.map _) update

/-- The tenant has no active key, no upload and no key update. -/
def Removed (x : Ten) : Prop := x.activeB = none ∧ x.upload = none ∧ x.update = none

/-- The state in which a tenant no longer exists, and its queues, resources and quota are returned. -/
def State.tenReturned (s : State) (n : Nat) : State :=
  let ended := ((s.clrBit F.SYS_DORM_EXIST n).clrBit F.SYS_DORM_DORMANT n).modTnv n fun x => { x with exist := false }
  let returned := (ended.dropTenant n).returnOwned n 0
  let unshared := (returned.setFld (F.QUE_TQ_MIN n) 0).setFld (F.QUE_TQ_MAX n) 0
  (unshared.setFld (F.QUE_TUSE_LOANED n) (unshared.fld (F.QUE_TUSE_USED n))).poolMark

theorem mapsWf_tenReturned (hs : s.mapsWf = true) : (s.tenReturned n).mapsWf = true := by
  unfold State.tenReturned
  extract_lets ended returned unshared
  have hended : ended.mapsWf = true :=
    modTnv_ind (P := fun t : State => t.mapsWf = true) (closed_mapsWf.mono (by decide))
      (clrBit_ind (P := fun t : State => t.mapsWf = true) (closed_mapsWf.mono (by decide))
        (clrBit_ind (P := fun t : State => t.mapsWf = true) (closed_mapsWf.mono (by decide)) hs))
  have hreturned : returned.mapsWf = true :=
    returnOwned_ind (P := fun t : State => t.mapsWf = true) (closed_mapsWf.mono (by decide))
      (dropTenant_ind (P := fun t : State => t.mapsWf = true) (closed_mapsWf.mono (by decide)) hended)
  exact poolMark_ind (P := fun t : State => t.mapsWf = true) (closed_mapsWf.mono (by decide))
    (mapsWf_setFld (mapsWf_setFld (mapsWf_setFld hreturned)))

theorem completes_tenantRemove (hs : s.mapsWf = true) (ht : s.takes 0x22 c) (hr : s.check c = .run r)
    (he : (s.begun c r).tenExists (c.byte 0) = true) : completes .tenantRemove s fun t =>
      (t.ten (c.byte 0)).activeB = none ∧ (t.ten (c.byte 0)).upload = none ∧ (t.ten (c.byte 0)).update = none ∧
      ∃ k, t.stw.nvq.getLast? = some (.erase k (c.byte 0)) := by
  refine completes_of_body rfl ht (opIs_of_takes ht) hr (if_neg (by simp [he])) ?_
  have returned : TenHas (c.byte 0) (fun _ => True) ((s.begun c r).tenReturned (c.byte 0)) :=
    ⟨mapsWf_tenReturned (mapsWf_begun hs), trivial⟩
  have removed : TenHas (c.byte 0) Removed (((s.begun c r).tenReturned (c.byte 0)).modTen (c.byte 0) fun x => { x with
      removing := ((s.begun c r).tenReturned (c.byte 0)).lockedLeft (c.byte 0), activeB := none, upload := none,
      update := none }) := returned.modTen fun _ _ => ⟨rfl, rfl, rfl⟩
  obtain ⟨-, active, upload, update⟩ := tenHas_cmdWrite (k := s.ticketOf c) (w := fun k => .erase k (c.byte 0))
    (fun _ _ h => h) (fun _ _ _ h => h) (tenHas_deferShow removed)
  exact ⟨active, upload, update, patch_cmdWrite.2⟩

end

/-- Settles O20: a key update that begins stands in the tenant's record, whose slot and generation no answer touches; a
removal clears the record and then asks for one erase job behind the writes that wait, which is the model's choice (log
entry 108). -/
theorem keyAndTenantCommandsRun : Obligations.KeyAndTenantCommandsRun := by
  unfold Obligations.KeyAndTenantCommandsRun
  exact ⟨fun _ _ _ => completes_keyEstablish, fun _ _ _ _ _ => completes_keyRotate, fun _ _ _ => completes_tenantCreate,
    fun _ _ _ _ _ => completes_tenantEnrol, fun _ _ _ => completes_tenantRemove⟩

end Sys2Proof.Machine

/-! The steps of a key update, the ends of the NV writes, and the Logbook's entries (R376, R388, R398, R406, R465). -/

namespace Sys2Proof.Machine

section
variable {P : State → Prop} {s : State} {k : Ticket} {u : KeyUpdate} {e : LogPend} {b : Bool} {l : List Part} {q : List NvJob}
  {Q : Ten → Prop} {R : TenNv → Prop} {bytes : List Byte} {cfg : Map Word} {n p v hw : Nat}

/-! ## A tenant's record in NV -/

theorem closed_tnv (h : avoids l .nv = true) : Closed l fun t => R (t.tnv n) :=
  closed_of h fun s t (he : _ = _) hs => by rwa [State.tnv, he]

theorem tnv_modTnv {f : TenNv → TenNv} (hf : f (s.tnv n) ≠ tenNv0) : (s.modTnv n f).tnv n = f (s.tnv n) := mapGet_mapSet_of_ne hf

theorem slot_modSlot {f : KeySlot → KeySlot} (hf : f (s.slot n b) ≠ slot0) : (s.modSlot n b f).slot n b = f (s.slot n b) := by
  cases b
  case false =>
    have changed : { s.tnv n with slotA := f (s.tnv n).slotA } ≠ tenNv0 := fun h => hf (congrArg TenNv.slotA h)
    exact congrArg TenNv.slotA (tnv_modTnv (f := fun x => { x with slotA := f x.slotA }) changed)
  case true =>
    have changed : { s.tnv n with slotB := f (s.tnv n).slotB } ≠ tenNv0 := fun h => hf (congrArg TenNv.slotB h)
    exact congrArg TenNv.slotB (tnv_modTnv (f := fun x => { x with slotB := f x.slotB }) changed)

theorem tens_nvErase : (s.nvErase p).nv.tens = s.nv.tens := by
  unfold State.nvErase
  extract_lets count erased
  have kept : Closed (.reg (256 * 0x26 + 0x18) :: irqParts) fun t => t.nv.tens = s.nv.tens :=
    closed_of (p := .nv) (by decide) fun _ _ (he : _ = _) h => he ▸ h
  exact ite_ind (Q := fun t : State => t.nv.tens = s.nv.tens) (raise_ind kept rfl) rfl

/-! ## What the answer DONE and the next write's start leave -/

theorem done_ind (hC : Closed [.tens, .reg 0x2278] P) (hs : P s) : P (s.answer k (.of stDONE)) := by
  have answered {t : State} {second : Bool} (ht : P t) : P (t.countAnswer stDONE second) :=
    ite_ind ht (addSat_ind (f := F.KEY_CNT_ACCEPTED) (hC.mono (by decide)) ht)
  exact answered (modTen_ind (hC.mono (by decide)) hs)

theorem tenHas_done (hA : ∀ x m i, Q x → Q { x with response := m, execRsp := m, last := i }) (hs : TenHas n Q s) :
    TenHas n Q (s.answer k (.of stDONE)) := by
  have counted {t : State} {second : Bool} (ht : TenHas n Q t) : TenHas n Q (t.countAnswer stDONE second) :=
    ite_ind ht (addSat_ind (f := F.KEY_CNT_ACCEPTED) (closed_tenHas (by decide)) ht)
  refine counted ?_
  by_cases e : n = k.tenant
  · exact e ▸ hs.modTen fun x => hA x _ _
  · exact ⟨mapsWf_modTen hs.1, by rw [ten_modTen_ne e]; exact hs.2⟩

theorem tenHas_nvStart (hs : TenHas n Q s) : TenHas n Q s.nvStart := nvStart_ind (closed_tenHas_of_nv.mono (by decide)) hs

theorem lastIs_done (hs : s.mapsWf = true) :
    TenHas k.tenant (fun x => x.last % 256 = 0) (s.answer k (.of stDONE)) :=
  ⟨done_ind (P := fun t : State => t.mapsWf = true) (closed_mapsWf.mono (by decide)) hs, lastStatus_done hs⟩

/-! ## Key updates (R388) -/

/-- The slot of a key update is erased and programmed. -/
def State.slotWritten (s : State) (n : Nat) (u : KeyUpdate) : State :=
  let taken := (s.modTen n fun x => { x with update := some { u with deferred := false } }).deferShow
  let erased := taken.nvErase (256 + 2 * n + (if u.slotB then 1 else 0))
  erased.modSlot n u.slotB fun x => ⟨u.gen, u.key, false, x.writes + 1⟩

theorem exec_keyUpdateWrite (hn : n < 8) (hc : s.cclk = true) (hi : s.stw.nvActive = false)
    (hk : s.keyWriting = false) (hu : (s.ten n).update = some u) (hw : s.keyWait n u.slotB = false)
    (hf : s.keyFirst u.asked = true) : exec (.keyUpdateWrite n true) s = .next ((s.slotWritten n u).modTen n fun x => { x with
      update := some { u with written := true, deferred := false } }) := by
  have runs : (decide (n < 8) && s.cclk && !s.stw.nvActive && !s.keyWriting) = true := by simp [hn, hc, hi, hk]
  show Host.Outcome.next (State.when s _ _) = _
  rw [State.when, if_pos runs]
  simp only [hu, hw, hf]
  rfl

theorem mapsWf_slotWritten (hs : s.mapsWf = true) : (s.slotWritten n u).mapsWf = true :=
  modTnv_ind (P := fun t : State => t.mapsWf = true) (closed_mapsWf.mono (by decide))
    (nvErase_ind (P := fun t : State => t.mapsWf = true) (closed_mapsWf.mono (by decide))
      (deferShow_ind (P := fun t : State => t.mapsWf = true) (closed_mapsWf.mono (by decide)) (mapsWf_modTen hs)))

theorem slot_slotWritten :
    (s.slotWritten n u).slot n u.slotB = ⟨u.gen, u.key, false, (s.slot n u.slotB).writes + 1⟩ := by
  unfold State.slotWritten
  extract_lets taken erased
  have tens : erased.nv.tens = s.nv.tens := tens_nvErase
  have slot : erased.slot n u.slotB = s.slot n u.slotB := by simp only [State.slot, State.tnv, tens]
  rw [← slot]
  exact slot_modSlot fun h => Nat.succ_ne_zero _ (congrArg KeySlot.writes h)

theorem completes_keyUpdateWrite (hs : s.mapsWf = true) (hn : n < 8) (hc : s.cclk = true) (hi : s.stw.nvActive = false)
    (hk : s.keyWriting = false) (hu : (s.ten n).update = some u) (hw : s.keyWait n u.slotB = false)
    (hf : s.keyFirst u.asked = true) : completes (.keyUpdateWrite n true) s fun t =>
      (t.ten n).update = some { u with written := true, deferred := false } ∧
      t.slot n u.slotB = ⟨u.gen, u.key, false, (s.slot n u.slotB).writes + 1⟩ :=
  ⟨_, exec_keyUpdateWrite hn hc hi hk hu hw hf, congrArg Ten.update (ten_modTen (mapsWf_slotWritten hs)), slot_slotWritten⟩

/-- The new generation is valid, with its hash, and not yet active. -/
def State.slotValid (s : State) (n : Nat) (u : KeyUpdate) : State :=
  let valid := (s.modTen n fun x => { x with update := none }).modSlot n u.slotB fun x => { x with valid := true }
  valid.modTnv n fun x => { x with hash := if u.hash.isEmpty then x.hash else u.hash }

/-- The new generation is active. -/
def State.slotActive (s : State) (n : Nat) (u : KeyUpdate) : State :=
  ((s.slotValid n u).modTen n fun x => { x with activeB := some u.slotB }).raise 0x22 9

theorem life_slotActive : (s.slotActive n u).life = s.life := by
  have kept {l : List Part} (h : avoids l (.reg F.SYS_LIFE_STATE.addr) = true) :
      Closed l fun t => t.fld F.SYS_LIFE_STATE = s.fld F.SYS_LIFE_STATE := closed_fld h
  exact raise_ind (kept (by decide)) (modTen_ind (kept (by decide)) (modTnv_ind (kept (by decide)) (modTnv_ind (kept (by decide))
    (modTen_ind (kept (by decide)) rfl))))

theorem exec_keyUpdateCommit (hn : n < 8) (hc : s.cclk = true) (hu : (s.ten n).update = some u) (hw : u.written = true)
    (ho : u.ticket.opcode ≠ 0x20) (hl : s.life ≠ 3) : exec (.keyUpdateCommit n true) s =
      .next ((s.slotActive n u).answer u.ticket (.of stDONE)).nvStart := by
  have runs : (decide (n < 8) && s.cclk) = true := by simp [hn, hc]
  have answers : ¬ ((s.slotActive n u).life = 3 ∧ u.ticket.opcode = 0x10) := fun h => hl (life_slotActive ▸ h.1)
  show Host.Outcome.next (State.when s _ _) = _
  rw [State.when, if_pos runs]
  simp only [hu, hw, Bool.not_true, Bool.false_eq_true, if_false, if_true, if_neg ho]
  exact congrArg _ (if_neg answers)

/-- A valid slot stays so when the tenant's hash is stored. -/
theorem valid_storeHash {f : TenNv → List Byte} (h : (s.slot n b).valid = true) :
    ((s.modTnv n fun x => { x with hash := f x }).slot n b).valid = true := by
  have holds : { s.tnv n with hash := f (s.tnv n) } ≠ tenNv0 := by
    intro zero
    have slotA : (s.tnv n).slotA = slot0 := congrArg TenNv.slotA zero
    have slotB : (s.tnv n).slotB = slot0 := congrArg TenNv.slotB zero
    cases b
    · exact nomatch (congrArg KeySlot.valid slotA).symm.trans h
    · exact nomatch (congrArg KeySlot.valid slotB).symm.trans h
  rwa [State.slot, tnv_modTnv (f := fun x => { x with hash := f x }) holds]

theorem valid_slotActive : ((s.slotActive n u).slot n u.slotB).valid = true := by
  have isValid (x : KeySlot) : { x with valid := true } ≠ slot0 := fun h => nomatch congrArg KeySlot.valid h
  have valid : ((s.slotValid n u).slot n u.slotB).valid = true :=
    valid_storeHash (congrArg KeySlot.valid (slot_modSlot (f := fun x => { x with valid := true }) (isValid _)))
  exact raise_ind (P := fun t => (t.slot n u.slotB).valid = true)
    (closed_tnv (R := fun x => (if u.slotB then x.slotB else x.slotA).valid = true) (by decide)) valid

theorem tenHas_slotValid (hs : s.mapsWf = true) : TenHas n (fun x => x.update = none) (s.slotValid n u) := by
  have ended : TenHas n (fun x => x.update = none) (s.modTen n fun x => { x with update := none }) :=
    TenHas.modTen (Q := fun _ => True) ⟨hs, trivial⟩ fun _ _ => rfl
  exact modTnv_ind (closed_tenHas_of_nv.mono (by decide)) (modTnv_ind (closed_tenHas_of_nv.mono (by decide)) ended)

theorem tenHas_slotActive (hs : s.mapsWf = true) :
    TenHas n (fun x => x.activeB = some u.slotB ∧ x.update = none) (s.slotActive n u) :=
  raise_safe_above (routeSafe_tenHas fun _ _ h => h) closedAbove_tenHas (by decide)
    ((tenHas_slotValid hs).modTen fun _ h => ⟨rfl, h⟩)

theorem completes_keyUpdateCommit (hs : s.mapsWf = true) (hn : n < 8) (hc : s.cclk = true)
    (hu : (s.ten n).update = some u) (hw : u.written = true) (ho : u.ticket.opcode ≠ 0x20) (hl : s.life ≠ 3) :
    completes (.keyUpdateCommit n true) s fun t =>
      (t.slot n u.slotB).valid = true ∧ (t.ten n).activeB = some u.slotB ∧ (t.ten n).update = none ∧
      t.bit (F.PIRQ 0x22) 9 = true ∧ t.lastStatus u.ticket.tenant = 0x00 := by
  refine ⟨_, exec_keyUpdateCommit hn hc hu hw ho hl, ?_⟩
  have begun := tenHas_slotActive (u := u) (n := n) hs
  obtain ⟨-, active, update⟩ := tenHas_nvStart (tenHas_done (k := u.ticket) (fun _ _ _ h => h) begun)
  obtain ⟨-, last⟩ := tenHas_nvStart (lastIs_done (k := u.ticket) begun.1)
  have kept {P : State → Prop} (hC : Closed [.tens, .reg 0x2278, .reg 0x158, .stw] P) (h : P (s.slotActive n u)) :
      P ((s.slotActive n u).answer u.ticket (.of stDONE)).nvStart :=
    nvStart_ind (hC.mono (by decide)) (done_ind (hC.mono (by decide)) h)
  have valid := kept (P := fun t => (t.slot n u.slotB).valid = true)
    (closed_tnv (R := fun x => (if u.slotB then x.slotB else x.slotA).valid = true) (by decide)) valid_slotActive
  have irq := kept (closed_bit (f := F.PIRQ 0x22) (k := 9) (by decide))
    (bit_raise (mapsWf_regs (mapsWf_modTen (tenHas_slotValid hs).1)) (by decide))
  exact ⟨valid, active, update, irq, last⟩

/-! ## The ends of the NV writes (R79, R376, R406) -/

/-- The first waiting NV write is taken from the queue, and its target is valid again. -/
def State.nvTaken (s : State) : State := { s with
  stw := { s.stw with nvq := s.stw.nvq.drop 1, nvActive := false, nvDef := s.stw.nvDef.drop 1 }
  nv := { s.nv with bad := s.nv.bad.filter fun p => p != s.nvPage } }

theorem nvEnd_eq : s.nvEnd = (s.nvTaken.modUpdates fun u => { u with behind := u.behind - 1 }).nvStart := rfl

theorem nv_nvEnd : s.nvEnd.nv = s.nvTaken.nv := by
  have kept {l : List Part} (h : avoids l .nv = true) : Closed l fun t => t.nv = s.nvTaken.nv :=
    closed_of h fun _ _ (he : _ = _) h => he.trans h
  rw [nvEnd_eq]
  exact nvStart_ind (P := fun t => t.nv = s.nvTaken.nv) (kept (by decide)) (modUpdates_ind (kept (by decide)) rfl)

theorem nvq_nvEnd : s.nvEnd.stw.nvq = s.stw.nvq.drop 1 := by
  have kept : Closed [.tens] fun t => t.stw = s.nvTaken.stw :=
    closed_of (p := .stw) (by decide) fun _ _ (he : _ = _) h => he.trans h
  have behind : (s.nvTaken.modUpdates fun u => { u with behind := u.behind - 1 }).stw = s.nvTaken.stw := modUpdates_ind kept rfl
  rw [nvEnd_eq]
  exact patch_nvStart.2.2.trans (congrArg Stw.nvq behind)

theorem mapsWf_nvEnd (hs : s.mapsWf = true) : s.nvEnd.mapsWf = true :=
  nvEnd_ind (P := fun t : State => t.mapsWf = true) (closed_mapsWf.mono (by decide)) hs

theorem completes_nvWriteComplete (hs : s.mapsWf = true) (hc : s.cclk = true) (ha : s.stw.nvActive = true)
    (hq : s.stw.nvq = .config k cfg :: q) : completes (.nvWriteComplete true) s fun t =>
      t.nv.config = some cfg ∧ t.nv.configGood = true ∧ t.stw.nvq = q ∧ t.lastStatus k.tenant = 0x00 := by
  refine completes_when rfl (by simp [hc, ha]) fun _ => ?_
  simp only [hq]
  have queue : s.nvEnd.stw.nvq = q := by rw [nvq_nvEnd, hq, List.drop_one, List.tail_cons]
  have kept {l : List Part} (h : avoids l .nv = true) : Closed l fun t => t.nv.config = some cfg ∧ t.nv.configGood = true :=
    closed_of h fun _ _ (he : _ = _) ht => he ▸ ht
  have stored : State.mapsWf (s.nvEnd.jobDone (.config k cfg) true) = true :=
    upd_nv (P := fun t : State => t.mapsWf = true) (closed_mapsWf.mono (by decide)) (mapsWf_nvEnd hs)
  have config := done_ind (k := k) (s := s.nvEnd.jobDone (.config k cfg) true) (kept (by decide)) ⟨rfl, rfl⟩
  exact ⟨config.1, config.2, (congrArg Stw.nvq stw_answer).trans queue, lastStatus_done stored⟩

theorem tnv_nvEnd : s.nvEnd.tnv n = s.tnv n := by
  rw [State.tnv, nv_nvEnd]
  rfl

/-- The chart in NV, and no upload of it left. -/
def State.chartStored (s : State) (n : Nat) (l : List Byte) : State :=
  let ended := s.nvEnd.modTen n fun x => { x with chartPend := false }
  let stored := ended.modTnv n fun x => { x with
    chart := some ⟨l, (match x.chart with | none => 0 | some c => c.store) + 1⟩ }
  (stored.modTen n fun x => { x with upload := none }).clrBit F.SYS_DORM_DORMANT n

theorem chart_chartStored : ((s.chartStored n bytes).tnv n).chart.map (fun x => x.bytes) = some bytes := by
  unfold State.chartStored
  extract_lets ended stored
  have chart : (stored.tnv n).chart.map (fun x => x.bytes) = some bytes := by
    unfold stored
    rw [tnv_modTnv fun h => Option.some_ne_none _ (congrArg TenNv.chart h)]
    rfl
  have kept {l : List Part} (h : avoids l .nv = true) : Closed l fun t => (t.tnv n).chart.map (fun x => x.bytes) = some bytes :=
    closed_tnv (R := fun x => x.chart.map (fun x => x.bytes) = some bytes) h
  exact clrBit_ind (kept (by decide)) (modTen_ind (kept (by decide)) chart)

theorem exec_chartCommitDone (hc : s.cclk = true) (ha : s.stw.nvActive = true) (hq : s.stw.nvq = .chartCommit k bytes :: q) :
    exec (.chartCommitDone k.tenant true) s =
      .next (((s.chartStored k.tenant bytes).answer k (.of stDONE)).tenReset k.tenant 9) := by
  have runs : (s.cclk && s.stw.nvActive) = true := by simp [hc, ha]
  show Host.Outcome.next (State.when s _ _) = _
  rw [State.when, if_pos runs]
  simp only [hq, ne_eq, not_true, if_false, if_true]
  rfl

theorem completes_chartCommitDone (hc : s.cclk = true) (ha : s.stw.nvActive = true)
    (hq : s.stw.nvq = .chartCommit k bytes :: q) : completes (.chartCommitDone k.tenant true) s fun t =>
      (t.tnv k.tenant).chart.map (fun x => x.bytes) = some bytes ∧ t.resetting k.tenant = true := by
  refine ⟨_, exec_chartCommitDone hc ha hq, ?_, resetting_tenReset⟩
  have kept {l : List Part} (h : avoids l .nv = true) :
      Closed l fun t => (t.tnv k.tenant).chart.map (fun x => x.bytes) = some bytes :=
    closed_tnv (R := fun x => x.chart.map (fun x => x.bytes) = some bytes) h
  exact tenReset_ind (kept (by decide)) (done_ind (kept (by decide)) chart_chartStored)

/-- The reserved high-water in NV, and the request for it met. -/
def State.seqCommitted (s : State) (n hw : Nat) : State :=
  let stored := s.modTnv n fun x => { x with seqHw := hw }
  { stored with hallmark := { stored.hallmark with
      rsvReq := stored.hallmark.rsvReq - (stored.hallmark.rsvReq &&& 2 ^ n) } }

theorem exec_seqReservationCommit (hc : s.cclk = true) (ha : s.stw.nvActive = true) (hq : s.stw.nvq = .seqReserve n hw :: q) :
    exec (.seqReservationCommit n) s = .next (s.seqCommitted n hw).nvEnd := by
  have runs : (s.cclk && s.stw.nvActive) = true := by simp [hc, ha]
  show Host.Outcome.next (State.when s _ _) = _
  rw [State.when, if_pos runs]
  simp only [hq, if_true]
  rfl

theorem completes_seqReservationCommit (hc : s.cclk = true) (ha : s.stw.nvActive = true)
    (hq : s.stw.nvq = .seqReserve n hw :: q) (h0 : 0 < hw) : completes (.seqReservationCommit n) s fun t =>
      (t.tnv n).seqHw = hw ∧ t.stw.nvq = q ∧ changesOnly [.reg A.SYS_DIP, .nv, .stw, .tens, .hallmark] s t := by
  refine ⟨_, exec_seqReservationCommit hc ha hq, ?_, ?_, ?_⟩
  · have reserved : ((s.modTnv n fun x => { x with seqHw := hw }).tnv n).seqHw = hw :=
      congrArg TenNv.seqHw (tnv_modTnv fun h => Nat.ne_of_gt h0 (congrArg TenNv.seqHw h))
    rwa [tnv_nvEnd]
  · rw [nvq_nvEnd]
    exact congrArg (List.drop 1) hq
  · have kept : Closed [.reg A.SYS_DIP, .nv, .stw, .tens, .hallmark]
        (changesOnly [.reg A.SYS_DIP, .nv, .stw, .tens, .hallmark] s) := closed_changesOnly (by decide)
    exact nvEnd_ind (kept.mono (by decide)) (upd_hallmark (s := s.modTnv n fun x => { x with seqHw := hw })
      (kept.mono (by decide)) (modTnv_ind (kept.mono (by decide)) (changesOnly_refl s)))

/-! ## Logbook entries (R465) -/

/-- The entry is in the Logbook as the one of sequence `n`. -/
def EntryStored (l : List LogPend) (q : List NvJob) (n : Nat) (s : State) : Prop :=
  s.log.pend = l ∧ s.stw.nvq = q ∧ s.nv.logSeq = n ∧ Reads F.LOG_SEQ_SEQ n s

theorem entryStored_logWrite (hs : s.mapsWf = true) :
    EntryStored s.log.pend s.stw.nvq ((s.nv.logSeq + 1) % 2 ^ 32) (s.logWrite e) := by
  have seqWidth : (s.nv.logSeq + 1) % 2 ^ 32 < 2 ^ F.LOG_SEQ_SEQ.w := Nat.mod_lt _ (by decide)
  unfold State.logWrite
  extract_lets -merge -underBinder seq bytes stored store log written
  have wf : stored.mapsWf = true :=
    logStore_ind (P := fun t : State => t.mapsWf = true) (closed_mapsWf.mono (by decide)) hs
  have pend : stored.log.pend = s.log.pend := logStore_ind (P := fun t => t.log.pend = s.log.pend)
    (closed_of (p := .log) (by decide) fun _ _ (he : _ = _) h => he ▸ h) rfl
  have queue : stored.stw.nvq = s.stw.nvq := logStore_ind (P := fun t => t.stw.nvq = s.stw.nvq)
    (closed_of (p := .stw) (by decide) fun _ _ (he : _ = _) h => he ▸ h) rfl
  have writtenWf : written.mapsWf = true := upd_log (s := { stored with nv := { stored.nv with logSeq := seq } })
    (P := fun t : State => t.mapsWf = true) (closed_mapsWf.mono (by decide))
    (upd_nv (P := fun t : State => t.mapsWf = true) (closed_mapsWf.mono (by decide)) wf)
  have kept {P : State → Prop} (hC : Closed [.reg F.LOG_CNT_WRITTEN.addr, .queues, .pendg, .reg 0x2048, .tens] P)
      (h : P (written.setFld F.LOG_SEQ_SEQ seq)) :
      P (((written.setFld F.LOG_SEQ_SEQ seq).addSat F.LOG_CNT_WRITTEN 1).logForward e.aud bytes) :=
    logForward_ind (hC.mono (by decide)) (addSat_ind (hC.mono (by decide)) h)
  refine ⟨?_, ?_, ?_, ?_⟩
  · exact kept (P := fun t => t.log.pend = s.log.pend) (closed_of (p := .log) (by decide) fun _ _ (he : _ = _) h => he ▸ h) pend
  · exact kept (P := fun t => t.stw.nvq = s.stw.nvq) (closed_of (p := .stw) (by decide) fun _ _ (he : _ = _) h => he ▸ h) queue
  · exact kept (P := fun t => t.nv.logSeq = seq) (closed_of (p := .nv) (by decide) fun _ _ (he : _ = _) h => he ▸ h) rfl
  · exact kept (closed_reads (by decide) (by decide)) (reads_setFld (mapsWf_regs writtenWf) (by decide) seqWidth)

/-- The oldest waiting entry is taken, and `rest` waits on. -/
def State.entryTaken (s : State) (rest : List LogPend) : State := { s with log := { s.log with pend := rest } }

theorem exec_logEntryWrite {rest : List LogPend} (hc : s.cclk = true) (ha : s.stw.nvActive = true)
    (hq : s.stw.nvq = .logEntry :: q) (hscan : s.on F.LOG_STATUS_SCAN = false) (hp : s.log.pend = e :: rest)
    (hd : s.on F.LOG_STATUS_DEAD = false) :
    exec (.logEntryWrite true) s = .next ((s.entryTaken rest).nvEnd.logWrite e) := by
  have runs : (s.cclk && s.stw.nvActive && decide (s.stw.nvq.head? = some .logEntry) && !(s.on F.LOG_STATUS_SCAN)) = true := by
    simp [hc, ha, hq, hscan]
  have alive : (s.entryTaken rest).nvEnd.on F.LOG_STATUS_DEAD = false := by
    have same : (s.entryTaken rest).nvEnd.fld F.LOG_STATUS_DEAD = s.fld F.LOG_STATUS_DEAD :=
      nvEnd_ind (P := fun t => t.fld F.LOG_STATUS_DEAD = s.fld F.LOG_STATUS_DEAD) (closed_fld (by decide)) rfl
    rw [State.on, same]
    exact hd
  show Host.Outcome.next (State.when s _ _) = _
  rw [State.when, if_pos runs]
  simp only [hp]
  rw [State.logPut, ← State.entryTaken, alive]
  rfl

theorem completes_logEntryWrite {rest : List LogPend} (hs : s.mapsWf = true) (hc : s.cclk = true) (ha : s.stw.nvActive = true)
    (hq : s.stw.nvq = .logEntry :: q) (hscan : s.on F.LOG_STATUS_SCAN = false) (hp : s.log.pend = e :: rest)
    (hd : s.on F.LOG_STATUS_DEAD = false) : completes (.logEntryWrite true) s fun t =>
      t.log.pend = rest ∧ t.stw.nvq = q ∧ t.nv.logSeq = (s.nv.logSeq + 1) % 2 ^ 32 ∧
      t.fld F.LOG_SEQ_SEQ = (s.nv.logSeq + 1) % 2 ^ 32 := by
  refine ⟨_, exec_logEntryWrite hc ha hq hscan hp hd, ?_⟩
  have wf : (s.entryTaken rest).mapsWf = true :=
    upd_log (P := fun t : State => t.mapsWf = true) (closed_mapsWf.mono (by decide)) hs
  have pend : (s.entryTaken rest).nvEnd.log.pend = rest :=
    nvEnd_ind (P := fun t => t.log.pend = rest) (closed_of (p := .log) (by decide) fun _ _ (he : _ = _) h => he ▸ h) rfl
  have queue : (s.entryTaken rest).nvEnd.stw.nvq = q :=
    nvq_nvEnd.trans (congrArg (List.drop 1) hq)
  have seq : (s.entryTaken rest).nvEnd.nv.logSeq = s.nv.logSeq :=
    (congrArg Nv.logSeq nv_nvEnd).trans rfl
  obtain ⟨hpend, hqueue, hseq, -, hfld⟩ := entryStored_logWrite (e := e) (mapsWf_nvEnd wf)
  exact ⟨hpend.trans pend, hqueue.trans queue, hseq.trans (by rw [seq]), hfld.trans (by rw [seq])⟩

end

/-- Settles O23: the record of a tenant, its slots in NV and the queue of writes are each followed through the step that
changes them; the answer and the next write's start change none of the three. -/
theorem keyUpdateStepsAndNvWrites : Obligations.KeyUpdateStepsAndNvWrites := by
  unfold Obligations.KeyUpdateStepsAndNvWrites
  exact ⟨fun _ _ _ => completes_keyUpdateWrite, fun _ _ _ => completes_keyUpdateCommit, fun _ _ _ _ => completes_nvWriteComplete,
    fun _ _ _ _ _ => completes_chartCommitDone, fun _ _ _ _ => completes_seqReservationCommit,
    fun _ _ _ _ => completes_logEntryWrite⟩

end Sys2Proof.Machine

/-! What the Stamp unit takes from a capture queue goes to the consumers of its stream (R250, R268, R494): the Sextant and
the page interrupts reach the lanes' intake queues alone. -/

namespace Sys2Proof.Machine

section
variable {P : State → Prop} {s s₀ : State} {a : Producer} {b : Body} {f : Fld} {l kept : List PendRec} {x : List Entry}
  {data payload : List Byte} {ps : List Nat} {i j k n p q t v ty page src ht grant stamp d : Nat}

/-! ## Beside the intake queues -/

/-- What a sample of the Sextant may change beside the intake queues of the lanes. -/
def sampleParts : List Part :=
  [.reg 0x154, .reg 0x178, .reg 0x2048, .sys, .rose, .tens, .reg 0x718, .reg 0x1818, .reg 0x760, .reg 0x764, .reg 0x778,
    .reg 0x77c, .reg 0x794, .reg 0x798, .reg 0x79c, .sxt, .descs]

/-- `P` survives what a sample of the Sextant may change, and what enters an intake queue. -/
structure BesideIntake (P : State → Prop) : Prop where
  parts : Closed sampleParts P
  pushed : ∀ s k e, 0x48 ≤ k → P s → P (s.push k e)
  pended : ∀ s k a l, 0x48 ≤ k → P s → P (s.setPend k a l)

theorem besideIntake_queue (hq : q < 0x48) : BesideIntake fun t => t.queue q = x where
  parts := closed_queue (by decide)
  pushed _ _ _ hk h := (queue_push_ne (by omega)).trans h
  pended _ _ _ _ _ h := h

section
variable (hP : BesideIntake P)
include hP

theorem drainGaps_beside (hk : 0x48 ≤ k) (hs : P s) : P (drainGaps k a l kept s) := by
  induction l generalizing kept s with
  | nil => exact hP.pended _ _ _ _ hk hs
  | cons r t ih =>
    unfold drainGaps
    split
    · exact ih hs
    · refine ite_ind (ih hs) (ite_ind (ih ?_) (hP.pended _ _ _ _ hk hs))
      exact addSat_ind (hP.parts.mono (by decide)) (hP.pushed _ _ _ hk hs)

theorem enqueue_beside (hk : 0x48 ≤ k) (hs : P s) : P (s.enqueue k a n b src ht) := by
  unfold State.enqueue
  extract_lets drained
  have hdrained : P drained := drainGaps_beside hP hk (hP.pended _ _ _ _ hk hs)
  exact ite_ind (hP.pushed _ _ _ hk hdrained) (hP.pended _ _ _ _ hk hdrained)

theorem record_beside (hs : P s) : P (s.record t i ty page ht payload) :=
  when_ind (fun _ h => enqueue_beside hP (by unfold qIntake; omega) (modTen_ind (hP.parts.mono (by decide)) h)) hs

theorem routeLine_beside (hs : P s) : P (s.routeLine p) := by
  unfold State.routeLine
  extract_lets woken presented
  have hwoken : P woken := ite_ind (wakeHost_ind (hP.parts.mono (by decide)) hs) hs
  have hpresented : P presented := by
    refine ite_ind ?_ hwoken
    split
    · exact hwoken
    · exact presentAt_ind (hP.parts.mono (by decide)) hwoken
  exact ite_ind (record_beside hP hpresented) hpresented

theorem raise_beside (hp : needsAll [.reg (F.PIRQ p).addr] sampleParts = true) (hs : P s) : P (s.raise p k) :=
  have latched : P (s.setBit (F.PIRQ p) k) := setBit_ind (hP.parts.mono hp) hs
  ite_ind (routeLine_beside hP latched) latched

/-! ## A sample of the Sextant (R287-R294) -/

theorem sxtLose_beside (hs : P s) : P (s.sxtLose n) := by
  unfold State.sxtLose
  extract_lets lost counted dropped
  have hlost : P lost := setFld_ind (hP.parts.mono (by decide)) (setFld_ind (hP.parts.mono (by decide)) hs)
  have hcounted : P counted := addSat_ind (hP.parts.mono (by decide)) (setFld_ind (hP.parts.mono (by decide))
    (setFld_ind (hP.parts.mono (by decide)) hlost))
  have hdropped : P dropped := modSxt_ind (hP.parts.mono (by decide)) hcounted
  have hrisen : P (s.risen [0x07] dropped) :=
    forEach_ind_mem (fun p hp _ h => ite_ind (raise_beside hP (by rw [List.mem_singleton.mp hp]; decide) h) h) hdropped
  refine ite_ind (sxtShow_ind (hP.parts.mono (by decide)) (presentAt_ind (hP.parts.mono (by decide)) ?_)) hs
  exact raise_beside hP (by decide) (raise_beside hP (by decide) hrisen)

theorem sxtGain_beside (hs : P s) : P s.sxtGain := by
  unfold State.sxtGain
  extract_lets first zeroed locked shown armed
  have hzeroed : P zeroed := ite_ind (modSxt_ind (hP.parts.mono (by decide)) hs) hs
  have hlocked : P locked := modSxt_ind (hP.parts.mono (by decide)) (setFld_ind (hP.parts.mono (by decide)) hzeroed)
  have hshown : P shown := sxtShow_ind (hP.parts.mono (by decide)) (addSat_ind (hP.parts.mono (by decide))
    (setFld_ind (hP.parts.mono (by decide)) hlocked))
  have harmed : P armed := forEach_ind (fun _ _ => modDesc_ind (hP.parts.mono (by decide))) hshown
  exact presentAt_ind (hP.parts.mono (by decide)) (raise_beside hP (by decide) harmed)

theorem lockCheck_beside (hs : P s) : P s.lockCheck :=
  have lost {n : Nat} : P (s.sxtLose n) := sxtLose_beside hP hs
  ite_ind (ite_ind lost (ite_ind lost (ite_ind lost hs))) (ite_ind (sxtGain_beside hP hs) hs)

/-- What follows a correction or a gyro sample: the history, the output angle and the lock. -/
theorem followed_beside (hs : P s) : P ((s.sxtShow.history).follow).lockCheck :=
  lockCheck_beside hP (follow_ind (hP.parts.mono (by decide)) (history_ind (hP.parts.mono (by decide))
    (sxtShow_ind (hP.parts.mono (by decide)) hs)))

theorem measure_beside {isIdx : Bool} {m : BitVec 32} (hs : P s) : P (s.measure isIdx m stamp) := by
  unfold State.measure
  extract_lets -merge -underBinder n last dt pred taken kept
  have htaken : P taken := ite_ind (modSxt_ind (hP.parts.mono (by decide)) hs)
    (ite_ind (setSpeed_ind (hP.parts.mono (by decide)) hs) (correct_ind (hP.parts.mono (by decide)) hs))
  exact sxtShow_ind (hP.parts.mono (by decide)) (followed_beside hP (modSxt_ind (hP.parts.mono (by decide)) htaken))

theorem gravitySample_beside (hs : P s) : P (s.gravitySample data stamp) := by
  unfold State.gravitySample
  extract_lets -merge -underBinder be x0 y0 x y dc moved u v amin m delay
  have hmoved : P moved := modSxt_ind (hP.parts.mono (by decide)) hs
  exact ite_ind (setFld_ind (hP.parts.mono (by decide)) hmoved)
    (idxMissing_ind (hP.parts.mono (by decide)) (measure_beside hP hmoved))

theorem gyroSample_beside (hs : P s) : P (s.gyroSample data stamp) := by
  unfold State.gyroSample
  extract_lets -merge -underBinder timed raw g turned
  have htimed : P timed := modSxt_ind (hP.parts.mono (by decide)) hs
  have hturned : P turned := modSxt_ind (hP.parts.mono (by decide)) htimed
  exact ite_ind (setFld_ind (hP.parts.mono (by decide)) htimed)
    (sxtShow_ind (hP.parts.mono (by decide)) (idxMissing_ind (hP.parts.mono (by decide)) (followed_beside hP hturned)))

theorem sextantSample_beside (hs : P s) : P (s.sextantSample d grant data stamp) := by
  unfold State.sextantSample
  extract_lets weighed
  have hweighed : P weighed := ite_ind (gravitySample_beside hP hs) hs
  exact ite_ind (ite_ind (gyroSample_beside hP hweighed) hweighed) hs

end

end
end Sys2Proof.Machine

/-! Edge stamps, calibration hits, beacons, the service of the capture queues and the EPOCH records (R266-R281, R494). -/

namespace Sys2Proof.Machine

section
variable {P : State → Prop} {s : State} {a : Producer} {e : Entry} {l : List Entry} {x : List Entry} {c : Capture} {g : Gap}
  {i : Item} {f : Bool} {dests : List (Nat × Bool)} {us : List Item} {ch miss tk cd k n p q v : Nat}

/-! ## Edge stamps (R266, R267) -/

theorem chan_stampChan (hs : s.mapsWf = true) {stamp : Nat} : ((s.stampChan ch stamp miss).chan ch).count =
      ((s.chan ch).count + 1 + miss) % 2 ^ 30 ∧ ((s.stampChan ch stamp miss).chan ch).newest =
      if (s.chan ch).newest = 0 then stamp else max stamp ((s.chan ch).newest + 1) := by
  rw [State.stampChan, State.chan, State.modChan, mapMod, mapGet_mapSet (mapsWf_stp hs)]
  exact ⟨rfl, rfl⟩

/-- The channel after an edge counted it and those missed, and its stamp is later than the one before. -/
def Stamped (ch n last first : Nat) (s : State) : Prop :=
  (s.chan ch).count = n ∧ (last ≠ 0 → last < (s.chan ch).newest) ∧ (last = 0 → (s.chan ch).newest = first)

theorem closed_stamped {l : List Part} {n last first : Nat} (h : avoids l .stp = true) : Closed l (Stamped ch n last first) :=
  closed_of h fun _ _ (he : _ = _) ht => by rwa [Stamped, State.chan, he]

theorem stamped_stampChan (hs : s.mapsWf = true) {stamp : Nat} :
    Stamped ch (((s.chan ch).count + 1 + miss) % 2 ^ 30) (s.chan ch).newest stamp (s.stampChan ch stamp miss) := by
  obtain ⟨count, newest⟩ := chan_stampChan (ch := ch) (miss := miss) (stamp := stamp) hs
  refine ⟨count, fun h => ?_, fun h => newest.trans (if_pos h)⟩
  rw [newest, if_neg h]
  omega

theorem completes_edgeStamp (hs : s.mapsWf = true) (hc : ch < 10) (ha : s.awake = true)
    (he : s.on (F.STP_CH_CFG_EN ch) = true) (hb : s.on (if ch < 9 then F.PWR_BANK_VSENSIO_OK else F.PWR_BANK_VIOH_OK) = true)
    (hd : s.fld (F.STP_CH_CFG_EDGE ch) = 2 ∨ s.fld (F.STP_CH_CFG_EDGE ch) = (if f then 1 else 0)) :
    completes (.edgeStamp ch f miss tk cd) s fun t => (t.chan ch).count = ((s.chan ch).count + 1 + miss) % 2 ^ 30 ∧
      ((s.chan ch).newest ≠ 0 → (s.chan ch).newest < (t.chan ch).newest) ∧
      ((s.chan ch).newest = 0 → (t.chan ch).newest = s.edgeTime ch tk cd) := by
  have good : (if ch < 9 then s.on F.PWR_BANK_VSENSIO_OK else s.on F.PWR_BANK_VIOH_OK) = true := by
    split at hb <;> simp_all
  have edge : (s.fld (F.STP_CH_CFG_EDGE ch) == 2 || (s.fld (F.STP_CH_CFG_EDGE ch) == 0 && !f) ||
      (s.fld (F.STP_CH_CFG_EDGE ch) == 1 && f)) = true := by
    rcases hd with h | h <;> cases f <;> simp [h]
  show ∃ t, execEdgeStamp ch f miss tk cd s = .next t ∧ _
  unfold execEdgeStamp
  extract_lets edges bank dir up pinned
  refine ⟨_, rfl, ?_⟩
  have runs : (decide (ch < 10) && s.awake && s.on (F.STP_CH_CFG_EN ch) && bank && dir) = true := by
    simp [hc, ha, he, bank, good, dir, edges, edge]
  rw [State.when, if_pos runs]
  have level : pinned = s.setPin ch up := if_pos (by simp [hc, ha, bank, good])
  rw [level]
  have pinnedWf : (s.setPin ch up).mapsWf = true := setPin_ind (closed_mapsWf.mono (by decide)) hs
  have stamped : Stamped ch (((s.chan ch).count + 1 + miss) % 2 ^ 30) (s.chan ch).newest (s.edgeTime ch tk cd)
      ((s.setPin ch up).stampChan ch (s.edgeTime ch tk cd) miss) := stamped_stampChan pinnedWf
  have kept {l : List Part} (h : avoids l .stp = true) : Closed l
    (Stamped ch (((s.chan ch).count + 1 + miss) % 2 ^ 30) (s.chan ch).newest (s.edgeTime ch tk cd)) := closed_stamped h
  have shown (lo hi : Nat) := setFld_ind (v := hi) (f := F.STP_CH_HI_T ch) (kept rfl) (setFld_ind (v := lo) (f := F.STP_CH_LO_T ch) (kept rfl)
    (ite_ind (c := 0 < miss) (raise_ind (p := 0x06) (b := 8) (kept (by decide)) stamped) stamped))
  exact edgeStream_ind (kept (by decide)) (presentEdge_ind (kept (by decide))
    (ite_ind (syncStamp_ind (kept (by decide)) (shown _ _)) (shown _ _)))

/-! ## Calibration hits and beacons (R270, R273) -/

theorem completes_icalHit (hs : s.mapsWf = true) (hk : k < 10) (hv : v < 40) (hc : s.cclk = true)
    (hy : s.on F.CLK_SYN_ON = true) (hl : lineHits (s.lineOf k) < s.icalN)
    (ho : ∃ j, j < 10 ∧ j ≠ k ∧ lineHits (s.lineOf j) < s.icalN) : completes (.icalHit k v) s fun t =>
      (t.lineOf k).hits = listSet (s.lineOf k).hits v ((s.lineOf k).hits.getD v 0 + 1) ∧ changesOnly [.lines] s t := by
  obtain ⟨j, hj, hjk, waits⟩ := ho
  refine completes_when rfl (by simp [hk, hv, hc, hy]) fun _ => ?_
  extract_lets line counted
  have hcounted : counted = s.setLine k { line with hits := listSet line.hits v (line.hits.getD v 0 + 1) } :=
    if_neg (Nat.not_le.mpr hl)
  have other : lineHits (counted.lineOf j) < counted.icalN := by
    have kept : counted.lineOf j = s.lineOf j := by
      rw [hcounted]
      exact mapGet_mapSet_ne hjk
    rw [kept, hcounted]
    exact waits
  have unfinished : ¬ ((List.range 10).all fun c => decide (counted.icalN ≤ lineHits (counted.lineOf c))) = true := fun h =>
    Nat.not_le.mpr other (of_decide_eq_true (List.all_eq_true.mp h j (List.mem_range.mpr hj)))
  rw [if_neg unfinished, hcounted]
  exact ⟨congrArg Line.hits (mapGet_mapSet (mapsWf_lines hs)),
    upd_lines (closed_changesOnly (by decide)) (changesOnly_refl s)⟩

theorem completes_beaconWindowEnd (hc : s.cclk = true) : completes (.beaconWindowEnd n) s fun t =>
    (∀ e ∈ t.rck.sync, e.seq = n % 65536 → e.paired = false → e.stamp + 2 ^ 32 ≤ s.ht → e.ended = true) ∧
    changesOnly [.rck] s t := by
  refine completes_when rfl hc fun _ => ⟨fun e he hseq hpair hht => ?_, upd_rck (closed_changesOnly (by decide)) (changesOnly_refl s)⟩
  obtain ⟨e₀, -, rfl⟩ := List.mem_map.mp he
  by_cases ends : (e₀.seq == n % 65536 && !e₀.paired && decide (e₀.stamp + 2 ^ 32 ≤ s.ht)) = true
  · rw [if_pos ends]
  · rw [if_neg ends] at hseq hpair hht
    exact absurd (by rw [hseq, hpair, decide_eq_true hht]; simp) ends

/-! ## The service of a capture queue (R494) -/

theorem firstWith_eq_find? {p : Nat → Bool} {l : List Nat} : firstWith p l = l.find? p := by
  induction l with
  | nil => rfl
  | cons n l ih => rw [firstWith, List.find?_cons, ih]; cases p n <;> rfl

/-- The queue of port `p` is served: no head is URGENT, or its own is the first that is. -/
def State.served (s : State) (p : Nat) : Bool := (firstWith (fun q => s.urgentHead q) (List.range 8)).all (· == p)

theorem served_of_first (h : ∀ k, k < 8 → s.urgentHead k = true → p ≤ k ∧ s.urgentHead p = true) : s.served p = true := by
  rw [State.served, firstWith_eq_find?]
  cases hu : (List.range 8).find? fun q => s.urgentHead q
  case none => rfl
  case some q =>
    obtain ⟨urgent, hq8, first⟩ := List.find?_range_eq_some.mp hu
    obtain ⟨le, own⟩ := h q (List.mem_range.mp hq8) urgent
    refine beq_iff_eq.mpr (Nat.le_antisymm (Nat.le_of_not_lt fun lt => ?_) le)
    exact absurd own (by simpa using first p lt)

/-- What the Stamp unit does with an entry taken from the capture queue of port `p`. -/
def State.takeEntry (s : State) (p : Nat) (e : Entry) : State :=
  match e.body with
  | .capture c =>
    match s.resetDiscards c with
    | some h => forEach ((s.captureConsumers c).filter (fun q => q.2)) (fun q s =>
        s.resetSkip q.1 .stamp (srcDesc c.desc) h) s
    | none => s.takeCapture c
  | .gaps l => forEach l (fun g s => s.takeGap p g) s
  | _ => s

theorem exec_stampService (hp : p < 8) (hr : s.running = true) (hu : s.served p = true) (hq : s.queue (qCap p) = e :: l) :
    exec (.stampService p) s = .next ((s.setQueue (qCap p) l).takeEntry p e) := by
  refine congrArg Host.Outcome.next ((if_pos ?_).trans ?_)
  · rw [State.served] at hu
    revert hu
    cases firstWith (fun q => s.urgentHead q) (List.range 8) <;> simp [hp, hr]
  · simp only [popQueue_of_queue hq]
    rfl

theorem takeEntry_of_capture {w : Nat} (h : s.resetDiscards c = none) : s.takeEntry p ⟨a, w, .capture c⟩ = s.takeCapture c := by
  simp only [State.takeEntry, h]

/-! ## Where an entry of a capture queue goes (R250, R365) -/

/-- The consumers of a stream are units, Resampler channels and lanes. -/
theorem le_of_mem_consumers {unit idx : Nat} {rsm route : Option Nat} {may : Nat → Bool} {d : Nat × Bool}
    (hd : d ∈ s.consumers unit rsm route idx may) : 0x28 ≤ d.1 := by
  rcases List.mem_append.mp hd with inputs | lane
  · rcases List.mem_append.mp inputs with unit | channel
    · obtain ⟨u, -, rfl⟩ := List.mem_map.mp unit
      exact Nat.le_add_right _ _
    · cases rsm
      case none => exact absurd channel List.not_mem_nil
      case some =>
        obtain ⟨c, -, rfl⟩ := List.mem_map.mp channel
        exact Nat.le_add_right_of_le (by decide)
  · cases route
    case none => exact absurd lane List.not_mem_nil
    case some =>
      obtain ⟨t, -, rfl⟩ := List.mem_map.mp lane
      simp only [qIntake]
      omega

theorem queue_forwardGap_ne (hk : q ≠ k) (h : s.queue q = x) : (s.forwardGap k a g).queue q = x := by
  unfold State.forwardGap
  extract_lets drained
  have hdrained : drained.queue q = x := queue_drainGaps_ne hk h
  exact ite_ind (Q := fun t : State => t.queue q = x) ((queue_push_ne hk).trans hdrained) hdrained

/-- The item of a capture entry (R268): stamped `t`, from a recorded edge or not. -/
def stampItem (c : Capture) (t : Nat) (edge hold : Bool) : Item :=
  ⟨0x01, (if c.fenced then 1 else 0) + (if edge then 2 else 0) + (if hold then 4 else 0), srcDesc c.desc, c.seq % 65536, t,
    bytesLE 4 c.seq ++ bytesLE 8 t ++ bytesLE 4 c.spacing ++ c.data⟩

/-- A capture entry is presented to the Sextant, and its item copied to the consumers. -/
def State.copied (s : State) (c : Capture) (t : Nat) (edge hold : Bool) : State :=
  (s.sextantSample c.desc c.grant c.data t).copyAll .stamp (stampItem c t edge hold) (s.captureConsumers c)

theorem takeCapture_of_failed (hf : c.failed = true) : s.takeCapture c = s := if_pos hf

theorem takeCapture_of_no_join (hf : c.failed = false) (hj : c.join = none) : s.takeCapture c = s.copied c c.ht false c.hold := by
  unfold State.takeCapture
  rw [if_neg (by simp [hf]), hj]
  rfl

theorem takeCapture_of_joined {j : Nat × Nat} {h : Nat × Bool} (hf : c.failed = false) (hj : c.join = some j)
    (hr : s.joined j = some h) : s.takeCapture c = s.copied c h.1 true h.2 := by
  unfold State.takeCapture
  rw [if_neg (by simp [hf]), hj]
  dsimp only
  rw [hr]
  rfl

theorem takeCapture_of_missed {j : Nat × Nat} (hf : c.failed = false) (hj : c.join = some j) (hr : s.joined j = none) :
    s.takeCapture c = (s.modChan j.1 fun x => { x with jmiss := min (x.jmiss + 1) 65535 }).copied c c.ht false c.hold := by
  unfold State.takeCapture
  rw [if_neg (by simp [hf]), hj]
  dsimp only
  rw [hr]
  rfl

section
variable (hq : q < 0x28)
include hq

theorem queue_takeGap_of_lt (h : s.queue q = x) : (s.takeGap p g).queue q = x := by
  have lane {t n : Nat} : q ≠ qIntake t n := by
    unfold qIntake
    omega
  have all {owner idx : Nat} {may : Nat → Bool} :
      (s.gapAll .stamp g owner (s.consumers 0 (some 0) (some 0) idx may)).queue q = x := by
    refine ite_ind (Q := fun t : State => t.queue q = x) (queue_forwardGap_ne lane h)
      (forEach_ind_mem (Q := fun t : State => t.queue q = x) (fun d hd _ ht => queue_forwardGap_ne ?_ ht) h)
    have consumer := le_of_mem_consumers (List.mem_of_mem_filter hd)
    omega
  exact ite_ind (Q := fun t : State => t.queue q = x) all (queue_forwardGap_ne lane h)

theorem queue_copied_of_lt {stamp : Nat} {edge hold : Bool} (h : s.queue q = x) : (s.copied c stamp edge hold).queue q = x := by
  refine queue_copyAll_ne (fun d hd => ?_) (sextantSample_beside (besideIntake_queue (by omega)) h)
  have consumer := le_of_mem_consumers hd
  omega

theorem queue_takeCapture_of_lt (h : s.queue q = x) : (s.takeCapture c).queue q = x := by
  cases hf : c.failed
  case true => rwa [takeCapture_of_failed hf]
  case false =>
    cases hj : c.join
    case none =>
      rw [takeCapture_of_no_join hf hj]
      exact queue_copied_of_lt hq h
    case some j =>
      cases hr : s.joined j
      case none =>
        rw [takeCapture_of_missed hf hj hr]
        exact queue_copied_of_lt hq h
      case some =>
        rw [takeCapture_of_joined hf hj hr]
        exact queue_copied_of_lt hq h

theorem queue_takeEntry_of_lt (h : s.queue q = x) : (s.takeEntry p e).queue q = x := by
  unfold State.takeEntry
  split
  next c _ =>
    split
    · exact forEach_ind (Q := fun t : State => t.queue q = x) (fun _ _ ht => ht) h
    · exact queue_takeCapture_of_lt hq h
  next => exact forEach_ind (Q := fun t : State => t.queue q = x) (fun _ _ ht => queue_takeGap_of_lt hq ht) h
  next => exact h

end

theorem completes_stampService (hs : s.mapsWf = true) (hp : p < 8) (hr : s.running = true)
    (hu : ∀ k, k < 8 → s.urgentHead k = true → p ≤ k ∧ s.urgentHead p = true) (hq : s.queue (qCap p) = e :: l) :
    completes (.stampService p) s fun t => t.queue (qCap p) = l :=
  ⟨_, exec_stampService hp hr (served_of_first hu) hq,
    queue_takeEntry_of_lt (by unfold qCap; omega) (queue_setQueue hs)⟩

/-! ## The item in an input queue (R250, R268) -/

/-- An input queue with these entries, no pending records, and the Stamp unit for its producer. -/
def FedByStamp (q : Nat) (x : List Entry) (t : State) : Prop :=
  t.mapsWf = true ∧ t.queue q = x ∧ t.pendOf q .stamp = [] ∧ t.feeder q = .stamp

theorem isInput_iff : isInput q = true ↔ 0x28 ≤ q ∧ q < 0x48 := by simp [isInput]

theorem pendKey_ne (hi : isInput q = true) (hk : 0x48 ≤ k) : pendKey q .stamp ≠ pendKey k a := by
  obtain ⟨lo, hi'⟩ := isInput_iff.mp hi
  have input : isInput k = false := by simp [isInput]; omega
  have code : prodCode a < 16 := by cases a <;> decide
  simp only [pendKey, hi, input, if_true, Bool.false_eq_true, if_false]
  omega

/-- The input selects stand beside what a sample of the Sextant changes. -/
theorem closed_feeder (hi : isInput q = true) : Closed sampleParts fun t => t.feeder q = a := by
  obtain ⟨lo, hi'⟩ := isInput_iff.mp hi
  have unit : avoids sampleParts (.reg (F.ASY_IN_SRC (q - 0x28)).addr) = true := by
    simp [avoids, sampleParts, Part.covers, F.ASY_IN_SRC]
    omega
  have channel : avoids sampleParts (.reg (F.RSM_CH_IN_SRC (q - 0x40)).addr) = true := by
    simp [avoids, sampleParts, Part.covers, F.RSM_CH_IN_SRC]
    omega
  unfold State.feeder
  split
  · exact closed_of unit fun s t (he : t.reg _ = s.reg _) h => by rwa [State.fld, he]
  · exact closed_of channel fun s t (he : t.reg _ = s.reg _) h => by rwa [State.fld, he]

theorem besideIntake_fedByStamp (hi : isInput q = true) : BesideIntake (FedByStamp q x) where
  parts := by
    have wf : Closed sampleParts fun t => t.mapsWf = true := closed_mapsWf.mono (by decide)
    have entries : Closed sampleParts fun t => t.queue q = x := closed_queue (by decide)
    have pending : Closed sampleParts fun t => t.pendOf q .stamp = [] :=
      closed_of (p := .pendg) (by decide) fun s t (he : _ = _) h => by rwa [State.pendOf, he]
    exact closed_and wf (closed_and entries (closed_and pending (closed_feeder hi)))
  pushed s k e hk := fun ⟨wf, entries, pending, feeder⟩ =>
    ⟨mapsWf_push wf, (queue_push_ne (by have := isInput_iff.mp hi; omega)).trans entries, pending, feeder⟩
  pended s k a l hk := fun ⟨wf, entries, pending, feeder⟩ =>
    ⟨mapsWf_setPend wf, entries, (mapGet_mapSet_ne (pendKey_ne hi hk)).trans pending, feeder⟩

/-- An item with credits is the last one of the queue. -/
theorem queue_copyAll_of_fed {i : Item} (h : FedByStamp q x s)
    (hc : copySlots q i + 1 ≤ s.credits q .stamp) :
    (s.copyAll .stamp i [(q, true)]).queue q = x ++ [⟨.stamp, copySlots q i, .item i⟩] := by
  obtain ⟨wf, entries, pending, feeder⟩ := h
  have let_go : (s.unrevoke q .stamp i.src).pendOf q .stamp = [] := by
    rw [State.unrevoke, pending]
    exact pendOf_setPend wf
  have wf' : (s.unrevoke q .stamp i.src).mapsWf = true := mapsWf_setPend wf
  have room : copySlots q i + 1 ≤ (s.unrevoke q .stamp i.src).credits q .stamp := hc
  show ((s.unrevoke q .stamp i.src).enqueue q .stamp (copySlots q i) (.item i) i.src i.ht).queue q = _
  rw [enqueue_of_credits wf' let_go room, queue_push (mapsWf_setPend (mapsWf_setPend wf'))]
  exact congrArg (· ++ _) entries

theorem credits_of_fed (hi : isInput q = true) (h : FedByStamp q x s) :
    s.credits q .stamp = queBase q .stamp - slotsIn x := by
  obtain ⟨-, entries, -, feeder⟩ := h
  rw [State.credits, if_pos hi, if_pos feeder, entries]
  rfl

theorem feeder_of_credits (hi : isInput q = true) (hc : n + 1 ≤ s.credits q a) : s.feeder q = a := by
  by_contra other
  rw [State.credits, if_pos hi, if_neg other] at hc
  omega

theorem completes_stampService_item {w : Nat} (hs : s.mapsWf = true) (hp : p < 8) (hr : s.running = true)
    (hu : ∀ k, k < 8 → s.urgentHead k = true → p ≤ k ∧ s.urgentHead p = true) (hq : s.queue (qCap p) = ⟨a, w, .capture c⟩ :: l)
    (hd : (s.setQueue (qCap p) l).resetDiscards c = none) (hf : c.failed = false) (hj : c.join = none)
    (hi : isInput q = true) (ht : s.captureConsumers c = [(q, true)]) (hn : s.pendOf q .stamp = [])
    (he : i = ⟨0x01, (if c.fenced then 1 else 0) + (if c.hold then 4 else 0), srcDesc c.desc, c.seq % 65536, c.ht,
      bytesLE 4 c.seq ++ bytesLE 8 c.ht ++ bytesLE 4 c.spacing ++ c.data⟩)
    (hc : copySlots q i + 1 ≤ s.credits q .stamp) : completes (.stampService p) s fun t =>
      t.queue q = s.queue q ++ [⟨.stamp, copySlots q i, .item i⟩] := by
  have item : stampItem c c.ht false c.hold = i := by
    rw [he, stampItem]
    simp
  have elsewhere : q ≠ qCap p := by
    have := isInput_iff.mp hi
    unfold qCap
    omega
  have fed : FedByStamp q (s.queue q) s := ⟨hs, rfl, hn, feeder_of_credits hi hc⟩
  have taken : FedByStamp q (s.queue q) (s.setQueue (qCap p) l) :=
    ⟨mapsWf_setQueue hs, queue_setQueue_ne elsewhere, hn, feeder_of_credits (s := s) hi hc⟩
  have sampled := sextantSample_beside (besideIntake_fedByStamp hi) taken (d := c.desc) (grant := c.grant) (data := c.data)
    (stamp := c.ht)
  refine ⟨_, (exec_stampService hp hr (served_of_first hu) hq).trans (congrArg Host.Outcome.next
    ((takeEntry_of_capture hd).trans (takeCapture_of_no_join hf hj))), ?_⟩
  have consumers : (s.setQueue (qCap p) l).captureConsumers c = [(q, true)] := ht
  rw [State.copied, consumers, item]
  refine queue_copyAll_of_fed sampled ?_
  rwa [credits_of_fed hi sampled, ← credits_of_fed hi fed]

/-! ## EPOCH records (R281) -/

/-- The state with another timekeeper. -/
def State.withRck (s : State) (r : Rck) : State := { s with rck := r }

/-- What is drained into a queue does not depend on the timekeeper. -/
theorem drainGaps_withRck {l kept : List PendRec} {r : Rck} :
    drainGaps q a l kept (s.withRck r) = (drainGaps q a l kept s).withRck r := by
  induction l generalizing kept s with
  | nil => rfl
  | cons d t ih =>
    unfold drainGaps
    cases d.gap
    case none => exact ih
    case some g =>
      have push : ((s.withRck r).push q ⟨a, gapSlots g, .gaps [g]⟩).addSat F.QUE_STAT_GAPS 1 =
          ((s.push q ⟨a, gapSlots g, .gaps [g]⟩).addSat F.QUE_STAT_GAPS 1).withRck r := rfl
      have room : (s.withRck r).credits q a = s.credits q a := rfl
      dsimp only
      rw [room, push, ih, ih]
      split_ifs <;> rfl

/-- The room of a queue does not depend on the unsent records. -/
theorem canPut_setUnsent {ht : Nat} : (s.setUnsent k us).canPut q a n ht = s.canPut q a n ht := by
  have drained : (s.setUnsent k us).drained q a ht = (s.drained q a ht).withRck (s.setUnsent k us).rck :=
    drainGaps_withRck (s := s.setPend q a (endReset ht (s.pendOf q a)))
  rw [canPut_eq, canPut_eq, drained]
  rfl

/-- The oldest unsent record is taken, and has its number from the tenant. -/
def State.epochTaken (s : State) (n : Nat) (us : List Item) : State :=
  (s.setUnsent n us).modTen n fun x => { x with recCnt := (x.recCnt + 1) % 65536 }

section
variable (hr : s.running = true) (hu : s.unsentOf n = i :: us)
include hr hu

theorem exec_epochRecordEnqueue_fits (hc : s.canPut (qIntake n 1) .record (itemSlots i) i.ht = true) :
    exec (.epochRecordEnqueue n) s =
      .next ((s.epochTaken n us).intake n 1 .record { i with seq := (s.ten n).recCnt }) := by
  refine congrArg Host.Outcome.next ((if_pos hr).trans ?_)
  simp only [hu, hc, if_true]
  rfl

theorem exec_epochRecordEnqueue_full (hc : s.canPut (qIntake n 1) .record (itemSlots i) i.ht = false) :
    exec (.epochRecordEnqueue n) s = .next (s.drain (qIntake n 1) .record) := by
  refine congrArg Host.Outcome.next ((if_pos hr).trans ?_)
  simp only [hu, hc, Bool.false_eq_true, if_false]

theorem completes_epochRecordEnqueue (hs : s.mapsWf = true) (hw : mapWf (fun _ => []) s.rck.unsent = true)
    (hc : s.canPut (qIntake n 1) .record (itemSlots i) i.ht = true) : completes (.epochRecordEnqueue n) s fun t =>
      t.unsentOf n = us ∧ (t.ten n).recCnt = ((s.ten n).recCnt + 1) % 65536 ∧
      ∃ q, t.queue (qIntake n 1) = q ++ [⟨.record, itemSlots i, .item { i with seq := (s.ten n).recCnt }⟩] := by
  refine ⟨_, exec_epochRecordEnqueue_fits hr hu hc, ?_, ?_, ?_⟩
  · exact intake_ind (P := fun t => t.unsentOf n = us)
      (closed_of (p := .rck) (by decide) fun s t (he : _ = _) h => by rwa [State.unsentOf, he]) (mapGet_mapSet hw)
  · have unsent : (s.setUnsent n us).mapsWf = true :=
      upd_rck (P := fun t : State => t.mapsWf = true) (closed_mapsWf.mono (by decide)) hs
    have counted : TenHas n (fun x => x.recCnt = ((s.ten n).recCnt + 1) % 65536) (s.epochTaken n us) :=
      ⟨mapsWf_modTen unsent, congrArg Ten.recCnt (ten_modTen unsent)⟩
    exact (intake_ind (closed_tenHas (by decide)) counted).2
  · have room : (s.epochTaken n us).canPut (qIntake n 1) .record (itemSlots i) i.ht = true :=
      canPut_modTen.trans (canPut_setUnsent.trans hc)
    have wf : (s.epochTaken n us).mapsWf = true :=
      mapsWf_modTen (upd_rck (P := fun t : State => t.mapsWf = true) (closed_mapsWf.mono (by decide)) hs)
    refine ⟨((s.epochTaken n us).drained (qIntake n 1) .record i.ht).queue (qIntake n 1), ?_⟩
    show ((s.epochTaken n us).enqueue (qIntake n 1) .record (itemSlots i) _ _ i.ht).queue _ = _
    rw [enqueue_of_canPut room]
    exact queue_push (mapsWf_drained wf)

end

end

/-- Settles O42: a channel's stamp stands through what an edge presents, a served entry goes into the one input queue that
selects it because what the Sextant raises enters intake queues alone, and an EPOCH record leaves its list as it enters L1. -/
theorem stampsAndBeacons : Obligations.StampsAndBeacons := by
  unfold Obligations.StampsAndBeacons
  refine ⟨fun _ _ _ _ _ _ => completes_edgeStamp, fun _ _ _ => completes_icalHit, fun _ _ => completes_beaconWindowEnd,
    fun s p n q c l hp hr hu hq hd => ?_, fun _ _ _ _ => completes_stampService,
    fun _ _ _ _ _ _ _ _ => completes_stampService_item, fun _ _ _ _ => exec_epochRecordEnqueue_fits,
    fun _ _ _ _ hs hw hr hu => completes_epochRecordEnqueue hr hu hs hw, fun _ _ _ _ => exec_epochRecordEnqueue_full⟩
  have served : s.served p = true := by rw [State.served, hu]; rfl
  exact (exec_stampService hp hr served hq).trans (congrArg Host.Outcome.next (takeEntry_of_capture hd))

end Sys2Proof.Machine

/-! The floor of the SPI target (R55, R433): a list of timing floors that is not canonical outlasts the transaction. -/

namespace Sys2Proof.Machine

/-- The hub runs with an SPI transaction open, HCS_N low, and the floor of the SPI target listed twice. Its keyed maps are
canonical: `mapsWf` does not ask this of the timing floors, which stand in the clock's part of the state. -/
def doubledFloor : State := { State.reset with
  sys := { State.reset.sys with phase := .running, pstate := .run, csLow := true }
  clk := { State.reset.clk with floors := [(8, 1), (8, 1)] }
  tx := [(1, some (txBegun .host 0 0))] }

/-- The rise of HCS_N takes one of the two entries, and the other holds the floor. -/
theorem hspFloor_of_doubledFloor {t : State} (h : exec (.spiCsRise false) doubledFloor = .next t) : t.hspFloor = true := by
  have kept : (match exec (.spiCsRise false) doubledFloor with | .next t => t.hspFloor | _ => false) = true := by decide
  rwa [h] at kept

/-- Refutes O53: SPI_CS_RISE inside a byte is said to end the floor in every state with canonical maps, and it does not
where the timing floors, of which `mapsWf` says nothing, list that of the SPI target twice. The clauses that rest on log
entries 115 and 117 (the count of an unserved transaction and of an overrun) play no part in this. -/
theorem not_theSpiTarget : ¬ Obligations.TheSpiTarget := by
  unfold Obligations.TheSpiTarget
  intro ⟨_, _, _, _, _, _, _, abort, _⟩
  obtain ⟨t, run, -, -, ended, -⟩ := abort doubledFloor (txBegun .host 0 0) (by decide) (by decide) rfl
  exact Bool.false_ne_true (ended.symm.trans (hspFloor_of_doubledFloor run))

end Sys2Proof.Machine
